-- ==== Sys2Proof/Word.lean ====
section
/-! DEFINITION. The plainest types: bytes, words and the finite tables in which the State holds sparse data. -/

namespace Sys2Proof

/-- The smallest addressable unit. -/
abbrev Byte := BitVec 8

/-- A 64-bit word: a register, an address, a counter word. -/
abbrev Word := BitVec 64

/-- A sparse table: keys strictly rising, at most one value for each key. A key that is not listed holds the
default that the reader of the table names. -/
abbrev Tab (α : Type) := List (Nat × α)

end Sys2Proof
end

