-- ==== Sys2Proof/Syntax.lean ====
section
/-! DEFINITION. The commands of the block: one constructor of `Instr` for each row of the operation table, with the
row's operands, and the wire types that the operands are made of. -/

namespace Sys2Proof

/-- Master ID of a host function, 0x000 to 0x3FF (R20, R462). -/
abbrev Fn := BitVec 10

/-- A 12-bit master ID (R20). -/
abbrev Master := BitVec 12

/-- A 24-bit queue pair number (R108). -/
abbrev Qpn := BitVec 24

/-- A 17-bit endpoint: 15-bit chip ID and 2-bit host port (R18, R271). -/
abbrev Ep := BitVec 17

/-- A fabric port, 0 to 127 (R13). -/
abbrev Port := BitVec 7

/-- A Taper logical core, 0 to 127 (R20). -/
abbrev CoreId := BitVec 7

/-- What a read of host memory returned: its bytes, or a PCIe error of any kind (Unsupported Request, Completer Abort,
poisoned data or a completion timeout; R48, R89, R522). -/
inductive ReadResult where
  | data (bytes : List Byte)
  | pcieError
  deriving DecidableEq, Repr

/-- A packet: the header fields of R131 and the payload. The two reserved header fields are zero on the wire and have no
place here. -/
structure Packet where
  addr : BitVec 64
  opx : BitVec 64
  key : BitVec 32
  msgLen : BitVec 32
  psn : BitVec 32
  msn : BitVec 16
  last : Bool
  immV : Bool
  notify : Bool
  retx : Bool
  ect : Bool
  op : BitVec 8
  sentT : BitVec 32
  imm : BitVec 32
  srcQpn : BitVec 24
  dstIncarn : BitVec 16
  dstQpn : BitVec 24
  payLen : BitVec 13
  cls : BitVec 3
  dstEp : BitVec 17
  srcEp : BitVec 17
  viaGroup : BitVec 7
  nonmin : Bool
  phase : BitVec 2
  sublevel : Bool
  ce : Bool
  hops : BitVec 6
  srcIncarn : BitVec 16
  crc : BitVec 32
  payload : List Byte
  deriving DecidableEq, Repr

/-- The packet with every field zero. -/
def Packet.zero : Packet :=
  { addr := 0, opx := 0, key := 0, msgLen := 0, psn := 0, msn := 0, last := false, immV := false, notify := false,
    retx := false, ect := false, op := 0, sentT := 0, imm := 0, srcQpn := 0, dstIncarn := 0, dstQpn := 0, payLen := 0,
    cls := 0, dstEp := 0, srcEp := 0, viaGroup := 0, nonmin := false, phase := 0, sublevel := false, ce := false,
    hops := 0, srcIncarn := 0, crc := 0, payload := [] }

/-- The kinds of staging queue (R163). -/
inductive StgKind where
  | htx | txi | rxd | rxp | lrx | ltx
  deriving DecidableEq, Repr

/-- The running number of a collective instance. -/
abbrev InstId := BitVec 32

/-- A w register of a Taper core (R234). -/
abbrev WReg := BitVec 4

/-- A v register of a Taper core (R234). -/
abbrev VReg := BitVec 2

/-- An input of the switch core: fabric port 0 to 127 or attachment 128 to 183 (R13); 184 is the device's own COL, CND and MGT. -/
abbrev Input := BitVec 8

/-- A data frame as it arrives on a fabric port (R309, R311): its link header, the packet, LCRC, and whether it overlaps an
uncorrectable FEC codeword. -/
structure DataFrame where
  lhdr : BitVec 64
  pkt : Packet
  lcrc : BitVec 32
  fecBad : Bool
  deriving DecidableEq, Repr

/-- A unit that a checker, a fence, a restore or a self test names (R387, R393): a core site, an RDU site, a port, a bank
group, a tile, the memory of a Taper cluster, or a RESTART unit by its fault source. -/
inductive SUnit where
  | core (site : BitVec 8)
  | rdu (site : BitVec 6)
  | port (p : Port)
  | bank (g : BitVec 8)
  | tile (t : BitVec 4)
  | cluster (c : BitVec 4)
  | restart (src : BitVec 8)
  deriving DecidableEq, Repr

/-- A host-memory read in flight, by the command that its return is (R465). -/
inductive HostReq where
  | entryFetch (f : Fn) (r : BitVec 12)
  | paramBlock (f : Fn)
  | descriptor (f : Fn) (index : BitVec 24)
  | walk (serial : BitVec 32)
  | flush (link : BitVec 3)
  | context (q : Qpn)
  | hostData (q : Qpn) (psn : BitVec 32) (resp : Bool)
  | fragments (f : Fn) (r : BitVec 12)
  | image (f : Fn)
  | atomicWord (f : Fn) (addr : BitVec 64)
  | hxfer (id : BitVec 32)
  | reduce (i : InstId) (op : BitVec 32)
  | copy (q : Qpn) (psn0 : BitVec 32)
  deriving DecidableEq, Repr

/-- What a write request carries: data, or poisoned data (R471). -/
inductive WriteData where
  | data (v : BitVec 64)
  | poisoned
  deriving DecidableEq, Repr

/-- What a configuration request names: a function, or AUX j of half 1 of a bifurcated controller, which has no master ID (R459). -/
inductive CfgTarget where
  | fn (f : Fn)
  | aux (j : BitVec 2)
  deriving DecidableEq, Repr

/-- What a configuration request does to the fields that the block acts on; `read` and other registers change nothing. -/
inductive CfgReq where
  | read
  | msix (enable mask : Bool)
  | relaxedOrdering (on : Bool)
  | d3hot
  | vfEnable
  | numVfs (n : BitVec 16)
  | completionTimeout (v : BitVec 4)
  | l1Enable (on : Bool)
  | l0pEnable (on : Bool)
  | maxPayload (v : BitVec 3)
  | maxRead (v : BitVec 3)
  | bar0 (v : BitVec 64)
  | vfBar0 (v : BitVec 64)
  deriving DecidableEq, Repr


/-- What a port's FEC has counted on one of its lanes (R316, R318). -/
structure LaneCount where
  lane : BitVec 2
  count : BitVec 32
  deriving DecidableEq, Repr

/-- What a port's FEC has counted (R316). -/
structure PortCount where
  port : Port
  count : BitVec 32
  deriving DecidableEq, Repr

/-- A read by a function of a register of 64 bits, all of it (`wide`) or 32 bits of it (R333). -/
structure FnRead where
  fn : Fn
  wide : Bool
  deriving DecidableEq, Repr

/-- A read of `width` bytes at `off` of a semaphore's 64 bytes (R367). -/
structure SemRead where
  off : BitVec 6
  width : BitVec 4
  deriving DecidableEq, Repr
/-- The commands, one constructor for each row of the operation table, in the table's order. -/
inductive Instr where
  -- 02: command entries of a ring (R30); `f` and `r` name the function and the ring whose next entry is issued
  | nop (f : Fn) (r : BitVec 12)
  | send (f : Fn) (r : BitVec 12)
  | write (f : Fn) (r : BitVec 12)
  | read (f : Fn) (r : BitVec 12)
  | atomic (f : Fn) (r : BitVec 12)
  | counterAdd (f : Fn) (r : BitVec 12)
  | postRecv (f : Fn) (r : BitVec 12)
  | fence (f : Fn) (r : BitVec 12)
  /-- `w`: what the device's read of the counter word returned; `idx`: the entry -/
  | waitCtr (f : Fn) (r : BitVec 12) (idx : BitVec 32) (w : ReadResult)
  | signal (f : Fn) (r : BitVec 12)
  | colStart (f : Fn) (r : BitVec 12)
  | collAbort (f : Fn) (r : BitVec 12)
  | taperInvoke (f : Fn) (r : BitVec 12)
  -- admin entries; `blk`: the parameter block that the entry names, as its read returned it
  | taperLoad (f : Fn) (blk : BitVec 512)
  | taperLoadReplace (f : Fn) (blk : BitVec 512)
  | taperLoadUnload (f : Fn) (blk : BitVec 512)
  | ringCreate (f : Fn) (blk : BitVec 256)
  | ringDestroy (f : Fn)
  | ringResume (f : Fn)
  | arvCreate (f : Fn) (blk : BitVec 256)
  | arvDestroy (f : Fn)
  | pdAlloc (f : Fn) (blk : BitVec 128)
  | pdFree (f : Fn)
  | mrRegister (f : Fn) (blk : BitVec 256)
  | mrRevoke (f : Fn) (blk : BitVec 128)
  | xltInvalidate (f : Fn) (blk : BitVec 256)
  | xltLock (f : Fn) (blk : BitVec 128)
  | xltUnlock (f : Fn) (blk : BitVec 128)
  | btrSet (f : Fn) (blk : BitVec 256)
  | qpCreate (f : Fn) (blk : BitVec 128)
  | qpModify (f : Fn) (blk : BitVec 256)
  | qpQuery (f : Fn) (blk : BitVec 2048)
  | qpDestroy (f : Fn)
  -- 02: doorbells, fetches, mirrors. `off`: offset in the page; `bytes`: width of the write
  | commandRingDoorbell (f : Fn) (page : BitVec 12) (off : BitVec 12) (bytes : BitVec 4) (v : BitVec 64)
  | arrivalRingDoorbell (f : Fn) (page : BitVec 12) (off : BitVec 12) (bytes : BitVec 4) (v : BitVec 64)
  | entryFetch (f : Fn) (r : BitVec 12) (d : ReadResult)
  | ownershipReread (f : Fn) (r : BitVec 12)
  | headMirrorPublish (f : Fn) (r : BitVec 12)
  | waitCtrTimeout (f : Fn) (r : BitVec 12) (idx : BitVec 32)
  | adminRingEnable (f : Fn) (start : BitVec 32)
  | adminRingDisable (f : Fn)
  | paramBlockReadComplete (f : Fn) (d : ReadResult)
  -- 03
  | keytabEnable (f : Fn)
  | keytabDisable (f : Fn)
  | keytabDescriptorRead (f : Fn) (index : BitVec 24) (d : ReadResult)
  /-- `serial`: the suspended access whose walk issued the read -/
  | walkEntryRead (serial : BitVec 32) (d : ReadResult)
  | flushingReadComplete (link : BitVec 3) (d : ReadResult)
  -- 04
  | ctxtabEnable (f : Fn)
  | ctxtabDisable (f : Fn)
  | qpcRangeWrite (m : Master) (f : Fn) (v : BitVec 64)
  | contextFetchComplete (q : Qpn) (d : ReadResult)
  | contextFetchRetry (q : Qpn)
  | contextEviction
  -- 05
  | sendPacket (p : Packet)
  | writePacket (p : Packet)
  | readReq (p : Packet)
  | readResp (p : Packet)
  | atomicReq (p : Packet)
  | atomicResp (p : Packet)
  | counterAddPacket (p : Packet)
  | ack (p : Packet)
  | nak (p : Packet)
  | packetUndefinedOp (p : Packet)
  | ackDelayExpiry (q : Qpn)
  | retransmitTimeout (q : Qpn)
  | busyBackoffExpiry (q : Qpn)
  | packetTransmit (q : Qpn)
  | rateUpdate (hp : BitVec 2) (ep : Ep)
  | roundTripUpdate (hp : BitVec 2) (ep : Ep)
  /-- `resp`: the packet is a READ_RESP, so its PSN is the queue pair's own -/
  | placementComplete (q : Qpn) (psn : BitVec 32) (resp : Bool)
  /-- `psn`: of the packet being built; `resp`: the packet is a READ_RESP -/
  | hostDataReadComplete (q : Qpn) (psn : BitVec 32) (resp : Bool) (d : ReadResult)
  | stagingFlush (k : StgKind) (n : BitVec 7)
  -- 06
  | rndvProbeExpiry (q : Qpn) (psn : BitVec 32)
  /-- `d`: what the read of the message's pool pieces returned -/
  | unexpectedCopyComplete (q : Qpn) (psn0 : BitVec 32) (d : ReadResult)
  | uxpoolEnable (f : Fn)
  | uxpoolDisable (f : Fn)
  -- 07: operations of a collective program; `d`: what the reads of its host data returned
  | copCredit (i : InstId)
  | copSend (i : InstId) (d : ReadResult)
  | copMcast (i : InstId) (d : ReadResult)
  | copReduce (i : InstId)
  | copPlace (i : InstId) (d : ReadResult)
  | copCadd (i : InstId)
  | copResult (i : InstId)
  | copFree (i : InstId)
  | copAbort (i : InstId)
  | copEnd (i : InstId)
  | colData (p : Packet)
  | colCredit (p : Packet)
  | colAck (p : Packet)
  | colAbort (p : Packet)
  /-- `inp`: the input on which the packet arrives -/
  | cadd (inp : Input) (p : Packet)
  | caddAck (inp : Input) (p : Packet)
  /-- `id`: the unacknowledged packet's number -/
  | colRtoExpiry (id : BitVec 32)
  /-- `c`: the combining slot -/
  | caddHopTimeout (c : BitVec 11)
  | combIntExpiry (c : BitVec 11)
  | tombTimeExpiry (hp : BitVec 2) (comm : BitVec 32) (seq : BitVec 16)
  /-- `d`: what the reads of the REDUCE's host inputs returned, in order -/
  | reduceComplete (i : InstId) (op : BitVec 32) (d : ReadResult)
  | mbxRelease (f : Fn) (n : BitVec 12) (off : BitVec 4) (bytes : BitVec 5) (v : BitVec 64)
  | mbxAllocWrite (m : Master) (n : BitVec 12) (v : BitVec 64)
  -- 08: the Taper instruction that core `c` executes
  | tAdd (c : CoreId) (rd ra rb : WReg)
  | tSub (c : CoreId) (rd ra rb : WReg)
  | tAnd (c : CoreId) (rd ra rb : WReg)
  | tOr (c : CoreId) (rd ra rb : WReg)
  | tXor (c : CoreId) (rd ra rb : WReg)
  | tShl (c : CoreId) (rd ra rb : WReg)
  | tShr (c : CoreId) (rd ra rb : WReg)
  | tSar (c : CoreId) (rd ra rb : WReg)
  | tMul (c : CoreId) (rd ra rb : WReg)
  | tMulhu (c : CoreId) (rd ra rb : WReg)
  | tSlt (c : CoreId) (rd ra rb : WReg)
  | tSltu (c : CoreId) (rd ra rb : WReg)
  | tAddi (c : CoreId) (rd ra : WReg) (imm : BitVec 16)
  | tAndi (c : CoreId) (rd ra : WReg) (imm : BitVec 16)
  | tOri (c : CoreId) (rd ra : WReg) (imm : BitVec 16)
  | tXori (c : CoreId) (rd ra : WReg) (imm : BitVec 16)
  | tShli (c : CoreId) (rd ra : WReg) (imm : BitVec 16)
  | tShri (c : CoreId) (rd ra : WReg) (imm : BitVec 16)
  | tSari (c : CoreId) (rd ra : WReg) (imm : BitVec 16)
  | tSlti (c : CoreId) (rd ra : WReg) (imm : BitVec 16)
  | tSltiu (c : CoreId) (rd ra : WReg) (imm : BitVec 16)
  | tMovz (c : CoreId) (rd : WReg) (lane : BitVec 2) (imm : BitVec 16)
  | tMovk (c : CoreId) (rd : WReg) (lane : BitVec 2) (imm : BitVec 16)
  | tLd (c : CoreId) (rd ra : WReg) (imm : BitVec 16)
  | tLw (c : CoreId) (rd ra : WReg) (imm : BitVec 16)
  | tLh (c : CoreId) (rd ra : WReg) (imm : BitVec 16)
  | tLb (c : CoreId) (rd ra : WReg) (imm : BitVec 16)
  | tSt (c : CoreId) (rd ra : WReg) (imm : BitVec 16)
  | tSw (c : CoreId) (rd ra : WReg) (imm : BitVec 16)
  | tSh (c : CoreId) (rd ra : WReg) (imm : BitVec 16)
  | tSb (c : CoreId) (rd ra : WReg) (imm : BitVec 16)
  | tAadd (c : CoreId) (rd ra rb : WReg)
  | tAswp (c : CoreId) (rd ra rb : WReg)
  | tAcas (c : CoreId) (rd ra rb : WReg)
  | tVld (c : CoreId) (vd : VReg) (ra : WReg) (imm : BitVec 12)
  | tVst (c : CoreId) (vb : VReg) (ra : WReg) (imm : BitVec 12)
  | tVins (c : CoreId) (vd : VReg) (ra : WReg) (lane : BitVec 3)
  | tVext (c : CoreId) (rb : WReg) (vb : VReg) (lane : BitVec 3)
  | tVmov (c : CoreId) (vd vb : VReg)
  | tVzero (c : CoreId) (vd : VReg)
  | tBeq (c : CoreId) (ra rb : WReg) (off : BitVec 16)
  | tBne (c : CoreId) (ra rb : WReg) (off : BitVec 16)
  | tBlt (c : CoreId) (ra rb : WReg) (off : BitVec 16)
  | tBge (c : CoreId) (ra rb : WReg) (off : BitVec 16)
  | tBltu (c : CoreId) (ra rb : WReg) (off : BitVec 16)
  | tBgeu (c : CoreId) (ra rb : WReg) (off : BitVec 16)
  | tJmp (c : CoreId) (off : BitVec 24)
  | tCall (c : CoreId) (off : BitVec 24)
  | tJr (c : CoreId) (ra : WReg)
  | tRet (c : CoreId)
  | tEnd (c : CoreId)
  | tBrk (c : CoreId) (imm : BitVec 16)
  | tWaitev (c : CoreId) (rd : WReg) (imm : BitVec 16)
  | tPollev (c : CoreId) (rd : WReg) (imm : BitVec 16)
  | tTimer (c : CoreId) (ra : WReg)
  | tRdtime (c : CoreId) (rd : WReg)
  | tSys (c : CoreId) (rd : WReg) (imm : BitVec 16)
  | tCrd (c : CoreId) (vd : VReg) (ra : WReg) (imm : BitVec 12)
  | tCwr (c : CoreId) (vb : VReg) (ra : WReg) (imm : BitVec 12)
  | tCcpy (c : CoreId) (rd ra rb : WReg)
  | tCfree (c : CoreId)
  | tColop (c : CoreId) (vb : VReg)
  | tMsg (c : CoreId) (vb : VReg)
  | tHxfer (c : CoreId) (vb : VReg)
  | tMbxput (c : CoreId) (rd ra rb : WReg)
  | tSemacq (c : CoreId) (rd ra : WReg)
  | tSemrel (c : CoreId) (ra : WReg)
  | tNote (c : CoreId) (vb : VReg) (rb : WReg)
  | illegalOpcode (c : CoreId) (word : BitVec 32)
  | hxferComplete (id : BitVec 32) (d : ReadResult)
  | tmsg (p : Packet)
  | tmsgAck (p : Packet)
  | tmRtoExpiry (psn : BitVec 32)
  | acceptanceEntryExpiry (chip : BitVec 15) (psn : BitVec 32)
  /-- the timer of invocation `inv`, or of the message activation of core `c` when `inv` is 0 -/
  | timerExpiry (c : CoreId) (inv : BitVec 32)
  | watchdogExpiry (c : CoreId)
  | activationDispatch (cluster : BitVec 4)
  | tprUnfreeze (m : Master) (v : BitVec 32)
  -- 09
  | routeDecision (inp : Input) (idx : BitVec 5)
  | xbrChipWrite (m : Master) (v : BitVec 32)
  | xbrConfigWrite (m : Master) (off : BitVec 28) (v : BitVec 64)
  | mgtLocal (p : Port) (pkt : Packet)
  | mgtRouted (inp : Input) (pkt : Packet)
  | mgtWaitExpiry (p : Port)
  -- 10: `raw`: a control frame's 32 bytes; `bad`: it overlaps an uncorrectable FEC codeword
  | signalDetect (p : Port) (lane : BitVec 2)
  | capabilityPage (p : Port) (lane : BitVec 2) (raw : BitVec 64)
  | pageSendTimer (p : Port)
  /-- `lanes`: the lanes that failed -/
  | bringupTimeout (p : Port) (lanes : BitVec 4)
  /-- `lanes`: the lanes that trained; `low`: every lane's error ratio allows LL (R304) -/
  | trainingComplete (p : Port) (lanes : BitVec 4) (low : Bool)
  | alignmentComplete (p : Port)
  | holdExpiry (p : Port)
  | downHoldExpiry (p : Port)
  | dataFrame (p : Port) (fr : DataFrame)
  | idle (p : Port) (raw : BitVec 256) (bad : Bool)
  | credit (p : Port) (raw : BitVec 256) (bad : Bool)
  | retryReq (p : Port) (raw : BitVec 256) (bad : Bool)
  | tsReq (p : Port) (raw : BitVec 256) (bad : Bool)
  | tsResp (p : Port) (raw : BitVec 256) (bad : Bool)
  | reconfig (p : Port) (raw : BitVec 256) (bad : Bool)
  | reconfigAck (p : Port) (raw : BitVec 256) (bad : Bool)
  | controlFrameTimer (p : Port)
  | creditRefresh (p : Port)
  | retryToExpiry (p : Port)
  | linkToExpiry (p : Port)
  | egressSelect (p : Port)
  | laneLockLoss (p : Port) (lane : BitVec 2)
  /-- the count: symbols corrected on the lane in the last ms -/
  | laneErrorThreshold (p : Port) (lane : LaneCount)
  /-- the count: uncorrectable codewords of the port in the last second -/
  | llUncorrThreshold (p : PortCount)
  | reconfigResend (p : Port)
  | reconfigTimeout (p : Port)
  | laneRetrain (p : Port)
  /-- the count: the most symbols that the lane has corrected in a ms, of the 100 ms after its training -/
  | laneRestoreQualified (p : Port) (lane : LaneCount)
  | tsIntervalExpiry (p : Port)
  | linkRestore (m : Master) (p : Port)
  | linkReneg (m : Master) (p : Port)
  | adminUpSet (m : Master) (p : Port)
  | adminUpClear (m : Master) (p : Port)
  -- 11
  | servoRun
  /-- `fall`: the edge is a falling one -/
  | ppsEdge (fall : Bool)
  | ppsLoss
  | holdMaxExpiry
  | gtimeLoad (m : Master)
  | tmuModeWrite (m : Master) (mode : BitVec 2)
  | gtimeLoRead (f : FnRead)
  | epochStart
  | guardBandStart (p : Port)
  | earlyExpiry (p : Port)
  | gclWord0Write (m : Master) (p : Port) (e : BitVec 8) (v : BitVec 64)
  | gclWord1Write (m : Master) (p : Port) (e : BitVec 8) (v : BitVec 64)
  | histSample
  | histClear (m : Master)
  -- 12
  | lckAcq (f : Fn) (n : BitVec 10) (bytes : BitVec 4)
  | lckRel (f : Fn) (n : BitVec 10) (bytes : BitVec 4)
  | lckCancel (f : Fn) (n : BitVec 10) (bytes : BitVec 4)
  | lckStatRead (f : Fn) (n : BitVec 10) (bytes : SemRead)
  | lckForce (m : Master) (v : BitVec 32)
  | lckAllocWrite (m : Master) (n : BitVec 10) (v : BitVec 64)
  | atomicUpdateReadComplete (f : Fn) (addr : BitVec 64) (d : ReadResult)
  | atomicResultExpiry (q : Qpn) (psn : BitVec 32)
  -- 13: `inj`: the occurrence is an injected one
  | faultOccurrence (src : BitVec 8) (u : SUnit) (inj : Bool)
  | spareInService (u : SUnit)
  | restartComplete (src : BitVec 8)
  | unitRestore (m : Master) (v : BitVec 64)
  | restoreSelfTestComplete (pass : Bool)
  | fcuInjectWrite (m : Master) (v : BitVec 64)
  | stickyClear (m : Master) (merged : Bool) (w : BitVec 2) (v : BitVec 64)
  /-- a scrub pass of the RAMs of source `src` corrected `n` symbols; `hour`: their total within one hour -/
  | scrub (src : BitVec 8) (n hour : BitVec 32)
  | thermalWarning
  | supplyOutOfRange
  /-- `rail`: 0 VDD_CORE, 1 VDD_SRAM, 2 VDD_SDA, 3 VDD_SDH, 4 VDD_PCIE, 5 VDD_AON -/
  | brownOut (rail : BitVec 3)
  | thermalTrip
  -- 14
  | domainSwitchOff (d : BitVec 8)
  | domainSwitchOn (d : BitVec 8)
  | domainRampComplete (d : BitVec 8)
  | clockMonitorWindow (island : BitVec 9) (bad : Bool)
  | pstateToP0 (m : Master)
  | pstateToP1 (m : Master)
  | pstateToP2 (m : Master)
  | pstateToP3 (m : Master)
  | pstateTransitionComplete
  | clkP1KeepWrite (m : Master) (w : BitVec 1) (v : BitVec 64)
  -- 15: SEC commands act on SEC_BUF; `vqps`: the fuse supply is in range and every fuse reads back blown
  | provision (m : Master) (vqps : Bool)
  | addOwnerKey (m : Master) (vqps : Bool)
  | revokeOwnerKey (m : Master) (vqps : Bool)
  | seal_ (m : Master) (vqps : Bool)
  | rma (m : Master) (vqps : Bool)
  | svnAdvance (m : Master) (vqps : Bool)
  | debugUnlock (m : Master)
  | debugLower (m : Master)
  | attest (m : Master)
  | nonce (m : Master)
  | bypass
  | idcode
  | secNonce
  /-- `blk`: the block shifted in -/
  | secToken (blk : List Byte) (vqps : Bool)
  | samplePreload (v : List Bool)
  | extest
  | clamp
  | highz
  | dbgRead (off : BitVec 28)
  | dbgWrite (off : BitVec 28) (be : BitVec 8) (v : BitVec 64)
  /-- `core`: `none` for the MGT; `on`: stop; bytes written to its memory -/
  | halt (core : Option CoreId) (on : Bool) (addr : BitVec 22) (bytes : List Byte)
  | replay
  | secUnfreeze (m : Master) (v : BitVec 32)
  | bar0WindowViolation (f : Fn) (off : BitVec 28) (wr : Bool)
  -- 16
  | evcCtlWrite (m : Master) (n : BitVec 11) (v : BitVec 64)
  /-- `inc`: the increments of the same cycle -/
  | evcCntWrite (m : Master) (n : BitVec 11) (v : BitVec 64) (inc : BitVec 16)
  | evcPageEnWrite (m : Master) (b : BitVec 5) (v : BitVec 64)
  | evcFreeze (m : Master) (on : Bool)
  | ltnStart (m : Master)
  | ltnSnapshotComplete
  | ltnTrigger (m : Master)
  | ltnTimeTrigger
  | ltnModeWrite (m : Master) (mode : BitVec 2)
  /-- `matched`: the outcome of the last MARK compared, with its source and cycle, if one was -/
  | replayStop (mark : Option (Bool × BitVec 8 × BitVec 48))
  -- 17
  | flr (f : Fn)
  | controllerReset (j : BitVec 2)
  | pcieLinkLoss (l : BitVec 3)
  | d3hotToD0 (f : Fn)
  | vfEnableClear (j : BitVec 2)
  | completionTimeout (r : HostReq)
  | hifWinWrite (m : Master) (f : Fn) (k : BitVec 2) (v : BitVec 64)
  | hifMgtprivWrite (m : Master) (v : BitVec 32)
  /-- `vec`: the vector unmasked, or `none` for the Function Mask -/
  | msixUnmask (f : Fn) (vec : Option (BitVec 9))
  | configRequest (f : CfgTarget) (r : CfgReq)
  | enumerationTimeout (j : BitVec 2)
  | aspmL1Entry (l : BitVec 3)
  -- 18: `straps`: [3:0] BIF, [5] MGTPRIV, [6] RECOVER, [8:7] FLASH as MGT_STRAP has them, [9] TEST_EN
  | coldReset (straps : BitVec 10)
  | warmReset (m : Master)
  | mgtRestart (m : Master)
  | hostReady (m : Master)
  | selfTestComplete (u : SUnit) (pass : Bool)
  | recoveryReselect
  | registerWrite (m : Master) (off : BitVec 28) (be : BitVec 8) (v : WriteData)
  | descriptorReadComplete (f : Fn) (r : BitVec 12) (d : ReadResult)
  | taperImageReadComplete (f : Fn) (d : ReadResult)
  | xspiOperationComplete (ok : Bool)
  | refLockChange (locked : Bool)
  | perstNRelease (j : BitVec 2)
  | pcieLinkUp (l : BitVec 3) (rate : BitVec 3) (width : BitVec 5)
  | supplyReturn
  | baseRttWindowRestart (hp : BitVec 2) (ep : Ep)
  deriving DecidableEq, Repr

end Sys2Proof
end

