-- ==== Sys2Proof/Config.lean ====
section
/-! DEFINITION. What an implementation fixes, and the free values: opaque constants of which nothing can be proved. -/

namespace Sys2Proof.Config

/-- Free value: the random choice of a victim among the XTC or walk-cache entries (R92, R93); taken modulo the
number of entries. The argument is the step's fresh counter. -/
opaque victim : Nat → Nat

/-- Free value: the random 0 to 25 % that lengthens a busy back-off (R152), in 1/1024 of the back-off; taken
modulo 257. -/
opaque jitter : Nat → Nat

/-- Free value: the random draw of an intermediate group or of an equal candidate (R282, R284). -/
opaque routeDraw : Nat → Nat

/-- Free value: fresh random words of the SEC (SEC_NONCE, the identity seed). -/
opaque random : Nat → BitVec 256

/-- Free value: the offset within its READ of a READ_REQ's run, which the target puts into OPX of each READ_RESP (R134)
although nothing in the READ_REQ tells it; the arguments are the MSN and the PSN of the READ_REQ. -/
opaque readOffset : BitVec 16 → BitVec 32 → Nat

/-- Free value: an undefined or unstated 64-bit result (the log names each use). -/
opaque undef64 : Nat → BitVec 64

/-- Free value: an undefined or unstated list of bytes; the second argument is the length asked for. -/
opaque undefBytes : Nat → Nat → List Byte

/-- Free value: whether a COL_DATA packet with HOST set and MSN 0 is a Candelabra copy, which is placed for every local member,
or a unicast SEND, which is placed for the endpoint it names (R204): its header does not tell. The arguments are SRC_EP, OPX and
PSN. -/
opaque mcastCopy : BitVec 17 → BitVec 64 → BitVec 32 → Bool

/-- Free value: whether a chunk that arrived in one part holds an exact partial or fp64 values (R214): its packet does not tell.
The arguments are SRC_EP, OPX and PSN. -/
opaque partialChunk : BitVec 17 → BitVec 64 → BitVec 32 → Bool

/-- Free value: the number from which a seed's identity private key follows, whose derivation the spec does not state (R424). -/
opaque identityPrivate : BitVec 256 → Nat

/-- Free value: how long a command of the SEC runs, at most 2 ms (R426, R433). The argument is a fresh count. -/
opaque secTime : Nat → Nat

/-- Free value: the per-message secret number of a signature of ATTEST (R428). The argument is a fresh count. -/
opaque signSecret : Nat → Nat

/-- Free value: the digests KM and KR in ROM (R423). -/
opaque digestKM : List Byte
opaque digestKR : List Byte

/-- Free value: the JTAG IDCODE, which the spec does not state (R430). -/
opaque idcode : BitVec 32

/-- Free value: does the flash read of an image slot fail (READ_ERROR of R495)? The argument is a fresh count. -/
opaque flashReadFails : Nat → Bool

/-- Free value: the lengths of the images of slots 0 and 1 where no header is valid (R494 gives only PRIMARY and STATE). -/
opaque bareLength : Nat → Nat

/-- Free value: the cells of the shared pool that an index of a port is given (R312), for which the spec states bounds only. The argument
is a fresh count. -/
opaque sharedCredit : Nat → Nat

/-- Free value: does a queued packet have a cell in a bank group that has failed (R394)? The argument is a fresh count. -/
opaque cellLost : Nat → Bool

/-- Free value: how long a crossing in the BKM-8520 mode stays busy, within what R405 allows (R410). The argument is a fresh count. -/
opaque pulseTrip : Nat → Nat

/-- Free value: what is left of the completion timeout of a read that times out (R465): how long ago it was issued is not part of the
State. The argument is a fresh count. -/
opaque timeoutLeft : Nat → Nat

/-- Free value: has a checker found an uncorrectable word, and not a difference of duplicated state (R382, R396)? The argument is a fresh
count. -/
opaque wordFault : Nat → Bool

/-- Free value: what the wrong one of the two GTIME counters holds (R390). The argument is a fresh count. -/
opaque gtimeOther : Nat → BitVec 64

/-- Free value: how long a WARM reset lasts, at most 20 ms (R487). The argument is a fresh count. -/
opaque warmTime : Nat → Nat

/-- Free value: which bits of the fuses are blown when the supply of the fuses fails (R509). The arguments are a fresh count and the fuse
field. -/
opaque fuseCut : Nat → Nat → Nat

/-- Free value: the words of an island's snapshot, its flip-flops and RAMs (R451): how many there are, by island. -/
opaque snapshotLength : Nat → Nat

/-- Free value: the contents of a snapshot (R451). The arguments are a fresh count and the place of the word. -/
opaque snapshotWord : Nat → Nat → BitVec 64

/-- Free value: what the recorded islands take at their crossings in a tick (R450): island, whether it is a FIFO entry, crossing, and the value
or entry. What crosses between the islands is not part of the State. The argument is a fresh count. -/
opaque islandInputs : Nat → List (Nat × Bool × Nat × List (BitVec 64))

/-- Free value: has an island's input in a tick gone beyond what the LTN can store (R453)? The arguments are a fresh count and the island. -/
opaque inputLost : Nat → Nat → Bool

/-- Free value: what the Lantern buffer holds where nothing has written it (R455), by the place of the word. -/
opaque lanternPower : Nat → BitVec 64

/-- Free value: SEC_ID0 in the START record of the recording that REPLAY finds in PF0's memory (R456), which lies outside the block. The
argument is a fresh count. -/
opaque replayId : Nat → BitVec 64

/-- Free value: does that recording hold an island (R457)? The arguments are a fresh count and the island. -/
opaque replayHas : Nat → Nat → Bool

/-- Free value: does it hold a MARK for the cycle at which a checker of a replayed island fires (R457)? The argument is a fresh count. -/
opaque markRecorded : Nat → Bool

/-- Free value: the Vendor ID, Knaton's assigned identifier (R463). -/
opaque vendorId : BitVec 16

end Sys2Proof.Config
end

