-- ==== Sys2Proof/Machine/Regs.lean ====
section
/-! DEFINITION. The register table: every register of the spec with its offset in BAR0, its fields with their access
codes (R7), and its reset values (R6). The State holds the value of each register that differs from its reset value, so
this table gives every register its value at reset. -/

namespace Sys2Proof.Machine

/-- Access codes of a register field (R7). -/
inductive Acc where
  | rw | ro | w1c | w1s | wo | rc
  deriving DecidableEq, Repr

/-- A field of a register map: bits `hi` down to `lo`, and its access code. Bits of no field are RSV. -/
structure Fld where
  hi : Nat
  lo : Nat
  acc : Acc
  deriving DecidableEq, Repr

/-- A register or an array of registers: offset of element 0, distance between elements, number of elements, width in
bytes, and fields. `perFn` marks the registers of a function's own device control and status range (R477). -/
structure RegDef where
  base : Nat
  stride : Nat
  count : Nat
  bytes : Nat
  perFn : Bool
  fields : List Fld
  deriving DecidableEq, Repr

/-- Does the register array hold the offset of one of its elements? -/
def RegDef.holds (d : RegDef) (off : Nat) : Bool :=
  d.base ≤ off && off < d.base + d.stride * d.count && (off - d.base) % d.stride == 0

/-- The element's index. -/
def RegDef.index (d : RegDef) (off : Nat) : Nat := (off - d.base) / d.stride

end Sys2Proof.Machine

namespace Sys2Proof.Machine.Reg

/-- R472. -/
abbrev HIF_FUNC : Nat := 0x00000000

/-- R472. -/
abbrev HIF_WINRD : Nat := 0x00000008

/-- R52. -/
abbrev CMR_ADMIN_RING : Nat := 0x00010000

/-- R53. -/
abbrev CMR_ADMIN_MIRROR : Nat := 0x00010008

/-- R54. -/
abbrev CMR_ADMIN_CTRL : Nat := 0x00010010

/-- R55. -/
abbrev CMR_STATUS : Nat := 0x00010018

/-- R73. -/
abbrev XLT_KEYTAB : Nat := 0x00020000

/-- R74. -/
abbrev XLT_KEYTAB_CTRL : Nat := 0x00020008

/-- R109. -/
abbrev QPC_CTXTAB : Nat := 0x00030000

/-- R110. -/
abbrev QPC_CTXTAB_CTRL : Nat := 0x00030008

/-- R188. -/
abbrev MTE_UXPOOL : Nat := 0x00040000

/-- R189. -/
abbrev MTE_UXCTRL : Nat := 0x00040008

/-- R88. -/
abbrev XLT_BAR_EXCL : Nat := 0x08020000

/-- R81. -/
abbrev XLT_BTR_ALLOC : Nat := 0x08021000

/-- R108. -/
abbrev QPC_RANGE : Nat := 0x08030000

/-- R158. -/
abbrev TXE_CC : Nat := 0x08040000

/-- R159. -/
abbrev TXE_TIMER : Nat := 0x08040008

/-- R163, R164. -/
abbrev TXE_STG : Nat := 0x08041000

/-- R160. -/
abbrev RXE_ACK : Nat := 0x08050000

/-- R163, R164. -/
abbrev RXE_STG : Nat := 0x08051000

/-- R379. -/
abbrev RXE_ATOM : Nat := 0x08052000

/-- R163, R164. -/
abbrev LNK_STG_RX : Nat := 0x08060000

/-- R163, R164. -/
abbrev LNK_STG_TX : Nat := 0x08060400

/-- R163, R164. -/
abbrev HIF_STG_TX : Nat := 0x08070000

/-- R163, R164. -/
abbrev HIF_STG_RX : Nat := 0x08070100

/-- R476. -/
abbrev HIF_LINK : Nat := 0x08070200

/-- R475. -/
abbrev HIF_CFG : Nat := 0x08070300

/-- R474. -/
abbrev HIF_MGTPRIV : Nat := 0x08070308

/-- R479. -/
abbrev HIF_EVROUTE : Nat := 0x08071000

/-- R468. -/
abbrev HIF_WIN : Nat := 0x08078000

/-- R190. -/
abbrev MTE_CFG : Nat := 0x08080000

/-- R191. -/
abbrev MTE_QUOTA : Nat := 0x08081000

/-- R161. -/
abbrev LLT_MARK : Nat := 0x080C0000

/-- R386. -/
abbrev FCU_STICKY : Nat := 0x080F0000

/-- R386. -/
abbrev FCU_MERGED : Nat := 0x080F0020

/-- R398. -/
abbrev FCU_INJECT : Nat := 0x080F0040

/-- R386. -/
abbrev FCU_CFG : Nat := 0x080F1000

/-- R392. -/
abbrev SNF_FENCED_CORE : Nat := 0x08100000

/-- R392. -/
abbrev SNF_FENCED_RDU : Nat := 0x08100020

/-- R392. -/
abbrev SNF_FENCED_PORT : Nat := 0x08100040

/-- R392. -/
abbrev SNF_FENCED_BANKGRP : Nat := 0x08100060

/-- R392. -/
abbrev SNF_FENCED_TILE : Nat := 0x08100080

/-- R392. -/
abbrev SNF_FENCED_UNIT : Nat := 0x08100088

/-- R392. -/
abbrev SNF_MAP_CORE : Nat := 0x08100100

/-- R392. -/
abbrev SNF_MAP_RDU : Nat := 0x08100500

/-- R393. -/
abbrev SNF_CTRL : Nat := 0x08100800

/-- R397. -/
abbrev SNF_SCRUB : Nat := 0x08100810

/-- R441. -/
abbrev SEC_FROZEN : Nat := 0x08120100

/-- R441. -/
abbrev SEC_UNFREEZE : Nat := 0x08120200

/-- R441. -/
abbrev SEC_FREEZE_CAUSE : Nat := 0x08121000

/-- R445. -/
abbrev EVC_CTL : Nat := 0x08130000

/-- R478. -/
abbrev MSIX_TABLE : Nat := 0x00080000

/-- R478. -/
abbrev MSIX_PBA : Nat := 0x00082000

/-- R446. -/
abbrev EVC_CNT : Nat := 0x08134000

/-- R448. -/
abbrev EVC_PAGE_EN : Nat := 0x08138000

/-- R447. -/
abbrev EVC_GLOBAL : Nat := 0x08138100

/-- R454. -/
abbrev LTN_CTRL : Nat := 0x08140000

/-- R276. -/
abbrev XBR_CHIP : Nat := 0x080B0000

/-- R329. -/
abbrev LNK_CFG : Nat := 0x08060800

/-- R329. -/
abbrev LNK_CFG2 : Nat := 0x08060808

/-- R324. -/
abbrev LNK_ADV : Nat := 0x08061000

/-- R326. -/
abbrev LNK_STAT : Nat := 0x08061400

/-- R325. -/
abbrev LNK_CTRL : Nat := 0x08061800

/-- R327. -/
abbrev LNK_ASYM : Nat := 0x08061C00

/-- R328. -/
abbrev LNK_TS : Nat := 0x08062000

/-- R228. -/
abbrev COL_CFG : Nat := 0x08090000

/-- R223. -/
abbrev MBX_ALLOC : Nat := 0x08098000

/-- R267. -/
abbrev TPR_CFG : Nat := 0x080A0000

/-- R268. -/
abbrev TPR_UNFREEZE : Nat := 0x080A0008

/-- R269. -/
abbrev TPR_PROG_STAT : Nat := 0x080A1000

/-- R289. -/
abbrev XBR_ROUTE : Nat := 0x080B0008

/-- R293. -/
abbrev XBR_VCMIN : Nat := 0x080B0010

/-- R301. -/
abbrev XBR_STATUS : Nat := 0x080B0018

/-- R278. -/
abbrev XBR_GRPVALID : Nat := 0x080B0020

/-- R272, R273. -/
abbrev XBR_PORT : Nat := 0x080B0400

/-- R279. -/
abbrev XBR_NBR_ROW : Nat := 0x080B0800

/-- R279. -/
abbrev XBR_NBR_COL : Nat := 0x080B0880

/-- R277. -/
abbrev XBR_GW : Nat := 0x080B1000

/-- R295. -/
abbrev XBR_SCH : Nat := 0x080B2000

/-- R358. -/
abbrev LLT_HIST_CFG : Nat := 0x080C0008

/-- R343. -/
abbrev LLT_QMAP : Nat := 0x080C0010

/-- R346. -/
abbrev LLT_SCHED : Nat := 0x080C0018

/-- R347. -/
abbrev LLT_SCHED_BASE : Nat := 0x080C0020

/-- R348. -/
abbrev LLT_PORT : Nat := 0x080C1000

/-- R344. -/
abbrev LLT_WRR : Nat := 0x080C2000

/-- R349. -/
abbrev LLT_GCL : Nat := 0x08800000

/-- R359. -/
abbrev LLT_HIST : Nat := 0x08880000

/-- R333. -/
abbrev TMU_GTIME_LO : Nat := 0x00050000

/-- R333. -/
abbrev TMU_GTIME_HI : Nat := 0x00050004

/-- R360. -/
abbrev TMU_CTRL : Nat := 0x080D0000

/-- R362. -/
abbrev TMU_CFG : Nat := 0x080D0008

/-- R363. -/
abbrev TMU_PORTMASK : Nat := 0x080D0010

/-- R361. -/
abbrev TMU_SET : Nat := 0x080D0020

/-- R364. -/
abbrev TMU_REF : Nat := 0x080D0028

/-- R365. -/
abbrev TMU_STAT : Nat := 0x080D0030

/-- R366. -/
abbrev LCK_ALLOC : Nat := 0x080E0000

/-- R372. -/
abbrev LCK_FORCE : Nat := 0x080E2000

/-- R416. -/
abbrev CLK_PSTATE : Nat := 0x08110000

/-- R417. -/
abbrev CLK_P1_KEEP : Nat := 0x08110008

/-- R404. -/
abbrev CLK_DOM_STAT : Nat := 0x08110020

/-- R411. -/
abbrev CLK_PULSE_MODE : Nat := 0x08110040

/-- R411. -/
abbrev CLK_PULSE_MODE3 : Nat := 0x08110058

/-- R412. -/
abbrev CLK_PULSE_OVR : Nat := 0x08110080

/-- R426. -/
abbrev SEC_CMD : Nat := 0x08120000

/-- R442. -/
abbrev SEC_STATE : Nat := 0x08120008

/-- R442. -/
abbrev SEC_NONCE : Nat := 0x08120010

/-- R427. -/
abbrev SEC_MEAS : Nat := 0x08120020

/-- R442. -/
abbrev SEC_BUF : Nat := 0x08128000

/-- R434. -/
abbrev SEC_ID0 : Nat := 0x00060000

/-- R435. -/
abbrev SEC_ID1 : Nat := 0x00060008

/-- R436. -/
abbrev SEC_IDKEY : Nat := 0x00060010

/-- R454. -/
abbrev LTN_TRIG_TIME : Nat := 0x08140008

/-- R454. -/
abbrev LTN_SEL : Nat := 0x08140010

/-- R455. -/
abbrev LTN_SPILL : Nat := 0x08140050

/-- R455. -/
abbrev LTN_STAT : Nat := 0x08140058

/-- R457. -/
abbrev LTN_RCTRL : Nat := 0x08140060

/-- R457. -/
abbrev LTN_RSTAT : Nat := 0x08140068

/-- R485. -/
abbrev MGT_STRAP : Nat := 0x08160000

/-- R486. -/
abbrev MGT_BOOT : Nat := 0x08160008

/-- R487. -/
abbrev MGT_RESET : Nat := 0x08160010

end Sys2Proof.Machine.Reg

namespace Sys2Proof.Machine

/-- Reset value of FCU_CFG[s].STRIKES (R386): 2 for sources 16 to 31 and 145 to 160, 8 for the RESTART sources
(R382), 1 otherwise. -/
def fcuStrikesReset (s : Nat) : Nat :=
  if (16 ≤ s && s ≤ 31) || (145 ≤ s && s ≤ 160) then 2
  else if (116 ≤ s && s ≤ 121) || s == 123 || (125 ≤ s && s ≤ 128) || s == 130 || (133 ≤ s && s ≤ 134) ||
    (136 ≤ s && s ≤ 141) || s == 182 then 8
  else 1

/-- ROLE of fabric port `p` at reset (R272, R273). -/
def xbrRoleReset (p : Nat) : Nat :=
  if p % 8 < 4 then 3
  else
    let l := 4 * (p / 8) + (p % 8 - 4)
    if l < 30 then 1 else if l < 60 then 2 else 4

/-- Is power domain `d` on at reset (R404)? -/
def domReset (d : Nat) : Bool :=
  d == 0 || (129 ≤ d && d ≤ 160) || (169 ≤ d && d ≤ 200) || (205 ≤ d && d ≤ 211)

/-- CLK_DOM_STAT[w] at reset (R404). -/
def clkDomReset (w : Nat) : Nat :=
  (List.range 64).foldl (fun a b => if domReset (64 * w + b) then a + 2 ^ b else a) 0

/-- Part 0 of the register table. -/
def regDefs0 : List RegDef :=
  [ ⟨Reg.HIF_FUNC, 4, 1, 4, true, [⟨15, 15, .ro⟩, ⟨14, 14, .ro⟩, ⟨13, 12, .ro⟩, ⟨11, 0, .ro⟩]⟩,
    ⟨Reg.HIF_WINRD, 8, 4, 8, true, [⟨63, 12, .ro⟩, ⟨6, 6, .ro⟩, ⟨5, 0, .ro⟩]⟩,
    ⟨Reg.CMR_ADMIN_RING, 8, 1, 8, true, [⟨63, 12, .rw⟩, ⟨5, 5, .rw⟩, ⟨4, 0, .rw⟩]⟩,
    ⟨Reg.CMR_ADMIN_MIRROR, 8, 1, 8, true, [⟨63, 2, .rw⟩]⟩,
    ⟨Reg.CMR_ADMIN_CTRL, 8, 1, 8, true, [⟨63, 32, .rw⟩, ⟨1, 1, .ro⟩, ⟨0, 0, .rw⟩]⟩,
    ⟨Reg.CMR_STATUS, 4, 1, 4, true, [⟨27, 16, .ro⟩, ⟨3, 3, .w1c⟩, ⟨2, 2, .w1c⟩, ⟨1, 1, .w1c⟩, ⟨0, 0, .ro⟩]⟩,
    ⟨Reg.XLT_KEYTAB, 8, 1, 8, true, [⟨63, 12, .rw⟩, ⟨4, 0, .rw⟩]⟩,
    ⟨Reg.XLT_KEYTAB_CTRL, 4, 1, 4, true, [⟨2, 2, .w1c⟩, ⟨1, 1, .ro⟩, ⟨0, 0, .rw⟩]⟩,
    ⟨Reg.QPC_CTXTAB, 8, 1, 8, true, [⟨63, 12, .rw⟩]⟩,
    ⟨Reg.QPC_CTXTAB_CTRL, 4, 1, 4, true, [⟨2, 2, .w1c⟩, ⟨1, 1, .ro⟩, ⟨0, 0, .rw⟩]⟩,
    ⟨Reg.MTE_UXPOOL, 8, 1, 8, true, [⟨63, 12, .rw⟩, ⟨4, 0, .rw⟩]⟩,
    ⟨Reg.MTE_UXCTRL, 4, 1, 4, true, [⟨2, 2, .w1c⟩, ⟨1, 1, .ro⟩, ⟨0, 0, .rw⟩]⟩,
    ⟨Reg.XLT_BAR_EXCL, 8, 16, 8, false, [⟨63, 12, .rw⟩, ⟨6, 6, .rw⟩, ⟨5, 0, .rw⟩]⟩,
    ⟨Reg.XLT_BTR_ALLOC, 8, 256, 8, false, [⟨12, 12, .rw⟩, ⟨11, 0, .rw⟩]⟩,
    ⟨Reg.QPC_RANGE, 8, 1024, 8, false, [⟨31, 31, .rw⟩, ⟨28, 24, .rw⟩, ⟨23, 0, .rw⟩]⟩,
    ⟨Reg.TXE_CC, 8, 1, 8, false, [⟨63, 56, .rw⟩, ⟨55, 48, .rw⟩, ⟨47, 40, .rw⟩, ⟨39, 32, .rw⟩, ⟨31, 24, .rw⟩, ⟨23, 16, .rw⟩, ⟨15, 0, .rw⟩]⟩ ]

/-- Part 1 of the register table. -/
def regDefs1 : List RegDef :=
  [ ⟨Reg.TXE_TIMER, 8, 1, 8, false, [⟨55, 48, .rw⟩, ⟨47, 40, .rw⟩, ⟨39, 32, .rw⟩, ⟨31, 24, .rw⟩, ⟨23, 16, .rw⟩, ⟨15, 8, .rw⟩]⟩,
    ⟨Reg.TXE_STG, 8, 8, 8, false, [⟨31, 16, .ro⟩, ⟨9, 5, .rw⟩, ⟨1, 1, .w1c⟩, ⟨0, 0, .w1s⟩]⟩,
    ⟨Reg.RXE_ACK, 8, 1, 8, false, [⟨63, 48, .rw⟩, ⟨47, 40, .rw⟩, ⟨32, 32, .rw⟩, ⟨31, 16, .rw⟩, ⟨7, 0, .rw⟩]⟩,
    ⟨Reg.RXE_STG, 8, 8, 8, false, [⟨31, 16, .ro⟩, ⟨9, 5, .rw⟩, ⟨1, 1, .w1c⟩, ⟨0, 0, .w1s⟩]⟩,
    ⟨Reg.RXE_ATOM, 4, 1, 4, false, [⟨31, 16, .rw⟩, ⟨3, 0, .rw⟩]⟩,
    ⟨Reg.LNK_STG_RX, 8, 128, 8, false, [⟨31, 16, .ro⟩, ⟨9, 5, .rw⟩, ⟨1, 1, .w1c⟩, ⟨0, 0, .w1s⟩]⟩,
    ⟨Reg.LNK_STG_TX, 8, 128, 8, false, [⟨31, 16, .ro⟩, ⟨9, 5, .rw⟩, ⟨1, 1, .w1c⟩, ⟨0, 0, .w1s⟩]⟩,
    ⟨Reg.HIF_STG_TX, 8, 8, 8, false, [⟨31, 16, .ro⟩, ⟨9, 5, .ro⟩, ⟨1, 1, .w1c⟩, ⟨0, 0, .w1s⟩]⟩,
    ⟨Reg.HIF_STG_RX, 8, 8, 8, false, [⟨31, 16, .ro⟩, ⟨9, 5, .rw⟩, ⟨1, 1, .w1c⟩, ⟨0, 0, .w1s⟩]⟩,
    ⟨Reg.HIF_LINK, 8, 8, 8, false, [⟨15, 15, .ro⟩, ⟨14, 14, .ro⟩, ⟨13, 11, .ro⟩, ⟨10, 6, .ro⟩, ⟨5, 5, .ro⟩, ⟨4, 4, .ro⟩, ⟨3, 3, .ro⟩, ⟨2, 2, .ro⟩]⟩,
    ⟨Reg.HIF_CFG, 4, 1, 4, false, [⟨7, 4, .rw⟩, ⟨0, 0, .rw⟩]⟩,
    ⟨Reg.HIF_MGTPRIV, 4, 1, 4, false, [⟨0, 0, .rw⟩]⟩,
    ⟨Reg.HIF_EVROUTE, 8, 192, 4, false, [⟨3, 0, .rw⟩]⟩,
    ⟨Reg.HIF_WIN, 8, 4096, 8, false, [⟨63, 12, .rw⟩, ⟨6, 6, .rw⟩, ⟨5, 0, .rw⟩]⟩,
    ⟨Reg.MTE_CFG, 8, 1, 8, false, [⟨63, 48, .rw⟩, ⟨39, 32, .rw⟩, ⟨31, 16, .rw⟩]⟩,
    ⟨Reg.MTE_QUOTA, 8, 1024, 8, false, [⟨50, 32, .rw⟩, ⟨17, 0, .rw⟩]⟩ ]

/-- Part 2 of the register table. -/
def regDefs2 : List RegDef :=
  [ ⟨Reg.LLT_MARK, 4, 1, 4, false, [⟨16, 16, .rw⟩, ⟨15, 0, .rw⟩]⟩,
    ⟨Reg.FCU_STICKY, 8, 3, 8, false, [⟨63, 0, .w1c⟩]⟩,
    ⟨Reg.FCU_MERGED, 8, 3, 8, false, [⟨63, 0, .w1c⟩]⟩,
    ⟨Reg.FCU_INJECT, 8, 1, 8, false, [⟨47, 40, .rw⟩, ⟨34, 34, .rw⟩, ⟨33, 32, .rw⟩, ⟨31, 31, .ro⟩, ⟨30, 30, .w1c⟩, ⟨7, 0, .rw⟩]⟩,
    ⟨Reg.FCU_CFG, 8, 192, 8, false, [⟨23, 16, .rw⟩, ⟨11, 8, .rw⟩, ⟨2, 2, .rw⟩, ⟨1, 1, .rw⟩, ⟨0, 0, .ro⟩]⟩,
    ⟨Reg.SNF_FENCED_CORE, 8, 3, 8, false, [⟨63, 0, .ro⟩]⟩,
    ⟨Reg.SNF_FENCED_RDU, 8, 1, 8, false, [⟨63, 0, .ro⟩]⟩,
    ⟨Reg.SNF_FENCED_PORT, 8, 2, 8, false, [⟨63, 0, .ro⟩]⟩,
    ⟨Reg.SNF_FENCED_BANKGRP, 8, 4, 8, false, [⟨63, 0, .ro⟩]⟩,
    ⟨Reg.SNF_FENCED_TILE, 8, 1, 8, false, [⟨63, 0, .ro⟩]⟩,
    ⟨Reg.SNF_FENCED_UNIT, 8, 1, 8, false, [⟨63, 0, .ro⟩]⟩,
    ⟨Reg.SNF_MAP_CORE, 8, 128, 8, false, [⟨8, 8, .ro⟩, ⟨7, 0, .ro⟩]⟩,
    ⟨Reg.SNF_MAP_RDU, 8, 32, 8, false, [⟨8, 8, .ro⟩, ⟨7, 0, .ro⟩]⟩,
    ⟨Reg.SNF_CTRL, 8, 1, 8, false, [⟨33, 32, .ro⟩, ⟨31, 31, .w1s⟩, ⟨26, 24, .rw⟩, ⟨15, 0, .rw⟩]⟩,
    ⟨Reg.SNF_SCRUB, 4, 1, 4, false, [⟨31, 16, .rw⟩, ⟨15, 1, .rw⟩, ⟨0, 0, .rw⟩]⟩,
    ⟨Reg.SEC_FROZEN, 8, 16, 8, false, [⟨63, 0, .ro⟩]⟩ ]

/-- Part 3 of the register table. -/
def regDefs3 : List RegDef :=
  [ ⟨Reg.SEC_UNFREEZE, 4, 1, 4, false, [⟨11, 0, .wo⟩]⟩,
    ⟨Reg.SEC_FREEZE_CAUSE, 8, 1024, 4, false, [⟨7, 0, .ro⟩]⟩,
    ⟨Reg.EVC_CTL, 8, 1536, 8, false, [⟨63, 63, .rw⟩, ⟨51, 32, .rw⟩, ⟨27, 16, .rw⟩, ⟨8, 0, .rw⟩]⟩,
    ⟨Reg.MSIX_TABLE, 8, 1024, 8, true, [⟨63, 0, .rw⟩]⟩,
    ⟨Reg.MSIX_PBA, 8, 8, 8, true, [⟨63, 0, .ro⟩]⟩,
    ⟨Reg.EVC_CNT, 8, 1536, 8, false, [⟨48, 48, .w1c⟩, ⟨47, 0, .rw⟩]⟩,
    ⟨Reg.EVC_PAGE_EN, 8, 24, 8, false, [⟨12, 12, .rw⟩, ⟨11, 0, .rw⟩]⟩,
    ⟨Reg.EVC_GLOBAL, 4, 1, 4, false, [⟨1, 1, .rw⟩, ⟨0, 0, .w1c⟩]⟩,
    ⟨Reg.LTN_CTRL, 8, 1, 8, false, [⟨63, 48, .rw⟩, ⟨7, 7, .ro⟩, ⟨6, 6, .ro⟩, ⟨5, 5, .w1s⟩, ⟨4, 4, .rw⟩, ⟨3, 3, .rw⟩, ⟨2, 2, .w1s⟩, ⟨1, 0, .rw⟩]⟩,
    ⟨Reg.XBR_CHIP, 4, 1, 4, false, [⟨31, 31, .rw⟩, ⟨14, 8, .rw⟩, ⟨7, 4, .rw⟩, ⟨3, 0, .rw⟩]⟩,
    ⟨Reg.LNK_CFG, 8, 1, 8, false, [⟨63, 52, .rw⟩, ⟨51, 48, .rw⟩, ⟨47, 40, .rw⟩, ⟨39, 32, .rw⟩, ⟨31, 16, .rw⟩, ⟨15, 8, .rw⟩, ⟨7, 0, .rw⟩]⟩,
    ⟨Reg.LNK_CFG2, 4, 1, 4, false, [⟨31, 16, .rw⟩, ⟨15, 8, .rw⟩]⟩,
    ⟨Reg.LNK_ADV, 8, 128, 8, false, [⟨15, 13, .rw⟩, ⟨12, 10, .rw⟩, ⟨9, 8, .rw⟩, ⟨7, 6, .rw⟩, ⟨5, 4, .rw⟩, ⟨3, 0, .rw⟩]⟩,
    ⟨Reg.LNK_STAT, 8, 128, 8, false, [⟨47, 40, .ro⟩, ⟨39, 36, .ro⟩, ⟨35, 32, .ro⟩, ⟨31, 31, .ro⟩, ⟨30, 28, .ro⟩, ⟨27, 26, .ro⟩, ⟨25, 24, .ro⟩, ⟨23, 23, .ro⟩, ⟨22, 22, .ro⟩, ⟨21, 20, .ro⟩, ⟨19, 17, .ro⟩]⟩,
    ⟨Reg.LNK_CTRL, 8, 128, 4, false, [⟨2, 2, .w1s⟩, ⟨1, 1, .w1s⟩, ⟨0, 0, .rw⟩]⟩,
    ⟨Reg.LNK_ASYM, 8, 128, 4, false, [⟨15, 0, .rw⟩]⟩ ]

/-- Part 4 of the register table. -/
def regDefs4 : List RegDef :=
  [ ⟨Reg.LNK_TS, 8, 128, 8, false, [⟨63, 32, .ro⟩, ⟨31, 16, .ro⟩, ⟨0, 0, .ro⟩]⟩,
    ⟨Reg.COL_CFG, 8, 1, 8, false, [⟨63, 48, .rw⟩, ⟨47, 32, .rw⟩, ⟨31, 24, .rw⟩, ⟨23, 16, .rw⟩, ⟨15, 8, .rw⟩]⟩,
    ⟨Reg.MBX_ALLOC, 8, 4096, 8, false, [⟨12, 12, .rw⟩, ⟨11, 0, .rw⟩]⟩,
    ⟨Reg.TPR_CFG, 8, 1, 8, false, [⟨63, 48, .rw⟩, ⟨47, 40, .rw⟩, ⟨39, 32, .rw⟩, ⟨19, 0, .rw⟩]⟩,
    ⟨Reg.TPR_UNFREEZE, 4, 1, 4, false, [⟨9, 0, .wo⟩]⟩,
    ⟨Reg.TPR_PROG_STAT, 8, 1024, 8, false, [⟨52, 40, .ro⟩, ⟨39, 28, .ro⟩, ⟨27, 12, .ro⟩, ⟨11, 4, .ro⟩, ⟨2, 2, .ro⟩, ⟨1, 0, .ro⟩]⟩,
    ⟨Reg.XBR_ROUTE, 8, 1, 8, false, [⟨63, 48, .rw⟩, ⟨47, 32, .rw⟩, ⟨0, 0, .rw⟩]⟩,
    ⟨Reg.XBR_VCMIN, 4, 1, 4, false, [⟨7, 0, .rw⟩]⟩,
    ⟨Reg.XBR_STATUS, 4, 1, 4, false, [⟨31, 16, .ro⟩, ⟨0, 0, .w1c⟩]⟩,
    ⟨Reg.XBR_GRPVALID, 8, 2, 8, false, [⟨63, 0, .rw⟩]⟩,
    ⟨Reg.XBR_PORT, 8, 128, 8, false, [⟨31, 29, .ro⟩, ⟨28, 24, .ro⟩, ⟨16, 16, .rw⟩, ⟨10, 8, .rw⟩, ⟨6, 0, .rw⟩]⟩,
    ⟨Reg.XBR_NBR_ROW, 8, 16, 4, false, [⟨31, 16, .rw⟩, ⟨15, 0, .rw⟩]⟩,
    ⟨Reg.XBR_NBR_COL, 8, 16, 4, false, [⟨31, 16, .rw⟩, ⟨15, 0, .rw⟩]⟩,
    ⟨Reg.XBR_GW, 8, 512, 8, false, [⟨63, 0, .rw⟩]⟩,
    ⟨Reg.XBR_SCH, 8, 384, 8, false, [⟨7, 7, .rw⟩, ⟨6, 0, .rw⟩]⟩,
    ⟨Reg.LLT_HIST_CFG, 8, 1, 8, false, [⟨31, 16, .rw⟩, ⟨1, 1, .rw⟩, ⟨0, 0, .w1s⟩]⟩ ]

/-- Part 5 of the register table. -/
def regDefs5 : List RegDef :=
  [ ⟨Reg.LLT_QMAP, 4, 1, 4, false, [⟨15, 12, .rw⟩, ⟨11, 8, .rw⟩, ⟨7, 4, .rw⟩, ⟨3, 0, .rw⟩]⟩,
    ⟨Reg.LLT_SCHED, 8, 1, 8, false, [⟨63, 32, .rw⟩, ⟨31, 16, .rw⟩]⟩,
    ⟨Reg.LLT_SCHED_BASE, 8, 1, 8, false, [⟨63, 0, .rw⟩]⟩,
    ⟨Reg.LLT_PORT, 8, 128, 4, false, [⟨15, 4, .rw⟩, ⟨1, 1, .rw⟩]⟩,
    ⟨Reg.LLT_WRR, 8, 256, 8, false, [⟨63, 0, .rw⟩]⟩,
    ⟨Reg.LLT_GCL, 8, 65536, 8, false, [⟨63, 0, .rw⟩]⟩,
    ⟨Reg.LLT_HIST, 4, 65536, 4, false, [⟨31, 0, .ro⟩]⟩,
    ⟨Reg.TMU_GTIME_LO, 4, 1, 4, true, [⟨31, 0, .ro⟩]⟩,
    ⟨Reg.TMU_GTIME_HI, 4, 1, 4, true, [⟨31, 0, .ro⟩]⟩,
    ⟨Reg.TMU_CTRL, 8, 1, 8, false, [⟨2, 2, .w1s⟩, ⟨1, 0, .rw⟩]⟩,
    ⟨Reg.TMU_CFG, 8, 1, 8, false, [⟨63, 48, .rw⟩, ⟨47, 40, .rw⟩, ⟨39, 32, .rw⟩, ⟨31, 16, .rw⟩, ⟨15, 8, .rw⟩, ⟨7, 0, .rw⟩]⟩,
    ⟨Reg.TMU_PORTMASK, 8, 2, 8, false, [⟨63, 0, .rw⟩]⟩,
    ⟨Reg.TMU_SET, 8, 1, 8, false, [⟨63, 0, .rw⟩]⟩,
    ⟨Reg.TMU_REF, 4, 1, 4, false, [⟨31, 16, .rw⟩, ⟨3, 3, .rw⟩, ⟨1, 1, .rw⟩, ⟨0, 0, .rw⟩]⟩,
    ⟨Reg.TMU_STAT, 8, 1, 8, false, [⟨63, 32, .ro⟩, ⟨23, 16, .ro⟩, ⟨7, 7, .ro⟩, ⟨6, 6, .ro⟩, ⟨5, 5, .ro⟩, ⟨1, 0, .ro⟩]⟩,
    ⟨Reg.LCK_ALLOC, 8, 1024, 8, false, [⟨28, 28, .rw⟩, ⟨27, 16, .rw⟩, ⟨11, 0, .rw⟩]⟩ ]

/-- Part 6 of the register table. -/
def regDefs6 : List RegDef :=
  [ ⟨Reg.LCK_FORCE, 4, 1, 4, false, [⟨10, 10, .w1s⟩, ⟨9, 0, .rw⟩]⟩,
    ⟨Reg.CLK_PSTATE, 4, 1, 4, false, [⟨11, 10, .ro⟩, ⟨9, 9, .ro⟩, ⟨8, 8, .w1s⟩, ⟨5, 4, .ro⟩, ⟨1, 0, .rw⟩]⟩,
    ⟨Reg.CLK_P1_KEEP, 8, 2, 8, false, [⟨63, 0, .rw⟩]⟩,
    ⟨Reg.CLK_DOM_STAT, 8, 4, 8, false, [⟨63, 0, .ro⟩]⟩,
    ⟨Reg.CLK_PULSE_MODE, 8, 3, 8, false, [⟨63, 0, .ro⟩]⟩,
    ⟨Reg.CLK_PULSE_MODE3, 8, 5, 8, false, [⟨63, 0, .rw⟩]⟩,
    ⟨Reg.CLK_PULSE_OVR, 8, 8, 8, false, [⟨63, 0, .w1c⟩]⟩,
    ⟨Reg.SEC_CMD, 8, 1, 8, false, [⟨39, 32, .ro⟩, ⟨16, 16, .w1s⟩, ⟨7, 0, .rw⟩]⟩,
    ⟨Reg.SEC_STATE, 8, 1, 8, false, [⟨55, 48, .ro⟩, ⟨43, 43, .ro⟩, ⟨42, 40, .ro⟩, ⟨33, 32, .ro⟩, ⟨11, 11, .ro⟩, ⟨10, 10, .ro⟩, ⟨9, 9, .ro⟩, ⟨1, 0, .ro⟩]⟩,
    ⟨Reg.SEC_NONCE, 8, 2, 8, false, [⟨63, 0, .ro⟩]⟩,
    ⟨Reg.SEC_MEAS, 8, 6, 8, false, [⟨63, 0, .ro⟩]⟩,
    ⟨Reg.SEC_BUF, 8, 512, 8, false, [⟨63, 0, .rw⟩]⟩,
    ⟨Reg.SEC_ID0, 8, 1, 8, true, [⟨63, 56, .ro⟩, ⟨55, 52, .ro⟩, ⟨51, 48, .ro⟩, ⟨47, 46, .ro⟩, ⟨44, 40, .ro⟩, ⟨39, 0, .ro⟩]⟩,
    ⟨Reg.SEC_ID1, 8, 1, 8, true, [⟨15, 8, .ro⟩, ⟨7, 0, .ro⟩]⟩,
    ⟨Reg.SEC_IDKEY, 8, 6, 8, true, [⟨63, 0, .ro⟩]⟩,
    ⟨Reg.LTN_TRIG_TIME, 8, 1, 8, false, [⟨63, 0, .rw⟩]⟩ ]

/-- Part 7 of the register table. -/
def regDefs7 : List RegDef :=
  [ ⟨Reg.LTN_SEL, 8, 7, 8, false, [⟨63, 0, .rw⟩]⟩,
    ⟨Reg.LTN_SPILL, 8, 1, 8, false, [⟨63, 16, .rw⟩, ⟨4, 0, .rw⟩]⟩,
    ⟨Reg.LTN_STAT, 8, 1, 8, false, [⟨63, 16, .ro⟩, ⟨1, 1, .w1c⟩, ⟨0, 0, .w1c⟩]⟩,
    ⟨Reg.LTN_RCTRL, 8, 1, 8, false, [⟨63, 16, .rw⟩, ⟨15, 7, .rw⟩, ⟨0, 0, .rw⟩]⟩,
    ⟨Reg.LTN_RSTAT, 8, 1, 8, false, [⟨63, 16, .ro⟩, ⟨15, 8, .ro⟩, ⟨1, 0, .ro⟩]⟩,
    ⟨Reg.MGT_STRAP, 4, 1, 4, false, [⟨8, 7, .ro⟩, ⟨6, 6, .ro⟩, ⟨5, 5, .ro⟩, ⟨3, 0, .ro⟩]⟩,
    ⟨Reg.MGT_BOOT, 4, 1, 4, false, [⟨11, 8, .ro⟩, ⟨7, 7, .w1s⟩, ⟨3, 2, .ro⟩, ⟨0, 0, .ro⟩]⟩,
    ⟨Reg.MGT_RESET, 4, 1, 4, false, [⟨1, 1, .w1s⟩, ⟨0, 0, .w1s⟩]⟩ ]

/-- The register table. -/
def regDefs : List RegDef :=
  regDefs0 ++ regDefs1 ++ regDefs2 ++ regDefs3 ++ regDefs4 ++ regDefs5 ++ regDefs6 ++ regDefs7

/-- The reset value of element `i` of the register array at offset `base` (R6). -/
def regResetAt (base i : Nat) : Nat :=
  if base == Reg.TXE_CC then (16 <<< 56) + (64 <<< 48) + (8 <<< 40) + (2 <<< 32) + (8 <<< 24) + (4 <<< 16) + 512 else
  if base == Reg.TXE_TIMER then (128 <<< 48) + (2 <<< 40) + (4 <<< 32) + (8 <<< 24) + (64 <<< 16) + (16 <<< 8) else
  if base == Reg.TXE_STG then 1 <<< 5 else
  if base == Reg.RXE_ACK then (64 <<< 48) + (20 <<< 40) + (1 <<< 32) + (1000 <<< 16) + 8 else
  if base == Reg.RXE_STG then 1 <<< 5 else
  if base == Reg.RXE_ATOM then 100 <<< 16 else
  if base == Reg.LNK_STG_RX then 1 <<< 5 else
  if base == Reg.LNK_STG_TX then 1 <<< 5 else
  if base == Reg.HIF_STG_RX then 1 <<< 5 else
  if base == Reg.HIF_CFG then 1 else
  if base == Reg.HIF_EVROUTE then 1 else
  if base == Reg.MTE_CFG then (1000 <<< 48) + (4 <<< 32) + (16 <<< 16) else
  if base == Reg.LLT_MARK then (1 <<< 16) + 64 else
  if base == Reg.FCU_CFG then (24 <<< 16) + (fcuStrikesReset i <<< 8) + 7 else
  if base == Reg.SNF_MAP_CORE then i else
  if base == Reg.SNF_MAP_RDU then i else
  if base == Reg.SNF_SCRUB then (1000 <<< 16) + (16 <<< 1) + 1 else
  if base == Reg.MSIX_TABLE then (i % 2) <<< 32 else
  if base == Reg.LTN_CTRL then (16 <<< 48) + 8 else
  if base == Reg.LNK_CFG then (512 <<< 52) + (8 <<< 48) + (8 <<< 40) + (10 <<< 32) + (125 <<< 16) + (10 <<< 8) + 10 else
  if base == Reg.LNK_CFG2 then (10000 <<< 16) + (1 <<< 8) else
  if base == Reg.LNK_ADV then (7 <<< 13) + (7 <<< 10) + (1 <<< 8) + (3 <<< 6) + (3 <<< 4) + 15 else
  if base == Reg.COL_CFG then (10000 <<< 48) + (8192 <<< 32) + (16 <<< 24) + (7 <<< 16) + (8 <<< 8) else
  if base == Reg.TPR_CFG then (1000 <<< 48) + (16 <<< 40) + (7 <<< 32) + 65536 else
  if base == Reg.XBR_ROUTE then (10 <<< 48) + (256 <<< 32) + 1 else
  if base == Reg.XBR_VCMIN then 17 else
  if base == Reg.XBR_PORT then xbrRoleReset i <<< 8 else
  if base == Reg.XBR_NBR_ROW then 0xFFFFFFFF else
  if base == Reg.XBR_NBR_COL then 0xFFFFFFFF else
  if base == Reg.LLT_HIST_CFG then (128 <<< 16) + 2 else
  if base == Reg.LLT_QMAP then (7 <<< 12) + (6 <<< 8) + (5 <<< 4) + 4 else
  if base == Reg.LLT_SCHED then (1000000 <<< 32) + (64 <<< 16) else
  if base == Reg.LLT_PORT then 2 else
  if base == Reg.LLT_WRR then if i % 2 == 0 then 0x4141414141414141 else 0x41414141 else
  if base == Reg.TMU_CFG then (1000 <<< 48) + (16 <<< 40) + (128 <<< 32) + (256 <<< 16) + (10 <<< 8) + 16 else
  if base == Reg.TMU_PORTMASK then 2 ^ 64 - 1 else
  if base == Reg.CLK_P1_KEEP then 2 ^ 64 - 1 else
  if base == Reg.CLK_DOM_STAT then clkDomReset i else
  if base == Reg.SEC_STATE then 2 else
  0

/-- The register array that holds an offset of management space (`perFn` false) or of a function's own range. -/
def regFind (perFn : Bool) (off : Nat) : Option RegDef :=
  regDefs.find? (fun d => d.perFn == perFn && d.holds off)

/-- The value of a register at reset, by its offset. -/
def regReset (perFn : Bool) (off : Nat) : BitVec 64 :=
  match regFind perFn off with
  | some d => BitVec.ofNat 64 (regResetAt d.base (d.index off))
  | none => 0

end Sys2Proof.Machine
end

