-- ==== Sys2Proof/Machine/State.lean ====
section
/-! DEFINITION. The State of the block: every register, queue, buffer, counter and mode that the spec gives it, as plain
data, and the reasons for which a step can stop. -/

namespace Sys2Proof.Machine

/-- The capabilities that R461 gives a function; every other one is absent. -/
inductive Cap where
  | pciExpress | powerManagement | msix | aer | sriov | ari | acs | laneMargining | atomicRequester | functionLevelReset
  deriving DecidableEq, Repr

/-- What a configuration request tells of a function (R461, R463, R464, R470): Vendor ID, Device ID, class code, the capabilities, TotalVFs
and InitialVFs, First VF Offset and VF Stride, the vectors of its MSI-X table, BAR0 and the VF BAR0. -/
structure CfgIdent where
  vendor : BitVec 16
  device : Nat
  cls : Nat
  caps : List Cap
  totalVfs : Nat
  vfOffset : Nat
  vfStride : Nat
  vectors : Nat
  bar0 : BitVec 64
  vfBar0 : BitVec 64
  deriving DecidableEq, Repr

/-- The requester ID of a request toward the host (R459, R460): a function's, or that of AUX j. -/
inductive Requester where
  | fn (f : Nat)
  | aux (j : Nat)
  deriving DecidableEq, Repr

/-- What the block has sent out of itself, newest first in `State.out`: host-memory requests, packets, frames, messages,
pin levels and events to management. Nothing reads it back; it is the record by which a claim names an effect outside. -/
inductive Output where
  /-- a write toward host memory on PCIe link `link` -/
  | hostWrite (who : Requester) (addr : BitVec 64) (bytes : List Byte) (relaxed : Bool) (link : Nat)
  /-- a read request toward host memory -/
  | hostRead (who : Requester) (addr : BitVec 64) (len : Nat) (relaxed : Bool) (link : Nat)
  /-- a packet that the TXE, COL or a cluster has put on attachment `att` of the switch core -/
  | packet (att : Nat) (p : Packet)
  /-- an MSI-X message of vector `vec` of function `fn`: a posted write of its table entry's data at its address, without relaxed ordering
  (R478, R479) -/
  | msix (fn : Nat) (vec : Nat) (addr : BitVec 64) (data : BitVec 32) (link : Nat)
  /-- an event raised to management for fault source `src` (R383) -/
  | mgtEvent (src : Nat)
  /-- a PCIe AtomicOp request (R379) of AOP `aop` on the `w` bytes at `addr`, with its operand and, for CAS, the compare value -/
  | hostAtomic (fn : Nat) (addr : BitVec 64) (aop w : Nat) (op cmp : BitVec 64) (link : Nat)
  /-- a packet delivered by the switch core to the RXE serving host port `hp` (R287) -/
  | deliverRxe (hp : Nat) (p : Packet)
  /-- a packet delivered to the COL -/
  | deliverCol (p : Packet)
  /-- a packet delivered to the Taper clusters -/
  | deliverTpr (p : Packet)
  /-- a management packet that has come to the MGT from an input -/
  | deliverMgt (inp : Nat) (p : Packet)
  /-- a management packet handed to the firmware with its arrival port (R296) -/
  | mgtPacket (inp : Nat) (p : Packet)
  /-- a packet that a flush has taken from the RXE, which had begun it or whose notice is withdrawn (R167, R168) -/
  | rxdLost (hp : Nat) (p : Packet) (begun : Bool)
  /-- a data frame leaving fabric port `port`: LHDR, the packet, which is padded to a multiple of 8 bytes, and LTRL (R309) -/
  | frame (port : Nat) (lhdr : BitVec 64) (p : Packet) (ltrl : BitVec 64)
  /-- a data frame of a fabric port, by its LSEQ, cut short by a flush of its staging queue (R167) -/
  | frameAborted (port lseq : Nat)
  /-- a control frame leaving fabric port `port` (R310) -/
  | control (port : Nat) (raw : BitVec 256)
  /-- a capability page leaving a lane of a fabric port (R305) -/
  | page (port lane : Nat) (raw : BitVec 64)
  /-- PSTATE_OUT driven (R514) -/
  | pstateOut (v : Nat)
  /-- THERMTRIP_N asserted (R516) -/
  | thermTrip
  /-- bits shifted out on TDO (R430) -/
  | tdo (bytes : List Byte)
  /-- the boundary cells drive the pins, or the pins are released (R430) -/
  | pins (driven : Bool) (v : List Bool)
  /-- a configuration request answered: retried (R488), or completed with what the function says of itself -/
  | config (target : CfgTarget) (answer : Option CfgIdent)
  /-- a transaction error of a function reported through AER (R471) -/
  | aer (fn : Nat)
  /-- entry to ASPM L1 requested on a link (R481) -/
  | l1Request (link : Nat)
  /-- an xSPI erase or program operation started (R491), in 8D-8D-8D mode or in 1S-1S-1S mode (R484) -/
  | xspi (octal erase : Bool) (addr len : Nat)
  /-- the xSPI balls set to high impedance, or driven again (R495) -/
  | xspiFloats (on : Bool)
  /-- what a read of BAR0 or of management space returned -/
  | bar0Read (fn off : Nat) (v : BitVec 64)
  deriving DecidableEq, Repr

/-! ## The command processor (CMP): rings, doorbell pages, Arrival Rings (02: R27 to R69) -/

/-- Mirror STATE of a Command Ring (R48, R49); a destroyed ring is not held. -/
inductive RingState where
  | running | stoppedFetch | stoppedDevice | frozen
  deriving DecidableEq, Repr

/-- Names one KCS entry: its function, ring, the ring's creation number and the entry's index. The creation number keeps
an entry of a destroyed ring apart from one of a later ring with the same identifier. -/
structure EntryRef where
  fn : Nat
  ring : Nat
  uid : Nat
  idx : BitVec 32
  deriving DecidableEq, Repr

/-- A fetched KCS entry between head and fetch index: its 64 bytes as fetched (R27), whether it has been issued, and
STATUS and DETAIL once it has finished. -/
structure Entry where
  raw : BitVec 512
  issued : Bool
  result : Option (BitVec 8 × BitVec 8)
  deriving DecidableEq, Repr

/-- A Command Ring (R37 to R51). `entries` holds the entries from `head` up to the fetch index, oldest first.
`issuing` holds the issue point while the next entry's key, fragment table or descriptor is checked, and `reading` is the
admitted access that reads the table or descriptor; `readPd` the domain of the region that holds a COL_START's descriptor (R219). -/
structure Ring where
  uid : Nat
  base : BitVec 64
  log2size : Nat
  mirror : BitVec 64
  fmt8520 : Bool
  page : Nat
  head : BitVec 32
  tail : BitVec 32
  state : RingState
  errcnt : BitVec 16
  published : BitVec 32
  entries : List Entry
  waitOwn : Bool
  issuing : Bool
  reading : Option Nat
  readPd : BitVec 16
  deriving DecidableEq, Repr

/-- What a doorbell page of a function is assigned to (R42 to R45); a page never assigned since the function's reset is
not listed, except page 0, which always counts as assigned. -/
inductive PageUse where
  | ring (id : Nat)
  | arv (id : Nat)
  | gone
  deriving DecidableEq, Repr

/-- The three slot budgets of an Arrival Ring (R60). -/
inductive Budget where
  | error | pool | recv
  deriving DecidableEq, Repr

/-- The fields of a notice (R58). -/
structure Notice where
  addr : BitVec 64
  imm : BitVec 32
  key : BitVec 32
  src : BitVec 17
  bytes : Nat
  detail : BitVec 8
  status : BitVec 8
  kind : Nat
  qpn : Nat
  deriving DecidableEq, Repr

/-- An Arrival Ring (R58 to R66): free slots of each budget, the budgets of the slots written and not yet returned
(oldest first), the consumed and produced indices, and the lost count of R63. -/
structure Arv where
  base : BitVec 64
  log2size : Nat
  page : Nat
  freeErr : Nat
  freePool : Nat
  freeRecv : Nat
  written : List Budget
  consumed : BitVec 32
  produced : BitVec 32
  lost : BitVec 32
  fenced : Bool
  deriving DecidableEq, Repr

/-- The CMP. Rings and Arrival Rings are keyed by `fn * 4096 + identifier`, pages by `fn * 4096 + page`. -/
structure Cmp where
  rings : Tab Ring
  pages : Tab PageUse
  arvs : Tab Arv
  nextUid : Nat
  deriving DecidableEq, Repr

/-! ## The translation unit (XLT) (03: R70 to R107) -/

/-- An allocated protection domain: owner and ROOT (R70). -/
structure Pd where
  owner : Nat
  root : BitVec 64
  deriving DecidableEq, Repr

/-- STATE of a region descriptor (R76). -/
inductive KeyState where
  | invalid | valid | revoking | bad
  deriving DecidableEq, Repr

/-- A region descriptor (R76). RIGHTS: bit 4 REMOTE_ATOMIC, 3 REMOTE_WRITE, 2 REMOTE_READ, 1 LOCAL_WRITE,
0 LOCAL_READ. -/
structure Desc where
  va : BitVec 64
  size : BitVec 64
  gen : BitVec 8
  pd : BitVec 16
  btr : BitVec 8
  state : KeyState
  modeBtr : Bool
  rights : BitVec 5
  deriving DecidableEq, Repr

/-- A block translation register that holds VALID (R82). -/
structure Btr where
  vaBase : BitVec 64
  busBase : BitVec 64
  size : BitVec 64
  pd : BitVec 16
  read : Bool
  write : Bool
  deriving DecidableEq, Repr

/-- A cached leaf: domain, page base, log2 of the page size, bus base and page rights (R86, R92). -/
structure Leaf where
  dom : BitVec 16
  va : BitVec 64
  log2 : Nat
  bus : BitVec 64
  read : Bool
  write : Bool
  deriving DecidableEq, Repr

/-- A walk-cache entry (R93): domain, level 3, 2 or 1, the virtual-address bits from that level's index up, and the
next-level table. -/
structure WalkEntry where
  dom : BitVec 16
  level : Nat
  tag : BitVec 64
  next : BitVec 64
  deriving DecidableEq, Repr

/-- A lockable entry in use (R97): the function that locked it, the leaf, and whether both copies of the leaf have been lost, so
that the next walk of its page fills it again (R99, R394). -/
structure Locked where
  owner : Nat
  leaf : Leaf
  stale : Bool
  deriving DecidableEq, Repr

/-- One byte range under one key. -/
structure Part where
  key : BitVec 32
  addr : BitVec 64
  len : Nat
  deriving DecidableEq, Repr

/-- A run of bus addresses that a checked access may touch. -/
structure Seg where
  bus : BitVec 64
  len : Nat
  deriving DecidableEq, Repr

/-- What an access is made for: what happens when its check (R80) has an outcome. -/
inductive Purpose where
  /-- the CMP's read of a fragment table or descriptor (R35, R261) -/
  | entryTable (ref : EntryRef)
  /-- tests 1 to 4 of R80 that decide whether a SEND is a rendezvous (R180) -/
  | sendTest (ref : EntryRef)
  /-- the zero-length check of a SEND or WRITE of length zero at issue (R107) -/
  | zeroCheck (ref : EntryRef)
  /-- the LKEY check of a POST_RECV (R172) -/
  | postRecv (ref : EntryRef)
  /-- the counter word of WAIT_CTR with what its read returned (R33) -/
  | waitCtr (ref : EntryRef) (r : ReadResult)
  /-- the counter word of SIGNAL (R33) -/
  | signal (ref : EntryRef)
  /-- the source data of one packet that the TXE is building (R107) -/
  | txData (qpn : Nat) (psn : BitVec 32)
  /-- step 8 of R137 for a keyed packet that came at `since` -/
  | rxKeyed (p : Packet) (since : Nat)
  /-- the placement of a SEND packet into the bound receive `recv` (R176) -/
  | rxSend (p : Packet) (recv since : Nat)
  /-- the copy of a complete unexpected message into its receive (R179) -/
  | uxCopy (qpn : Nat) (psn0 : BitVec 32) (bytes : List Byte)
  /-- the result record of an ATOMIC (R377) -/
  | atomicRecord (p : Packet)
  /-- the walk of XLT_LOCK (R97) -/
  | lockPage (ref : EntryRef)
  /-- the descriptor that MR_REGISTER needs (R77) -/
  | mrRegister (ref : EntryRef) (blk : BitVec 256)
  /-- the descriptor that MR_REVOKE needs (R104) -/
  | mrRevoke (ref : EntryRef) (blk : BitVec 128)
  /-- the host data of an operation of a collective instance (R197, R198), with what its reads returned -/
  | colRead (inst op : Nat) (r : ReadResult)
  /-- the bytes that an operation writes to DST (R198) -/
  | colWrite (inst op : Nat) (bytes : List Byte)
  /-- the placement of a COL_DATA packet with HOST set into a member's DST (R204) -/
  | colPlace (inst : Nat) (p : Packet)
  /-- the result record of an instance, with STATUS, DETAIL and VALUE; `op` is the RESULT that writes it, or `none` when
  the instance's failure does (R195, R220) -/
  | colRecord (inst : Nat) (op : Option Nat) (st dt : BitVec 8) (value : BitVec 64)
  /-- a combined CADD at its collector (R219) -/
  | cadd (comb : Nat)
  /-- a host access of a Taper program (R251) -/
  | hxfer (id : Nat)
  deriving DecidableEq, Repr

/-- An access under check (R80). `dom` is the domain of test 4 (`none`: the region's domain need only be allocated to the
function); `rights` are the rights needed, as the descriptor encodes them; `rd` and `wr` the page-level needs;
`testsOnly` stops after test 5 (the descriptor tests of R180). -/
structure Access where
  fn : Nat
  dom : Option (BitVec 16)
  parts : List Part
  rights : BitVec 5
  rd : Bool
  wr : Bool
  testsOnly : Bool
  purpose : Purpose
  deriving DecidableEq, Repr

/-- A walk in progress (R84 to R91): the page's address and domain, the table read now and its level, the table entries
that it has read from memory (to be cached when it completes), and whether it may fill the caches (R96). -/
structure Walk where
  dom : BitVec 16
  va : BitVec 64
  level : Nat
  table : BitVec 64
  path : List WalkEntry
  noFill : Bool
  deriving DecidableEq, Repr

/-- What a suspended access waits for: `ready` and `failed` wait for nothing and are taken up within the same step. -/
inductive Wait where
  | ready
  | failed (detail : Nat)
  | desc (index : Nat)
  | walk (w : Walk)
  deriving DecidableEq, Repr

/-- An access whose check waits for a host-memory read, with the leaves its own walks have found. -/
structure Waiting where
  serial : Nat
  access : Access
  leaves : List Leaf
  wait : Wait
  deriving DecidableEq, Repr

/-- What a drain ends (R96, R97, R104). -/
inductive DrainKind where
  | revoke (index : Nat) (d : Desc)
  | other
  deriving DecidableEq, Repr

/-- An admin entry that waits for a drain (R105): the admitted accesses still in flight that it waits for, and whether
its flushing reads have been issued. -/
structure Drain where
  ref : EntryRef
  kind : DrainKind
  waitFor : List Nat
  flushing : Bool
  deriving DecidableEq, Repr

/-- A posted receive (R169 to R172): its number in posting order, its match list, its posting queue pair and ring, and
its criteria and buffer. `indirect` says that its buffer is a fragment table; `spent`, that its message fell due while its function
was frozen and it waits for its flush (R524). -/
structure Recv where
  id : Nat
  fn : Nat
  arv : Nat
  pd : BitVec 16
  qpn : Nat
  user : BitVec 32
  matchBits : BitVec 64
  ignore : BitVec 64
  source : BitVec 17
  laddr : BitVec 64
  len : Nat
  parts : List Part
  indirect : Bool
  spent : Bool
  deriving DecidableEq, Repr

/-- A receive bound to a message that is still arriving, being copied or being pulled (R176, R179, R182, R186), with the PSNs of
the packets whose bytes have been written and counted. -/
structure BoundRecv where
  recv : Recv
  qpn : Nat
  psn0 : BitVec 32
  msgLen : Nat
  src : BitVec 17
  immV : Bool
  imm : BitVec 32
  written : Nat
  seen : List (BitVec 32)
  flushed : Bool
  pulls : Nat
  skey : BitVec 32
  sva : BitVec 64
  deriving DecidableEq, Repr

/-- What a flushing read was issued for (R105, R467): a drain, or the delivery of a message some of whose placement
writes went on half 1 of its controller, with the receive that it finishes and whether a release follows (R183). -/
inductive FlushFor where
  | drain (ref : EntryRef)
  | notice (fn arv : Nat) (b : Budget) (n : Notice) (recv : Option BoundRecv) (release : Bool)
  deriving DecidableEq, Repr

/-- A live registration, VALID or REVOKING (the counts that R71, R74 and R82 test). -/
structure Region where
  pd : BitVec 16
  btr : Option (BitVec 8)
  deriving DecidableEq, Repr

/-- The XLT. Descriptors and regions are keyed by `fn * 2^24 + index`, domains, BTRs and lockable entries by number.
`live` lists the admitted accesses that have not drained, `dirty` the links that have carried a write with the last write's
function and address, `flushes` the flushing reads in flight on each link, oldest first. -/
structure Xlt where
  pds : Tab Pd
  descs : Tab Desc
  regions : Tab Region
  btrs : Tab Btr
  xtc : List Leaf
  locked : Tab Locked
  walks : List WalkEntry
  waiting : List Waiting
  nextSerial : Nat
  live : List Nat
  dirty : Tab (Nat × BitVec 64)
  drains : List Drain
  flushes : List (Nat × FlushFor)
  deriving DecidableEq, Repr

/-! ## Queue pairs and the Wick cache (QPC) (04: R108 to R130, R523) -/

/-- STATE of a queue pair (R112). -/
inductive QpState where
  | free | reset | init | active | quiesced | error
  deriving DecidableEq, Repr

/-- The parameter fields of a context image (R112). -/
structure QpParam where
  rqPsn : BitVec 32
  sqPsn : BitVec 32
  peerIncarn : BitVec 16
  peerQpn : BitVec 24
  peerEp : BitVec 17
  busyLimit : BitVec 8
  retryLimit : BitVec 8
  errDetail : BitVec 8
  errCause : BitVec 8
  pin : Bool
  egressQ : BitVec 4
  arvId : BitVec 12
  pd : BitVec 16
  incarn : BitVec 16
  state : QpState
  deriving DecidableEq, Repr

/-- The kinds of message that a queue pair's transmit side holds (R135, R136, R180 to R183, R216, R376). -/
inductive TxKind where
  | send | announce | write | read | atomic | counterAdd | pull | release
  deriving DecidableEq, Repr

/-- A packet sent and not yet wholly acknowledged: the packet as last sent, the PSNs of its run still unacknowledged,
when the last copy left, the charge still held in the destination entry (R151 to R153), and whether its data came over half 1
(R14, R460). -/
structure TxPkt where
  pkt : Packet
  left : List (BitVec 32)
  sentAt : Nat
  charge : Nat
  half1 : Bool
  deriving DecidableEq, Repr

/-- A message of the transmit side (R135, R136, R143, R145): its PSN range, what it carries, how many of its PSNs have
been sent, the bytes placed (a READ or pull), its packets outstanding, and when a packet of it last left (R184). -/
structure TxMsg where
  kind : TxKind
  ref : Option EntryRef
  recv : Nat
  msn : BitVec 16
  psn0 : BitVec 32
  npsn : Nat
  len : Nat
  raddr : BitVec 64
  rkey : BitVec 32
  opx : BitVec 64
  parts : List Part
  inline : List Byte
  immV : Bool
  imm : BitVec 32
  notify : Bool
  sentPsns : Nat
  placed : Nat
  pkts : List TxPkt
  lastAt : Nat
  deriving DecidableEq, Repr

/-- A message record of the receive side (R143), and the same facts for a message whose pool slot is held (R62). -/
structure MsgRec where
  msn : BitVec 16
  psn0 : BitVec 32
  msgLen : BitVec 32
  immV : Bool
  imm : BitVec 32
  notify : Bool
  op : BitVec 8
  placed : Nat
  slot : Bool
  half1 : Bool
  deriving DecidableEq, Repr

/-- A QP_MODIFY or QP_DESTROY that waits for its condition (R119, R182, R523). -/
inductive TransKind where
  | quiesce
  | toActive (peerEp : BitVec 17) (peerQpn : BitVec 24) (peerIncarn : BitVec 16)
  | toReset
  | destroy
  deriving DecidableEq, Repr

/-- A transition in progress: its admin entry, its kind, the parameters that it will install and its block's bus
address. -/
structure Trans where
  ref : EntryRef
  kind : TransKind
  par : QpParam
  blk : BitVec 64
  deriving DecidableEq, Repr

/-- What an ACK says of the packet that causes it (R146): its SENT_T, its SRC_INCARN and when it came. -/
structure Heard where
  echo : BitVec 32
  incarn : BitVec 16
  since : Nat
  deriving DecidableEq, Repr

/-- A READ of the peer whose first PSN this side knows (R134): its MSN, that PSN and its number of PSNs. -/
structure ReadAt where
  msn : BitVec 16
  psn0 : BitVec 32
  npsn : Nat
  deriving DecidableEq, Repr

/-- A resident queue-pair context: parameters, transmit state, receive state and matching state (R113). `hollow` marks a
context of which only QPN, STATE and ERR_CAUSE are held (R130). `builtHalf` says
whether the data of the packet being built comes over half 1 (R460). -/
structure Qp where
  par : QpParam
  hollow : Bool
  used : Bool
  changed : Bool
  msn : BitVec 16
  msgs : List TxMsg
  built : Option (BitVec 32 × List Byte)
  builtHalf : Bool
  building : Option (BitVec 32 × Nat)
  retries : Nat
  busy : Nat
  backoff : List (BitVec 32 × Nat)
  bitmap : BitVec 256
  known : BitVec 256
  recs : List MsgRec
  readAt : List ReadAt
  ackPkts : Nat
  ackFirst : Option Heard
  marked : Nat
  counted : Nat
  trans : Option Trans
  deriving DecidableEq, Repr

/-- What a context fetch will serve when it ends, besides the packets held for it (R117, R120, R121): admin entries, and the pull of
a receive bound to an announcement of the queue pair (R182). -/
inductive CtxJob where
  | create (ref : EntryRef) (blk : BitVec 128)
  | modify (ref : EntryRef) (blk : BitVec 256)
  | query (ref : EntryRef)
  | destroy (ref : EntryRef)
  | pull (recv : Nat)
  deriving DecidableEq, Repr

/-- A context fetch (R124, R126): whether it waits for a Wick slot, whether it is the second read, whether it waits to be reissued, whether the
first read failed by CRC, and what waits for it. -/
structure Fetch where
  waitSlot : Bool
  second : Bool
  waitRetry : Bool
  jobs : List CtxJob
  deriving DecidableEq, Repr

/-- A queue pair that is not FREE: its function and the objects that count it as bound (R117). -/
structure Bound where
  fn : Nat
  pd : BitVec 16
  arvId : BitVec 12
  deriving DecidableEq, Repr

/-- The QPC: resident contexts (the Wick cache), the queue pairs that are not FREE, fetches in flight, the miss buffer in
arrival order with the time at which each packet came, the hand of the clock sweep and whether it is evicting (R124). `noticed` lists
the messages of each queue pair for which an ERROR_NOTICE has been written (R102), by MSN and PSN; `half1`, the queue pairs of which a
placement write has gone on half 1 (R467); `dueErr`, the cause and DETAIL with which a queue pair that is not resident enters ERROR
once it is fetched (R127). -/
structure Qpc where
  qps : Tab Qp
  bound : Tab Bound
  fetches : Tab Fetch
  missBuf : List (Packet × Nat)
  hand : Nat
  evicting : Bool
  noticed : Tab (List (BitVec 16 × BitVec 32))
  half1 : List Nat
  dueErr : Tab (BitVec 8 × BitVec 8)
  deriving DecidableEq, Repr

/-! ## The transmit and receive engines (05: R131 to R168) -/

/-- A destination entry (R151, R153, R154, R156). Times are in ns and rates in Gb/s, as the code of R156 has them, but
for the last runs of `every_update` and `every_trip` and the last restart of a minimum, which are in units of `now`. -/
structure Dest where
  outstanding : Nat
  grant : Nat
  srtt : Option Rat
  rttvar : Rat
  rate : Rat
  rateMax : Rat
  alpha : Rat
  base1 : Rat
  base2 : Rat
  baseTurn : Bool
  rttAcc : Rat
  rttN : BitVec 32
  marked : BitVec 32
  counted : BitVec 32
  clean : BitVec 32
  delayMode : Bool
  nocapTrips : BitVec 32
  capTrips : BitVec 32
  tripAcks : BitVec 32
  tripCap : BitVec 32
  tripNocap : BitVec 32
  nextAt : Rat
  updAt : Nat
  tripAt : Nat
  minAt : Nat
  deriving DecidableEq, Repr

/-- The TXE: destination entries, keyed by `host port * 2^17 + endpoint`. -/
structure Txe where
  dests : Tab Dest
  deriving DecidableEq, Repr

/-- Where a packet whose placement writes are being sent was placed from (R140). -/
inductive PlaceKind where
  | write | send | pieces | readResp
  deriving DecidableEq, Repr

/-- A packet whose placement writes have been issued and not yet all sent (R140); `serial` is its admitted access and
`since` when the packet came, and `ser` its number in the staging queue RXP. -/
structure Placing where
  qpn : Nat
  pkt : Packet
  kind : PlaceKind
  serial : Nat
  half1 : Bool
  since : Nat
  ser : Nat
  deriving DecidableEq, Repr

/-- One piece of a READ_REQ's answer, whose data is being read from host memory (R136). -/
structure RespJob where
  qpn : Nat
  resp : Packet
  req : Packet
  serial : Nat
  deriving DecidableEq, Repr

/-- What an update of the atomic unit is made for (R378). -/
inductive AtomKind where
  | atomic (qpn : Nat) (p : Packet)
  | counterAdd (qpn : Nat) (p : Packet) (since : Nat)
  | signal (ref : EntryRef) (addend : BitVec 64)
  | cadd (comb : Nat) (addend : BitVec 64)
  | hxfer (id : Nat) (addend : BitVec 64)
  deriving DecidableEq, Repr

/-- An update of the atomic unit (R378): what for, whose memory, the bus address of the word, the admitted access, and
whether the word is being read, or is being updated by a PCIe AtomicOp (R379), and whether the request lay outside the window and was not
issued (R469). -/
structure AtomJob where
  kind : AtomKind
  fn : Nat
  bus : BitVec 64
  serial : Nat
  reading : Bool
  pcie : Bool
  barred : Bool
  deriving DecidableEq, Repr

/-- An entry of the atomic result table (R380), with the time of the operation. -/
structure AtomResult where
  qpn : Nat
  incarn : BitVec 16
  psn : BitVec 32
  old : BitVec 64
  since : Nat
  deriving DecidableEq, Repr

/-- The RXE: placements in progress, READ answers in progress, the atomic unit, its result table, the sources heard
(keyed by `host port * 2^17 + endpoint`, with the time). -/
structure Rxe where
  placing : List Placing
  resps : List RespJob
  atoms : List AtomJob
  results : List AtomResult
  sources : Tab Nat
  deriving DecidableEq, Repr

/-! ## The matching engine (MTE) (06: R169 to R191) -/

/-- An unexpected or pending message (R174, R178, R179, R181): where it arrived, its header facts, its pool pieces or
its descriptor, whether every byte has arrived, and the receive to which it has been bound. -/
structure Unexp where
  fn : Nat
  arv : Nat
  pd : BitVec 16
  qpn : Nat
  psn0 : BitVec 32
  src : BitVec 17
  m : BitVec 64
  msgLen : Nat
  immV : Bool
  imm : BitVec 32
  announce : Bool
  sva : BitVec 64
  skey : BitVec 32
  pieces : List Nat
  complete : Bool
  eligible : Bool
  order : Nat
  bound : Option Recv
  deriving DecidableEq, Repr

/-- The MTE: posted receives in posting order, bound receives, unexpected messages, and the counters that number
receives and eligible messages. -/
structure Mte where
  posted : List Recv
  bound : List BoundRecv
  unexp : List Unexp
  nextRecv : Nat
  nextOrder : Nat
  deriving DecidableEq, Repr

/-! ## The switch core (XBR) (09: R270 to R302) -/

/-- A packet in an input VC: its input (fabric port 0 to 127, attachment 128 to 183, or 184, the device's own COL, CND or MGT), the
credit index that it occupies there (VC 0 to 25, or 26 to 31 for an acknowledgement lane), the number of the link-up in which it
arrived (0 for an attachment), its intra budget (R281), whether the choice of R284 has been made, the EGRESS_Q of the queue pair that
sent it (R340; 0 for none), its number in a staging queue, and when the switch core begins and ends taking it from there (R165); of what
the own COL, CND or MGT sends the port that it has chosen, and the number of the MCAST whose cells it shares (R203; 0 for none); and whether
it has been demoted here (R355). -/
structure InPkt where
  inp : Nat
  idx : Nat
  up : Nat
  pkt : Packet
  budget : Nat
  decided : Bool
  queue : Nat
  ser : Nat
  since : Nat
  till : Nat
  out : Option Nat
  copy : Nat
  demoted : Bool
  deriving DecidableEq, Repr

/-- A packet in an egress queue of a fabric port (R340, R341): the queue, the credit index at the next hop, the packet with
its header updated for the hop, the packet as it arrived, when it entered the queue, and from when it may be sent (R166). `fixed` marks
a copy that the CND, the COL or the MGT sends to one neighbour. -/
structure EgPkt where
  port : Nat
  q : Nat
  idx : Nat
  pkt : Packet
  src : InPkt
  since : Nat
  ready : Nat
  fixed : Bool
  deriving DecidableEq, Repr

/-! ## Staging queues (05: R163 to R168) -/

/-- A packet in a staging queue: its number there, its cells, when its writing begins, the time that a cell takes to be written and to
be read in 1/400 ns (0: written when it comes), and when the consumer begins it and has read it whole. -/
structure StgPkt where
  id : Nat
  pkt : Packet
  cells : Nat
  start : Nat
  wr : Nat
  rd : Nat
  begins : Nat
  till : Nat
  deriving DecidableEq, Repr

/-- A staging queue: its packets, oldest first, and the cells of the packets that have left it, which each copy of its pointers counts
(R168). -/
structure StgQ where
  pkts : List StgPkt
  gone : Nat
  goneB : Nat
  deriving DecidableEq, Repr

/-- The staging queues, keyed by `128 * kind + instance`, and the number of the next packet. -/
structure Staging where
  next : Nat
  queues : Tab StgQ
  deriving DecidableEq, Repr

/-- The XBR: packets in input VCs and in egress queues, both in arrival order, each input's rotating pointer (R283), and when the chip ID was
last set (R276, R490). -/
structure Xbr where
  inq : List InPkt
  egq : List EgPkt
  ptr : Tab Nat
  since : Nat
  deriving DecidableEq, Repr

/-! ## Itzor Link (LNK) (10: R303 to R329) -/

/-- A data frame kept until LACK covers it (R314). -/
structure HeldFrame where
  seq : Nat
  idx : Nat
  pkt : Packet
  src : InPkt
  deriving DecidableEq, Repr

/-- A timestamp exchange that this side has started (R319): its TSEQ, T1, when it was sent, and whether a switch or a
framing error has fallen since. -/
structure TsOut where
  tseq : BitVec 16
  t1 : BitVec 32
  sentAt : Nat
  spoilt : Bool
  deriving DecidableEq, Repr

/-- A RECONFIG that this side has started (R316): proposal, sequence number, when it was started and when it was last sent. -/
structure Reconf where
  lanes : BitVec 4
  ll : Bool
  seq : BitVec 16
  since : Nat
  sentAt : Nat
  deriving DecidableEq, Repr

/-- A port's link: the number of its link-ups; whether a signal is present; LNK_ADV as the negotiation in progress or the link uses it
(R324); the last valid page of each lane with the length of its run, and the lanes on which a run of three has come; the reductions of
HEALTHY and of the rates offered; the lanes that the link may use, in service or not (R316); when the step of bring-up in progress has
exceeded its limit (R308); sequence numbers; frames held for replay; whether every data frame counts as
damaged until a replay begins (R311); whether a replay is awaited, and when the RETRY_REQ is repeated; the
LACK of the last RETRY_REQ received with the replays made from it, and when the last of these ends; per-index cells sent (S), latest COUNT (C) and first COUNT; the reservation
of a VC that this link-up has advertised (R293, R312), cells freed per index since link-up, and cells granted to it from the shared pool;
the rotation of CREDIT; timestamp exchange, when the next is due, and time of the last valid control frame; a RECONFIG in progress; lanes that are
out of service and whose background training has begun; RECONFIG number; whether the error ratios at the end of training
allow LL; failed attempts since the last HOLD, whether the HOLD shown is the DOWN_HOLD of R315, and when it ends. -/
structure Link where
  ups : Nat
  signal : Bool
  adv : BitVec 16
  pages : Tab (BitVec 64 × Nat)
  three : BitVec 4
  healthy : BitVec 4
  rates : BitVec 3
  usable : BitVec 4
  stepDue : Option Nat
  txSeq : Nat
  rxSeq : Nat
  held : List HeldFrame
  resync : Bool
  rxWait : Bool
  retryDue : Nat
  replayLack : Nat
  replays : Nat
  replayEnd : Nat
  sent : Tab Nat
  count : Tab Nat
  count0 : Tab Nat
  vcMin : Nat
  freed : Tab Nat
  shared : Tab Nat
  rot : Nat
  tsSeq : BitVec 16
  ts : Option TsOut
  tsDue : Nat
  lastCtl : Nat
  rc : Option Reconf
  rcSeq : BitVec 16
  retrain : BitVec 4
  llOk : Bool
  tries : Nat
  downHold : Bool
  holdDue : Nat
  deriving DecidableEq, Repr

/-! ## The Lamplighter (LLT) and the time unit (TMU) (11: R330 to R365) -/

/-- The Lamplighter: for each port the queue whose turn it is (listed when not 4), the deficits and grants of R342 and the sublist
pointers of R341, keyed by `16 * port + queue`, the histogram bins of R359 keyed by their place among all bins, and the last instant of
GTIME that was sampled. -/
structure Llt where
  cur : Tab Nat
  deficit : Tab Nat
  granted : List Nat
  rr : Tab Nat
  hist : Tab Nat
  sampled : Option Nat
  deriving DecidableEq, Repr

/-- The TMU servo (R334 to R337): the frequency term, the runs of good and bad offsets, the slew being applied (units over
`slewT` ns, with its fractional accumulator and the 1/16 ns still to run), the samples kept for each time port since the last run (sum and number), the
edge captured for the next run, the moment from which a lost edge is told, when HOLDOVER began, and whether a LOAD waits for an edge. -/
structure Tmu where
  integ : Int
  good : BitVec 32
  bad : BitVec 32
  slew : Int
  slewT : Nat
  slewAcc : Int
  slewLeft : Nat
  kept : Tab (Int × Nat)
  pps : Option (BitVec 64)
  lastEdge : Option Nat
  holdSince : Option Nat
  loadWaits : Bool
  deriving DecidableEq, Repr

/-! ## Collectives (COL) and result mailboxes (MBX) (07: R192 to R229) -/

/-- How far an operation of a program has come: handed over by COLOP; its access under check; waiting for acknowledgements
(counted in `Col.tx`), with the parts sent so far, or for CADD_ACK; an RDU at work, with the admitted read of its host inputs. -/
inductive ColPhase where
  | queued
  | checking
  | waiting (sent : Nat)
  | reducing (rdu : Nat) (serial : Option Nat)
  deriving DecidableEq, Repr

/-- A chunk buffer held by an instance (R199): its bytes, whether it is complete, what chunk it holds (source, TAG and
CHUNK, PART and PARTS), and whether its bytes are known to be an exact partial (R214), which an arriving packet does not
tell. -/
structure CBuf where
  full : Bool
  data : List Byte
  peer : BitVec 17
  psn : BitVec 32
  part : Nat
  parts : Nat
  isPartial : Option Bool
  deriving DecidableEq, Repr

/-- An operation of a collective program (R197) that has not finished. `kept` holds the input buffers of a REDUCE that have been
freed while it runs (R211). -/
structure ColOp where
  id : Nat
  desc : BitVec 512
  phase : ColPhase
  kept : Tab CBuf
  deriving DecidableEq, Repr

/-- A credit received (R199): its sender, TAG and CHUNK, the chunk buffer that it names, and whether a part has been sent
against it. -/
structure ColCredit where
  peer : BitVec 17
  psn : BitVec 32
  buf : Nat
  used : Bool
  deriving DecidableEq, Repr

/-- A collective instance at an endpoint of this device (R192 to R195): host port, function, COMM, SEQ and PROG; its
COL_START entry and Taper invocation; the descriptor's header and the domain of the descriptor's key; the failure, if it
has failed; whether COL_START has finished, and whether its result has been written; endpoints met; operations; chunk
buffers; credits; the HOST parts already placed (source, TAG and CHUNK, PART, ADDR). -/
structure ColInst where
  hp : Nat
  fn : Nat
  comm : BitVec 32
  seq : BitVec 16
  prog : BitVec 16
  ref : EntryRef
  inv : Nat
  head : BitVec 512
  pd : BitVec 16
  failed : Option (BitVec 8 × BitVec 8)
  finished : Bool
  resultDone : Bool
  met : List (BitVec 17)
  ops : List ColOp
  nextOp : Nat
  bufs : Tab CBuf
  credits : List ColCredit
  hostSeen : List (BitVec 17 × BitVec 32 × BitVec 16 × BitVec 64)
  deriving DecidableEq, Repr

/-- A collective packet that waits for its COL_ACK (R201): the instance and operation that sent it, the host port and
packet, resends made, when it was last sent, and the COL_RTO in force then (R229). -/
structure ColTx where
  id : Nat
  inst : Nat
  op : Option Nat
  hp : Nat
  pkt : Packet
  tries : Nat
  sentAt : Nat
  rto : Nat
  deriving DecidableEq, Repr

/-- An entry of the early table (R196, R199, R219): what is held for a handle that is not active at an endpoint. -/
structure Early where
  hp : Nat
  comm : BitVec 32
  seq : BitVec 16
  credits : List ColCredit
  combs : List Nat
  tomb : Option Nat
  deriving DecidableEq, Repr

/-- Whose update a combined CADD has taken custody of (R218): an upstream hop, with the
endpoint that its packet came from, or an operation of this device. -/
inductive Custody where
  | hop (inp : Nat) (seq : BitVec 32) (ep : BitVec 17)
  | op (inst id : Nat)
  deriving DecidableEq, Repr

/-- Where a combined CADD stands (R217 to R219): open at its egress, sent, held in the early table, under check or being
applied at the collector. -/
inductive CombPhase where
  | open_ | sent | early | applying
  deriving DecidableEq, Repr

/-- A combined CADD (R217, R218). `egress` is a fabric port, or 184 for this device's own COL; `wait` is the interval that runs
since `since`: COMB_INT while it is open, COL_RTO once it is sent (R229); `budget` is the intra budget of its first constituent. -/
structure Comb where
  egress : Nat
  budget : Nat
  pkt : Packet
  custody : List Custody
  phase : CombPhase
  since : Nat
  wait : Nat
  deriving DecidableEq, Repr

/-- A long accumulator with its flags (R212, R213): bit j of `v` has weight 2^(j − 2148). -/
structure Lac where
  v : BitVec 4288
  nanf : Bool
  pinf : Bool
  ninf : Bool
  allNeg0 : Bool
  deriving DecidableEq, Repr

/-- The COL. `lacs` holds the accumulators of the RDUs, four at each physical site (R212), by 4 · site + k. Instances are keyed by a running number, `combs` by slot 0 to 2,047; `done` holds the hops whose CADDs have
been acknowledged, newest first (R218). -/
structure Col where
  insts : Tab ColInst
  nextInst : Nat
  tx : List ColTx
  nextTx : Nat
  early : List Early
  combs : Tab Comb
  hopSeq : BitVec 32
  done : List (Nat × BitVec 32)
  lacs : Tab Lac
  deriving DecidableEq, Repr

/-- States of a mailbox (R225). -/
inductive MbxState where
  | empty | armed | full
  deriving DecidableEq, Repr

/-- A result mailbox (R224, R225); `inst` is the instance for which it is armed. -/
structure Mbx where
  state : MbxState
  gen : BitVec 16
  status : BitVec 8
  detail : BitVec 8
  value : BitVec 64
  inst : Nat
  deriving DecidableEq, Repr

/-! ## Taper cores (TPR) (08: R230 to R269) -/

/-- What an activation waits for while it holds its core (R245, R246): an event whose KIND bit is set in a mask, a
semaphore, the operations of its invocation (END), or its own HXFERs (RET of a message activation). -/
inductive ActWait where
  | event (mask : BitVec 16) (rd : Nat)
  | sem (n : Nat) (rd : Nat)
  | ending
  | returning
  deriving DecidableEq, Repr

/-- An event queue (R247, R248): the words queued, oldest first, with an ABORT before the others; slots held; and the armed
timer's time. -/
structure EvQueue where
  words : List (BitVec 64)
  slots : Nat
  timer : Option Nat
  deriving DecidableEq, Repr

/-- A trigger object (R254): its bytes and the cells that it holds, or nothing after CFREE. -/
structure TrigObj where
  bytes : List Byte
  cells : Nat
  deriving DecidableEq, Repr

/-- An activation running on a core (R243): its number, program and image, its invocation (`none`: a message activation,
with its own event queue, trigger object and the class of its trigger), program counter, registers, start time, the
WDOG in force then in 1/16 ns (R267), and what it waits for. -/
structure Act where
  uid : Nat
  prog : Nat
  image : Nat
  inv : Option Nat
  pc : BitVec 64
  w : Vector (BitVec 64) 16
  v : Vector (BitVec 512) 4
  started : Nat
  wdog : Nat
  wait : Option ActWait
  evq : EvQueue
  obj : Option TrigObj
  cls : BitVec 3
  deriving DecidableEq, Repr

/-- A logical core: the activation that it runs, and when it was last reset. -/
structure Core where
  act : Option Act
  resetAt : Nat
  deriving DecidableEq, Repr

/-- An image installed in clusters (R238, R265): its program, the function that loaded it and the PD of its load (R242); the offsets of START, EVENT and MSGE; VERSION; code and
read-only lengths; MAX_INST, INST_SIZE and DATA_SIZE in bytes; where it lies in each cluster (code, instance area, data
segment); the clusters where it has been withdrawn from dispatch (R233). -/
structure Image where
  prog : Nat
  owner : Nat
  pd : BitVec 16
  start : BitVec 32
  event : BitVec 32
  msge : BitVec 32
  version : BitVec 32
  codeLen : Nat
  roLen : Nat
  maxInst : Nat
  instSize : Nat
  dataSize : Nat
  place : Tab (Nat × Nat × Nat)
  ownsData : Bool
  withdrawn : List Nat
  deriving DecidableEq, Repr

/-- STATE of a program (R269); a FREE one is not held. -/
inductive ProgState where
  | live | frozen | unloading
  deriving DecidableEq, Repr

/-- A program (R239, R242, R269): owner, domain, handler key, KIND, clusters, its current image and the superseded ones
that still drain, and the entry of the UNLOAD that waits. -/
structure Prog where
  owner : Nat
  pd : BitVec 16
  hkey : BitVec 32
  collective : Bool
  clusters : BitVec 16
  state : ProgState
  image : Nat
  old : List Nat
  unload : Option EntryRef
  deriving DecidableEq, Repr

/-- An invocation (R243): its number, program, image, cluster and instance-block slot, its KCS entry with Y64 and X64, its
descriptor length, event queue and trigger object, the operations outstanding, its collective instance (0 for none), whether
END has been executed, whether a START or EVENT activation is ready or running, and the failure that ends it once its
operations are over. -/
structure Invoc where
  num : Nat
  prog : Nat
  image : Nat
  cluster : Nat
  slot : Nat
  ref : EntryRef
  y64 : BitVec 64
  x64 : BitVec 64
  descLen : Nat
  evq : EvQueue
  obj : Option TrigObj
  ops : Nat
  inst : Nat
  ended : Bool
  busy : Bool
  failed : Option (BitVec 8 × BitVec 8)
  deriving DecidableEq, Repr

/-- A ready activation of a cluster (R244): an invocation's START or EVENT, or an accepted message. -/
inductive Ready where
  | inv (id : Nat) (start : Bool)
  | msg (prog : Nat) (p : Packet) (cells : Nat)
  deriving DecidableEq, Repr

/-- Who takes the event of an HXFER or MSG: an invocation, an activation of a core, or nobody any more. -/
inductive OpOwner where
  | inv (id : Nat)
  | act (core uid : Nat)
  | none
  deriving DecidableEq, Repr

/-- A host access in progress (R251): DIR, LADDR, LEN and TAG, the bytes read at issue (DIR 1), the core and cluster whose
local memory it uses, the admitted access once it has passed its check, and its outcome once that is known. -/
structure Hxfer where
  owner : OpOwner
  fn : Nat
  dir : Nat
  core : Nat
  laddr : BitVec 64
  len : Nat
  tag : BitVec 16
  bytes : List Byte
  serial : Option Nat
  outcome : Option (BitVec 8 × BitVec 8)
  deriving DecidableEq, Repr

/-- A Taper message that waits for its TMSG_ACK (R258). -/
structure TmsgTx where
  /-- attachment of the cluster that sent it (R230) -/
  att : Nat
  pkt : Packet
  owner : OpOwner
  tag : BitVec 16
  tries : Nat
  sentAt : Nat
  /-- the TM_RTO in force when it was last sent (R267) -/
  rto : Nat
  deriving DecidableEq, Repr

/-- A TAPER_LOAD whose image is being read (R240). -/
structure TLoad where
  ref : EntryRef
  blk : BitVec 512
  deriving DecidableEq, Repr

/-- The TPR. LDM cells are keyed by `core * 0x8000 + offset` and CSM cells by `cluster * 2^22 + address`; a cell not listed
reads zero. `ready` is keyed by cluster; programs by handle; images, invocations and HXFERs by running numbers; `accept` is
the acceptance table of R259 (chip, PSN, expiry). -/
structure Tpr where
  ldm : List Host.Cell
  csm : List Host.Cell
  cores : Tab Core
  progs : Tab Prog
  images : Tab Image
  invocs : Tab Invoc
  ready : Tab (List Ready)
  hxfers : Tab Hxfer
  tmsgs : List TmsgTx
  psn : BitVec 32
  accept : List (Nat × BitVec 32 × Nat)
  loads : Tab TLoad
  nextId : Nat
  deriving DecidableEq, Repr

/-! ## The lock unit (LCK) (12: R366 to R374) -/

/-- A semaphore (R367 to R371): its holder, its queue, GRANTS, ABANDONED, and the last abandoner while a release by it is
still excused. -/
structure Sem where
  holder : Option (BitVec 12)
  queue : List (BitVec 12)
  grants : BitVec 16
  abandoned : Bool
  excused : Option (BitVec 12)
  deriving DecidableEq, Repr

/-! ## Fault containment (SNF) (13: R387 to R399) -/

/-- An access that is held at the crossing of a unit while that is fenced or switched off (R389, R407): of the LCK a function's write of kind
0 to 2 (LCK_ACQ, LCK_REL, LCK_CANCEL) or 3 to the rest of a semaphore's 64 bytes, its read, and the reset of a master; of the MBX a function's
release of a mailbox, and a result; of any block a write of a register of management space or of a function's own range, with its byte
enables; and of the SEC an operation, with whether the fuse supply is in range. -/
inductive HeldReq where
  | lck (f kind n bytes : Nat)
  | stat (f n off bytes : Nat)
  | mbxRel (f n off bytes : Nat) (v : BitVec 64)
  | mbxFill (n : Nat) (st dt : BitVec 8) (v : BitVec 64)
  | reset (m : BitVec 12)
  | reg (m : BitVec 12) (off : Nat) (be : BitVec 8) (v : BitVec 64)
  | fn (f off : Nat) (be : BitVec 8) (v : BitVec 64)
  | sec (op : Nat) (vqps : Bool)
  deriving DecidableEq, Repr

/-- The Snuffer: for each unit with strikes, the times of its strikes (R387); cluster memories out of service; spares taken and
not yet in service, with the logical unit that they will serve and when they can; RESTART units being reset in place; the unit under restore; units
whose self test runs after a reset; and accesses held at crossings, oldest first. -/
structure Snf where
  strikes : List (SUnit × List Nat)
  clusters : List Nat
  spares : List (SUnit × Nat × Nat)
  restarting : List Nat
  restore : Option SUnit
  tests : List SUnit
  held : List HeldReq
  deriving DecidableEq, Repr

/-! ## Clocks and power (CLK) (14: R401 to R420) -/

/-- A transition between power states in progress: the master's TARGET and the states still to be reached. -/
structure PTrans where
  target : Nat
  path : List Nat
  deriving DecidableEq, Repr

/-- The CLK: domains whose supply is ramping (at most four), the transition in progress, a GO of SNF_CTRL that waits for P0,
whether the device is held: in P3, after a thermal trip, by TEST_EN, or in the COLD reset of a brown-out (with the rails
that are out); and of the event crossings into the EVC (R409, R410), by stream, until when one in the BKM-8520 mode is busy and the pulses
pending while the EVC is stopped, with the mode in which they are kept (R411: `true` for the native one). Of a thermal trip it keeps the
time (R516). -/
structure Clk where
  ramping : List Nat
  trans : Option PTrans
  restoreWaits : Bool
  off : Bool
  testEn : Bool
  trip : Option Nat
  brown : List Nat
  busy : Tab Nat
  held : Tab (Bool × Nat)
  deriving DecidableEq, Repr

/-! ## Security (SEC) (15: R421 to R442) -/

/-- A lifecycle bit as its three copies (R421). -/
structure FuseBit where
  a : Bool
  b : Bool
  c : Bool
  deriving DecidableEq, Repr

/-- The bit that the copies vote for. -/
def FuseBit.vote (f : FuseBit) : Bool := (f.a && f.b) || (f.a && f.c) || (f.b && f.c)

/-- Do the copies agree? -/
def FuseBit.agrees (f : FuseBit) : Bool := f.a == f.b && f.b == f.c

/-- All copies blown or none. -/
def FuseBit.all (x : Bool) : FuseBit := ⟨x, x, x⟩

/-- The eFuses (R421, R423, R434, R435). A digest is `none` while its slot is not written. -/
structure Fuses where
  prov : FuseBit
  seal_ : FuseBit
  rma : FuseBit
  own : Vector (Option (List Byte)) 4
  orev : BitVec 4
  odbg : Option (List Byte)
  seed : Option (BitVec 256)
  idkd : List Byte
  svn : Nat
  member : BitVec 8
  stepMaj : BitVec 4
  stepMin : BitVec 4
  wafer : BitVec 5
  lot : BitVec 40
  dieX : BitVec 8
  dieY : BitVec 8
  deriving DecidableEq, Repr

/-- A command of the SEC that runs (R426): its OP, the RESULT that it will give, and when it ends. -/
structure SecJob where
  op : Nat
  result : Nat
  due : Nat
  deriving DecidableEq, Repr

/-- The SEC: fuses, the halts in force (a core, or `none` for the MGT), and the command that runs. -/
structure Sec where
  fuses : Fuses
  halts : List (Option Nat)
  job : Option SecJob
  deriving DecidableEq, Repr

/-- JTAG instructions whose effect lasts (R430). -/
inductive JtagIr where
  | idcode | bypass | samplePreload | extest | clamp | highz
  deriving DecidableEq, Repr

/-- The test access port: the current instruction and the boundary register's preloaded cells. -/
structure Jtag where
  ir : JtagIr
  boundary : List Bool
  deriving DecidableEq, Repr

/-! ## Lantern (LTN) (16: R450 to R457) -/

/-- A Lantern record with its island (R453): a value or an entry that the island took at a crossing, a part of its snapshot, and what the
block's own events write. -/
inductive LtnRec where
  | take (island crossing : Nat) (value : List (BitVec 64))
  | fifo (island crossing : Nat) (entry : List (BitVec 64))
  | snap (island : Nat) (part : List (BitVec 64))
  | mark (island : Nat) (src : Nat)
  | trigger (island : Nat) (cause : Nat)
  | tick (island : Nat)
  | gap (island : Nat)
  | start (island : Nat) (uid id gtime : BitVec 64) (reset : Bool)
  | stop (island : Nat)
  deriving DecidableEq, Repr

/-- A record as it is written: its words, GTIME when it was made, and whether it belongs to the pinned part, from START through the last SNAP
(R455). -/
structure LtnOut where
  words : List (BitVec 64)
  gtime : BitVec 64
  pin : Bool
  deriving DecidableEq, Repr

/-- A frame (R452): FSEQ, the GTIME of its first record, and the words of its records. -/
structure LtnFrame where
  seq : Nat
  gtime : BitVec 64
  words : List (BitVec 64)
  deriving DecidableEq, Repr

/-- The LTN: islands selected in this recording and still to be snapshotted, the first of them in its pause; islands started and still
recorded; the time of each island's last record; records that no frame holds yet, oldest first; the GTIME of the frame being filled with the
words in it; the ring in host memory of the recording (its bus address and LOG2FRAMES), or none in RING; the buffer on the logic die: frames
by slot, and words that have been written over them; frames still to be written after a trigger; first occurrences raised in an island during
its snapshot (with their sources); the frames completed since START and how many of them are pinned; and whether replay runs, of which
islands, and where they are held (island and cycle). -/
structure Ltn where
  todo : List Nat
  live : List Nat
  prev : Tab Nat
  recs : List LtnOut
  frameTime : BitVec 64
  frame : List (BitVec 64)
  ring : Option (Nat × Nat)
  buf : Tab LtnFrame
  patch : Tab (BitVec 64)
  post : Option Nat
  late : List (Nat × Nat)
  frames : Nat
  pinned : Nat
  replaying : Bool
  replayed : List Nat
  heldAt : Option (Nat × Nat)
  deriving DecidableEq, Repr

/-! ## Start-up, the MGT and the persistent store (18: R482 to R497) -/

/-- An xSPI operation on the flash. -/
inductive XOp where
  | erase (addr : Nat)
  | program (addr : Nat) (bytes : List Byte)
  deriving DecidableEq, Repr

/-- Where the boot ROM stands in R495: pass `n` of its loop with the header in force, before or after the header change that
precedes authentication. -/
inductive BootAt where
  | try_ (n : Nat)
  | auth (n : Nat)
  deriving DecidableEq, Repr

/-- A HEADER record's body (R494). -/
structure Header where
  primary : Nat
  state0 : Nat
  state1 : Nat
  len0 : BitVec 32
  len1 : BitVec 32
  deriving DecidableEq, Repr

/-- The MGT's start-up logic: the flash (cells not listed read 0xFF), xSPI operations in order, the boot ROM's place while a
header change is written, whether a restart waits for the operation in progress (with its CAUSE), the log sector open since this
start with its next offset, what the PCIe controllers wait for (the time at which PERST_N rose, and whether the 1 s of R488 is over),
the log records not begun yet: type and body, when RECOVERY makes the selection again (R495), until when a WARM reset lasts (R487), and the MGT's
memories, as HALT has written them (cells not listed read 0). -/
structure Mgt where
  flash : List Host.Cell
  xops : List XOp
  boot : Option BootAt
  restart : Option Nat
  sector : Option (Nat × Nat)
  perst : Tab Nat
  expired : List Nat
  log : List (Nat × List Byte)
  again : Nat
  warm : Nat
  mem : List Host.Cell
  deriving DecidableEq, Repr

/-! ## The host interface (HIF) (17: R458 to R483) -/

/-- The configuration-space fields of a function that the block acts on: MSI-X Enable and Function Mask, Enable Relaxed
Ordering, the power state, the enables of ASPM L1 and of L0p, Max_Payload_Size and Max_Read_Request_Size, BAR0, and for a PF its VF Enable, NumVFs, VF BAR0 and
Completion Timeout Value. -/
structure FnCfg where
  msixEnable : Bool
  msixMask : Bool
  relaxed : Bool
  d3hot : Bool
  vfEnable : Bool
  numVfs : BitVec 16
  cplTimeout : BitVec 4
  l1Enable : Bool
  l0pEnable : Bool
  maxPayload : BitVec 3
  maxRead : BitVec 3
  bar0 : BitVec 64
  vfBar0 : BitVec 64
  deriving DecidableEq, Repr

/-- The fields at their PCI Express reset values: payloads of 128 bytes, reads of 512, and BARs that hold their type alone. -/
def FnCfg.reset : FnCfg :=
  { msixEnable := false, msixMask := false, relaxed := true, d3hot := false, vfEnable := false, numVfs := 0,
    cplTimeout := 0, l1Enable := false, l0pEnable := false, maxPayload := 0, maxRead := 2, bar0 := 4, vfBar0 := 4 }

/-- The HIF: configuration fields by function, and of AUX j by controller (R459); for each controller which half the next split packet uses
(R460); and by link the lanes that its training found (R481). -/
structure Hif where
  cfg : Tab FnCfg
  aux : Tab FnCfg
  half : Tab Bool
  lanes : Tab Nat
  deriving DecidableEq, Repr

/-! ## The State -/

/-- The State of the block. `regs` holds the registers of management space by their offset, `fregs` those of the
functions, each listed where it has been written; `Regs.lean` gives every other its reset value. `now` counts 1/16 ns
since reset. `free` numbers the free values taken so far: it is the model's own field. -/
structure State where
  regs : Tab (BitVec 64)
  fregs : Tab (BitVec 64)
  now : Nat
  gtime : BitVec 64
  hif : Hif
  cmp : Cmp
  xlt : Xlt
  qpc : Qpc
  txe : Txe
  rxe : Rxe
  mte : Mte
  stg : Staging
  xbr : Xbr
  links : Tab Link
  llt : Llt
  tmu : Tmu
  col : Col
  mbx : Tab Mbx
  tpr : Tpr
  sems : Tab Sem
  snf : Snf
  clk : Clk
  sec : Sec
  jtag : Jtag
  ltn : Ltn
  mgt : Mgt
  out : List Output
  free : Nat
  pending : List Instr
  deriving DecidableEq, Repr

/-! ## Stops

Every command has an effect that the spec states, so no meaning of the model ends in a fault or a refusal. -/

/-- The reasons for which a command can stop with a fault. -/
inductive Fault where
  /-- Raised by nothing: the block has no command that the spec stops. Safe. -/
  | unused
  deriving DecidableEq, Repr

/-- The reasons for which a command can be refused. -/
inductive Refusal where
  /-- Raised by an arm of `exec` whose command has no meaning in the model yet. Safe. -/
  | notModelled (mnemonic : String)
  deriving DecidableEq, Repr

/-! ## Reset -/

/-- The eFuses of a die that has left the factory with MEMBER 0x04 (9740) and nothing provisioned (R421, R434). -/
def Fuses.reset : Fuses :=
  { prov := .all false, seal_ := .all false, rma := .all false, own := Vector.replicate 4 none, orev := 0, odbg := none, seed := none,
    idkd := [], svn := 0, member := 4, stepMaj := 0, stepMin := 0, wafer := 0, lot := 0, dieX := 0, dieY := 0 }

/-- The Taper cores idle, no program, every memory cell at its unlisted value (R497). -/
def Tpr.reset : Tpr :=
  { ldm := [], csm := [], cores := [], progs := [], images := [], invocs := [], ready := [], hxfers := [], tmsgs := [],
    psn := 0, accept := [], loads := [], nextId := 1 }

/-- The units that run a self test at reset (R489, R402): those whose domains come on. -/
def resetTests : List SUnit :=
  (List.range 16).map (fun t => .tile (BitVec.ofNat 4 t)) ++ (List.range 16).map (fun c => .cluster (BitVec.ofNat 4 c)) ++
  (List.range 128).map (fun c => .core (BitVec.ofNat 8 c)) ++ (List.range 32).map (fun s => .rdu (BitVec.ofNat 6 s)) ++
  (List.range 256).map (fun g => .bank (BitVec.ofNat 8 g)) ++
  ([116, 117, 118, 119, 120, 121, 123, 125, 126, 127, 128, 130, 133, 134, 136, 137, 138, 139, 140, 141].map
    (fun n => .restart (BitVec.ofNat 8 n)))

/-- The State right after a COLD reset with every strap 0 (R482, R497): registers at their reset values, nothing in progress,
the boot ROM about to select an image (R495). -/
def State.reset : State :=
  { regs := []
    fregs := []
    now := 0
    gtime := 0
    hif := ⟨[], [], [], []⟩
    cmp := ⟨[], [], [], 1⟩
    xlt := ⟨[], [], [], [], [], [], [], [], 1, [], [], [], []⟩
    qpc := ⟨[], [], [], [], 0, false, [], [], []⟩
    txe := ⟨[]⟩
    rxe := ⟨[], [], [], [], []⟩
    mte := ⟨[], [], [], 0, 0⟩
    stg := ⟨1, []⟩
    xbr := ⟨[], [], [], 0⟩
    links := []
    llt := ⟨[], [], [], [], [], none⟩
    tmu := ⟨0, 0, 0, 0, 1000, 0, 0, [], none, none, none, false⟩
    col := ⟨[], 1, [], 0, [], [], 0, [], []⟩
    mbx := []
    tpr := Tpr.reset
    sems := []
    snf := ⟨[], [], [], [], none, resetTests, []⟩
    clk := ⟨[], none, false, false, false, none, [], [], []⟩
    sec := ⟨Fuses.reset, [], none⟩
    jtag := ⟨.idcode, []⟩
    ltn := ⟨[], [], [], [], 0, [], none, [], [], none, [], 0, 0, false, [], none⟩
    mgt := ⟨[], [], some (.try_ 0), none, none, [], [], [], 0, 0, []⟩
    out := []
    free := 0
    pending := [] }

end Sys2Proof.Machine
end

