-- ==== Sys2Proof/Machine/Ops.lean ====
section
/-! DEFINITION. The named operations over the State that every family uses: tables, bit fields, registers, the output
record, host-memory requests through the permitted windows, event counters, MSI-X, fault capture and free values. -/

namespace Sys2Proof.Machine

/-! ### Tables -/

/-- The value listed at a key. -/
def tget {α : Type} : Tab α → Nat → Option α
  | [], _ => none
  | (k, v) :: t, i => if k == i then some v else if i < k then none else tget t i

/-- The table with a value at a key; keys stay rising. -/
def tset {α : Type} : Tab α → Nat → α → Tab α
  | [], i, x => [(i, x)]
  | (k, v) :: t, i, x =>
    if k == i then (i, x) :: t else if i < k then (i, x) :: (k, v) :: t else (k, v) :: tset t i x

/-- The table with nothing at a key. -/
def tdel {α : Type} : Tab α → Nat → Tab α
  | [], _ => []
  | (k, v) :: t, i => if k == i then t else if i < k then (k, v) :: t else (k, v) :: tdel t i

/-- The table with the value at a key changed, if one is listed. -/
def tmod {α : Type} (t : Tab α) (i : Nat) (f : α → α) : Tab α :=
  match tget t i with
  | some x => tset t i (f x)
  | none => t

/-- The keys of a table rise strictly. -/
def Tab.wf {α : Type} : Tab α → Bool
  | [] => true
  | [_] => true
  | (k, _) :: (k', v') :: t => decide (k < k') && Tab.wf ((k', v') :: t)

/-- The lowest number from `lo` that is below `hi` and is not a key (R56, R66, R70: the lowest free identifier). -/
def tfree {α : Type} (t : Tab α) (hi : Nat) : Nat → Nat → Option Nat
  | _, 0 => none
  | lo, n + 1 => if hi ≤ lo then none else if (tget t lo).isNone then some lo else tfree t hi (lo + 1) n

/-! ### Bit fields and bytes -/

/-- Bits [hi:lo] of a bit vector, as a number (R2). -/
def bits {n : Nat} (hi lo : Nat) (v : BitVec n) : Nat := v.toNat / 2 ^ lo % 2 ^ (hi + 1 - lo)

/-- Is bit `i` set? -/
def bit {n : Nat} (i : Nat) (v : BitVec n) : Bool := v.toNat / 2 ^ i % 2 == 1

/-- The bit vector with bits [hi:lo] replaced. -/
def setBits {n : Nat} (hi lo : Nat) (x : Nat) (v : BitVec n) : BitVec n :=
  BitVec.ofNat n (v.toNat - bits hi lo v * 2 ^ lo + x % 2 ^ (hi + 1 - lo) * 2 ^ lo)

/-- A field that acts as 1 when it holds zero (R162 and the registers that say so). -/
def nz (x : Nat) : Nat := if x == 0 then 1 else x

/-- The `n` bytes of a number, little-endian (R3). -/
def leBytes : Nat → Nat → List Byte
  | 0, _ => []
  | n + 1, v => BitVec.ofNat 8 (v % 256) :: leBytes n (v / 256)

/-- The number that bytes spell, little-endian (R3). -/
def leNat : List Byte → Nat
  | [] => 0
  | b :: t => b.toNat + 256 * leNat t

/-- A bit vector from little-endian bytes. -/
def ofBytes (n : Nat) (bs : List Byte) : BitVec n := BitVec.ofNat n (leNat bs)

/-- The bytes of a bit vector of `k` bytes. -/
def toBytes {n : Nat} (k : Nat) (v : BitVec n) : List Byte := leBytes k v.toNat

/-- A list of exactly `n` bytes: cut, or filled with zeros. -/
def fitBytes : Nat → List Byte → List Byte
  | 0, _ => []
  | n + 1, [] => 0 :: fitBytes n []
  | n + 1, b :: t => b :: fitBytes n t

/-- The signed 32-bit value of a difference (R10). -/
def i32 (v : BitVec 32) : Int := v.toInt

/-- Rounded-up division. -/
def ceilDiv (a b : Nat) : Nat := (a + b - 1) / b

/-! ### Registers: one home each, read and written here -/

/-- The value of a register of management space. -/
def rdReg (off : Nat) (s : State) : BitVec 64 := (tget s.regs off).getD (regReset false off)

/-- The State with a register of management space holding a value. -/
def wrReg (off : Nat) (v : BitVec 64) (s : State) : State := { s with regs := tset s.regs off v }

/-- Bits [hi:lo] of a register of management space. -/
def rf (off hi lo : Nat) (s : State) : Nat := bits hi lo (rdReg off s)

/-- The State with bits [hi:lo] of a register of management space replaced. -/
def setRf (off hi lo x : Nat) (s : State) : State := wrReg off (setBits hi lo x (rdReg off s)) s

/-- Where function `f`'s register at an offset of its own range is kept. -/
def fkey (f off : Nat) : Nat := f * 0x100000 + off

/-- The value of a register of function `f`. -/
def rdFn (f off : Nat) (s : State) : BitVec 64 := (tget s.fregs (fkey f off)).getD (regReset true off)

/-- The State with a register of function `f` holding a value. -/
def wrFn (f off : Nat) (v : BitVec 64) (s : State) : State := { s with fregs := tset s.fregs (fkey f off) v }

/-- Bits [hi:lo] of a register of function `f`. -/
def ff (f off hi lo : Nat) (s : State) : Nat := bits hi lo (rdFn f off s)

/-- The State with bits [hi:lo] of a register of function `f` replaced. -/
def setFf (f off hi lo x : Nat) (s : State) : State := wrFn f off (setBits hi lo x (rdFn f off s)) s

/-- The bits of a field. -/
def Fld.mask (f : Fld) : Nat := 2 ^ (f.hi + 1) - 2 ^ f.lo

/-- The bits of the fields of a map that have one of some access codes. -/
def accMask (accs : List Acc) (fields : List Fld) : BitVec 64 :=
  BitVec.ofNat 64 ((fields.filter (fun f => accs.contains f.acc)).foldl (fun a f => a + f.mask) 0)

/-- The bits of the bytes that byte enables select. -/
def beMask (be : BitVec 8) : BitVec 64 :=
  BitVec.ofNat 64 ((List.range 8).foldl (fun a k => if bit k be then a + 255 * 2 ^ (8 * k) else a) 0)

/-- What a write leaves in a register, by the access codes of its fields (R7): RW takes the bits written, W1C clears and
W1S sets those written as 1, and the rest stay. -/
def applyWrite (d : RegDef) (be : BitVec 8) (old v : BitVec 64) : BitVec 64 :=
  let m := beMask be
  let rw := accMask [.rw] d.fields &&& m
  let c := accMask [.w1c] d.fields &&& m &&& v
  let st := accMask [.w1s] d.fields &&& m &&& v
  ((old &&& ~~~rw) ||| (v &&& rw)) &&& ~~~c ||| st

/-- A write of a whole register of management space by its access codes. -/
def writeReg (off : Nat) (v : BitVec 64) (s : State) : State :=
  match regFind false off with
  | some d => wrReg off (applyWrite d 255 (rdReg off s) v) s
  | none => s

/-! ### Output and free values -/

/-- Record an effect outside the block. -/
def emit (o : Output) (s : State) : State := { s with out := o :: s.out }

/-- A fresh argument for a free value. -/
def fresh (s : State) : Nat × State := (s.free, { s with free := s.free + 1 })

/-- Microseconds in units of 1/16 ns. -/
def us (n : Nat) : Nat := n * 16000

/-- GTIME[35:4], the ns modulo 2^32 that packets carry (R131). -/
def sentT (s : State) : BitVec 32 := BitVec.ofNat 32 (s.gtime.toNat / 16)

/-! ### Freezing, windows and host-memory requests -/

/-- Is a host function frozen (R441)? -/
def frozen (f : Nat) (s : State) : Bool := bit (f % 64) (rdReg (Reg.SEC_FROZEN + 8 * (f / 64)) s)

/-- Range `k` of function `f`'s permitted host window (R468): first byte and length, if VALID. -/
def winRange (f k : Nat) (s : State) : Option (Nat × Nat) :=
  let v := rdReg (Reg.HIF_WIN + 32 * f + 8 * k) s
  if bit 6 v then some (bits 63 12 v * 4096, 2 ^ bits 5 0 v) else none

/-- The end of the furthest-reaching valid range that holds the byte at `lo`. -/
def winReach (f lo : Nat) (s : State) : Option Nat :=
  (List.range 4).foldl (fun r k =>
    match winRange f k s with
    | some (b, n) => if b ≤ lo && lo < b + n then some (max (b + n) (r.getD 0)) else r
    | none => r) none

/-- Does every byte from `lo` to `hi` lie in a valid range? Four ranges reach at most four times. -/
def winCovers (f : Nat) (s : State) : Nat → Nat → Nat → Bool
  | 0, lo, hi => decide (hi ≤ lo)
  | n + 1, lo, hi =>
    if hi ≤ lo then true else
    match winReach f lo s with
    | some e => winCovers f s n e hi
    | none => false

/-- Does a byte range lie wholly inside function `f`'s permitted host window? A range of no byte lies inside when its
address does (R468). -/
def inWindow (f : Nat) (addr : BitVec 64) (len : Nat) (s : State) : Bool :=
  if len == 0 then (winReach f addr.toNat s).isSome else winCovers f s 4 addr.toNat (addr.toNat + len)

/-- The PCIe controller of function `f`'s link 2j. -/
def fnLink (f : Nat) : Nat := 2 * (f / 256)

/-- Has the function's controller two links (R458)? -/
def bifurcated (f : Nat) (s : State) : Bool := bit 2 (rdReg (Reg.HIF_LINK + 8 * fnLink f) s)

/-- May the function's data set the Relaxed Ordering attribute (R466)? -/
def relaxedOn (f : Nat) (s : State) : Bool :=
  bit 0 (rdReg Reg.HIF_CFG s) && ((tget s.hif.cfg f).getD FnCfg.reset).relaxed

/-! ### Units and power domains -/

/-- Is a power domain on (R404)? -/
def domOn (d : Nat) (s : State) : Bool := bit (d % 64) (rdReg (Reg.CLK_DOM_STAT + 8 * (d / 64)) s)

/-- Is a RESTART unit, named by its fault source, being reset in place or held fenced (R388, R392)? -/
def unitFenced (src : Nat) (s : State) : Bool :=
  s.snf.restarting.contains src || (116 ≤ src && bit (src - 116) (rdReg Reg.SNF_FENCED_UNIT s))

/-- The power state entered (R416): CURRENT. -/
def powerState (s : State) : Nat := rf Reg.CLK_PSTATE 5 4 s

/-- The power state that the device is in or entering: during a transition the next state to be reached (R418). -/
def effState (s : State) : Nat :=
  match s.clk.trans with
  | some t => (t.path.head?).getD (powerState s)
  | none => powerState s

/-- Is a fabric port fenced (R392)? -/
def portFenced (p : Nat) (s : State) : Bool := bit (p % 64) (rdReg (Reg.SNF_FENCED_PORT + 8 * (p / 64)) s)

/-- Does the power state keep a port, and is it not fenced (R402, R415, R417)? -/
def portServes (p : Nat) (s : State) : Bool :=
  !portFenced p s && s.clk.trip.isNone &&
    (effState s == 0 || (effState s == 1 && bit (p % 64) (rdReg (Reg.CLK_P1_KEEP + 8 * (p / 64)) s)))

/-! ### Event counters and MSI-X -/

/-- The counter pages' owner of counter `n`, if its page is enabled: 64 counters to a page (R448, R479). -/
def evcOwner (n : Nat) (s : State) : Option Nat :=
  let v := rdReg (Reg.EVC_PAGE_EN + 8 * (n / 64)) s
  if bit 12 v then some (bits 11 0 v) else none

/-- The counters that count a pulse of event `ev` in instance `inst`: EN set, EVENT and INST equal (R444, R445). Only
counters whose EVC_CTL has been written can be enabled. -/
def evcSelects (ev inst : Nat) (regs : Tab (BitVec 64)) : List Nat :=
  regs.filterMap (fun (k, v) =>
    if Reg.EVC_CTL ≤ k && k < Reg.EVC_CTL + 8 * 1536 && bit 63 v && bits 8 0 v == ev && bits 27 16 v == inst
    then some ((k - Reg.EVC_CTL) / 8) else none)

/-- Counter `n` with `d` added to COUNT modulo 2^48; OVF set and true answered when it wraps (R446). -/
def evcAdd (n d : Nat) (s : State) : State × Bool :=
  let off := Reg.EVC_CNT + 8 * n
  let c := rf off 47 0 s + d
  let s := setRf off 47 0 c s
  if 2 ^ 48 ≤ c then (setRf off 48 48 1 s, true) else (s, false)

/-- A cycle of the islands of a fault source's block, in 1/16 ns (R401): the Taper, control, management and core families; a link's
negotiated clock counts as a core's (DEDUCED). -/
def blockCycle (src : Nat) : Nat :=
  if 48 ≤ src && src ≤ 79 then 9
  else if 135 ≤ src && src ≤ 139 || 142 ≤ src && src ≤ 144 then 32
  else if src == 140 || src == 141 then 20
  else 10

/-- A cycle of the island that raises an event in an instance, in 1/16 ns (R401, R443). CORR_SYM and IGNORED come from the block that their
instance names. -/
def evcCycle (ev inst : Nat) : Nat :=
  if ev == 192 || ev == 193 then blockCycle inst else if 214 ≤ ev && ev ≤ 217 then 9 else if 228 ≤ ev then 32 else 10

/-- How long a crossing with a sending cycle `c` is busy (R405, R410): a sending cycle to raise the toggle, two to three cycles of the EVC and
two to three sending cycles; how long in between is a free value. -/
def pulseTrip (c v : Nat) : Nat := c + 64 + 2 * c + v % (32 + c + 1)

/-- The stream of an event's instance, and of an L event's comparator (R444). -/
def pulseStream (ev inst thresh : Nat) : Nat := (ev * 4096 + inst) * 2 ^ 20 + thresh

/-- A pulse was lost at a crossing (R412). -/
def pulseLost (ev : Nat) (s : State) : State := setRf (Reg.CLK_PULSE_OVR + 8 * (ev / 64)) (ev % 64) (ev % 64) 1 s

/-- Is the crossing of a stream in the BKM-8520 mode? One that is not idle keeps its mode (R411). -/
def crossToggles (ev key : Nat) (s : State) : Bool :=
  match tget s.clk.held key with
  | some (native, _) => !native
  | none => 192 ≤ ev && (bit (ev % 64) (rdReg (Reg.CLK_PULSE_MODE + 8 * (ev / 64)) s) || s.now < (tget s.clk.busy key).getD 0)

/-- `d` pulses that a stream raises within `dt` cross to the EVC: the number that it takes (R409, R410, R412). In the native mode it takes
all; in the BKM-8520 mode one for each toggle that completes. Of a stopped EVC the sender keeps at most 32,767, or the one toggle. -/
def pulseCross (ev key dt d : Nat) (s : State) : Nat × State :=
  let busy := (tget s.clk.busy key).getD 0
  let toggles := crossToggles ev key s
  if d == 0 then (0, s)
  else if unitFenced 138 s then
    let limit := if toggles then 1 else 32767
    let n := ((tget s.clk.held key).map (·.2)).getD 0 + d
    let s := { s with clk := { s.clk with held := tset s.clk.held key (!toggles, min limit n) } }
    (0, if limit < n then pulseLost ev s else s)
  else if !toggles then (d, s)
  else if s.now + dt ≤ busy then (0, pulseLost ev s)
  else
    let (n, s) := fresh s
    let trip := pulseTrip (evcCycle ev (key / 2 ^ 20 % 4096)) (Config.pulseTrip n)
    let k := min d ((s.now + dt - 1 - max s.now busy) / trip + 1)
    let s := { s with clk := { s.clk with busy := tset s.clk.busy key (max s.now busy + k * trip) } }
    (k, if k < d then pulseLost ev s else s)

/-- MSI-X table entry of a vector: its mask bit (PCI Express layout: bit 0 of the entry's fourth word, R478). -/
def vecMasked (f vec : Nat) (s : State) : Bool := bit 32 (rdFn f (0x80000 + 16 * vec + 8) s)

/-- A request on a link that is in L1 brings it back to L0 (R476, R481). -/
def wakeLink (l : Nat) (s : State) : State :=
  let off := Reg.HIF_LINK + 8 * l
  if bit 4 (rdReg off s) then setRf off 15 15 1 (setRf off 4 4 0 s) else s

/-- An MSI-X message: one posted write on link 2j of what the vector's table entry holds (R478). -/
def msixSend (f vec : Nat) (s : State) : State :=
  emit (.msix f vec (rdFn f (0x80000 + 16 * vec) s) ((rdFn f (0x80000 + 16 * vec + 8) s).setWidth 32) (fnLink f)) (wakeLink (fnLink f) s)

/-- One event for vector `vec` of function `f` (R480): `none` if it is discarded and counted. -/
def msixTry (f vec : Nat) (s : State) : Option State :=
  let c := (tget s.hif.cfg f).getD FnCfg.reset
  if !c.msixEnable then none
  else if frozen f s || c.msixMask || vecMasked f vec s then
    some (setFf f (0x82000 + 8 * (vec / 64)) (vec % 64) (vec % 64) 1 s)
  else some (msixSend f vec s)

/-- `d` pulses of event `ev` in instance `inst` (R444), as many as cross, with the counter-overflow messages (R446, R479); an overflow
message that is discarded is itself counted on IGNORED of the HIF, to the depth given. -/
def evcPulseD : Nat → Nat → Nat → Nat → State → State
  | 0, _, _, _, s => s
  | fuel + 1, ev, inst, d, s =>
    let (d, s) := pulseCross ev (pulseStream ev inst 0) 1 d s
    if d == 0 || bit 1 (rdReg Reg.EVC_GLOBAL s) then s else
    (evcSelects ev inst s.regs).foldl (fun s n =>
      match evcAdd n d s with
      | (s, false) => s
      | (s, true) =>
        match evcOwner n s with
        | none => s
        | some f =>
          if 192 ≤ ev then
            match msixTry f ev s with
            | some s => s
            | none => evcPulseD fuel 193 118 1 s
          else s) s

/-- One occurrence of event `ev` in instance `inst`. -/
def evcPulse (ev inst : Nat) (s : State) : State := evcPulseD 8 ev inst 1 s

/-- Several occurrences at once. -/
def evcPulses (ev inst d : Nat) (s : State) : State := if d == 0 then s else evcPulseD 8 ev inst d s

/-- Ignored (or discarded) and counted: event IGNORED with the lowest fault source of the block as instance (R443). -/
def ignored (src : Nat) (s : State) : State := evcPulse 193 src s

/-- An access is held at the crossing of a fenced unit (R389, R407). -/
def holdReq (r : HeldReq) (s : State) : State := { s with snf := { s.snf with held := s.snf.held ++ [r] } }

/-- An event for a vector of a function: sent, held pending, or discarded and counted (R480). -/
def msixSignal (f vec : Nat) (s : State) : State := (msixTry f vec s).getD (ignored 118 s)

/-- Increments that reach one counter, or meet a write to it: they are added, and a wrap is signalled to the page's owner (R446, R479). -/
def evcMeet (n inc : Nat) (s : State) : State :=
  let c := rdReg (Reg.EVC_CTL + 8 * n) s
  if !bit 63 c || bit 1 (rdReg Reg.EVC_GLOBAL s) || inc == 0 then s
  else
    match evcAdd n inc s with
    | (s, false) => s
    | (s, true) =>
      match evcOwner n s with
      | some f => if 192 ≤ bits 8 0 c then msixSignal f (bits 8 0 c) s else s
      | none => s

/-! ### Fault capture (R383 to R385) -/

/-- Is the sticky bit of a source set? -/
def sticky (src : Nat) (s : State) : Bool := bit (src % 64) (rdReg (Reg.FCU_STICKY + 8 * (src / 64)) s)

/-- The island whose units a fault source covers, if it may be recorded (R382, R450); for a source of several islands, whose
occurrences name their own, the first. -/
def srcIsland (src : Nat) : Option Nat :=
  if src < 32 then some src
  else if src < 48 then some (32 + 8 * (src - 32))
  else if src < 64 then some (288 + (src - 48))
  else if src < 80 then some (288 + (src - 64))
  else if src < 116 then some (312 + (src - 80))
  else if src == 116 then some 370
  else if src == 117 then some 369
  else if src < 122 then some (348 + (src - 118))
  else if src == 123 || src == 124 then some 356
  else if src == 125 then some 357
  else if src == 126 then some 358
  else if src == 127 then some 359
  else if src == 128 then some 360
  else if src == 130 then some 364
  else if src == 133 then some 368
  else if src == 134 then some 0
  else if 145 ≤ src && src < 161 then some (16 + (src - 145))
  else if 166 ≤ src && src < 182 then some (32 + 8 * (src - 166))
  else none

/-- The island, KIND, CROSSING and payload of a record (R453). -/
def LtnRec.parts : LtnRec → Nat × Nat × Nat × List (BitVec 64)
  | .take i x v => (i, 1, x, v)
  | .fifo i x e => (i, 2, x, e)
  | .snap i p => (i, 3, 0, p)
  | .mark i src => (i, 4, 0, [BitVec.ofNat 64 src])
  | .trigger i cause => (i, 5, 0, [BitVec.ofNat 64 cause])
  | .tick i => (i, 6, 0, [])
  | .gap i => (i, 7, 0, [])
  | .start i u d g r => (i, 8, 0, [u, d, g, if r then 1 else 0])
  | .stop i => (i, 9, 0, [])

/-- The words of a record, with the island cycles since the island's previous one (R453). -/
def LtnRec.words (r : LtnRec) (dcyc : Nat) : List (BitVec 64) :=
  let (i, kind, x, p) := r.parts
  BitVec.ofNat 64 (kind * 2 ^ 60 + i % 512 * 2 ^ 51 + x % 128 * 2 ^ 44 + 8 * p.length % 4096 * 2 ^ 32 + dcyc % 2 ^ 32) :: p

/-- A cycle of an island's clock in 1/16 ns (R401): the Taper islands', or the core family's; a link's negotiated clock and PCIe's count as
that (DEDUCED). -/
def islandCycle (i : Nat) : Nat := if 288 ≤ i && i < 312 then 9 else 10

/-- One more record at a time: TICKs for the whole 2^32 - 1 cycles that have passed since the island's last record, then the record itself
(R453). A START is the first of its record. -/
def ltnAdd (now : Nat) (g : BitVec 64) (l : Ltn) (r : LtnRec) : Ltn :=
  let i := r.parts.1
  let first := r.parts.2.1 == 8
  let was := if first then now else (tget l.prev i).getD now
  let c := (now - was) / islandCycle i
  let out (r : LtnRec) (d : Nat) : LtnOut := ⟨r.words d, g, !l.todo.isEmpty⟩
  { l with
    recs := l.recs ++ List.replicate (c / 0xFFFFFFFF) (out (.tick i) 0xFFFFFFFF) ++ [out r (c % 0xFFFFFFFF)]
    prev := tset l.prev i (was + c * islandCycle i) }

/-- Put Lantern records; those made while the LTN restarts or is held fenced are lost (R394). -/
def ltnPut (rs : List LtnRec) (s : State) : State :=
  { s with ltn := if unitFenced 139 s then s.ltn else rs.foldl (ltnAdd s.now s.gtime) s.ltn }

/-- The end of a recording (R454): STOP in every island that has been started. -/
def ltnEnd (s : State) : State :=
  let s := ltnPut ((s.ltn.live ++ s.ltn.todo.take 1).map .stop) s
  setRf Reg.LTN_CTRL 2 2 0 (setRf Reg.LTN_CTRL 6 6 0 { s with ltn := { s.ltn with todo := [], live := [], post := none, late := [] } })

/-- A trigger with its cause (R453, R454): a TRIGGER record in every island recorded; the first sets TRIGGERED and starts the
count of POST frames. -/
def ltnTrig (cause : Nat) (s : State) : State :=
  if rf Reg.LTN_CTRL 6 6 s == 0 then s else
  let s := ltnPut (s.ltn.live.map (.trigger · cause)) s
  if rf Reg.LTN_CTRL 7 7 s == 1 then s
  else
    let post := rf Reg.LTN_CTRL 63 48 s
    let s := setRf Reg.LTN_CTRL 7 7 1 { s with ltn := { s.ltn with post := some post } }
    if post == 0 then ltnEnd s else s

/-- A first occurrence marks the Lantern record of the island in which it was raised, if that may be recorded, and is a trigger while
FAULT_TRIG is set (R383, R453, R454). One raised in an island whose snapshot is being written is marked after it. -/
def lanternMark (src : Nat) (isl : Option Nat) (s : State) : State :=
  match isl with
  | some i =>
    if s.ltn.live.contains i then
      let s := ltnPut [.mark i src] s
      if rf Reg.LTN_CTRL 3 3 s == 1 then ltnTrig 3 s else s
    else if s.ltn.todo.head? == some i then { s with ltn := { s.ltn with late := s.ltn.late ++ [(i, src)] } }
    else s
  | none => s

/-- The MGT queues a record of the event log, while its firmware runs (R492). -/
def mgtLog (typ : Nat) (body : List Byte) (s : State) : State :=
  if rf Reg.MGT_BOOT 3 2 s == 1 then { s with mgt := { s.mgt with log := s.mgt.log ++ [(typ, body)] } } else s

/-- An occurrence of a fault source in an island as the FCU captures it: first (R383) or merged (R384). It is counted on the source's
event either way. The reactions are the reacting blocks' own. -/
def fcuOccurIn (isl : Option Nat) (src : Nat) (s : State) : State :=
  let s := evcPulse src 0 s
  if sticky src s then setRf (Reg.FCU_MERGED + 8 * (src / 64)) (src % 64) (src % 64) 1 s
  else
    let s := setRf (Reg.FCU_STICKY + 8 * (src / 64)) (src % 64) (src % 64) 1 s
    let cfg := rdReg (Reg.FCU_CFG + 8 * src) s
    let s := mgtLog 0x11 (leBytes 4 src) (emit (.mgtEvent src) s)
    let s := if bit 1 cfg then
        (List.range 4).foldl (fun s j =>
          if bit j (rdReg (Reg.HIF_EVROUTE + 8 * src) s) then msixSignal (0x100 * j) src s else s) s
      else s
    if bit 2 cfg then lanternMark src isl s else s

/-- An occurrence of a source that stands for one island. -/
def fcuOccur (src : Nat) (s : State) : State := fcuOccurIn (srcIsland src) src s

/-! ### Host-memory requests -/

/-- The configuration of the function that issues a function's requests on a link: on half 1 that of AUX j, else the PF's, whose Device Control
governs its VFs too (R459, R460). -/
def linkCfg (link f : Nat) (s : State) : FnCfg :=
  (if link % 2 == 1 then tget s.hif.aux (link / 2) else tget s.hif.cfg (f / 256 * 256)).getD FnCfg.reset

/-- The requester ID on a link: on half 1 that of AUX j (R460). -/
def requester (link f : Nat) : Requester := if link % 2 == 1 then .aux (link / 2) else .fn f

/-- The parts, of at most `most` bytes, into which a request is split, and at 4 KiB boundaries (R461). -/
def requestParts (most : Nat) : Nat → Nat → Nat → List (Nat × Nat)
  | 0, _, _ => []
  | n + 1, a, len =>
    if len == 0 then []
    else
      let k := min len (min most (4096 - a % 4096))
      (a, k) :: requestParts most n (a + k) (len - k)

/-- Max_Payload_Size of a link's requests: at most 512 bytes (R461). -/
def maxPayload (link f : Nat) (s : State) : Nat := min 512 (128 * 2 ^ (linkCfg link f s).maxPayload.toNat)

/-- Max_Read_Request_Size of a link's requests: at most 4,096 bytes (R461). -/
def maxRead (link f : Nat) (s : State) : Nat := min 4096 (128 * 2 ^ (linkCfg link f s).maxRead.toNat)

/-- A write toward host memory for function `f` on a link (R469): discarded and counted outside the window, not made for
a frozen function unless it is a write of R46 (`always`). -/
def hostWriteOn (link f : Nat) (always : Bool) (addr : BitVec 64) (bs : List Byte) (ro : Bool) (s : State) : State :=
  if frozen f s && !always then s
  else if inWindow f addr bs.length s then
    let a := addr.toNat
    let s := (requestParts (maxPayload link f s) bs.length a bs.length).foldl (fun s x =>
      emit (.hostWrite (requester link f) (BitVec.ofNat 64 x.1) ((bs.drop (x.1 - a)).take x.2) (ro && relaxedOn f s) link) s) (wakeLink link s)
    { s with xlt := { s.xlt with dirty := tset s.xlt.dirty link (f, addr) } }
  else ignored 118 s

/-- A write that never carries relaxed ordering, on the function's link 2j. -/
def hostWrite (f : Nat) (addr : BitVec 64) (bs : List Byte) (s : State) : State :=
  hostWriteOn (fnLink f) f false addr bs false s

/-- An ownership word or mirror write, which is made for a frozen function too (R46, R440). -/
def ringWrite (f : Nat) (addr : BitVec 64) (bs : List Byte) (s : State) : State :=
  hostWriteOn (fnLink f) f true addr bs false s

/-- Would a read request lie inside the window? A read outside it is not issued and completes as an Unsupported Request
(R469). -/
def readable (f : Nat) (addr : BitVec 64) (len : Nat) (s : State) : Bool := inWindow f addr len s

/-- Issue a read on a link (R461, R466): a zero-length one as it is. -/
def hostReadOn (link f : Nat) (addr : BitVec 64) (len : Nat) (ro : Bool) (s : State) : State :=
  let parts := if len == 0 then [(addr.toNat, 0)] else requestParts (maxRead link f s) len addr.toNat len
  parts.foldl (fun s x =>
    emit (.hostRead (requester link f) (BitVec.ofNat 64 x.1) x.2 (ro && relaxedOn f s) link) s) (wakeLink link s)

/-- Issue a read that never carries relaxed ordering, on the function's link 2j. -/
def hostRead (f : Nat) (addr : BitVec 64) (len : Nat) (s : State) : State := hostReadOn (fnLink f) f addr len false s

end Sys2Proof.Machine
end

