-- ==== Sys2Proof/Machine/Crypto.lean ====
section
/-! DEFINITION. The two algorithms that the security controller uses (15: R423): SHA-384 as FIPS 180-4 defines it, and ECDSA over curve P-384 as
FIPS 186-5 defines it. Their constants stand in those standards, which the spec names (PRESUMED, log entry 174). -/

namespace Sys2Proof.Machine

/-- The number that bytes spell, the most significant first. -/
def beNat (bs : List Byte) : Nat := bs.foldl (fun a b => 256 * a + b.toNat) 0

/-- The bytes of a number, the most significant first. -/
def beBytes (n v : Nat) : List Byte := (leBytes n v).reverse

/-! ### SHA-384 -/

/-- The 80 round constants. -/
def shaConstants : List Word :=
  [0x428a2f98d728ae22, 0x7137449123ef65cd, 0xb5c0fbcfec4d3b2f, 0xe9b5dba58189dbbc, 0x3956c25bf348b538,
   0x59f111f1b605d019, 0x923f82a4af194f9b, 0xab1c5ed5da6d8118, 0xd807aa98a3030242, 0x12835b0145706fbe,
   0x243185be4ee4b28c, 0x550c7dc3d5ffb4e2, 0x72be5d74f27b896f, 0x80deb1fe3b1696b1, 0x9bdc06a725c71235,
   0xc19bf174cf692694, 0xe49b69c19ef14ad2, 0xefbe4786384f25e3, 0x0fc19dc68b8cd5b5, 0x240ca1cc77ac9c65] ++
  [0x2de92c6f592b0275, 0x4a7484aa6ea6e483, 0x5cb0a9dcbd41fbd4, 0x76f988da831153b5, 0x983e5152ee66dfab,
   0xa831c66d2db43210, 0xb00327c898fb213f, 0xbf597fc7beef0ee4, 0xc6e00bf33da88fc2, 0xd5a79147930aa725,
   0x06ca6351e003826f, 0x142929670a0e6e70, 0x27b70a8546d22ffc, 0x2e1b21385c26c926, 0x4d2c6dfc5ac42aed,
   0x53380d139d95b3df, 0x650a73548baf63de, 0x766a0abb3c77b2a8, 0x81c2c92e47edaee6, 0x92722c851482353b] ++
  [0xa2bfe8a14cf10364, 0xa81a664bbc423001, 0xc24b8b70d0f89791, 0xc76c51a30654be30, 0xd192e819d6ef5218,
   0xd69906245565a910, 0xf40e35855771202a, 0x106aa07032bbd1b8, 0x19a4c116b8d2d0c8, 0x1e376c085141ab53,
   0x2748774cdf8eeb99, 0x34b0bcb5e19b48a8, 0x391c0cb3c5c95a63, 0x4ed8aa4ae3418acb, 0x5b9cca4f7763e373,
   0x682e6ff3d6b2b8a3, 0x748f82ee5defb2fc, 0x78a5636f43172f60, 0x84c87814a1f0ab72, 0x8cc702081a6439ec] ++
  [0x90befffa23631e28, 0xa4506cebde82bde9, 0xbef9a3f7b2c67915, 0xc67178f2e372532b, 0xca273eceea26619c,
   0xd186b8c721c0c207, 0xeada7dd6cde0eb1e, 0xf57d4f7fee6ed178, 0x06f067aa72176fba, 0x0a637dc5a2c898a6,
   0x113f9804bef90dae, 0x1b710b35131c471b, 0x28db77f523047d84, 0x32caab7b40c72493, 0x3c9ebe0a15c9bebc,
   0x431d67c49c100d4c, 0x4cc5d4becb3e42b6, 0x597f299cfc657e2a, 0x5fcb6fab3ad6faec, 0x6c44198c4a475817]

/-- The eight working words. -/
structure ShaWords where
  a : Word
  b : Word
  c : Word
  d : Word
  e : Word
  f : Word
  g : Word
  h : Word
  deriving DecidableEq, Repr

/-- The initial hash value of SHA-384. -/
def shaInit : ShaWords :=
  ⟨0xcbbb9d5dc1059ed8, 0x629a292a367cd507, 0x9159015a3070dd17, 0x152fecd8f70e5939,
   0x67332667ffc00b31, 0x8eb44a8768581511, 0xdb0c2e0d64f98fa7, 0x47b5481dbefa4fa4⟩

/-- The message schedule: the next `n` words after the last sixteen. -/
def shaSchedule : Nat → List Word → List Word
  | 0, _ => []
  | n + 1, w =>
    let at_ (i : Nat) : Word := w.getD i 0
    let s0 := (at_ 1).rotateRight 1 ^^^ (at_ 1).rotateRight 8 ^^^ (at_ 1) >>> 7
    let s1 := (at_ 14).rotateRight 19 ^^^ (at_ 14).rotateRight 61 ^^^ (at_ 14) >>> 6
    at_ 0 :: shaSchedule n (w.drop 1 ++ [s1 + at_ 9 + s0 + at_ 0])

/-- One round, with its constant and its word of the schedule. -/
def shaRound (x : ShaWords) (kw : Word × Word) : ShaWords :=
  let s1 := x.e.rotateRight 14 ^^^ x.e.rotateRight 18 ^^^ x.e.rotateRight 41
  let ch := (x.e &&& x.f) ^^^ (~~~x.e &&& x.g)
  let t1 := x.h + s1 + ch + kw.1 + kw.2
  let s0 := x.a.rotateRight 28 ^^^ x.a.rotateRight 34 ^^^ x.a.rotateRight 39
  let maj := (x.a &&& x.b) ^^^ (x.a &&& x.c) ^^^ (x.b &&& x.c)
  ⟨t1 + (s0 + maj), x.a, x.b, x.c, x.d + t1, x.e, x.f, x.g⟩

/-- One block of 128 bytes. -/
def shaBlock (x : ShaWords) (block : List Byte) : ShaWords :=
  let first := (List.range 16).map (fun i => BitVec.ofNat 64 (beNat ((block.drop (8 * i)).take 8)))
  let y := (shaConstants.zip (shaSchedule 80 first)).foldl shaRound x
  ⟨x.a + y.a, x.b + y.b, x.c + y.c, x.d + y.d, x.e + y.e, x.f + y.f, x.g + y.g, x.h + y.h⟩

/-- A message with its padding and its length. -/
def shaPad (m : List Byte) : List Byte :=
  m ++ 0x80 :: List.replicate ((239 - m.length % 128) % 128) 0 ++ beBytes 16 (8 * m.length)

/-- SHA-384 of bytes: 48 bytes (R423). -/
def sha384 (m : List Byte) : List Byte :=
  let bs := shaPad m
  let x := (List.range (bs.length / 128)).foldl (fun x k => shaBlock x ((bs.drop (128 * k)).take 128)) shaInit
  [x.a, x.b, x.c, x.d, x.e, x.f].flatMap (fun w => beBytes 8 w.toNat)

/-! ### Curve P-384 -/

/-- The prime of the field. -/
def p384 : Nat := 2 ^ 384 - 2 ^ 128 - 2 ^ 96 + 2 ^ 32 - 1

/-- The order of the base point. -/
def n384 : Nat :=
  0xffffffffffffffffffffffffffffffffffffffffffffffffc7634d81f4372ddf581a0db248b0a77aecec196accc52973

/-- The coefficient b of y^2 = x^3 - 3x + b. -/
def b384 : Nat :=
  0xb3312fa7e23ee7e4988e056be3f82d19181d9c6efe8141120314088f5013875ac656398d8a2ed19d2a85c8edd3ec2aef

/-- A power modulo `m`, over the low `n` bits of the exponent. -/
def powMod (m a : Nat) : Nat → Nat → Nat
  | 0, _ => 1
  | n + 1, e =>
    let h := powMod m a n (e / 2)
    if e % 2 == 1 then h * h % m * a % m else h * h % m

/-- The inverse modulo a prime below 2^384. -/
def invMod (m a : Nat) : Nat := powMod m (a % m) 384 (m - 2)

/-- A point in Jacobian coordinates; z = 0 is the point at infinity. -/
structure EcPoint where
  x : Nat
  y : Nat
  z : Nat
  deriving DecidableEq, Repr

/-- The point at infinity. -/
def EcPoint.infinity : EcPoint := ⟨1, 1, 0⟩

/-- The base point. -/
def EcPoint.base : EcPoint :=
  ⟨0xaa87ca22be8b05378eb1c71ef320ad746e1d3b628ba79b9859f741e082542a385502f25dbf55296c3a545e3872760ab7,
   0x3617de4a96262c6f5d9e98bf9292dc29f8f41dbd289a147ce9da3113b5f0b8c00a60b1ce1d7e819d7a431d7c90ea0e5f, 1⟩

/-- A difference modulo the field's prime. -/
def subMod (a b : Nat) : Nat := (a + (p384 - b % p384)) % p384

/-- Twice a point. -/
def EcPoint.double (a : EcPoint) : EcPoint :=
  let d := a.z * a.z % p384
  let g := a.y * a.y % p384
  let b := a.x * g % p384
  let al := 3 * subMod a.x d * (a.x + d) % p384
  let x := subMod (al * al) (8 * b)
  ⟨x, subMod (al * subMod (4 * b) x) (8 * g * g), 2 * a.y * a.z % p384⟩

/-- The sum of two points. -/
def EcPoint.add (a b : EcPoint) : EcPoint :=
  if a.z == 0 then b
  else if b.z == 0 then a
  else
    let za := a.z * a.z % p384
    let zb := b.z * b.z % p384
    let ua := a.x * zb % p384
    let ub := b.x * za % p384
    let sa := a.y * b.z % p384 * zb % p384
    let sb := b.y * a.z % p384 * za % p384
    let h := subMod ub ua
    let r := subMod sb sa
    if h == 0 then (if r == 0 then a.double else .infinity)
    else
      let hh := h * h % p384
      let hhh := h * hh % p384
      let v := ua * hh % p384
      let x := subMod (subMod (r * r) hhh) (2 * v)
      ⟨x, subMod (r * subMod v x) (sa * hhh), h * a.z % p384 * b.z % p384⟩

/-- The multiple of a point by the low `n` bits of a number. -/
def EcPoint.times (a : EcPoint) : Nat → Nat → EcPoint
  | 0, _ => .infinity
  | n + 1, k =>
    let d := (EcPoint.times a n (k / 2)).double
    if k % 2 == 1 then d.add a else d

/-- The affine coordinates of a point that is not at infinity. -/
def EcPoint.affine (a : EcPoint) : Nat × Nat :=
  let i := invMod p384 a.z
  let ii := i * i % p384
  (a.x * ii % p384, a.y * ii % p384 * i % p384)

/-- The 97 bytes of an uncompressed point (R423). -/
def EcPoint.bytes (a : EcPoint) : List Byte := 4 :: beBytes 48 a.affine.1 ++ beBytes 48 a.affine.2

/-- The point of 97 bytes, if they spell one of the curve. -/
def ecPoint (bs : List Byte) : Option EcPoint :=
  let x := beNat ((bs.drop 1).take 48)
  let y := beNat (bs.drop 49)
  if bs.length == 97 && bs.take 1 == [4] && x < p384 && y < p384 && y * y % p384 == (x * x % p384 * x + (p384 - 3) * x + b384) % p384 then
    some ⟨x, y, 1⟩
  else none

/-! ### ECDSA -/

/-- The public key of a private key, as an uncompressed point. -/
def ecdsaPublic (d : Nat) : List Byte := (EcPoint.base.times 384 d).bytes

/-- The signature, r then s, of a SHA-384 digest with a private key and a per-message secret number (R423, R425). -/
def ecdsaSign (d k : Nat) (digest : List Byte) : List Byte :=
  let r := (EcPoint.base.times 384 k).affine.1 % n384
  beBytes 48 r ++ beBytes 48 (invMod n384 k * (beNat digest + r * d) % n384)

/-- Does a signature over a SHA-384 digest verify under an uncompressed point (R423)? -/
def ecdsaVerify (key digest sig : List Byte) : Bool :=
  let r := beNat (sig.take 48)
  let s := beNat (sig.drop 48)
  match ecPoint key with
  | none => false
  | some q =>
    sig.length == 96 && 0 < r && r < n384 && 0 < s && s < n384 &&
      (let w := invMod n384 s
       let t := (EcPoint.base.times 384 (beNat digest * w % n384)).add (q.times 384 (r * w % n384))
       t.z != 0 && t.affine.1 % n384 == r)

/-! ### The identity key -/

/-- The identity private key that the SEC derives from a seed (R424): how, the spec does not state, so it is a free value from 1 to n - 1. -/
def identityPrivate (seed : BitVec 256) : Nat := 1 + Config.identityPrivate seed % (n384 - 1)

/-- The identity public key of a seed (R424, R428). -/
def identityKey (seed : BitVec 256) : List Byte := ecdsaPublic (identityPrivate seed)

/-- The digest of a seed's identity public key (R424). -/
def identityDigest (seed : BitVec 256) : List Byte := sha384 (identityKey seed)

end Sys2Proof.Machine
end

