-- ==== Sys2Proof/Machine/Rings.lean ====
section
/-! DEFINITION. Command Rings, Head Mirrors and Arrival Rings (02: R27 to R69): the KCS entry's fields and decoding, the
finish of an entry, publication of the head, notices and their budgets, and the freeze of a function's rings. -/

namespace Sys2Proof.Machine

/-! ### Status codes (R67) -/

namespace St
def success : BitVec 8 := 0x01
def flushed : BitVec 8 := 0x02
def frozen : BitVec 8 := 0x03
def malformed : BitVec 8 := 0x04
def unsupported : BitVec 8 := 0x05
def invalidParam : BitVec 8 := 0x06
def notPermitted : BitVec 8 := 0x07
def noResource : BitVec 8 := 0x08
def qpState : BitVec 8 := 0x09
def misaligned : BitVec 8 := 0x0A
def localKey : BitVec 8 := 0x0B
def translationFault : BitVec 8 := 0x0C
def remoteAccess : BitVec 8 := 0x0D
def remoteInvalid : BitVec 8 := 0x0E
def remoteQpError : BitVec 8 := 0x0F
def truncated : BitVec 8 := 0x10
def retryExceeded : BitVec 8 := 0x11
def busyExceeded : BitVec 8 := 0x12
def localPcie : BitVec 8 := 0x13
def uncorrectable : BitVec 8 := 0x14
def waitTimeout : BitVec 8 := 0x15
def arrivalNoSlot : BitVec 8 := 0x16
def collError : BitVec 8 := 0x17
def taperFault : BitVec 8 := 0x18
def arrivalOverrun : BitVec 8 := 0x19
end St

/-- Class Q of R67: the error moves the queue pair to ERROR (R69). -/
def classQ (st : BitVec 8) : Bool :=
  let n := st.toNat
  (0x0B ≤ n && n ≤ 0x0F) || (0x11 ≤ n && n ≤ 0x14) || n == 0x19

/-! ### The fields of an entry (R28, R32) -/

def eOpcode (e : BitVec 512) : Nat := bits 7 0 e
def eFence (e : BitVec 512) : Bool := bit 39 e
def eImm (e : BitVec 512) : Bool := bit 38 e
def eNotify (e : BitVec 512) : Bool := bit 37 e
def eIndirect (e : BitVec 512) : Bool := bit 36 e
def eInline (e : BitVec 512) : Bool := bit 35 e
def eQpn (e : BitVec 512) : Nat := bits 87 64 e
def eUser (e : BitVec 512) : BitVec 32 := e.extractLsb' 96 32
def eAux (e : BitVec 512) : BitVec 32 := e.extractLsb' 128 32
def eY64 (e : BitVec 512) : BitVec 64 := e.extractLsb' 160 64
def eLkey (e : BitVec 512) : BitVec 32 := e.extractLsb' 224 32
def eLaddr (e : BitVec 512) : BitVec 64 := e.extractLsb' 256 64
def eLength (e : BitVec 512) : Nat := bits 351 320 e
def eRkey (e : BitVec 512) : BitVec 32 := e.extractLsb' 352 32
def eRaddr (e : BitVec 512) : BitVec 64 := e.extractLsb' 384 64
def eX64 (e : BitVec 512) : BitVec 64 := e.extractLsb' 448 64
/-- FRAGS; 0 means 256 (R35). -/
def eFrags (e : BitVec 512) : Nat := if bits 159 152 e == 0 then 256 else bits 159 152 e

/-- The opcodes of R30. -/
def opDefined (op : Nat) : Bool :=
  op ≤ 0x06 || (0x10 ≤ op && op ≤ 0x12) || op == 0x20 || op == 0x21 || op == 0x28 || op == 0x29 ||
  (0x30 ≤ op && op ≤ 0x34) || (0x38 ≤ op && op ≤ 0x3F) || (0x40 ≤ op && op ≤ 0x43)

/-- The opcodes that the admin ring alone accepts (R30). -/
def opAdmin (op : Nat) : Bool := op == 0x29 || 0x30 ≤ op

/-- The opcodes whose QPN column reads "yes" (R30). -/
def opNamesQp (op : Nat) : Bool := 0x01 ≤ op && op ≤ 0x06

/-- The size of an admin opcode's parameter block; 0 for an opcode that takes none (R522). -/
def adminBlockLen (op : Nat) : Nat :=
  if op == 0x38 || op == 0x3B || op == 0x3D || op == 0x3E || op == 0x40 then 16
  else if op == 0x30 || op == 0x33 || op == 0x3A || op == 0x3C || op == 0x3F || op == 0x41 then 32
  else if op == 0x29 then 64
  else if op == 0x42 then 256
  else 0

/-- Width in bits of the object identifier in X64 of an admin opcode (R522). -/
def adminIdBits (op : Nat) : Nat :=
  if op == 0x31 || op == 0x32 || op == 0x34 || op == 0x39 then 16 else if op == 0x43 then 24 else 0

/-- The header flags are permitted on the opcode (R520), and INLINE and INDIRECT are not both set (R34). -/
def flagsOk (e : BitVec 512) : Bool :=
  let op := eOpcode e
  (!eImm e || op == 0x01 || op == 0x02) && (!eNotify e || op == 0x01 || op == 0x02 || op == 0x05) &&
  (!eIndirect e || op == 0x01 || op == 0x02 || op == 0x03 || op == 0x06) &&
  (!eInline e || op == 0x01 || op == 0x02) && !(eInline e && eIndirect e)

/-- Reserved header fields and the STATUS and DETAIL fields are zero at fetch (R28, R31), and QPN is zero on an opcode
that names no queue pair. -/
def headerOk (e : BitVec 512) : Bool :=
  bits 95 88 e == 0 && bits 63 48 e == 0 && bits 47 40 e == 0 && bits 34 32 e == 0 && bits 23 17 e == 0 &&
  bits 15 8 e == 0 && (opNamesQp (eOpcode e) || eQpn e == 0)

/-- AUX holds FRAGS where INDIRECT is set, and nothing else (R33). -/
def auxFragsOk (e : BitVec 512) : Bool := bits 151 128 e == 0 && (eIndirect e || bits 159 152 e == 0)

/-- X64 holds the immediate where IMM is set, and nothing else (R33). -/
def immOk (e : BitVec 512) : Bool := bits 511 480 e == 0 && (eImm e || bits 479 448 e == 0)

/-- The data area of an INLINE entry: LENGTH at most 24 and every byte from LENGTH on zero (R34). -/
def inlineOk (e : BitVec 512) : Bool := eLength e ≤ 24 && bits 319 (128 + 8 * eLength e) e == 0

/-- The operands of an entry are within R33, R34 and R375: what is not named for the opcode is zero, and what is named is
within its range. -/
def operandsOk (e : BitVec 512) : Bool :=
  let op := eOpcode e
  let noX := eX64 e == 0
  let noR := eRaddr e == 0 && eRkey e == 0
  let noLen := eLength e == 0
  let noL := eLaddr e == 0 && eLkey e == 0
  let noY := eY64 e == 0
  let noAux := eAux e == 0
  if op == 0x01 then
    immOk e && eRkey e == 0 && (if eInline e then inlineOk e else eLength e ≤ 2 ^ 31 && noY && auxFragsOk e)
  else if op == 0x02 then
    immOk e && (if eInline e then inlineOk e else eLength e ≤ 2 ^ 31 && noY && auxFragsOk e)
  else if op == 0x03 then noX && eLength e ≤ 2 ^ 31 && noY && auxFragsOk e
  else if op == 0x04 then
    let width := bits 143 136 e
    noLen && bits 159 144 e == 0 && bits 135 128 e ≤ 0x0A && (width == 3 ||
      (width == 2 && bits 511 480 e == 0 && bits 223 192 e == 0))
  else if op == 0x05 then noX && noLen && noL && noAux
  else if op == 0x06 then
    noR && eLength e ≤ 2 ^ 31 && bits 151 145 e == 0 && (eIndirect e || bits 159 152 e == 0)
  else if op == 0x00 || op == 0x10 then noX && noR && noLen && noL && noY && noAux
  else if op == 0x11 then noR && noY && noAux
  else if op == 0x12 then noX && noR && noLen && noAux
  else if op == 0x20 || op == 0x21 || op == 0x28 then noR && noAux
  else
    noR && noY && noAux && eLkey e == 0 && eLength e == adminBlockLen op &&
    (adminBlockLen op != 0 || eLaddr e == 0) && (eX64 e).toNat < 2 ^ adminIdBits op

/-- The outcome of decoding a fetched entry (R31): `none` if it may be issued. MALFORMED is judged before NOT_PERMITTED
(DEDUCED from the order of the rule's text). The member is the 9740, which implements every opcode. -/
def decodeStatus (admin : Bool) (e : BitVec 512) : Option (BitVec 8) :=
  if !(opDefined (eOpcode e) && headerOk e && flagsOk e && operandsOk e) then some St.malformed
  else if opAdmin (eOpcode e) && !admin then some St.notPermitted
  else none

/-! ### Rings and entries -/

/-- Key of ring `r` of function `f`. -/
def ringKey (f r : Nat) : Nat := f * 4096 + r

def getRing (f r : Nat) (s : State) : Option Ring := tget s.cmp.rings (ringKey f r)

def putRing (f r : Nat) (g : Ring) (s : State) : State :=
  { s with cmp := { s.cmp with rings := tset s.cmp.rings (ringKey f r) g } }

/-- The lap of an index (R39). -/
def lapOf (log2 : Nat) (i : BitVec 32) : Nat := i.toNat / 2 ^ log2

/-- V(L), which marks an entry of lap L as posted (R39). -/
def ownValue (lap : Nat) : Nat := (lap + 1) % 2

/-- The ownership test of R40. -/
def ownTest (log2 : Nat) (i : BitVec 32) (e : BitVec 512) : Bool :=
  bits 16 16 e == ownValue (lapOf log2 i) && bits 31 24 e == lapOf log2 i % 256

/-- Bus address of entry `i` (R37). -/
def entryAddr (g : Ring) (i : BitVec 32) : BitVec 64 := g.base + BitVec.ofNat 64 (64 * (i.toNat % 2 ^ g.log2size))

/-- The encoding of STATE in a mirror (R49). -/
def RingState.code : RingState → Nat
  | .running => 0
  | .stoppedFetch => 1
  | .stoppedDevice => 2
  | .frozen => 3

/-- The mirror's bytes for a ring in its layout (R49, R51). -/
def mirrorBytes (g : Ring) (state : Nat) : List Byte :=
  if g.fmt8520 then leBytes 4 (state * 2 ^ 24 + g.errcnt.toNat % 256 * 2 ^ 16 + g.head.toNat % 2 ^ 16)
  else leBytes 8 (state * 2 ^ 56 + g.errcnt.toNat * 2 ^ 40 + g.head.toNat)

/-- Write a ring's Head Mirror with a STATE (R50). -/
def writeMirror (f : Nat) (g : Ring) (state : Nat) (s : State) : State := ringWrite f g.mirror (mirrorBytes g state) s

/-- Write the Head Mirror of a ring that is held, with its own STATE, and note the head published. -/
def publish (f r : Nat) (s : State) : State :=
  match getRing f r s with
  | some g => writeMirror f g g.state.code (putRing f r { g with published := g.head } s)
  | none => s

/-- The finished entries at the front: how many, how many with a status other than SUCCESS, and the rest (R47). -/
def finishedPrefix : List Entry → Nat × Nat × List Entry
  | [] => (0, 0, [])
  | e :: t =>
    match e.result with
    | none => (0, 0, e :: t)
    | some (st, _) =>
      let (n, errs, rest) := finishedPrefix t
      (n + 1, (if st == St.success then errs else errs + 1), rest)

/-- Advance the head over the contiguous run of finished entries (R47, R48). -/
def advanceHead (g : Ring) : Ring :=
  let (n, errs, rest) := finishedPrefix g.entries
  { g with head := g.head + BitVec.ofNat 32 n, errcnt := g.errcnt + BitVec.ofNat 16 errs, entries := rest }

/-- The ownership word of a finished entry (R41): STATUS and DETAIL final, OWN the opposite of V(lap), the rest as
fetched. -/
def finishedWord (log2 : Nat) (i : BitVec 32) (e : BitVec 512) (st dt : BitVec 8) : Nat :=
  let w : BitVec 64 := e.extractLsb' 0 64
  (setBits 63 56 dt.toNat (setBits 55 48 st.toNat (setBits 16 16 (lapOf log2 i % 2) w))).toNat

/-- Replace element `i` of a list. -/
def setAt {α : Type} : List α → Nat → α → List α
  | [], _, _ => []
  | _ :: t, 0, x => x :: t
  | y :: t, n + 1, x => y :: setAt t n x

/-- The entry that a reference names, if its ring still holds it. -/
def refEntry (ref : EntryRef) (s : State) : Option (Ring × Nat × Entry) :=
  match getRing ref.fn ref.ring s with
  | some g =>
    if g.uid == ref.uid then
      let i := (ref.idx - g.head).toNat
      match g.entries[i]? with
      | some e => some (g, i, e)
      | none => none
    else none
  | none => none

/-- The 64 bytes of a referenced entry; zero if its ring no longer holds it. -/
def refRaw (ref : EntryRef) (s : State) : BitVec 512 :=
  match refEntry ref s with
  | some (_, _, e) => e.raw
  | none => 0

/-- Has a referenced entry not finished yet? -/
def refLive (ref : EntryRef) (s : State) : Bool :=
  match refEntry ref s with
  | some (_, _, e) => e.result.isNone
  | none => false

/-- An entry finishes with STATUS and DETAIL: its ownership word is written once (R41) and the head advances over the
finished run (R47). Nothing happens for an entry that has finished already or whose ring is gone. -/
def finishEntry (ref : EntryRef) (st dt : BitVec 8) (s : State) : State :=
  match refEntry ref s with
  | some (g, i, e) =>
    if e.result.isNone then
      let s := ringWrite ref.fn (entryAddr g ref.idx) (leBytes 8 (finishedWord g.log2size ref.idx e.raw st dt)) s
      putRing ref.fn ref.ring
        (advanceHead { g with entries := setAt g.entries i { e with issued := true, result := some (st, dt) } }) s
    else s
  | none => s

/-- Mark a referenced entry issued, and the ring's issue point free for the next. -/
def markIssued (ref : EntryRef) (s : State) : State :=
  match refEntry ref s with
  | some (g, i, e) =>
    putRing ref.fn ref.ring
      { g with entries := setAt g.entries i { e with issued := true }, issuing := false, reading := none } s
  | none => s

/-- An entry is issued and finishes at once. -/
def issueFinish (ref : EntryRef) (st dt : BitVec 8) (s : State) : State := finishEntry ref st dt (markIssued ref s)

/-- Set the flags that hold a ring's issue point while an entry's fragment table, descriptor or key is read. -/
def setIssuing (ref : EntryRef) (issuing : Bool) (reading : Option Nat) (s : State) : State :=
  match getRing ref.fn ref.ring s with
  | some g => if g.uid == ref.uid then putRing ref.fn ref.ring { g with issuing := issuing, reading := reading } s else s
  | none => s

/-- Position of the first entry not issued. -/
def firstUnissued : List Entry → Option Nat
  | [] => none
  | e :: t => if e.issued then (firstUnissued t).map (· + 1) else some 0

/-- The entry that the CMP may issue next from a ring (R36): the ring is RUNNING, its function is not frozen, and an entry
that is fenced (the FENCE flag, or the opcodes FENCE and SIGNAL) has every earlier entry finished. -/
def issuable (f r : Nat) (s : State) : Option (EntryRef × BitVec 512) :=
  match getRing f r s with
  | some g =>
    match firstUnissued g.entries with
    | some i =>
      match g.entries[i]? with
      | some e =>
        let fenced := eFence e.raw || eOpcode e.raw == 0x10 || eOpcode e.raw == 0x12
        if g.state == .running && !frozen f s && (!fenced || i == 0) then
          some (⟨f, r, g.uid, g.head + BitVec.ofNat 32 i⟩, e.raw)
        else none
      | none => none
    | none => none
  | none => none

/-- The next entry of a ring, if it carries one opcode and nothing of it is in progress. -/
def issueOf (op f r : Nat) (s : State) : Option (EntryRef × BitVec 512) :=
  match issuable f r s with
  | some (ref, e) =>
    if eOpcode e == op && !((getRing f r s).any (fun g => g.issuing)) then some (ref, e) else none
  | none => none

/-- Identifiers of the Command Rings of a function. -/
def ringsOf (f : Nat) (s : State) : List Nat :=
  s.cmp.rings.filterMap (fun (k, _) => if k / 4096 == f then some (k % 4096) else none)

/-- A ring changes STATE, and its mirror is written at once (R50). -/
def setRingState (f r : Nat) (st : RingState) (s : State) : State :=
  match getRing f r s with
  | some g => publish f r (putRing f r { g with state := st } s)
  | none => s

/-! ### Arrival Rings -/

def getArv (f a : Nat) (s : State) : Option Arv := tget s.cmp.arvs (ringKey f a)

def putArv (f a : Nat) (g : Arv) (s : State) : State :=
  { s with cmp := { s.cmp with arvs := tset s.cmp.arvs (ringKey f a) g } }

/-- Free slots of a budget (R60). -/
def Arv.free (g : Arv) : Budget → Nat
  | .error => g.freeErr
  | .pool => g.freePool
  | .recv => g.freeRecv

/-- The ring with a budget's free slots changed. -/
def Arv.setFree (g : Arv) (b : Budget) (n : Nat) : Arv :=
  match b with
  | .error => { g with freeErr := n }
  | .pool => { g with freePool := n }
  | .recv => { g with freeRecv := n }

/-- Reserve one slot of a budget: `none` if it has no free slot or the ring is fenced or gone (R61, R62). -/
def arvTake (f a : Nat) (b : Budget) (s : State) : Option State :=
  match getArv f a s with
  | some g => if g.fenced || g.free b == 0 then none else some (putArv f a (g.setFree b (g.free b - 1)) s)
  | none => none

/-- Give back a reserved slot in which nothing was written. -/
def arvGive (f a : Nat) (b : Budget) (s : State) : State :=
  match getArv f a s with
  | some g => putArv f a (g.setFree b (g.free b + 1)) s
  | none => s

/-- The ownership word of notice `i` (R58, R59). -/
def noticeWord (n : Notice) (log2 : Nat) (i : BitVec 32) : Nat :=
  n.detail.toNat * 2 ^ 56 + n.status.toNat * 2 ^ 48 + n.kind * 2 ^ 40 + lapOf log2 i % 256 * 2 ^ 32 +
  ownValue (lapOf log2 i) * 2 ^ 24 + n.qpn % 2 ^ 24

/-- Bytes 8 to 31 of a notice. -/
def noticeBody (n : Notice) : List Byte :=
  leBytes 8 (n.src.toNat * 2 ^ 47 + n.bytes % 2 ^ 32) ++ leBytes 4 n.key.toNat ++ leBytes 4 n.imm.toNat ++
  leBytes 8 n.addr.toNat

/-- Write a notice into a slot already reserved from a budget: bytes 8 to 31, then the ownership word (R59). Nothing is
written for a fenced ring (R65) or a frozen function (R524), and the slot then stays with what reserved it. -/
def writeNotice (f a : Nat) (b : Budget) (n : Notice) (s : State) : State :=
  match getArv f a s with
  | some g =>
    if g.fenced || frozen f s then s else
    let at_ := g.base + BitVec.ofNat 64 (32 * (g.produced.toNat % 2 ^ g.log2size))
    let s := hostWrite f (at_ + 8) (noticeBody n) s
    let s := hostWrite f at_ (leBytes 8 (noticeWord n g.log2size g.produced)) s
    putArv f a { g with written := g.written ++ [b], produced := g.produced + 1 } s
  | none => s

/-- Count an ERROR_NOTICE that is not written (R63, R524). -/
def errLost (f a : Nat) (s : State) : State :=
  match getArv f a s with
  | some g => evcPulse 196 f (putArv f a { g with lost := g.lost + 1 } s)
  | none => s

/-- Write an ERROR_NOTICE, which draws on the error reserve; with none free, or for a frozen function, it is counted as
lost instead (R63, R524). The count of lost notices goes out in BYTES. -/
def errorNotice (f a : Nat) (n : Notice) (s : State) : State :=
  if frozen f s then errLost f a s else
  match getArv f a s with
  | some g =>
    if g.fenced then s
    else if g.freeErr == 0 then errLost f a s
    else
      writeNotice f a .error { n with bytes := g.lost.toNat, kind := 3 }
        (putArv f a { g with freeErr := g.freeErr - 1, lost := 0 } s)
  | none => s

/-- Return `n` slots to their budgets, oldest first (R60, R64). -/
def Arv.giveBack (g : Arv) (n : Nat) : Arv :=
  (g.written.take n).foldl (fun g b => g.setFree b (g.free b + 1)) { g with written := g.written.drop n }

end Sys2Proof.Machine
end

