-- ==== Sys2Proof/Machine/Xlt.lean ====
section
/-! DEFINITION. The translation unit (03): the access check of R80, BTRs, walks, the caches, drains. -/

namespace Sys2Proof.Machine

/-! ### Keys and descriptors -/

/-- Key of descriptor `idx` of function `f`. -/
def descKey (f idx : Nat) : Nat := f * 2 ^ 24 + idx

/-- A region descriptor from its 256 bits (R76). -/
def Desc.decode (v : BitVec 256) : Desc :=
  { va := v.extractLsb' 192 64, size := v.extractLsb' 128 64, gen := v.extractLsb' 120 8, pd := v.extractLsb' 96 16,
    btr := v.extractLsb' 88 8,
    state := if bits 87 86 v == 0 then .invalid else if bits 87 86 v == 1 then .valid
      else if bits 87 86 v == 2 then .revoking else .bad,
    modeBtr := bit 85 v, rights := v.extractLsb' 80 5 }

/-- Encoding of STATE in a descriptor (R76). -/
def KeyState.code : KeyState → Nat
  | .invalid => 0
  | .valid => 1
  | .revoking => 2
  | .bad => 3

/-- The 32 bytes of a descriptor (R76). -/
def Desc.encode (d : Desc) : List Byte :=
  leBytes 32 (d.va.toNat * 2 ^ 192 + d.size.toNat * 2 ^ 128 + d.gen.toNat * 2 ^ 120 + d.pd.toNat * 2 ^ 96 +
    d.btr.toNat * 2 ^ 88 + d.state.code * 2 ^ 86 + (if d.modeBtr then 2 ^ 85 else 0) + d.rights.toNat * 2 ^ 80)

/-- Is function `f`'s key table in use (R74)? -/
def keytabActive (f : Nat) (s : State) : Bool := bit 1 (rdFn f Reg.XLT_KEYTAB_CTRL s)

/-- log2 of the number of descriptors (R73). -/
def keytabLog2 (f : Nat) (s : State) : Nat := ff f Reg.XLT_KEYTAB 4 0 s

/-- Bus address of a descriptor in the key table. -/
def descAddr (f idx : Nat) (s : State) : BitVec 64 :=
  BitVec.ofNat 64 (ff f Reg.XLT_KEYTAB 63 12 s * 4096 + 32 * idx)

/-- Put a descriptor into the on-chip cache of 8,192; when it is full a cached one, chosen by a free value, gives way. -/
def cacheDesc (f idx : Nat) (d : Desc) (s : State) : State :=
  let k := descKey f idx
  let (n, s) := fresh s
  let full := (tget s.xlt.descs k).isNone && 8192 ≤ s.xlt.descs.length
  let base := if full then s.xlt.descs.eraseIdx (Config.victim n % 8192) else s.xlt.descs
  { s with xlt := { s.xlt with descs := tset base k d } }

/-- Write a descriptor: cached and written through to the key table. -/
def writeDesc (f idx : Nat) (d : Desc) (s : State) : State :=
  hostWrite f (descAddr f idx s) d.encode (cacheDesc f idx d s)

/-- Is a domain allocated to a function (R70, R80 test 4)? -/
def pdOwned (f : Nat) (pd : BitVec 16) (s : State) : Bool :=
  match tget s.xlt.pds pd.toNat with
  | some p => p.owner == f
  | none => false

/-- The two tests of R521 on a domain that an admin entry names. -/
def pdJudge (f : Nat) (pd : BitVec 16) (s : State) : Option (BitVec 8) :=
  match tget s.xlt.pds pd.toNat with
  | none => some St.invalidParam
  | some p => if p.owner == f then none else some St.notPermitted

/-- Is a BTR allocated to a function (R81)? -/
def btrOwned (f n : Nat) (s : State) : Bool :=
  let v := rdReg (Reg.XLT_BTR_ALLOC + 8 * n) s
  bit 12 v && bits 11 0 v == f

/-! ### Windows and excluded ranges (R88, R90) -/

/-- Do two byte ranges overlap? -/
def overlaps (a n b m : Nat) : Bool := a < b + m && b < a + n

/-- Does a byte range touch a BAR of the functions of controller `j`? -/
def touchesBars (j a n : Nat) (s : State) : Bool :=
  let c := (tget s.hif.cfg (0x100 * j)).getD FnCfg.reset
  let base (v : BitVec 64) : Nat := v.toNat / 16 * 16
  (base c.bar0 != 0 && overlaps a n (base c.bar0) 0x10000000) ||
  (base c.vfBar0 != 0 && overlaps a n (base c.vfBar0) (0x8000000 * c.numVfs.toNat))

/-- Does a byte range touch an excluded range, or a BAR of the device, whichever controller has it (R88)? -/
def excluded (a n : Nat) (s : State) : Bool :=
  (List.range 16).any (fun k =>
    let v := rdReg (Reg.XLT_BAR_EXCL + 8 * k) s
    bit 6 v && overlaps a n (bits 63 12 v * 4096) (2 ^ bits 5 0 v)) ||
  (List.range 4).any (fun j => touchesBars j a n s)

/-- May a walk read the 4 KiB table at an address (R90)? -/
def tableOk (f : Nat) (a : BitVec 64) (s : State) : Bool := inWindow f a 4096 s && !excluded a.toNat 4096 s

/-! ### Leaves and caches -/

/-- Does a leaf's page hold a virtual address of a domain? -/
def Leaf.covers (l : Leaf) (dom : BitVec 16) (va : Nat) : Bool :=
  l.dom == dom && l.va.toNat ≤ va && va < l.va.toNat + 2 ^ l.log2

/-- The covering leaf with the smallest page (R92). -/
def bestLeaf (dom : BitVec 16) (va : Nat) : List Leaf → Option Leaf
  | [] => none
  | l :: t =>
    match bestLeaf dom va t with
    | some m => if l.covers dom va && l.log2 ≤ m.log2 then some l else some m
    | none => if l.covers dom va then some l else none

/-- The leaf that a lookup uses: one that the access's own walk has found, else a locked entry, else an XTC entry
(R92, R96). -/
def lookupLeaf (dom : BitVec 16) (va : Nat) (own : List Leaf) (s : State) : Option Leaf :=
  (bestLeaf dom va own).orElse fun _ =>
  (bestLeaf dom va ((s.xlt.locked.filter (fun x => !x.2.stale)).map (·.2.leaf))).orElse fun _ => bestLeaf dom va s.xlt.xtc

/-- The virtual-address bits that a walk-cache entry of a level is tagged by (R93). -/
def walkTag (level va : Nat) : Nat := va % 2 ^ 48 / 2 ^ (12 + 9 * level)

/-- The walk-cache entry of a level that matches. -/
def walkHit (dom : BitVec 16) (va level : Nat) (s : State) : Option WalkEntry :=
  s.xlt.walks.find? (fun w => w.dom == dom && w.level == level && w.tag.toNat == walkTag level va)

/-- Where a walk starts (R93): at the table that the deepest matching walk-cache entry names, or at ROOT. -/
def walkStart (dom : BitVec 16) (root : BitVec 64) (va : Nat) (s : State) : Walk :=
  let w (level : Nat) (t : BitVec 64) : Walk :=
    { dom := dom, va := BitVec.ofNat 64 va, level := level, table := t, path := [], noFill := false }
  match walkHit dom va 1 s, walkHit dom va 2 s, walkHit dom va 3 s with
  | some e, _, _ => w 0 e.next
  | none, some e, _ => w 1 e.next
  | none, none, some e => w 2 e.next
  | none, none, none => w 3 root

/-- Put an element into a cache of `cap` entries, replacing the element that `same` finds, or a free value's choice when
the cache is full (R92, R93). -/
def cachePut {α : Type} (cap : Nat) (same : α → Bool) (x : α) (n : Nat) (c : List α) : List α :=
  let c' := c.filter (fun y => !same y)
  if c'.length < cap then x :: c' else setAt c' (Config.victim n % cap) x

/-- Do two leaves translate a common address of one domain? -/
def Leaf.meets (l m : Leaf) : Bool := l.covers m.dom m.va.toNat || m.covers l.dom l.va.toNat

/-- Fill the XTC with a leaf. A lockable entry that has lost its leaf is filled again instead (R99), whatever the size of the
page that its walk has found now. -/
def fillXtc (l : Leaf) (s : State) : State :=
  match s.xlt.locked.find? (fun x => x.2.stale && x.2.leaf.meets l) with
  | some (n, x) => { s with xlt := { s.xlt with locked := tset s.xlt.locked n { x with leaf := l, stale := false } } }
  | none =>
  let (n, s) := fresh s
  { s with xlt := { s.xlt with
      xtc := cachePut 4096 (fun m => m.dom == l.dom && m.va == l.va && m.log2 == l.log2) l n s.xlt.xtc } }

/-- Fill the walk cache with a table entry. -/
def fillWalk (e : WalkEntry) (s : State) : State :=
  let (n, s) := fresh s
  { s with xlt := { s.xlt with
      walks := cachePut 1024 (fun w => w.dom == e.dom && w.level == e.level && w.tag == e.tag) e n s.xlt.walks } }

/-! ### The check (R80) -/

/-- How far a check has come for one part. -/
inductive PartOut where
  | pass (segs : List Seg)
  | fail (detail : Nat)
  | need (w : Wait)
  deriving DecidableEq, Repr

/-- Tests 7 to 9 for the bytes from `a` to `e` of a region that translates by walk, page by page (R84 to R91). -/
def checkPages (acc : Access) (dom : BitVec 16) (root : BitVec 64) (own : List Leaf) (s : State) :
    Nat → Nat → Nat → PartOut
  | 0, _, _ => .pass []
  | n + 1, a, e =>
    if e ≤ a then .pass [] else
    match lookupLeaf dom a own s with
    | none => .need (.walk (walkStart dom root a s))
    | some l =>
      let stop := min e (l.va.toNat + 2 ^ l.log2)
      let bus := l.bus.toNat + (a - l.va.toNat)
      if (acc.rd && !l.read) || (acc.wr && !l.write) then .fail 0x14
      else if !inWindow acc.fn (BitVec.ofNat 64 bus) (stop - a) s || excluded bus (stop - a) s then .fail 0x15
      else
        match checkPages acc dom root own s n stop e with
        | .pass segs => .pass (⟨BitVec.ofNat 64 bus, stop - a⟩ :: segs)
        | r => r

/-- The check of one part of an access, test by test (R80). -/
def checkPart (acc : Access) (p : Part) (own : List Leaf) (s : State) : PartOut :=
  let idx := p.key.toNat / 256
  if !keytabActive acc.fn s || idx == 0 || 2 ^ keytabLog2 acc.fn s ≤ idx then .fail 0x01 else
  match tget s.xlt.descs (descKey acc.fn idx) with
  | none => .need (.desc idx)
  | some d =>
    let a := p.addr.toNat
    if d.state == .invalid || d.state == .bad then .fail 0x01
    else if d.gen.toNat != p.key.toNat % 256 then .fail 0x02
    else if d.state != .valid then .fail 0x06
    else if !pdOwned acc.fn d.pd s || (acc.dom.any (· != d.pd)) then .fail 0x03
    else if d.rights &&& acc.rights != acc.rights then .fail 0x04
    else if acc.testsOnly then .pass []
    else if !(d.va.toNat ≤ a && a + p.len ≤ d.va.toNat + d.size.toNat) then .fail 0x05
    else if p.len == 0 then .pass []
    else if d.modeBtr then
      match tget s.xlt.btrs d.btr.toNat with
      | none => .fail 0x12
      | some b =>
        if !btrOwned acc.fn d.btr.toNat s || b.pd != d.pd || a < b.vaBase.toNat ||
            b.vaBase.toNat + b.size.toNat < a + p.len then .fail 0x12
        else
          let bus := b.busBase + BitVec.ofNat 64 (a - b.vaBase.toNat)
          if (acc.rd && !b.read) || (acc.wr && !b.write) then .fail 0x14
          else if !inWindow acc.fn bus p.len s then .fail 0x15
          else .pass [⟨bus, p.len⟩]
    else
      match tget s.xlt.pds d.pd.toNat with
      | none => .fail 0x03
      | some pd =>
        if pd.root == 0 then .fail 0x12
        else checkPages acc d.pd pd.root own s (p.len / 4096 + 2) a (a + p.len)

/-- The check of all parts, in order; the first that fails or must wait decides. -/
def checkParts (acc : Access) (own : List Leaf) (s : State) : List Part → List Seg → PartOut
  | [], segs => .pass segs
  | p :: t, segs =>
    match checkPart acc p own s with
    | .pass more => checkParts acc own s t (segs ++ more)
    | r => r

/-- The outcome of a check that has one: admitted, with its number among the live accesses, or failed. -/
inductive Checked where
  | pass (serial : Nat) (segs : List Seg)
  | fail (detail : Nat)
  deriving DecidableEq, Repr

/-- Count a key or walk fault on its EVC event (R103, R443). -/
def countFault (f detail : Nat) (s : State) : State :=
  if detail == 0 then s else if detail ≤ 0x07 then evcPulse 197 f s else evcPulse 198 f s

/-- The STATUS of a local fault by its DETAIL (R101). -/
def faultStatus (detail : Nat) : BitVec 8 := if detail ≤ 0x07 then St.localKey else St.translationFault

/-- Admit an access: it is live until it has drained (R105). -/
def admitAccess (s : State) : Nat × State :=
  (s.xlt.nextSerial, { s with xlt := { s.xlt with
    nextSerial := s.xlt.nextSerial + 1, live := s.xlt.nextSerial :: s.xlt.live } })

/-- Suspend an access until a host-memory read returns. -/
def suspend (acc : Access) (own : List Leaf) (w : Wait) (s : State) : State :=
  { s with xlt := { s.xlt with
      nextSerial := s.xlt.nextSerial + 1
      waiting := s.xlt.waiting ++ [⟨s.xlt.nextSerial, acc, own, w⟩] } }

/-- Ask for an access. Its check is run within the same step (see `settle`). -/
def xltStart (acc : Access) (s : State) : State := suspend acc [] .ready s

/-- Index of a table entry at a level (R84). -/
def tableIndex (level va : Nat) : Nat := va / 2 ^ (12 + 9 * level) % 512

/-- Run an access's check as far as it goes. It answers an outcome, or suspends the access until the host-memory read it
needs returns; a read that cannot be issued fails at once (R90, R469). -/
def xltRun (acc : Access) (own : List Leaf) (s : State) : Option Checked × State :=
  match checkParts acc own s acc.parts [] with
  | .fail d => (some (.fail d), if acc.testsOnly then s else countFault acc.fn d s)
  | .pass segs =>
    let (n, s) := admitAccess s
    (some (.pass n segs), s)
  | .need .ready => (none, s)
  | .need (.failed d) => (some (.fail d), s)
  | .need (.desc idx) =>
    let asked := s.xlt.waiting.any (fun w => w.access.fn == acc.fn && w.wait == .desc idx)
    if !asked && !readable acc.fn (descAddr acc.fn idx s) 32 s then (some (.fail 0x07), countFault acc.fn 7 s)
    else
      let s := if asked then s else hostRead acc.fn (descAddr acc.fn idx s) 32 s
      (none, suspend acc own (.desc idx) s)
  | .need (.walk w) =>
    let s := evcPulse 199 0 s
    if !tableOk acc.fn w.table s then (some (.fail 0x11), countFault acc.fn 0x11 s)
    else
      let at_ := w.table + BitVec.ofNat 64 (8 * tableIndex w.level w.va.toNat)
      let s := hostRead acc.fn at_ 8 s
      (none, suspend acc own (.walk w) s)

/-! ### Walk steps (R85 to R91) -/

/-- What one table entry says (R85, R86). -/
inductive WalkOut where
  | fail (detail : Nat)
  | table (next : BitVec 64)
  | leaf (l : Leaf)
  deriving DecidableEq, Repr

/-- Judge a walk-table entry at a level (R85, R86). -/
def walkEntry (w : Walk) (e : BitVec 64) : WalkOut :=
  let addr := bits 51 12 e * 4096
  let rwc := bits 4 2 e
  let leaf (log2 base : Nat) : WalkOut :=
    .leaf { dom := w.dom, va := BitVec.ofNat 64 (w.va.toNat / 2 ^ log2 * 2 ^ log2), log2 := log2,
            bus := BitVec.ofNat 64 base, read := bit 2 e, write := bit 3 e }
  if !bit 0 e then .fail 0x12
  else if bits 63 52 e != 0 || bits 11 5 e != 0 then .fail 0x13
  else if bit 1 e then
    if w.level == 0 || rwc != 0 then .fail 0x13 else .table (BitVec.ofNat 64 addr)
  else if w.level == 3 then .fail 0x13
  else if w.level == 2 then if bit 4 e || bits 29 12 e != 0 then .fail 0x13 else leaf 30 addr
  else if w.level == 1 then if bit 4 e || bits 20 12 e != 0 then .fail 0x13 else leaf 21 addr
  else if bit 4 e then
    if bits 15 12 e == bits 15 12 w.va then leaf 16 (addr / 65536 * 65536) else .fail 0x13
  else leaf 12 addr

/-- A walk that has read a table entry goes down one level. -/
def Walk.down (w : Walk) (next : BitVec 64) : Walk :=
  { w with level := w.level - 1, table := next,
           path := { dom := w.dom, level := w.level, tag := BitVec.ofNat 64 (walkTag w.level w.va.toNat), next := next }
             :: w.path }

/-- A completed walk fills the XTC and the walk cache, unless an invalidation has caught it (R91, R96). -/
def fillCaches (w : Walk) (l : Leaf) (s : State) : State :=
  if w.noFill then s else w.path.foldr fillWalk (fillXtc l s)

/-! ### Drains (R96, R104, R105) -/

/-- Send a flushing read on a link; one outside the window is not issued, and completes as an error (R469). -/
def flushRead (link f : Nat) (a : BitVec 64) (s : State) : State :=
  if readable f a 0 s then hostReadOn link f a 0 false s else s

/-- Issue a drain's flushing reads: one on every link that has carried a write (a superset, as R105 permits), addressed at
that link's last write with its function's requester ID (R468). -/
def flushLinks (why : FlushFor) (s : State) : State :=
  s.xlt.dirty.foldl (fun s (link, f, a) =>
    let s := flushRead link f a s
    { s with xlt := { s.xlt with flushes := s.xlt.flushes ++ [(link, why)] } }) s

/-- The end of a drain (R104): a revoked key becomes INVALID, written through, and the admin entry finishes. -/
def drainEnd (d : Drain) (s : State) : State :=
  let s := match d.kind with
    | .other => s
    | .revoke idx x =>
      let s := { s with xlt := { s.xlt with regions := tdel s.xlt.regions (descKey d.ref.fn idx) } }
      writeDesc d.ref.fn idx { x with state := .invalid } s
  finishEntry d.ref St.success 0 s

/-- Has a drain issued its flushing reads, and has every one of them completed? -/
def drainOver (s : State) (d : Drain) : Bool :=
  d.flushing && !s.xlt.flushes.any (fun x => x.2 == FlushFor.drain d.ref)

/-- The State with other drains. -/
def withDrains (ds : List Drain) (s : State) : State := { s with xlt := { s.xlt with drains := ds } }

/-- Is an access that a drain waits for still under way: admitted and not drained, or suspended in a walk (R96, R105)? -/
def stillLive (s : State) (n : Nat) : Bool := s.xlt.live.contains n || s.xlt.waiting.any (fun w => w.serial == n)

/-- Has every access that a drain waits for drained? -/
def drainReady (s : State) (d : Drain) : Bool := !d.waitFor.any (stillLive s)

/-- Drains go on: those that wait for no live access issue their flushing reads, and those whose flushing reads are all
complete end. -/
def drainStep (s : State) : State :=
  let ready := s.xlt.drains.filter (drainReady s)
  let s := s.xlt.drains.foldl (fun s d =>
    if drainReady s d && !d.flushing then flushLinks (.drain d.ref) s else s) s
  let s := withDrains (s.xlt.drains.map (fun d => { d with flushing := d.flushing || ready.contains d })) s
  let ended := s.xlt.drains.filter (drainOver s)
  let s := withDrains (s.xlt.drains.filter (fun d => !drainOver s d)) s
  ended.foldl (fun s d => drainEnd d s) s

/-- Drains go on, if there are any. -/
def drainsOn (s : State) : State := if s.xlt.drains.isEmpty then s else drainStep s

/-- An admitted access has drained: every read has returned and every write has been sent. -/
def drained (serial : Nat) (s : State) : State :=
  drainsOn { s with xlt := { s.xlt with
    live := s.xlt.live.filter (· != serial),
    drains := s.xlt.drains.map (fun d => { d with waitFor := d.waitFor.filter (· != serial) }) } }

/-- An access that was suspended goes on under another number: a drain that waits for it waits for it still (R96). -/
def renameDrained (old new : Nat) (s : State) : State :=
  withDrains (s.xlt.drains.map (fun d => { d with waitFor := d.waitFor.map (fun n => if n == old then new else n) })) s

/-- An admin entry starts to wait for a drain of every access admitted so far, and of suspended accesses that it has caught (R96,
R105). -/
def startDrain (ref : EntryRef) (kind : DrainKind) (caught : List Nat) (s : State) : State :=
  drainStep { s with xlt := { s.xlt with drains := s.xlt.drains ++ [⟨ref, kind, s.xlt.live ++ caught, false⟩] } }

/-! ### Entries that stop at the issue point (R46, R57, R69) -/

/-- The entry whose issue an access belongs to: its table, its data or its buffer is checked before it is issued. -/
def issueRef (p : Purpose) : Option EntryRef :=
  match p with
  | .entryTable ref => some ref
  | .sendTest ref => some ref
  | .zeroCheck ref => some ref
  | .postRecv ref => some ref
  | _ => none

/-- The issue of a ring's next entry is given up: its access under check goes, and the read that it waits for has drained. -/
def dropIssue (f r : Nat) (s : State) : State :=
  match getRing f r s with
  | none => s
  | some g =>
    let mine (w : Waiting) : Bool := (issueRef w.access.purpose).any (fun x => x.fn == f && x.ring == r && x.uid == g.uid)
    let s := { s with xlt := { s.xlt with waiting := s.xlt.waiting.filter (fun w => !mine w) } }
    let s := putRing f r { g with issuing := false, reading := none } s
    let s := drainsOn s
    match g.reading with
    | some n => drained n s
    | none => s

/-- Finish every issued entry of a ring with a status, drop those fetched and not issued, and free the issue point. The head passes the
issued entries, those too that a fence of the CMP had finished where they stood (R46, R48). -/
def sweepRing (f r : Nat) (st : BitVec 8) (s : State) : State :=
  let s := dropIssue f r s
  match getRing f r s with
  | some g =>
    let n := (g.entries.filter (·.issued)).length
    let s := putRing f r { g with entries := g.entries.take n, waitOwn := false } s
    let s := (List.range n).foldl (fun s k => finishEntry ⟨f, r, g.uid, g.head + BitVec.ofNat 32 k⟩ st 0 s) s
    { s with cmp := { s.cmp with rings := tmod s.cmp.rings (ringKey f r) advanceHead } }
  | none => s

/-- The rings of a function freeze (R46): issued entries finish FROZEN, the head stands at the first entry not issued,
and each mirror shows FROZEN. -/
def freezeRings (f : Nat) (s : State) : State :=
  (ringsOf f s).foldl (fun s r => setRingState f r .frozen (sweepRing f r St.frozen s)) s

/-- A function is frozen with a cause, if it is not frozen already (R439): the FROZEN bits and the cause are set and its
rings freeze. What the freeze does to collectives and Taper programs is added by those blocks. -/
def freezeCore (f cause : Nat) (s : State) : State :=
  if frozen f s then s else
  let s := setRf (Reg.SEC_FROZEN + 8 * (f / 64)) (f % 64) (f % 64) 1 s
  let s := setRf (Reg.SEC_FREEZE_CAUSE + 8 * f) 7 0 cause s
  freezeRings f (setFf f Reg.CMR_STATUS 0 0 1 s)

end Sys2Proof.Machine
end

