-- ==== Sys2Proof/Machine/Operands.lean ====
section
/-! DEFINITION. Operand forms shared by the families: CRC-32C, packet headers and their check code, context images,
endpoints, byte ranges through fragments and segments, and the double arithmetic of R156. -/

namespace Sys2Proof.Machine

/-! ### CRC-32C (R113, R132) -/

/-- `n` shifts of the reflected CRC register. -/
def crcShift : Nat → Nat → Nat
  | 0, c => c
  | n + 1, c => crcShift n (if c % 2 == 1 then Nat.xor (c / 2) 0x82F63B78 else c / 2)

/-- The CRC register after bytes. -/
def crcBytes : List Byte → Nat → Nat
  | [], c => c
  | b :: t, c => crcBytes t (crcShift 8 (Nat.xor c b.toNat))

/-- CRC-32C of bytes with the parameters of R113. -/
def crc32c (bs : List Byte) : BitVec 32 := BitVec.ofNat 32 (Nat.xor (crcBytes bs 0xFFFFFFFF) 0xFFFFFFFF)

/-! ### Packet headers (R131, R132) -/

/-- A Bool as a number. -/
def b2n (b : Bool) : Nat := if b then 1 else 0

/-- The header as a 512-bit number (R131). -/
def headerNat (p : Packet) : Nat :=
  p.addr.toNat * 2 ^ 448 + p.opx.toNat * 2 ^ 384 + p.key.toNat * 2 ^ 352 + p.msgLen.toNat * 2 ^ 320 +
  p.psn.toNat * 2 ^ 288 + p.msn.toNat * 2 ^ 272 + b2n p.last * 2 ^ 271 + b2n p.immV * 2 ^ 270 +
  b2n p.notify * 2 ^ 269 + b2n p.retx * 2 ^ 268 + b2n p.ect * 2 ^ 267 + p.op.toNat * 2 ^ 256 +
  p.sentT.toNat * 2 ^ 224 + p.imm.toNat * 2 ^ 192 + p.srcQpn.toNat * 2 ^ 168 + p.dstIncarn.toNat * 2 ^ 152 +
  p.dstQpn.toNat * 2 ^ 128 + p.payLen.toNat * 2 ^ 115 + p.cls.toNat * 2 ^ 112 + p.dstEp.toNat * 2 ^ 95 +
  p.srcEp.toNat * 2 ^ 78 + p.viaGroup.toNat * 2 ^ 71 + b2n p.nonmin * 2 ^ 70 + p.phase.toNat * 2 ^ 68 +
  b2n p.sublevel * 2 ^ 67 + b2n p.ce * 2 ^ 66 + p.hops.toNat * 2 ^ 60 + p.srcIncarn.toNat * 2 ^ 32 + p.crc.toNat

/-- The 64 header bytes. -/
def headerBytes (p : Packet) : List Byte := leBytes 64 (headerNat p)

/-- The packet with the fields that the check code takes as zero set to zero (R132). -/
def crcForm (p : Packet) : Packet :=
  { p with crc := 0, ce := false, hops := 0, phase := 0, sublevel := false, nonmin := false, viaGroup := 0 }

/-- The end-to-end check code of a packet (R132). -/
def e2eCrc (p : Packet) : BitVec 32 := crc32c (headerBytes (crcForm p) ++ p.payload)

/-- The packet with its check code computed, as the TXE sends it. -/
def sealCrc (p : Packet) : Packet := { p with crc := e2eCrc p }

/-- Remove the first element that a test selects. -/
def dropFirst {α : Type} (f : α → Bool) : List α → List α
  | [] => []
  | x :: t => if f x then t else x :: dropFirst f t

/-- Cells of the descriptor that a ring's entry at the issue point reads: they are drawn before the read (R255). -/
def readingCells (g : Ring) : Nat :=
  if !g.issuing && g.reading.isNone then 0
  else
    match g.entries.find? (fun e => !e.issued) with
    | some e => if eOpcode e.raw == 0x20 || eOpcode e.raw == 0x28 then ceilDiv (eLength e.raw) 256 else 0
    | none => 0

/-- Cells of trigger objects in use (R255), with those drawn for descriptors that are being read. -/
def objCells (s : State) : Nat :=
  let a := s.tpr.invocs.foldl (fun n (_, v) => n + ((v.obj.map (·.cells)).getD 0)) 0
  let b := s.tpr.cores.foldl (fun n (_, x) => n + (((x.act.bind (·.obj)).map (·.cells)).getD 0)) 0
  let d := s.cmp.rings.foldl (fun n (_, g) => n + readingCells g) 0
  s.tpr.ready.foldl (fun n (_, l) => l.foldl (fun n r =>
    match r with
    | .msg _ _ c => n + c
    | _ => n) n) (a + b + d)

/-- Chunk buffers held on the device (R199), with those that a running REDUCE still reads (R211). -/
def buffersHeld (s : State) : Nat :=
  s.col.insts.foldl (fun a (_, x) => x.ops.foldl (fun a o => a + o.kept.length) (a + x.bufs.length)) 0

/-- Cells that a packet takes: header and payload in 256-byte cells (R15). -/
def cellsOf (p : Packet) : Nat := ceilDiv (64 + p.payload.length) 256

/-! ### Levels and the passing of time (R330, R443, R444) -/

/-- Waiter entries in use (R369). -/
def semWaiters (s : State) : Nat := s.sems.foldl (fun a (_, x) => a + x.queue.length) 0

/-- Cells queued in one egress queue (R155, R357). -/
def queueDepth (p q : Nat) (s : State) : Nat :=
  (s.xbr.egq.filter (fun e => e.port == p && e.q == q)).foldl (fun a e => a + cellsOf e.pkt) 0

/-- The packets that hold cells of the packet buffer (R15): those that a port has brought and that wait at its input, those in an egress
queue, and those sent and kept for replay. A packet of an attachment waits at its ingress without a cell. -/
def cellPkts (s : State) : List (InPkt × Nat) :=
  (s.xbr.inq.filter (fun i => i.inp < 128)).map (fun i => (i, cellsOf i.pkt)) ++
    s.xbr.egq.map (fun e => (e.src, cellsOf e.pkt)) ++
    s.links.flatMap (fun l => l.2.held.map (fun h => (h.src, cellsOf h.pkt)))

/-- The cells of packets, those of the copies of one MCAST once (R203). -/
def cellSum (seen : List Nat) : List (InPkt × Nat) → Nat
  | [] => 0
  | (i, n) :: t => if i.copy != 0 && seen.contains i.copy then cellSum seen t else n + cellSum (i.copy :: seen) t

/-- The cells that the packets hold which a test names. -/
def cellsHeld (which : InPkt → Bool) (s : State) : Nat := cellSum [] ((cellPkts s).filter (fun x => which x.1))

/-- Cells of the packet buffer in use (R15): of packets, of chunk buffers and of trigger objects. -/
def pbfUsed (s : State) : Nat := cellsHeld (fun _ => true) s + 16 * buffersHeld s + objCells s

/-- Cores of a cluster that run an activation. -/
def busyCores (c : Nat) (s : State) : Nat :=
  ((List.range 8).filter (fun k => ((tget s.tpr.cores (8 * c + k)).bind (·.act)).isSome)).length

/-- Is an event a level (R443)? -/
def evLevel (ev : Nat) : Bool := ev == 202 || ev == 211 || ev == 212 || ev == 214 || ev == 221 || ev == 222 || ev == 229

/-- The level of an L event's instance (R443). -/
def levelOf (ev inst : Nat) (s : State) : Nat :=
  if ev == 202 then s.qpc.missBuf.length
  else if ev == 211 then s.mte.unexp.length
  else if ev == 212 then buffersHeld s
  else if ev == 214 then busyCores inst s
  else if ev == 221 then pbfUsed s
  else if ev == 222 then queueDepth (inst / 16) (inst % 16) s
  else if ev == 229 then semWaiters s
  else 0

/-- Does the unit that compares a level run (R444)? -/
def levelRuns (ev inst : Nat) (s : State) : Bool :=
  if ev == 202 then !unitFenced 127 s
  else if ev == 211 then !unitFenced 133 s
  else if ev == 212 then !unitFenced 117 s
  else if ev == 214 then domOn (145 + inst) s && !s.snf.clusters.contains inst
  else if ev == 229 then !unitFenced 136 s
  else true

/-- Source cycles that end within the next `dt` (R444): 1.6 GHz of a core island, 1.8 GHz of a Taper island, 500 MHz of the LCK. -/
def levelCycles (ev dt : Nat) (s : State) : Nat :=
  let (a, b) := if ev == 214 then (9, 80) else if ev == 229 then (1, 32) else (1, 10)
  (s.now + dt) * a / b - s.now * a / b

/-- The enabled counters that select an L event. -/
def levelCounters (s : State) : List Nat :=
  s.regs.filterMap (fun (k, v) =>
    if Reg.EVC_CTL ≤ k && k < Reg.EVC_CTL + 8 * 1536 && bit 63 v && evLevel (bits 8 0 v) then some ((k - Reg.EVC_CTL) / 8) else none)

/-- The comparator of an L event: event, instance and threshold (R444). -/
def levelOfCounter (n : Nat) (s : State) : Nat × Nat × Nat :=
  let c := rdReg (Reg.EVC_CTL + 8 * n) s
  (bits 8 0 c, bits 27 16 c, bits 51 32 c)

/-- A comparator's pulses over `dt`: one for each cycle in which the level is above the threshold. They cross once, to every counter that
selects them. -/
def levelPulses (dt : Nat) (s : State) (x : Nat × Nat × Nat) : State :=
  let (ev, inst, thresh) := x
  if levelOf ev inst s ≤ thresh || !levelRuns ev inst s then s
  else
    let (d, s) := pulseCross ev (pulseStream ev inst thresh) dt (levelCycles ev dt s) s
    ((levelCounters s).filter (fun n => levelOfCounter n s == x)).foldl (fun s n => evcMeet n d s) s

/-- The level events of the time that passes (R444). -/
def levelsPass (dt : Nat) (s : State) : State :=
  (((levelCounters s).map (fun n => levelOfCounter n s)).eraseDups).foldl (levelPulses dt) s

/-- `dt` units of 1/16 ns pass: the levels are counted over them, and GTIME moves with them at the nominal rate and by the servo's slew
(R330, R336, R444). -/
def timePass (dt : Nat) (s : State) : State :=
  let s := levelsPass dt s
  let t := s.tmu
  let part := min dt t.slewLeft
  let d : Int := 16 * nz t.slewT
  let x := t.slewAcc + t.slew * part
  { s with
    now := s.now + dt
    gtime := s.gtime + BitVec.ofInt 64 (dt + x / d)
    tmu := { t with slewAcc := x % d, slewLeft := t.slewLeft - part } }

/-- How long GTIME takes to move on by at least `n` units with the slew in progress. -/
def gtimeWait (n : Nat) (s : State) : Nat :=
  let t := s.tmu
  let d : Int := 16 * nz t.slewT
  let dt := ((n * d - t.slewAcc + (d + t.slew) - 1) / (d + t.slew)).toNat
  if dt ≤ t.slewLeft then dt else t.slewLeft + (n - t.slewLeft - (t.slewAcc + t.slew * t.slewLeft) / d).toNat

/-- The State at the moment at which GTIME is `g`, or later: at once if it is that already. -/
def reachGtime (g : Nat) (s : State) : State :=
  if g ≤ s.gtime.toNat then s else timePass (gtimeWait (g - s.gtime.toNat) s) s

/-- The State at time `t` (in 1/16 ns) at the earliest: an expiry tells that its time has come. -/
def advanceTo (t : Nat) (s : State) : State := timePass (t - s.now) s

/-! ### Endpoints -/

/-- The device's 15-bit chip ID (R271, R276). -/
def chipId (s : State) : Nat :=
  let v := rdReg Reg.XBR_CHIP s
  bits 14 8 v * 256 + bits 7 4 v * 16 + bits 3 0 v

/-- Is the chip ID set (R276, R490)? -/
def chipValid (s : State) : Bool := bit 31 (rdReg Reg.XBR_CHIP s)

/-- The endpoint of host port `hp` of this device. -/
def ownEp (hp : Nat) (s : State) : BitVec 17 := BitVec.ofNat 17 (chipId s * 4 + hp)

/-- The host port that serves a function: its PCIe controller (R459). -/
def hostPort (f : Nat) : Nat := f / 256

/-- The host port that an endpoint names. -/
def epPort (e : BitVec 17) : Nat := e.toNat % 4

/-! ### Queue pair ranges and context images (R108, R109, R112 to R114) -/

/-- The function in whose valid range a QPN lies, with FIRST (R108). -/
def qpRange (q : Nat) (s : State) : Option (Nat × Nat) :=
  s.regs.findSome? (fun (k, v) =>
    if Reg.QPC_RANGE ≤ k && k < Reg.QPC_RANGE + 8 * 1024 && bit 31 v && bits 23 0 v ≤ q &&
        q < bits 23 0 v + 2 ^ bits 28 24 v
    then some ((k - Reg.QPC_RANGE) / 8, bits 23 0 v) else none)

/-- The function of a QPN, 0 if none. -/
def qpFn (q : Nat) (s : State) : Nat := ((qpRange q s).map (·.1)).getD 0

/-- Bus address of a QPN's image (R109). -/
def imageAddr (f q first : Nat) (s : State) : BitVec 64 :=
  BitVec.ofNat 64 (ff f Reg.QPC_CTXTAB 63 12 s * 4096 + 256 * (q - first))

/-- Encoding of a queue pair's STATE (R112). -/
def QpState.code : QpState → Nat
  | .free => 0
  | .reset => 1
  | .init => 2
  | .active => 3
  | .quiesced => 4
  | .error => 5

/-- The state that a code names, if any. -/
def QpState.ofCode (n : Nat) : Option QpState :=
  if n == 0 then some .free else if n == 1 then some .reset else if n == 2 then some .init
  else if n == 3 then some .active else if n == 4 then some .quiesced else if n == 5 then some .error else none

/-- Every parameter zero and the state FREE. -/
def QpParam.zero : QpParam :=
  { rqPsn := 0, sqPsn := 0, peerIncarn := 0, peerQpn := 0, peerEp := 0, busyLimit := 0, retryLimit := 0, errDetail := 0,
    errCause := 0, pin := false, egressQ := 0, arvId := 0, pd := 0, incarn := 0, state := .free }

/-- The parameter fields as a 256-bit number (R112). -/
def paramNat (q : Nat) (p : QpParam) : Nat :=
  p.rqPsn.toNat * 2 ^ 224 + p.sqPsn.toNat * 2 ^ 192 + p.peerIncarn.toNat * 2 ^ 176 + p.peerQpn.toNat * 2 ^ 152 +
  p.peerEp.toNat * 2 ^ 128 + p.busyLimit.toNat * 2 ^ 112 + p.retryLimit.toNat * 2 ^ 104 + p.errDetail.toNat * 2 ^ 96 +
  p.errCause.toNat * 2 ^ 88 + b2n p.pin * 2 ^ 80 + p.egressQ.toNat * 2 ^ 76 + p.arvId.toNat * 2 ^ 64 +
  p.pd.toNat * 2 ^ 48 + p.incarn.toNat * 2 ^ 32 + p.state.code * 2 ^ 24 + q % 2 ^ 24

/-- The parameter fields from 256 bits; `none` for a STATE that is not written (R112). -/
def paramDecode (v : BitVec 256) : Option QpParam :=
  (QpState.ofCode (bits 27 24 v)).map fun st =>
  { rqPsn := v.extractLsb' 224 32, sqPsn := v.extractLsb' 192 32, peerIncarn := v.extractLsb' 176 16,
    peerQpn := v.extractLsb' 152 24, peerEp := v.extractLsb' 128 17, busyLimit := v.extractLsb' 112 8,
    retryLimit := v.extractLsb' 104 8, errDetail := v.extractLsb' 96 8, errCause := v.extractLsb' 88 8,
    pin := bit 80 v, egressQ := v.extractLsb' 76 4, arvId := v.extractLsb' 64 12, pd := v.extractLsb' 48 16,
    incarn := v.extractLsb' 32 16, state := st }

/-- The first PSN not yet sent: what an image gives as SQ_PSN (R112). -/
def nextUnsent (p : QpParam) : List TxMsg → BitVec 32
  | [] => p.sqPsn
  | m :: t => if m.sentPsns < m.npsn then m.psn0 + BitVec.ofNat 32 m.sentPsns else nextUnsent p t

/-- A read record's bytes in an image (R143): MSN and the placed count of a READ or pull of more than one PSN. -/
def readRecBytes (m : TxMsg) : List Byte := leBytes 2 m.msn.toNat ++ leBytes 4 m.placed

/-- A message record's bytes in an image (R143): MSN, the placed count and the record's flags. -/
def msgRecBytes (r : MsgRec) : List Byte :=
  leBytes 2 r.msn.toNat ++ leBytes 4 r.placed ++
  leBytes 2 (r.op.toNat + 256 * b2n r.immV + 512 * b2n r.notify + 1024 * b2n r.slot + 2048 * b2n r.half1)

/-- The messages that hold a read record (R143). -/
def readRecs (x : Qp) : List TxMsg := x.msgs.filter (fun m => (m.kind == .read || m.kind == .pull) && 1 < m.npsn)

/-- Transmit state in an image, 64 bytes: MSN and the read records. -/
def txImage (x : Qp) : List Byte :=
  fitBytes 64 (leBytes 3 x.msn.toNat ++ (readRecs x).flatMap readRecBytes)

/-- Receive state in an image, 96 bytes: the received bitmap and the message records. -/
def rxImage (x : Qp) : List Byte := fitBytes 96 (leBytes 32 x.bitmap.toNat ++ x.recs.flatMap msgRecBytes)

/-- Bytes 0 to 251 of an image: the parameters and the device-private state (R113). The layout inside the private areas is the
model's own (log entry 72). -/
def imageBody (q : Nat) (x : Qp) : List Byte :=
  leBytes 32 (paramNat q { x.par with sqPsn := nextUnsent x.par x.msgs }) ++
  (if x.hollow then leBytes 220 0
   else txImage x ++ rxImage x ++ leBytes 32 x.known.toNat ++ leBytes 28 0)

/-- The 256-byte image with its CRC (R113). -/
def imageBytes (q : Nat) (x : Qp) : List Byte := imageBody q x ++ toBytes 4 (crc32c (imageBody q x))

/-- A context with given parameters and nothing in progress. -/
def Qp.idle (p : QpParam) : Qp :=
  { par := p, hollow := false, used := true, changed := false, msn := 0, msgs := [], built := none, builtHalf := false
    building := none, retries := 0, busy := 0, backoff := [], bitmap := 0, known := 0, recs := [], readAt := []
    ackPkts := 0, ackFirst := none, marked := 0, counted := 0, trans := none }

/-- What a context image holds (R114). -/
inductive ImageOut where
  | free (incarn : BitVec 16)
  | corrupt
  | live (x : Qp)
  deriving DecidableEq, Repr

/-- Read a 256-byte image (R114): of a FREE image only INCARN counts; any other must have a matching CRC. -/
def imageDecode (bs : List Byte) : ImageOut :=
  let v := ofBytes 256 (bs.take 32)
  if bits 27 24 v == 0 then .free (v.extractLsb' 32 16)
  else if bs.length != 256 || crc32c (bs.take 252) != ofBytes 32 (bs.drop 252) then .corrupt
  else match paramDecode v with
    | none => .corrupt
    | some p =>
      .live { Qp.idle p with
        msn := ofBytes 16 ((bs.drop 32).take 2)
        bitmap := ofBytes 256 ((bs.drop 96).take 32)
        known := ofBytes 256 ((bs.drop 192).take 32) }

/-! ### Byte ranges through fragments and segments -/

/-- The parts that hold bytes [off, off + len) of the bytes that parts describe in order (R35, R176). -/
def sliceParts : List Part → Nat → Nat → List Part
  | [], _, _ => []
  | p :: t, off, len =>
    if len == 0 then []
    else if p.len ≤ off then sliceParts t (off - p.len) len
    else
      let n := min len (p.len - off)
      { key := p.key, addr := p.addr + BitVec.ofNat 64 off, len := n } :: sliceParts t 0 (len - n)

/-- The part that a byte at an offset lies in, from that byte on. -/
def partAt (ps : List Part) (off : Nat) : Part :=
  match sliceParts ps off 1 with
  | p :: _ => p
  | [] => match ps with
    | p :: _ => { p with addr := p.addr + BitVec.ofNat 64 off, len := 0 }
    | [] => ⟨0, 0, 0⟩

/-- The segments that hold bytes [off, off + len) of the bytes that segments describe in order. -/
def sliceSegs : List Seg → Nat → Nat → List Seg
  | [], _, _ => []
  | g :: t, off, len =>
    if len == 0 then []
    else if g.len ≤ off then sliceSegs t (off - g.len) len
    else
      let n := min len (g.len - off)
      ⟨g.bus + BitVec.ofNat 64 off, n⟩ :: sliceSegs t 0 (len - n)

/-- Total length of parts. -/
def partsLen (ps : List Part) : Nat := (ps.map (·.len)).foldl (· + ·) 0

/-- Write bytes to segments for a function on a link. -/
def writeSegs (link f : Nat) (ro : Bool) : List Seg → List Byte → State → State
  | [], _, s => s
  | g :: t, bs, s =>
    writeSegs link f ro t (bs.drop g.len) (hostWriteOn link f false g.bus (bs.take g.len) ro s)

/-- Issue the reads of segments for a function. -/
def readSegs (link f : Nat) (ro : Bool) : List Seg → State → State
  | [], s => s
  | g :: t, s => readSegs link f ro t (hostReadOn link f g.bus g.len ro s)

/-- Fragment entries from a table's bytes: 16 bytes each, FADDR, FLEN, FKEY; zero lengths are skipped (R35). -/
def fragParts : Nat → List Byte → List Part
  | 0, _ => []
  | n + 1, bs =>
    let v : BitVec 128 := ofBytes 128 (bs.take 16)
    let p : Part := { key := v.extractLsb' 96 32, addr := v.extractLsb' 0 64, len := bits 95 64 v }
    if p.len == 0 then fragParts n (bs.drop 16) else p :: fragParts n (bs.drop 16)

/-! ### The doubles of R156 -/

/-- A non-negative quotient rounded to an integer, halves to even. -/
def roundHalfEven (n d : Nat) : Nat :=
  let q := n / d
  let r := n % d
  if 2 * r < d then q else if 2 * r > d then q + 1 else if q % 2 == 0 then q else q + 1

/-- The rational with 53 significant bits nearest to a non-negative rational, halves to even: the result of one double
operation of R156 within the double's exponent range. -/
def rnd53 (x : Rat) : Rat :=
  let n := x.num.natAbs
  let d := x.den
  if n == 0 then 0 else
  let e0 : Int := (Nat.log2 n : Int) - (Nat.log2 d : Int)
  let ge : Bool := if 0 ≤ e0 then d * 2 ^ e0.toNat ≤ n else d ≤ n * 2 ^ (-e0).toNat
  let e : Int := if ge then e0 else e0 - 1
  let k : Int := e - 52
  let m := if 0 ≤ k then roundHalfEven n (d * 2 ^ k.toNat) else roundHalfEven (n * 2 ^ (-k).toNat) d
  let v : Rat := if 0 ≤ k then ((m * 2 ^ k.toNat : Nat) : Rat) else mkRat m (2 ^ (-k).toNat)
  if x.num < 0 then -v else v

def dAdd (a b : Rat) : Rat := rnd53 (a + b)
def dSub (a b : Rat) : Rat := rnd53 (a - b)
def dMul (a b : Rat) : Rat := rnd53 (a * b)
def dDiv (a b : Rat) : Rat := if b == 0 then 0 else rnd53 (a / b)

end Sys2Proof.Machine
end

