-- ==== Sys2Proof/Machine/Gates.lean ====
section
/-! DEFINITION. The schedule epoch, gate lists and gates of the Lamplighter (11: R345 to R355). -/

namespace Sys2Proof.Machine

/-- PERIOD in ns (R346). -/
def schedPeriod (s : State) : Nat := max 1000 (rf Reg.LLT_SCHED 63 32 s)

/-- BASE (R347). -/
def schedBase (s : State) : Nat := (rdReg Reg.LLT_SCHED_BASE s).toNat

/-- The schedule epoch and the offset within the period at a GTIME, in ns and 1/16 ns; `none` before BASE (R345). -/
def epochAt (t : Nat) (s : State) : Option (Nat × Nat) :=
  if t < schedBase s then none
  else
    let d := t - schedBase s
    some (d / (16 * schedPeriod s) % 65536, d % (16 * schedPeriod s))

/-- Offset of word `h` of gate list entry `e` of port `p` (R349). -/
def gclOff (p e h : Nat) : Nat := Reg.LLT_GCL + 4096 * p + 16 * e + 8 * h

/-- An entry's condition in an epoch (R351). -/
inductive GclCond where
  | pending | active | expired
  deriving DecidableEq, Repr

/-- The condition of word 0 of an entry in an epoch (R345, R351). -/
def gclCond (w0 : BitVec 64) (epoch : Option Nat) : GclCond :=
  match epoch with
  | none => .pending
  | some e =>
    let c := bits 31 16 w0
    if c == 0 then .active
    else
      let d := (e + 65536 - bits 15 0 w0) % 65536
      if d < c then .active else if d < 32768 then .expired else .pending

/-- The valid entries of a port: entry number, word 0 and word 1. Only entries that have been written can be valid. -/
def gclValid (p : Nat) (s : State) : List (Nat × BitVec 64 × BitVec 64) :=
  s.regs.filterMap (fun (k, v) =>
    if gclOff p 0 0 ≤ k && k < gclOff p 256 0 && k % 16 == 0 && bit 63 v then
      let e := (k - gclOff p 0 0) / 16
      some (e, v, rdReg (gclOff p e 1) s)
    else none)

/-- The windows of the entries active at a GTIME that contain its offset: their GATES (R352). -/
def windowsAt (p t : Nat) (s : State) : List Nat :=
  match epochAt t s with
  | none => []
  | some (e, o) =>
    (gclValid p s).filterMap (fun (_, w0, w1) =>
      if gclCond w0 (some e) == .active && 16 * bits 31 0 w1 ≤ o && o < 16 * bits 63 32 w1 then some (bits 47 32 w0)
      else none)

/-- Is queue `q` of port `p` gated (R348)? -/
def gated (p q : Nat) (s : State) : Bool :=
  let v := rdReg (Reg.LLT_PORT + 8 * p) s
  if q == 1 then bit 1 v else 4 ≤ q && bit q v

/-- Do gates act from the schedule: is the TMU LOCKED, or in HOLDOVER for at most HOLD_MAX (R354)? -/
def scheduled (s : State) : Bool :=
  let st := rf Reg.TMU_STAT 1 0 s
  st == 2 || (st == 3 && s.tmu.holdSince.any (fun t => s.now ≤ t + 1000 * us (nz (rf Reg.TMU_CFG 15 8 s))))

/-- Is queue `q` of port `p` open at GTIME `t` (R352, R354)? -/
def gateOpen (p q t : Nat) (s : State) : Bool :=
  if !gated p q s then true
  else if unitFenced 134 s then false
  else if !scheduled s then q != 1
  else
    match windowsAt p t s with
    | [] => q != 1
    | ws => ws.any (fun g => g / 2 ^ q % 2 == 1)

/-- The instants from `t` on, within this period and the next `n`, at which a gate of a port can change. -/
def gateInstants (p t n : Nat) (s : State) : List Nat :=
  let per := 16 * schedPeriod s
  let base := if t < schedBase s then schedBase s else t - (t - schedBase s) % per
  let offs := 0 :: (gclValid p s).flatMap (fun (_, _, w1) => [16 * bits 31 0 w1, 16 * bits 63 32 w1])
  offs.flatMap (fun o => (List.range (n + 1)).map (fun k => base + k * per + o))

/-- S(p): SCALE of the port (R273, R283). -/
def portScale (p : Nat) (s : State) : Nat := rf (Reg.XBR_PORT + 8 * p) 28 24 s

/-- Does a closing of a gated queue fall within its guard band after `t`: in (t, t + G), with G = 41.6 ns × S(p) (R353)? -/
def closingSoon (p q t : Nat) (s : State) : Bool :=
  (gateInstants p t 1 s).any (fun c =>
    t < c && 10 * (c - t) < 6656 * portScale p s && gateOpen p q (c - 1) s && !gateOpen p q c s)

/-- May a frame of a queue start now (R353)? -/
def gateAdmits (p q : Nat) (s : State) : Bool :=
  let t := s.gtime.toNat
  !gated p q s || (gateOpen p q t s && (!scheduled s || !closingSoon p q t s))

/-- Does Q1 of a port open within EARLY (R355)? -/
def opensEarly (p : Nat) (s : State) : Bool :=
  let t := s.gtime.toNat
  scheduled s && (gateInstants p t (rf Reg.LLT_SCHED 31 16 s / schedPeriod s + 1) s).any (fun c =>
    t < c && c ≤ t + 16 * rf Reg.LLT_SCHED 31 16 s && gateOpen p 1 c s)

/-- Must an SCH packet that enters Q1 of a port now be demoted (R355)? In the guard band of a window shorter than G it must before the window
opens too. -/
def schTurnedAway (p : Nat) (s : State) : Bool :=
  gated p 1 s &&
    (!scheduled s || closingSoon p 1 s.gtime.toNat s || (!gateOpen p 1 s.gtime.toNat s && !opensEarly p s))

end Sys2Proof.Machine
end

