-- ==== Sys2Proof/Machine/Staging.lean ====
section
/-! DEFINITION. The staging queues (05: R163 to R168): what a queue holds, when a packet of it is written, begun and read, and how a
queue is emptied. Cells move with time: each packet's times are fixed when it joins its queue, and what the queue holds at a moment
follows from them. -/

namespace Sys2Proof.Machine

/-! ### The queues (R163, R164) -/

def stgNumber (k : StgKind) : Nat :=
  match k with
  | .htx => 0
  | .txi => 1
  | .rxd => 2
  | .rxp => 3
  | .lrx => 4
  | .ltx => 5

/-- Capacity in cells. -/
def stgCapacity (k : StgKind) : Nat :=
  match k with
  | .htx => 128
  | .txi => 64
  | .rxd => 64
  | .rxp => 128
  | .lrx => 32
  | .ltx => 32

/-- Offset of the control register of instance 0. -/
def stgReg (k : StgKind) : Nat :=
  match k with
  | .htx => Reg.HIF_STG_TX
  | .txi => Reg.TXE_STG
  | .rxd => Reg.RXE_STG
  | .rxp => Reg.HIF_STG_RX
  | .lrx => Reg.LNK_STG_RX
  | .ltx => Reg.LNK_STG_TX

def StgQ.empty : StgQ := { pkts := [], gone := 0, goneB := 0 }

def getStg (k : StgKind) (n : Nat) (s : State) : StgQ := (tget s.stg.queues (128 * stgNumber k + n)).getD StgQ.empty

def putStg (k : StgKind) (n : Nat) (q : StgQ) (s : State) : State :=
  { s with stg := { s.stg with queues := tset s.stg.queues (128 * stgNumber k + n) q } }

/-- The time of `n` cells at a rate in 1/400 ns a cell, in units of `now`, rounded up. -/
def cellsTime (n rate : Nat) : Nat := (n * rate + 24) / 25

/-- 1/400 ns for a cell at the 64 B of each cycle of 1.6 GHz, 819.2 Gb/s (R13, R18, R166). -/
def coreRate : Nat := 1000

/-- 1/400 ns for a cell on a link of 800 / S(p) Gb/s (R283). -/
def linkRate (p : Nat) (s : State) : Nat := 1024 * max 1 (portScale p s)

/-- Cells that must stand in a queue before the consumer may begin a packet, with THRESH (R164, R165). -/
def stgNeed (thresh cells : Nat) : Nat := if thresh == 0 || 17 ≤ thresh then cells else min thresh cells

/-! ### What a queue holds at a moment -/

/-- Cells of a packet written by time `t`. -/
def StgPkt.written (p : StgPkt) (t : Nat) : Nat :=
  if t < p.start then 0 else if p.wr == 0 then p.cells else min p.cells ((t - p.start) * 25 / p.wr)

/-- Cells of a packet read by time `t`: a consumer that overtakes the producer waits for it (R165). -/
def StgPkt.read (p : StgPkt) (t : Nat) : Nat :=
  if t < p.begins then 0 else min (p.written t) ((t - p.begins) * 25 / max 1 p.rd)

/-- Has the notice of a packet been raised by time `t`: is its final cell written (R165)? -/
def StgPkt.noticed (p : StgPkt) (t : Nat) : Bool := p.start + cellsTime p.cells p.wr ≤ t

/-- OCC at time `t` (R164): cells written and not read. -/
def StgQ.occ (q : StgQ) (t : Nat) : Nat := (q.pkts.map (fun p => p.written t - p.read t)).sum

/-- Tail and head at time `t`, as the copy of the pointers counts them that stands `gone` cells on (R168). -/
def StgQ.pointers (q : StgQ) (gone t : Nat) : Nat × Nat :=
  (gone + (q.pkts.map (fun p => p.written t)).sum, gone + (q.pkts.map (fun p => p.read t)).sum)

/-- Do the two copies of the pointers agree (R168)? -/
def StgQ.agrees (q : StgQ) (t : Nat) : Bool := q.pointers q.gone t == q.pointers q.goneB t

/-- Packets read whole have left their queue. -/
def StgQ.prune (q : StgQ) (t : Nat) : StgQ :=
  let out := (q.pkts.takeWhile (fun p => p.till ≤ t)).map (·.cells)
  { pkts := q.pkts.dropWhile (fun p => p.till ≤ t), gone := q.gone + out.sum, goneB := q.goneB + out.sum }

/-- When a queue of a capacity has room for `n` more cells: cells make room when their packet has been read whole (DESIGN CHOICE). -/
def stgRoom (cap n : Nat) : Nat → List StgPkt → Nat
  | now, [] => now
  | now, p :: t => if ((p :: t).map (·.cells)).sum + n ≤ cap then now else stgRoom cap n (max now p.till) t

/-! ### Joining, leaving, and being emptied -/

/-- The entry of a packet that comes to a queue now: it is written as soon as there is room, and the consumer begins it when it has
finished the one before and THRESH cells of it, or all, have been written (R165). -/
def stgEntry (k : StgKind) (q : StgQ) (thresh id : Nat) (p : Packet) (wr rd now : Nat) : StgPkt :=
  let n := cellsOf p
  let start := stgRoom (stgCapacity k) n now q.pkts
  let begins := max ((q.pkts.getLast?.map (·.till)).getD 0) (start + cellsTime (stgNeed thresh n) wr)
  { id := id, pkt := p, cells := n, start := start, wr := wr, rd := rd, begins := begins,
    till := max (begins + cellsTime n rd) (start + cellsTime n wr) }

/-- The packets of a queue once those that a test names, which the switch core has not begun, cannot be begun before `now`, `before` being
the packets before them: what waits behind one finds room later, and one that may pass it does. -/
def stgPush (k : StgKind) (thresh now : Nat) (held : StgPkt → Bool) : List StgPkt → List StgPkt → List StgPkt
  | _, [] => []
  | before, p :: t =>
    let p :=
      if p.begins ≤ now && !held p then p
      else
        let start := max p.start (stgRoom (stgCapacity k) p.cells p.start before)
        let last := ((before.filter (fun e => !held e)).getLast?.map (·.till)).getD 0
        let ready := max last (start + cellsTime (stgNeed thresh p.cells) p.wr)
        let begins := max (max p.begins ready) (if held p then now else 0)
        { p with start := start, begins := begins, till := max (begins + cellsTime p.cells p.rd) (start + cellsTime p.cells p.wr) }
    p :: stgPush k thresh now held (before ++ [p]) t

/-- THRESH of a queue; HTX is fixed at the whole packet (R163, R166). -/
def stgThresh (k : StgKind) (n : Nat) (s : State) : Nat := if k == .htx then 0 else rf (stgReg k + 8 * n) 9 5 s

/-- The input of the switch core that queue `n` of a kind feeds, if it feeds one. -/
def stgInput (k : StgKind) (n : Nat) : Option Nat :=
  match k with
  | .txi => some (128 + n)
  | .lrx => some n
  | _ => none

/-- Queue `n` of a kind as it stands now: a packet that its input has not begun, since it waits for its route decision, is in it whole
(R15, R165, R218, R276). -/
def stgNow (k : StgKind) (n : Nat) (s : State) : StgQ :=
  let q := getStg k n s
  match stgInput k n with
  | none => q
  | some inp =>
    let waits (p : StgPkt) : Bool := s.xbr.inq.any (fun i => i.inp == inp && i.ser == p.id)
    if q.pkts.any waits then { q with pkts := stgPush k (stgThresh k n s) s.now waits [] q.pkts } else q

/-- A packet joins queue `n` of a kind under a number, its cells written and read at two rates. -/
def stgJoin (k : StgKind) (n id : Nat) (p : Packet) (wr rd : Nat) (s : State) : StgPkt × State :=
  let q := (stgNow k n s).prune s.now
  let e := stgEntry k q (stgThresh k n s) id p wr rd s.now
  (e, putStg k n { q with pkts := q.pkts ++ [e] } s)

/-- The number of the next packet. -/
def stgNumbered (s : State) : Nat × State := (s.stg.next, { s with stg := { s.stg with next := s.stg.next + 1 } })

/-- A packet that a test names leaves a queue: time goes on until it has been read whole. -/
def stgLeave (k : StgKind) (n : Nat) (which : StgPkt → Bool) (s : State) : State :=
  let q := getStg k n s
  match q.pkts.find? which with
  | none => s
  | some e =>
    putStg k n { q with pkts := dropFirst which q.pkts, gone := q.gone + e.cells, goneB := q.goneB + e.cells } (advanceTo e.till s)

/-- A queue is emptied (R167): the packets of which cells were still to be read, and the State. -/
def stgEmpty (k : StgKind) (n : Nat) (s : State) : List StgPkt × State :=
  let q := stgNow k n s
  let lost := q.pkts.filter (fun p => s.now < p.till)
  if q.pkts.isEmpty then ([], s) else (lost, putStg k n { q.prune s.now with pkts := [] } s)

/-- One copy of the pointers of a queue is struck: it stands some cells off (R168). -/
def stgStrike (k : StgKind) (n off : Nat) (s : State) : State :=
  let q := getStg k n s
  putStg k n { q with goneB := q.goneB + off + 1 } s

/-- The queue restarts empty with both copies at zero (R168). -/
def stgRestart (k : StgKind) (n : Nat) (s : State) : State := putStg k n StgQ.empty s

end Sys2Proof.Machine
end

