-- ==== Sys2Proof/Machine/Lattice.lean ====
section
/-! DEFINITION. The switch core and the lattice (09: R270 to R302): the port map, route decisions, virtual channels, egress
queues (11: R340), demotion (R355), delivery and the return of credit (10: R312, R313). -/

namespace Sys2Proof.Machine

def withXbr (f : Xbr → Xbr) (s : State) : State := { s with xbr := f s.xbr }

/-- Discarded by the switch core and counted. -/
def xbrDrop (s : State) : State := ignored 0 s

/-! ### Ports (R270 to R276) -/

def chipGroup (s : State) : Nat := rf Reg.XBR_CHIP 14 8 s
def chipRow (s : State) : Nat := rf Reg.XBR_CHIP 7 4 s
def chipCol (s : State) : Nat := rf Reg.XBR_CHIP 3 0 s

/-- The group, and the index 16 × row + column within it, of an endpoint (R271, R277). -/
def epGroup (e : BitVec 17) : Nat := bits 16 10 e
def epIndex (e : BitVec 17) : Nat := bits 9 2 e

/-- The device's own index within its group. -/
def ownIndex (s : State) : Nat := 16 * chipRow s + chipCol s

/-- ROLE of a port (R272, R273): 0 UNUSED, 1 ROW, 2 COL, 3 GLOBAL, 4 SERVICE. -/
def portRole (p : Nat) (s : State) : Nat := if p < 124 then xbrRoleReset p else rf (Reg.XBR_PORT + 8 * p) 10 8 s

/-- Local slot of a port (R272). -/
def localSlot (p : Nat) : Nat := 4 * (p / 8) + (p % 8 - 4)

/-- PEER of a port (R272, R273): derived on the fixed ROW and COL ports, and zero there while the chip ID is not set. -/
def portPeer (p : Nat) (s : State) : Nat :=
  let skip (i own : Nat) : Nat := if i < own then i else i + 1
  if p < 124 && (portRole p s == 1 || portRole p s == 2) && !chipValid s then 0
  else if p < 124 && portRole p s == 1 then skip (localSlot p % 15) (chipCol s)
  else if p < 124 && portRole p s == 2 then skip ((localSlot p - 30) % 15) (chipRow s)
  else rf (Reg.XBR_PORT + 8 * p) 6 0 s

/-- STATE of a port (R273). -/
def portUp (p : Nat) (s : State) : Bool :=
  let st := rf (Reg.XBR_PORT + 8 * p) 31 29 s
  st == 1 || st == 2

/-- Is a port usable (R275)? -/
def portUsable (p : Nat) (s : State) : Bool :=
  let role := portRole p s
  portUp p s && bit 16 (rdReg (Reg.XBR_PORT + 8 * p) s) && 1 ≤ role && role ≤ 3

/-- Index within the group of the chip at the far end of a ROW or COL port. -/
def peerIndex (p : Nat) (s : State) : Nat :=
  if portRole p s == 1 then 16 * chipRow s + portPeer p s else 16 * portPeer p s + chipCol s

/-- ROWMASK and COLMASK of the chip at the far end of a ROW or COL port (R279). -/
def peerMasks (p : Nat) (s : State) : Nat × Nat :=
  let off := if portRole p s == 1 then Reg.XBR_NBR_ROW + 8 * portPeer p s else Reg.XBR_NBR_COL + 8 * portPeer p s
  (rf off 15 0 s, rf off 31 16 s)

/-- Cells queued in the egress queues of a port: Q(p) (R283). -/
def queuedCells (p : Nat) (s : State) : Nat :=
  (s.xbr.egq.filter (fun e => e.port == p)).foldl (fun a e => a + cellsOf e.pkt) 0

/-- Cells sent on a port in the REQ, FWD, RSP and COL VCs whose credit has not returned: U(p) (R283). Credit has returned for
the cells by which COUNT exceeds its first value; both sides of the difference wrap at 16 bits (R312). -/
def unreturned (p : Nat) (s : State) : Nat :=
  match tget s.links p with
  | none => 0
  | some l =>
    (List.range 24).foldl (fun a i =>
      let sent := (tget l.sent i).getD 0
      let d := (sent + 131072 + (tget l.count0 i).getD 0 - (tget l.count i).getD 0) % 65536
      a + (if d < 32768 then d else 0)) 0

/-- LOAD(p) (R283). -/
def portLoad (p : Nat) (s : State) : Nat := portScale p s * (queuedCells p s + unreturned p s)

/-! ### Candidates (R281, R282) -/

/-- Is a chip of this group in the target set for target group `t` and destination `d` (R281)? -/
def inTarget (t : Nat) (d : BitVec 17) (n : Nat) (s : State) : Bool :=
  if t == chipGroup s then n == epIndex d
  else if n == ownIndex s then (List.range 128).any (fun p => portUsable p s && portRole p s == 3 && portPeer p s == t)
  else bit (n % 64) (rdReg (Reg.XBR_GW + 32 * t + 8 * (n / 64)) s)

/-- dist(X, j) for the chip at the far end of an intra port (R282). -/
def distFrom (t : Nat) (d : BitVec 17) (p j : Nat) (s : State) : Option Nat :=
  let n := peerIndex p s
  let (rows, cols) := peerMasks p s
  if inTarget t d n s then some 0
  else if 1 ≤ j && (List.range 16).any (fun k =>
      (rows / 2 ^ k % 2 == 1 && inTarget t d (16 * (n / 16) + k) s) ||
      (cols / 2 ^ k % 2 == 1 && inTarget t d (16 * k + n % 16) s)) then some 1
  else none

/-- The outputs with their costs, for a target group, destination and intra budget (R282). -/
def routeCosts (t : Nat) (d : BitVec 17) (k : Nat) (s : State) : List (Nat × Nat) :=
  if t != chipGroup s && inTarget t d (ownIndex s) s then
    (List.range 128).filterMap (fun p =>
      if portUsable p s && portRole p s == 3 && portPeer p s == t then some (p, 0) else none)
  else if k == 0 then []
  else
    (List.range 128).filterMap (fun p =>
      if portUsable p s && (portRole p s == 1 || portRole p s == 2) then
        (distFrom t d p (k - 1) s).map (fun x => (p, 1 + x))
      else none)

/-- The least of the costs: d*. -/
def leastCost : List (Nat × Nat) → Option Nat
  | [] => none
  | (_, c) :: t =>
    match leastCost t with
    | none => some c
    | some m => some (min c m)

/-- The candidates: the outputs of least cost, and d*. -/
def candidates (t : Nat) (d : BitVec 17) (k : Nat) (s : State) : Option (List Nat × Nat) :=
  let cs := routeCosts t d k s
  (leastCost cs).map (fun m => (cs.filterMap (fun (p, c) => if c == m then some p else none), m))

/-- Least LOAD among ports. -/
def leastLoad (ps : List Nat) (s : State) : Nat :=
  match ps with
  | [] => 0
  | p :: t => t.foldl (fun m q => min m (portLoad q s)) (portLoad p s)

/-- The candidate of least LOAD; ties go to the first from the pointer on (R283). -/
def pickLeast (ps : List Nat) (ptr : Nat) (s : State) : Nat :=
  let best := ps.filter (fun p => portLoad p s == leastLoad ps s)
  match best.find? (fun p => ptr ≤ p) with
  | some p => p
  | none => best.headD 0

/-- Order of the fixed route (R288): global before row before column, the lowest port or neighbour, then LOAD. -/
def fixedKey (p : Nat) (s : State) : Nat :=
  match portRole p s with
  | 3 => p
  | 1 => 1000 + portPeer p s
  | _ => 2000 + portPeer p s

/-- The choice of the fixed route (R288). -/
def pickFixed (ps : List Nat) (s : State) : Nat :=
  match ps with
  | [] => 0
  | p :: t =>
    t.foldl (fun b q =>
      if fixedKey q s < fixedKey b s || (fixedKey q s == fixedKey b s && portLoad q s < portLoad b s) then q else b) p

/-! ### The decision (R281 to R288, R295) -/

/-- Tile of an input (R13): ports 0 to 127, host attachments 128 to 135, RDUs 136 to 167, clusters 168 to 183, and 184 for the device's
own COL, CND and MGT. -/
def inputTile (inp : Nat) : Nat :=
  if inp < 128 then inp / 8 else if inp < 136 then 2 * (inp - 128) else if inp < 168 then (inp - 136) / 2 else if inp < 184 then inp - 168 else 0

/-- The intra budget of a packet by the input on which it arrives (R281). -/
def intraBudget (inp : Nat) (p : Packet) (s : State) : Nat :=
  if 128 ≤ inp || portRole inp s == 3 then 2 else if p.sublevel then 0 else 1

/-- EGRESS_Q of the queue pair whose REQ or FWD packet a host attachment injects (R340); 0 for none. -/
def sentQueue (inp : Nat) (p : Packet) (s : State) : Nat :=
  if p.cls.toNat ≤ 1 && 128 ≤ inp && inp < 136 && p.srcQpn != 0 then
    ((tget s.qpc.qps p.srcQpn.toNat).map (fun x => x.par.egressQ.toNat)).getD 0
  else 0

/-- A packet that has come to an input VC, by no staging queue. -/
def newIn (inp idx up : Nat) (p : Packet) (s : State) : InPkt :=
  { inp := inp, idx := idx, up := up, pkt := p, budget := intraBudget inp p s, decided := false, queue := sentQueue inp p s, ser := 0,
    since := s.now, till := s.now, out := none, copy := 0, demoted := false }

/-- A packet that comes to an input VC by a staging queue (R165). -/
def stagedIn (k : StgKind) (n wr inp idx up : Nat) (p : Packet) (s : State) : InPkt × State :=
  let i := newIn inp idx up p s
  let (ser, s) := stgNumbered s
  let (e, s) := stgJoin k n ser p wr coreRate s
  ({ i with ser := ser, since := e.begins, till := e.till }, s)

/-- Does a packet take the fixed route (R288)? -/
def fixedRoute (p : Packet) : Bool := p.op == 0x24 || p.op == 0x41

/-- The header as it leaves on a port (R285); `none` when the hop would break the limits of HOPS or PHASE (R286). -/
def hopHeader (i : InPkt) (p : Packet) (out : Nat) (s : State) : Option Packet :=
  let hops := p.hops.toNat + 1
  if 8 < hops then none
  else if portRole out s == 3 then
    if 2 ≤ p.phase.toNat then none
    else some { p with hops := BitVec.ofNat 6 hops, phase := p.phase + 1, sublevel := false }
  else if i.budget == 0 then none
  else some { p with hops := BitVec.ofNat 6 hops, sublevel := i.budget == 1 }

/-- May a packet enter an acknowledgement lane (R294)? -/
def laneOp (p : Packet) : Bool := p.op == 0x22 || p.op == 0x25

/-- The credit index that a packet occupies at the far end of a hop (R290, R291, R294); SCH stays on VC 24 (R295), and a packet that has been
demoted here takes a COL VC (R355). -/
def hopIndex (demoted : Bool) (p : Packet) : Nat :=
  let vc := 2 * p.phase.toNat + b2n p.sublevel
  if p.cls == 4 then 24
  else if 5 ≤ p.cls.toNat then 25
  else if laneOp p && !demoted then 26 + vc
  else 6 * p.cls.toNat + vc

/-- The egress queue of a packet (R340). -/
def egressQueue (i : InPkt) (p : Packet) (s : State) : Nat :=
  let len := 64 + p.payload.length
  if p.cls == 5 then 0
  else if p.cls == 4 then 1
  else if p.cls == 2 && len ≤ 256 then 2
  else if laneOp p && !i.demoted then 3
  else if 4 ≤ i.queue then i.queue
  else if p.cls == 0 then rf Reg.LLT_QMAP 3 0 s
  else if p.cls == 1 then rf Reg.LLT_QMAP 7 4 s
  else if p.cls == 2 then rf Reg.LLT_QMAP 11 8 s
  else rf Reg.LLT_QMAP 15 12 s

/-- Is the rate of a packet's input at least the rate of an egress port (R166)? Host attachments count as 819.2 Gb/s. -/
def cutsThrough (inp out : Nat) (s : State) : Bool := 128 ≤ inp || portScale inp s ≤ portScale out s

/-- A packet on its way as it is kept for a further decision (R299): the choice of R284 has been made. -/
def InPkt.decide (i : InPkt) (p : Packet) : InPkt :=
  { i with decided := true, pkt := { i.pkt with nonmin := p.nonmin, viaGroup := p.viaGroup } }

/-- Put a packet into an egress queue: it may be sent as it comes if it can be cut through, else once it is there whole (R166). -/
def enqueue (i : InPkt) (p : Packet) (out : Nat) (fixed : Bool) (s : State) : State :=
  withXbr (fun x => { x with egq := x.egq ++
    [{ port := out, q := egressQueue i p s, idx := hopIndex i.demoted p, pkt := p, src := i.decide p, since := s.now,
       ready := if cutsThrough i.inp out s then i.since else i.till, fixed := fixed }] }) s

/-- Where a packet goes. -/
inductive RouteOut where
  | deliver
  | port (out : Nat) (p : Packet)
  | unroutable
  deriving DecidableEq, Repr

/-- The groups that may serve as intermediates (R284): marked, and neither the own group nor the destination's. -/
def viaGroups (d : Nat) (s : State) : List Nat :=
  (List.range 128).filter (fun g =>
    bit (g % 64) (rdReg (Reg.XBR_GRPVALID + 8 * (g / 64)) s) && g != chipGroup s && g != d)

/-- LOAD and distance of the best candidate toward a group, times the hops that remain (R284). -/
def viaCost (t : Nat) (d : BitVec 17) (rest : Nat) (s : State) : Option Nat :=
  (candidates t d 2 s).map (fun (ps, m) => leastLoad ps s * (m + rest))

/-- Is the first cost below the second, `none` standing for infinity? -/
def costBelow (a b : Option Nat) : Bool :=
  match a, b with
  | some x, some y => x < y
  | some _, none => true
  | none, _ => false

/-- The non-minimal choice at injection (R284), made once: the packet, with NONMIN and VIA_GROUP set if it leaves the minimal route. -/
def viaChoice (i : InPkt) (s : State) : Packet × State :=
  let p := i.pkt
  let d := epGroup p.dstEp
  let gs := viaGroups d s
  if i.decided || i.inp < 128 || p.hops != 0 || !bit 0 (rdReg Reg.XBR_ROUTE s) || 4 ≤ p.cls.toNat || fixedRoute p ||
      d == chipGroup s || gs.isEmpty then (p, s)
  else
    let (n1, s) := fresh s
    let (n2, s) := fresh s
    let v1 := (gs[Config.routeDraw n1 % gs.length]?).getD 0
    let v2 := (gs[Config.routeDraw n2 % gs.length]?).getD 0
    let lmin := viaCost d p.dstEp 3 s
    let l1 := viaCost v1 p.dstEp 6 s
    let l2 := viaCost v2 p.dstEp 6 s
    let (v, lnm) := if costBelow l2 l1 then (v2, l2) else (v1, l1)
    if costBelow (lnm.map (· + rf Reg.XBR_ROUTE 47 32 s)) lmin then
      ({ p with nonmin := true, viaGroup := BitVec.ofNat 7 v }, evcPulse 219 (inputTile i.inp) s)
    else (p, s)

/-- The output for a packet as its header stands (R281 to R283, R288), with the input's pointer moved on. -/
def routeOnce (i : InPkt) (p : Packet) (s : State) : RouteOut × State :=
  let via := p.nonmin && p.phase == 0
  let t := if via then p.viaGroup.toNat else epGroup p.dstEp
  match candidates t p.dstEp i.budget s with
  | none => (.unroutable, s)
  | some (ps, _) =>
    let ptr := (tget s.xbr.ptr i.inp).getD 0
    let out := if fixedRoute p then pickFixed ps s else pickLeast ps ptr s
    let s := if fixedRoute p then s else withXbr (fun x => { x with ptr := tset x.ptr i.inp ((out + 1) % 128) }) s
    match hopHeader i p out s with
    | some q => (.port out q, s)
    | none => (.unroutable, s)

/-- The packet demoted from SCH to COL, with E2E_CRC corrected for that change alone (R132, R355). -/
def demote (p : Packet) : Packet :=
  let q := { p with cls := 3 }
  { q with crc := p.crc ^^^ e2eCrc p ^^^ e2eCrc q }

/-- A packet demoted is decided again under R282 alone (R295, R355). -/
def InPkt.demote (i : InPkt) : InPkt := { i with pkt := Machine.demote i.pkt, decided := true, demoted := true }

/-- The entry of XBR_SCH that serves a packet (R295). -/
def schEntry (p : Packet) (s : State) : BitVec 64 :=
  let g := epGroup p.dstEp
  rdReg (Reg.XBR_SCH + 8 * (if g == chipGroup s then 128 + epIndex p.dstEp else g)) s

/-- The table route of an SCH packet (R295): its entry's port if that is usable and within the hop limits. -/
def schRoute (i : InPkt) (s : State) : Option (Nat × Packet) :=
  let v := schEntry i.pkt s
  let out := bits 6 0 v
  if bit 7 v && portUsable out s then (hopHeader i i.pkt out s).map (fun q => (out, q)) else none

/-- The decision for a packet that is not scheduled (R282 to R286): a packet that finds no candidate on its way to an
intermediate group is decided again toward its destination. -/
def routePlain (i : InPkt) (s : State) : RouteOut × State :=
  if i.pkt.dstEp.toNat / 4 == chipId s then (.deliver, s)
  else
    let (p, s) := viaChoice i s
    match routeOnce i p s with
    | (.unroutable, s) =>
      if p.nonmin && p.phase == 0 then routeOnce i { p with nonmin := false } s else (.unroutable, s)
    | r => r

/-! ### Delivery and credit -/

/-- The reservation behind a credit index (R293, R294): one cell for an acknowledgement lane. -/
def reservation (idx : Nat) (s : State) : Nat := if 26 ≤ idx then 1 else max 17 (rf Reg.XBR_VCMIN 7 0 s)

/-- Can a fabric port use a credit index (R274, R291, R294)? -/
def portUsesIdx (p idx : Nat) (s : State) : Bool :=
  let role := portRole p s
  if idx == 25 then true
  else if role == 1 || role == 2 then true
  else if role == 3 then
    idx == 24 || (idx < 24 && idx % 6 ≥ 2 && idx % 2 == 0) || (26 ≤ idx && (idx - 26) ≥ 2 && idx % 2 == 0)
  else false

/-- The reservation that a port's link has advertised for an index since link-up (R293, R312). -/
def linkReservation (p idx : Nat) (s : State) : Nat := if 26 ≤ idx then 1 else ((tget s.links p).map (·.vcMin)).getD 17

/-- COUNT that the device advertises for an index (R312): the reservation, the cells freed since link-up and the cells granted from
the shared pool. -/
def creditCount (p idx : Nat) (s : State) : Nat :=
  let of (f : Link → Tab Nat) : Nat := ((tget s.links p).bind (fun l => tget (f l) idx)).getD 0
  (linkReservation p idx s + of (·.freed) + of (·.shared)) % 65536

/-- The VCs that reserve cells (R291, R293): of the ports by role, and 6 of each of the 56 attachments. -/
def reservingVcs (s : State) : Nat :=
  ((List.range 128).map (fun p =>
    match portRole p s with
    | 1 => 26
    | 2 => 26
    | 3 => 10
    | 4 => 1
    | _ => 0)).sum + 56 * 6

/-- The cells of the three reservations of R15: of the VCs, of the chunk buffers and of the trigger objects. One that has been lowered
below what is held returns cells as they are freed. -/
def reservedCells (s : State) : Nat :=
  reservingVcs s * reservation 0 s + max (min 16384 (max 1 (rf Reg.COL_CFG 47 32 s))) (buffersHeld s) * 16 +
    max (max 1 (rf Reg.TPR_CFG 19 0 s)) (objCells s)

/-- The cells of the packet buffer (R15, R16): 4,096 for each bank group that is not fenced. -/
def bufferCells (s : State) : Nat :=
  4096 * ((List.range 256).filter (fun g => !bit (g % 64) (rdReg (Reg.SNF_FENCED_BANKGRP + 8 * (g / 64)) s))).length

/-- The reservation of a VC of an input (R293); the device's own COL, CND and MGT have none. -/
def ownReservation (inp idx : Nat) (s : State) : Nat := if 184 ≤ inp then 0 else reservation idx s

/-- Cells that packets from a VC of an attachment hold: queued for an egress port, or sent and kept for replay (R15). -/
def attachmentHeld (inp idx : Nat) (s : State) : Nat := cellsHeld (fun i => i.inp == inp && i.idx == idx) s

/-- Cells that the packets of the attachments and of the device's own units hold beyond the reservations of their VCs (R293). -/
def attachmentsBeyond (s : State) : Nat :=
  ((((cellPkts s).filter (fun x => 128 ≤ x.1.inp)).map (fun x => (x.1.inp, x.1.idx))).eraseDups.map (fun v =>
    attachmentHeld v.1 v.2 s - ownReservation v.1 v.2 s)).sum

/-- Does a port's link carry frames: LSTATE LINKINIT, UP or RECONFIG (R308, R326)? -/
def linkLive (p : Nat) (s : State) : Bool :=
  let st := rf (Reg.LNK_STAT + 8 * p) 30 28 s
  4 ≤ st && st ≤ 6

/-- Cells of the pool that a VC of a port takes: those granted to it or advertised beyond the present VC_MIN, with those that packets of an earlier link-up still hold, which while
the link is down stand first in its reservation (R15, R293). -/
def portBeyond (p : Nat) (l : Link) (s : State) (idx : Nat) : Nat :=
  if linkLive p s then
    (tget l.shared idx).getD 0 + (l.vcMin - reservation idx s) + cellsHeld (fun i => i.inp == p && i.idx == idx && i.up != l.ups) s
  else cellsHeld (fun i => i.inp == p && i.idx == idx) s - reservation idx s

/-- Free cells of the shared pool: those not reserved, not taken by a VC of a port, and not held by an attachment beyond its
reservations. -/
def sharedFree (s : State) : Nat :=
  bufferCells s - reservedCells s - (s.links.map (fun l => ((List.range 26).map (portBeyond l.1 l.2 s)).sum)).sum - attachmentsBeyond s

/-- Is there a cell for the packet at the head of an input (R15)? A port's packet has come against credit; any other waits at its
ingress until its VC's reservation or the shared pool holds it. A copy of an MCAST shares the cells of the others (R203). -/
def cellsFree (i : InPkt) (s : State) : Bool :=
  i.inp < 128 || (i.copy != 0 && (cellPkts s).any (fun x => x.1.copy == i.copy)) ||
    (let h := attachmentHeld i.inp i.idx s
     let n := cellsOf i.pkt
     h + n - max h (ownReservation i.inp i.idx s) ≤ sharedFree s)

/-- Credit beyond its reservation for an index of a port whose link is up (R293, R312): how much is a free value, at most the free cells
of the pool, and such that COUNT stays within 32,767 of the cells received. -/
def grantShared (p : Nat) (s : State) (idx : Nat) : State :=
  match tget s.links p with
  | none => s
  | some l =>
    let (n, s) := fresh s
    let had := (tget l.shared idx).getD 0
    let k := min (Config.sharedCredit n) (min (sharedFree s) (32767 - linkReservation p idx s - had))
    if 26 ≤ idx || k == 0 then s else { s with links := tset s.links p { l with shared := tset l.shared idx (had + k) } }

/-- A control frame of a port (R310), with its LCRC over the frame above it. -/
def controlFrame (p ct body : Nat) (s : State) : BitVec 256 :=
  let lack := ((tget s.links p).map (·.rxSeq)).getD 0
  let v := 0xA * 2 ^ 252 + ct % 16 * 2 ^ 248 + lack % 4096 * 2 ^ 236 + body % 2 ^ 192 * 2 ^ 32
  BitVec.ofNat 256 (v + (crc32c ((leBytes 32 v).drop 4)).toNat)

/-- Send a control frame. -/
def sendControl (p ct body : Nat) (s : State) : State := emit (.control p (controlFrame p ct body s)) s

/-- The body of a CREDIT frame for up to six indices, entry 0 highest (R310). -/
def creditBody (p : Nat) (s : State) : Nat → List Nat → Nat
  | _, [] => 0
  | k, i :: t => (2 ^ 31 + i * 2 ^ 26 + creditCount p i s) * 2 ^ (32 * k) + creditBody p s (k - 1) t

/-- Send a CREDIT frame for up to six indices, whose COUNT may have risen from the shared pool. -/
def sendCredit (p : Nat) (is : List Nat) (s : State) : State :=
  let s := (is.take 6).foldl (grantShared p) s
  sendControl p 1 (creditBody p s 5 (is.take 6)) s

/-- The cells of a packet that has left an input are free (R312): the link's COUNT rises and a CREDIT frame tells it (R313). A
packet of an earlier link-up returns nothing. -/
def creditBack (i : InPkt) (s : State) : State :=
  match tget s.links i.inp with
  | some l =>
    if i.inp < 128 && l.ups == i.up && linkLive i.inp s then
      let n := if 26 ≤ i.idx then 1 else cellsOf i.pkt
      let l := { l with freed := tset l.freed i.idx ((tget l.freed i.idx).getD 0 + n) }
      sendCredit i.inp [i.idx] { s with links := tset s.links i.inp l }
    else s
  | none => s

/-! ### Delivery -/

/-- The host attachment of a packet of host port `hp` (R14, R163): 2 hp or the next. A bifurcated controller's halves use one each
(R459), and a packet whose host data has not gone on half 1 is half 0's (R460); an x16 link's packets are spread by the low bit of
the PSN (DESIGN CHOICE). H(h) lies on tile 2h; the partner carries everything while that tile is fenced (R394). -/
def hostAttachment (hp : Nat) (psn : BitVec 32) (half1 : Bool) (s : State) : Nat :=
  let b := if bifurcated (0x100 * hp) s then b2n half1 else psn.toNat % 2
  2 * hp + (if rf Reg.SNF_FENCED_TILE (2 * (2 * hp + b)) (2 * (2 * hp + b)) s == 1 then 1 - b else b)

/-- Deliver a packet to the unit that its OP calls for (R287). Undefined OPs of the COL, TPR and MGT are discarded and
counted (R200, R258, R296). A packet for the RXE joins the staging queue of its host attachment (R163); any other unit has it once it has
been read whole. -/
def deliver (i : InPkt) (s : State) : State :=
  let p := i.pkt
  let op := p.op.toNat
  let s := creditBack i (if 0x20 ≤ op && op ≤ 0x4F then advanceTo i.till s else s)
  if 0x20 ≤ op && op ≤ 0x25 then emit (.deliverCol p) s
  else if 0x26 ≤ op && op ≤ 0x2F then ignored 117 s
  else if op == 0x30 || op == 0x31 then emit (.deliverTpr p) s
  else if 0x32 ≤ op && op ≤ 0x37 then ignored 48 s
  else if op == 0x40 || op == 0x41 then emit (.deliverMgt i.inp p) s
  else if 0x42 ≤ op && op ≤ 0x4F then xbrDrop s
  else
    let (ser, s) := if i.ser == 0 then stgNumbered s else (i.ser, s)
    let (_, s) := stgJoin .rxd (hostAttachment (epPort p.dstEp) p.psn false s) ser p coreRate coreRate s
    emit (.deliverRxe (epPort p.dstEp) p) s

/-- Take a packet that is not scheduled to its output, or discard it as unroutable (R286). -/
def routeOut (i : InPkt) (s : State) : State :=
  match routePlain i s with
  | (.deliver, s) => deliver i s
  | (.port out q, s) => enqueue i q out false s
  | (.unroutable, s) => creditBack i (evcPulse 218 (inputTile i.inp) s)

/-- Decide a packet and put it where it goes: delivered, queued, demoted first (R295, R355), or discarded. -/
def routePacket (i : InPkt) (s : State) : State :=
  if i.pkt.cls == 4 && i.pkt.dstEp.toNat / 4 != chipId s then
    match schRoute i s with
    | none => routeOut i.demote (evcPulse 223 (bits 6 0 (schEntry i.pkt s)) s)
    | some (out, q) =>
      if schTurnedAway out s then routeOut i.demote (evcPulse 223 out s)
      else enqueue i q out false s
  else routeOut i s

/-! ### Packets that leave an egress queue otherwise (R299, R355) -/

/-- A combined CADD of this device has been decided again (R299): its slot awaits the CADD_ACK on the port that it leaves by now, the last
that an egress queue beyond the first `n` packets took. -/
def caddMoved (n : Nat) (i : InPkt) (s : State) : State :=
  match (s.xbr.egq.drop n).getLast? with
  | some e =>
    if i.inp == 184 && i.pkt.op == 0x24 then
      { s with col := { s.col with combs := s.col.combs.map (fun ((c, x) : Nat × Comb) =>
          (c, if x.phase == .sent && x.pkt.psn == i.pkt.psn then { x with egress := e.port } else x)) } }
    else s
  | none => s

/-- A packet is decided again: demoted first, or as it is (R299, R355). -/
def decideAgain (demoted : Bool) (i : InPkt) (s : State) : State :=
  caddMoved s.xbr.egq.length i (if demoted then routeOut i.demote s else routePacket i s)

/-- Demote the packets of Q1 of a port that a test names, and decide them again (R355). -/
def demoteQ1 (p : Nat) (which : EgPkt → Bool) (s : State) : State :=
  let mine := s.xbr.egq.filter (fun e => e.port == p && e.q == 1 && which e)
  let s := withXbr (fun x => { x with egq := x.egq.filter (fun e => !(e.port == p && e.q == 1 && which e)) }) s
  mine.foldl (fun s e => decideAgain true e.src (evcPulse 223 p s)) s

/-- Every port that is unscheduled demotes what its gated Q1 holds (R354, R355). -/
def demoteUnscheduled (s : State) : State :=
  if scheduled s then s
  else (List.range 128).foldl (fun s p => if gated p 1 s then demoteQ1 p (fun _ => true) s else s) s

/-- Every packet queued for a port that has stopped being usable is decided again (R299). MGT_LOCAL packets stay while the
link is up. -/
def redecide (p : Nat) (s : State) : State :=
  let goes (e : EgPkt) : Bool := e.port == p && !(e.pkt.op == 0x40 && portUp p s)
  let mine := s.xbr.egq.filter goes
  let s := withXbr (fun x => { x with egq := x.egq.filter (fun e => !goes e) }) s
  mine.foldl (fun s e => if e.pkt.op == 0x40 then creditBack e.src (xbrDrop s) else decideAgain false e.src s) s

/-! ### Injection -/

/-- The credit index of a packet at an attachment (R291, R294). -/
def injectIndex (p : Packet) : Nat :=
  if p.cls == 4 then 24 else if 5 ≤ p.cls.toNat then 25 else if laneOp p then 26 else 6 * p.cls.toNat

def joinInput (i : InPkt) (s : State) : State := withXbr (fun x => { x with inq := x.inq ++ [i] }) s

/-- A packet joins the input of an attachment; a host attachment's comes by its staging queue (R163). -/
def inject (att : Nat) (p : Packet) (s : State) : State :=
  let s := emit (.packet att p) s
  if 128 ≤ att && att < 136 then
    let (i, s) := stagedIn .txi (att - 128) coreRate att (injectIndex p) 0 p s
    joinInput i s
  else joinInput (newIn att (injectIndex p) 0 p s) s

/-- Must a packet of an attachment or of the device's own units wait at its ingress: for the chip ID, but for MGT_LOCAL (R276), or for a cell
(R15)? -/
def ingressWaits (i : InPkt) (s : State) : Bool := (128 ≤ i.inp && !chipValid s && i.pkt.op != 0x40) || !cellsFree i s

/-- A packet that the device's own COL, CND or MGT sends by one hop that it has chosen. On a port that is not usable it is decided again
(R299); an SCH packet that Q1 turns away goes as COL (R355); MGT_LOCAL goes on a port that is up (R296). One that the limits of R286 stop is
discarded and counted. -/
def ownOut (out : Nat) (i : InPkt) (s : State) : State :=
  if i.pkt.op == 0x40 then (if portUp out s then enqueue i i.pkt out true s else xbrDrop s)
  else if !portUsable out s then decideAgain false i s
  else if i.pkt.cls == 4 && schTurnedAway out s then decideAgain true i (evcPulse 223 out s)
  else
    match hopHeader i i.pkt out s with
    | some h => enqueue i h out true s
    | none => evcPulse 218 (out / 8) s

/-- A packet joins its input, where it waits if it must, or if another one of its VC does; else `go` takes it on. -/
def enter (i : InPkt) (go : State → State) (s : State) : State :=
  if ingressWaits i s || s.xbr.inq.any (fun j => j.inp == i.inp && j.idx == i.idx) then joinInput i s else go s

/-- The device's own COL, CND or MGT sends a packet on a port. -/
def sendOwn (budget copy : Nat) (p : Packet) (out : Nat) (s : State) : State :=
  let i := { newIn 184 (hopIndex false p) 0 p s with budget := budget, decided := true, out := some out, copy := copy }
  enter i (ownOut out i) s

end Sys2Proof.Machine
end

