-- ==== Sys2Proof/Machine/Link.lean ====
section
/-! DEFINITION. Itzor Link (10: R303 to R329) and the Lamplighter's selection (11: R340 to R342). -/

namespace Sys2Proof.Machine

/-! ### Fields -/

/-- A link with nothing in progress. -/
def Link.idle : Link :=
  { ups := 0, signal := false, adv := 0, pages := [], three := 0, healthy := 15, rates := 7, usable := 0, stepDue := none, txSeq := 0,
    rxSeq := 0, held := [], resync := false, rxWait := false, retryDue := 0, replayLack := 0, replays := 0, replayEnd := 0, sent := [], count := [],
    count0 := [], vcMin := 17, freed := [], shared := [], rot := 0, tsSeq := 0, ts := none, tsDue := 0, lastCtl := 0, rc := none, rcSeq := 0,
    retrain := 0, llOk := false, tries := 0, downHold := false, holdDue := 0 }

def getLink (p : Nat) (s : State) : Link := (tget s.links p).getD Link.idle
def putLink (p : Nat) (l : Link) (s : State) : State := { s with links := tset s.links p l }
def modLink (p : Nat) (f : Link → Link) (s : State) : State := putLink p (f (getLink p s)) s

def lstat (p hi lo : Nat) (s : State) : Nat := rf (Reg.LNK_STAT + 8 * p) hi lo s
def setLstat (p hi lo x : Nat) (s : State) : State := setRf (Reg.LNK_STAT + 8 * p) hi lo x s

/-- LSTATE (R326). -/
def lstate (p : Nat) (s : State) : Nat := lstat p 30 28 s
def setLstate (p x : Nat) (s : State) : State := setLstat p 30 28 x s

/-- Does the link run IZL-3? -/
def izl3 (p : Nat) (s : State) : Bool := lstat p 22 22 s == 1

/-- Modulus of LSEQ and LACK (R309, R323). -/
def seqMod (p : Nat) (s : State) : Nat := if izl3 p s then 4096 else 1024

/-- LNK_ADV as the last negotiation took it: a new value applies from the next (R324). -/
def adv (p hi lo : Nat) (s : State) : Nat := bits hi lo (getLink p s).adv

def adminUp (p : Nat) (s : State) : Bool := bit 0 (rdReg (Reg.LNK_CTRL + 8 * p) s)

/-- The lanes of a mask. -/
def lanesOf (m : Nat) : List Nat := (List.range 4).filter (fun i => m / 2 ^ i % 2 == 1)

/-- Counted on IGNORED of the LNK. -/
def lnkIgnored (s : State) : State := ignored 32 s

/-! ### Capability pages (R305, R306) -/

/-- One step of CRC-16 with polynomial 0x1021. -/
def crc16Bit (c : Nat) (b : Bool) : Nat :=
  let top := (c / 32768 % 2 == 1) != b
  if top then Nat.xor (c * 2 % 65536) 0x1021 else c * 2 % 65536

/-- CRC-16 over bits [63:16] of a page, most significant first (R305). -/
def pageCrc (v : BitVec 64) : Nat :=
  ((List.range 48).map (fun k => bit (63 - k) v)).foldl crc16Bit 0xFFFF

/-- Is a page valid (R305)? -/
def pageValid (v : BitVec 64) : Bool := bits 63 56 v == 0xB7 && bits 36 16 v == 0 && bits 15 0 v == pageCrc v

/-- The page that a port sends on a lane (R305). -/
def ownPage (p lane : Nat) (s : State) : BitVec 64 :=
  let l := getLink p s
  let v := BitVec.ofNat 64 (0xB7 * 2 ^ 56 + lane * 2 ^ 54 + b2n (bit lane l.three) * 2 ^ 53 + l.healthy.toNat * 2 ^ 49 +
    Nat.land (adv p 15 13 s) l.rates.toNat * 2 ^ 46 + adv p 12 10 s * 2 ^ 43 + adv p 9 8 s * 2 ^ 41 + adv p 7 6 s * 2 ^ 39 +
    adv p 5 4 s * 2 ^ 37)
  setBits 15 0 (pageCrc v) v

/-- Lanes that have received three consecutive identical valid pages with ACK set. -/
def ackedLanes (l : Link) : List (Nat × BitVec 64) :=
  l.pages.filterMap (fun (i, v, n) => if 3 ≤ n && bit 53 v then some (i, v) else none)

/-- Connected lanes as they are received, and whether the lane order is reversed (R306). -/
def connected (l : Link) : List Nat × Bool :=
  let c := ackedLanes l
  if !c.isEmpty && c.all (fun (i, v) => bits 55 54 v == 3 - i) then (c.map (·.1), true)
  else (c.filterMap (fun (i, v) => if bits 55 54 v == i then some i else none), false)

/-- A mask of lanes. -/
def laneMask (ls : List Nat) : Nat := ls.foldl (fun m i => m + 2 ^ i) 0

/-- The connected lanes by the numbers that they carry, after the receiver has reversed its order if it does (R306). -/
def connectedMask (l : Link) : Nat :=
  let (c, rev) := connected l
  laneMask (if rev then c.map (3 - ·) else c)

/-- The last page of a connected lane: what the peer offers. -/
def peerPage (l : Link) : Option (BitVec 64) := (ackedLanes l).head?.map (·.2)

/-- The usable set U of R306 and the lanes that it lacks. -/
def usableLanes (p : Nat) (s : State) : Nat × Nat :=
  let l := getLink p s
  let peer := ((peerPage l).map (bits 52 49)).getD 0
  let want := Nat.land (Nat.land (adv p 3 0 s) l.healthy.toNat) peer
  let u := Nat.land want (connectedMask l)
  (u, want - u)

/-! ### Resolution (R307) -/

/-- The lanes of a width among usable lanes: 4, 2 or 1 lanes for width code 2, 1 or 0. -/
def widthLanes (u w : Nat) : Option Nat :=
  if w == 2 then (if u == 15 then some 15 else none)
  else if w == 1 then (if Nat.land u 3 == 3 then some 3 else if Nat.land u 12 == 12 then some 12 else none)
  else (lanesOf u).head?.map (2 ^ ·)

/-- The pair of rate and width codes with the greatest product; ties go to the wider (R307 step 2). -/
def bestMode (rates widths u : Nat) : Option (Nat × Nat × Nat) :=
  let cs := (List.range 3).flatMap (fun r => (List.range 3).filterMap (fun w =>
    if rates / 2 ^ r % 2 == 1 && widths / 2 ^ w % 2 == 1 then (widthLanes u w).map (fun m => (r, w, m)) else none))
  cs.foldl (fun b c =>
    match b with
    | none => some c
    | some (r, w, m) => if r + w < c.1 + c.2.1 || (r + w == c.1 + c.2.1 && w < c.2.1) then some c else some (r, w, m)) none

/-- What resolution answers: the failure's LASTFAIL code, or version, rate, width, lanes, FEC and TSF. -/
inductive Resolved where
  | fail (cause : Nat)
  | mode (ver rate width lanes fec tsf : Nat)
  deriving DecidableEq, Repr

/-- Resolution from the local offer and the peer's page (R307). -/
def resolve (p u : Nat) (page : BitVec 64) (s : State) : Resolved :=
  let l := getLink p s
  let ver := Nat.land (adv p 7 6 s) (bits 40 39 page)
  if ver == 0 then .fail 1
  else
    let v := if 2 ≤ ver then 1 else 0
    let rates := Nat.land (Nat.land (adv p 15 13 s) l.rates.toNat) (bits 48 46 page)
    match bestMode (if v == 1 then rates else Nat.land rates 3) (Nat.land (adv p 12 10 s) (bits 45 43 page)) u with
    | none => .fail 2
    | some (r, w, m) =>
      let fec := Nat.land (adv p 9 8 s) (bits 42 41 page)
      let tsf := Nat.land (adv p 5 4 s) (bits 38 37 page)
      let t := if v == 1 && 2 ≤ tsf then 2 else if tsf % 2 == 1 then 1 else 0
      if v == 1 && r == 2 && 2 ≤ fec then .mode v r w m 1 t
      else if fec % 2 == 1 then .mode v r w m 0 t
      else .fail 3

/-! ### Bring-up (R308) -/

/-- Step 1 of R308: pages are sent on every allowed lane, with LNK_ADV as it stands now (R324). -/
def startPages (p : Nat) (s : State) : State :=
  let s := setRf (Reg.LNK_CTRL + 8 * p) 1 1 0 (setLstat p 35 32 0 (setLstate p 1 s))
  modLink p (fun l => { l with
    adv := (rdReg (Reg.LNK_ADV + 8 * p) s).setWidth 16, pages := [], three := 0, stepDue := none, downHold := false, rc := none, ts := none,
    held := [] }) s

/-- Is the MGT in RECOVERY (R486, R495)? -/
def recovering (s : State) : Bool := rf Reg.MGT_BOOT 3 2 s == 2

/-- Negotiation starts if the port is up by command, it is kept, its domain is on and a signal is present; in RECOVERY every port stays
down (R495). -/
def tryStart (p : Nat) (s : State) : State :=
  if !recovering s && adminUp p s && portServes p s && domOn (1 + p) s && (getLink p s).signal && lstate p s == 0 then startPages p s else s

/-- The port goes to HOLD for a time in 1/16 ns: of R308 or, where `down`, of R315. -/
def holdFor (p t : Nat) (down : Bool) (s : State) : State :=
  setLstate p 7 (modLink p (fun l => { l with downHold := down, holdDue := s.now + t }) s)

/-- A step of bring-up has a limit from now on, in µs (R308). -/
def stepLimit (p t : Nat) (s : State) : State := modLink p (fun l => { l with stepDue := some (s.now + us t) }) s

/-- An attempt fails (R308): the cause is recorded, failing lanes leave HEALTHY, or the rate leaves the offer when every lane
failed at it; no lane is in use any more. After eight failures in a row the port goes to HOLD with its reductions cleared. -/
def attemptFails (p cause lanes : Nat) (s : State) : State :=
  let fails := min 255 (lstat p 47 40 s + 1)
  let used := lstat p 39 36 s
  let rate := lstat p 27 26 s
  let s := setLstat p 19 17 cause (setLstat p 47 40 fails s)
  let s := modLink p (fun l =>
    let l := { l with tries := l.tries + 1 }
    if (cause == 5 || cause == 6) && Nat.land used lanes == used && rate != 0 then { l with rates := setBits (rate - 1) (rate - 1) 0 l.rates }
    else { l with healthy := l.healthy &&& ~~~(BitVec.ofNat 4 lanes) }) s
  let s := setLstat p 39 36 0 (setLstat p 27 24 0 s)
  if 8 ≤ (getLink p s).tries then holdFor p (us 1000000) false (modLink p (fun l => { l with tries := 0, healthy := 15, rates := 7 }) s)
  else startPages p s

/-- Step 3: resolve and start training, whose limit goes by the rate. -/
def resolvePort (p u : Nat) (page : BitVec 64) (s : State) : State :=
  match resolve p u page s with
  | .fail c => attemptFails p c 0 s
  | .mode v r w m fec t =>
    let s := setLstat p 39 36 m (setLstat p 27 26 (r + 1) (setLstat p 25 24 (w + 1) s))
    let s := setLstat p 23 23 fec (setLstat p 22 22 v (setLstat p 21 20 t s))
    let s := modLink p (fun l => { l with usable := BitVec.ofNat 4 u }) s
    stepLimit p (if r == 2 then 500000 else if r == 1 then 300000 else 200000) (setLstate p 2 s)

/-- Receipt of a page on a lane (R306); the first one begins the limit of step 2. -/
def pageCome (p lane : Nat) (v : BitVec 64) (s : State) : State :=
  if lstate p s != 1 || !pageValid v then s else
  let l := getLink p s
  let n := match tget l.pages lane with
    | some (old, n) => if old == v then n + 1 else 1
    | none => 1
  let l := { l with
    pages := tset l.pages lane (v, n)
    three := if 3 ≤ n then setBits lane lane 1 l.three else l.three
    stepDue := some (l.stepDue.getD (s.now + us 10000)) }
  let (conn, rev) := connected l
  let s := setLstat p 31 31 (b2n rev) (setLstat p 35 32 (laneMask conn) (putLink p l s))
  match peerPage l, usableLanes p s with
  | some page, (u, 0) => resolvePort p u page s
  | _, _ => s

/-! ### Link up and down (R308, R315) -/

/-- XBR_PORT.STATE and SCALE of a port from its rate and width (R273, R283). -/
def showPort (p : Nat) (s : State) : State :=
  let r := lstat p 27 26 s
  let w := lstat p 25 24 s
  let s := setRf (Reg.XBR_PORT + 8 * p) 31 29 (if r == 3 && w == 3 then 1 else 2) s
  setRf (Reg.XBR_PORT + 8 * p) 28 24 (2 ^ (6 - (r + w))) s

/-- Step 8: the port is up. -/
def portComesUp (p : Nat) (s : State) : State :=
  showPort p (setLstate p 5 (setLstat p 47 40 0 (modLink p (fun l => { l with tries := 0 }) s)))

/-- A stamp in the port's format (R320). -/
def linkStamp (p : Nat) (s : State) : BitVec 32 :=
  if lstat p 21 20 s == 2 then s.gtime.extractLsb' 0 32 else s.gtime.extractLsb' 4 32

/-- Start a timestamp exchange (R319); the next is due TS_INTERVAL later. -/
def startTs (p : Nat) (s : State) : State :=
  if lstat p 21 20 s == 0 then s else
  let l := getLink p s
  let t1 := linkStamp p s
  let q := l.tsSeq + 1
  let s := putLink p { l with tsSeq := q, ts := some ⟨q, t1, s.now, false⟩, tsDue := s.now + us (nz (rf Reg.LNK_CFG 31 16 s)) } s
  sendControl p 3 (t1.toNat * 2 ^ 160 + q.toNat * 2 ^ 144) s

/-- Send every COUNT that a port uses, six to a frame (R312, R313). -/
def sendAllCredits (p : Nat) : Nat → List Nat → State → State
  | 0, _, s => s
  | n + 1, is, s => if is.isEmpty then s else sendAllCredits p n (is.drop 6) (sendCredit p is s)

/-- The indices that a port uses. -/
def usedIdx (p : Nat) (s : State) : List Nat := (List.range 32).filter (fun i => portUsesIdx p i s)

/-- Steps 6 and 7: LL confirmed or withdrawn, sequence numbers and counts start afresh, credits go out, and the first
timestamp exchange starts. -/
def linkInit (p : Nat) (s : State) : State :=
  let l := getLink p s
  let s := if lstat p 23 23 s == 1 && !l.llOk then setLstat p 23 23 0 s else s
  let s := putLink p { l with
    ups := l.ups + 1, txSeq := 0, rxSeq := 0, held := [], resync := false, rxWait := false, replays := 0, replayEnd := 0, sent := [],
    count := [], count0 := [], vcMin := reservation 0 s, freed := [], shared := [], rot := 0, lastCtl := s.now, rc := none, retrain := 0, ts := none } s
  let s := stepLimit p 1000 (setLstate p 4 (setRf (Reg.LNK_TS + 8 * p) 0 0 0 s))
  let s := sendAllCredits p 6 (usedIdx p s) s
  if lstat p 21 20 s == 0 then portComesUp p s else startTs p s

/-- A timestamp sample is discarded and counted (R321). -/
def tsDrop (p : Nat) (s : State) : State := evcPulse 227 p s

/-- The link goes down (R315): frames held are discarded, freed and counted, counts are forgotten, and the packets queued are
decided again (R299). It renegotiates after DOWN_HOLD while ADMIN_UP is set. -/
def linkDown (p : Nat) (s : State) : State :=
  if lstate p s == 0 || lstate p s == 7 then s else
  let l := getLink p s
  let s := setRf (Reg.XBR_PORT + 8 * p) 31 24 0 s
  let s := if l.ts.isSome then tsDrop p s else s
  let s := putLink p { l with held := [], ts := none, rc := none, resync := false, rxWait := false, retrain := 0, sent := [],
                              count := [], count0 := [], freed := [], shared := [] } s
  let s := if adminUp p s && portServes p s then holdFor p (us (1000 * nz (rf Reg.LNK_CFG 7 0 s))) true s else setLstate p 0 s
  let s := setRf (Reg.LNK_CTRL + 8 * p) 2 2 0 (setLstat p 39 36 0 (setLstat p 27 24 0 s))
  let s := l.held.foldl (fun s h => creditBack h.src (lnkIgnored s)) s
  redecide p s

/-! ### Data frames (R309, R311, R315) -/

/-- LHDR of a data frame (R309). -/
def lhdrOf (seq idx len : Nat) : BitVec 64 := BitVec.ofNat 64 (5 * 2 ^ 60 + seq * 2 ^ 48 + idx * 2 ^ 43 + len * 2 ^ 30)

/-- LCRC of a data frame: over LHDR, packet and pad (R309). -/
def frameCrc (lhdr : BitVec 64) (p : Packet) : BitVec 32 :=
  let n := 64 + p.payload.length
  crc32c (toBytes 8 lhdr ++ headerBytes p ++ p.payload ++ leBytes ((8 - n % 8) % 8) 0)

/-- Ask for a replay (R315), again after RETRY_TO. -/
def askReplay (p : Nat) (s : State) : State :=
  sendControl p 2 0 (modLink p (fun l => { l with rxWait := true, retryDue := s.now + us (nz (rf Reg.LNK_CFG 47 40 s)) / 4 }) s)

/-- A packet that has been accepted in sequence: discarded as a protocol error, on a SERVICE or UNUSED port or while the chip ID is
not set; handed to the MGT; or queued at its input VC by way of the port's staging queue, where it lies whole (R165, R274, R276, R294,
R296, R311). -/
def acceptPacket (p idx : Nat) (pkt : Packet) (s : State) : State :=
  let up := (getLink p s).ups
  let i := newIn p idx up pkt s
  if !portUsesIdx p idx s || (idx < 24 && idx / 6 != pkt.cls.toNat) || 6 ≤ pkt.cls.toNat || (26 ≤ idx && !laneOp pkt) then
    creditBack i (lnkIgnored s)
  else if pkt.op == 0x40 then emit (.deliverMgt p pkt) (creditBack i s)
  else if !chipValid s || portRole p s == 0 || portRole p s == 4 then creditBack i (xbrDrop s)
  else if 0x42 ≤ pkt.op.toNat && pkt.op.toNat ≤ 0x4F then creditBack i (xbrDrop s)
  else
    let (i, s) := stagedIn .lrx p 0 p idx up pkt s
    joinInput i s

/-- A framing error (R311): the receiver resynchronises, and every data frame counts as damaged until a replay begins. A timestamp sample in
progress is spoilt. -/
def framingError (p : Nat) (s : State) : State :=
  modLink p (fun l => { l with resync := true, ts := l.ts.map (fun t => { t with spoilt := true }) }) s

/-- Receipt of a data frame (R311, R315). After a framing error the replay begins with the frame that the RETRY_REQ has asked for. -/
def frameCome (p : Nat) (fr : DataFrame) (s : State) : State :=
  if !linkLive p s then s else
  let l := getLink p s
  let len := bits 42 30 fr.lhdr
  let framing := bits 63 60 fr.lhdr != 5 || len < 64 || 4160 < len
  let due := bits 59 48 fr.lhdr == l.rxSeq
  if framing then framingError p s
  else if fr.fecBad || fr.lcrc != frameCrc fr.lhdr fr.pkt || len != 64 + fr.pkt.payload.length || (l.resync && !(l.rxWait && due)) then
    let s := evcPulse 226 p s
    if l.rxWait then s else askReplay p s
  else if !due then if l.rxWait then s else askReplay p s
  else
    acceptPacket p (bits 47 43 fr.lhdr) fr.pkt
      (putLink p { l with rxSeq := (l.rxSeq + 1) % seqMod p s, resync := false, rxWait := false } s)

/-! ### Control frames (R310 to R314) -/

/-- LACK covers frames: their cells are freed (R314). -/
def lackCovers (p lack : Nat) (s : State) : State :=
  let l := getLink p s
  match l.held with
  | [] => s
  | h :: _ =>
    let n := (lack + seqMod p s - h.seq) % seqMod p s
    if l.held.length < n then s
    else
      let s := putLink p { l with held := l.held.drop n, replays := if n == 0 then l.replays else 0 } s
      (l.held.take n).foldl (fun s f => creditBack f.src s) s

/-- A control frame of a type comes (R311): one of another FT is a framing error; a damaged one is ignored; a valid one tells LACK. `some` body
if it is valid. -/
def controlCome (p ct : Nat) (raw : BitVec 256) (bad : Bool) (s : State) : Option Nat × State :=
  if linkLive p s && bits 255 252 raw != 0xA && bits 255 252 raw != 5 then (none, framingError p s)
  else if !linkLive p s || bad || bits 255 252 raw != 0xA || bits 251 248 raw != ct ||
      bits 31 0 raw != (crc32c ((leBytes 32 (bits 255 32 raw * 2 ^ 32)).drop 4)).toNat then (none, s)
  else
    (some (bits 223 32 raw),
      lackCovers p (bits 247 236 raw % seqMod p s) (modLink p (fun l => { l with lastCtl := s.now }) s))

/-- One entry of a CREDIT frame (R310, R312). An index that the port cannot use is ignored and counted. -/
def creditEntry (p e : Nat) (s : State) : State :=
  if e / 2 ^ 31 % 2 == 0 then s
  else
    let i := e / 2 ^ 26 % 32
    if !portUsesIdx p i s then lnkIgnored s
    else
      modLink p (fun l => { l with
        count := tset l.count i (e % 65536)
        count0 := if (tget l.count0 i).isSome then l.count0 else tset l.count0 i (e % 65536) }) s

/-- A CREDIT frame's six entries. -/
def creditCome (p body : Nat) (s : State) : State :=
  (List.range 6).foldl (fun s k => creditEntry p (body / 2 ^ (32 * (5 - k)) % 2 ^ 32) s) s

/-- LHDR and LTRL of a frame (R309). -/
def frameEnds (h : HeldFrame) : BitVec 64 × BitVec 64 :=
  let v := lhdrOf h.seq h.idx (64 + h.pkt.payload.length)
  (v, (frameCrc v h.pkt).setWidth 64)

/-- Send a data frame. -/
def sendFrame (p : Nat) (h : HeldFrame) (s : State) : State := emit (.frame p (frameEnds h).1 h.pkt (frameEnds h).2) s

/-- A RETRY_REQ (R314, R315): every frame from its LACK on is sent again; after RETRY_MAX replays from one LACK the link goes
down. One from the LACK of a replay that is under way is ignored. -/
def replayFrom (p lack : Nat) (s : State) : State :=
  let l := getLink p s
  let n := if l.replayLack == lack then l.replays else 0
  if 0 < n && s.now < l.replayEnd then s
  else if nz (rf Reg.LNK_CFG 51 48 s) ≤ n then linkDown p s
  else
    let cells := (l.held.map (fun h => cellsOf h.pkt)).sum
    let s := putLink p { l with replayLack := lack, replays := n + 1, replayEnd := s.now + cellsTime cells (linkRate p s) } s
    l.held.foldl (fun s h => sendFrame p h (evcPulse 225 p s)) s

/-! ### Timestamps (R319 to R321) -/

/-- Answer a TS_REQ. -/
def tsAnswer (p body : Nat) (s : State) : State :=
  let t := (linkStamp p s).toNat
  sendControl p 4 (body / 2 ^ 144 * 2 ^ 144 + t * 2 ^ 112 + t * 2 ^ 80) s

/-- Keep a sample: LNK_TS, and the time unit's sums (R320, R335). -/
def tsKeep (p : Nat) (theta d : Int) (s : State) : State :=
  let off := Reg.LNK_TS + 8 * p
  let s := setRf off 63 32 (theta % 2 ^ 32).toNat s
  let s := setRf off 31 16 (min 65535 d.toNat) s
  let s := setRf off 0 0 1 s
  let (sum, n) := (tget s.tmu.kept p).getD (0, 0)
  { s with tmu := { s.tmu with kept := tset s.tmu.kept p (sum + theta, n + 1) } }

/-- A TS_RESP: the sample is computed and kept, or discarded (R320, R321). -/
def tsCome (p body : Nat) (s : State) : State :=
  let l := getLink p s
  match l.ts with
  | none => tsDrop p s
  | some t =>
    if body / 2 ^ 144 % 65536 != t.tseq.toNat then tsDrop p s
    else
      let t4 := linkStamp p s
      let f3 := lstat p 21 20 s == 2
      let unit := if f3 then 1 else 16
      let t2 := BitVec.ofNat 32 (body / 2 ^ 112)
      let t3 := BitVec.ofNat 32 (body / 2 ^ 80)
      let s := putLink p { l with ts := none } s
      if t.spoilt || t.sentAt + us 100 < s.now || 16000 * nz (rf Reg.LNK_CFG 15 8 s) < unit * (t4 - t.t1).toNat then tsDrop p s
      else
        let a := i32 (t2 - t.t1) * unit
        let b := i32 (t4 - t3) * unit
        let asym : Int := ((rdReg (Reg.LNK_ASYM + 8 * p) s).extractLsb' 0 16).toInt
        let s := tsKeep p ((a - b - asym) / 2) ((a + b) / 2) s
        if lstate p s == 4 then portComesUp p s else s

/-! ### Lanes in service (R316 to R318) -/

/-- The widest set of lanes that R307 allows within a mask, by the widths that both sides offer. -/
def widestLanes (p m : Nat) (s : State) : Nat :=
  let widths := Nat.land (adv p 12 10 s) (((peerPage (getLink p s)).map (bits 45 43)).getD 7)
  (([2, 1, 0] : List Nat).findSome? (fun w => if widths / 2 ^ w % 2 == 1 then widthLanes m w else none)).getD 0

/-- Width code of a lane mask. -/
def widthCode (m : Nat) : Nat := if m == 15 then 3 else if m == 3 || m == 12 then 2 else if m == 0 then 0 else 1

/-- Send the RECONFIG in progress. -/
def sendReconf (p : Nat) (s : State) : State :=
  let l := getLink p s
  match l.rc with
  | some r =>
    sendControl p 5 (r.lanes.toNat * 2 ^ 188 + b2n r.ll * 2 ^ 187 + r.seq.toNat * 2 ^ 160)
      (putLink p { l with rc := some { r with sentAt := s.now } } s)
  | none => s

/-- Start a change of lanes or FEC (R316): the proposal is the widest set within the lanes considered healthy. Under IZL-2 the link goes
down instead (R323). -/
def startReconf (p : Nat) (ll : Bool) (s : State) : State :=
  let m := widestLanes p (getLink p s).usable.toNat s
  if lstate p s != 5 && lstate p s != 6 then s
  else if !izl3 p s || m == 0 then linkDown p s
  else
    let l := getLink p s
    let r : Reconf := ⟨BitVec.ofNat 4 m, ll, l.rcSeq + 1, s.now, s.now⟩
    sendReconf p (setLstate p 6 (putLink p { l with rc := some r, rcSeq := l.rcSeq + 1 } s))

/-- Lanes in use become those agreed (R317). -/
def adoptReconf (p lanes : Nat) (ll : Bool) (s : State) : State :=
  if lanes == 0 then linkDown p s
  else
    let s := modLink p (fun l => { l with rc := none, ts := l.ts.map (fun t => { t with spoilt := true }) }) s
    let s := setLstat p 39 36 lanes (setLstat p 25 24 (widthCode lanes) (setLstat p 23 23 (b2n ll) s))
    showPort p (setLstate p 5 s)

/-- Answer a RECONFIG with the agreed configuration, and adopt it (R316, R317). -/
def answerReconf (p body : Nat) (s : State) : State :=
  if (lstate p s != 5 && lstate p s != 6) || !izl3 p s then s else
  let l := getLink p s
  let own := match l.rc with
    | some r => r.lanes.toNat
    | none => l.usable.toNat
  let ownLl := match l.rc with
    | some r => r.ll
    | none => lstat p 23 23 s == 1
  let m := widestLanes p (Nat.land (body / 2 ^ 188) own) s
  let ll := body / 2 ^ 187 % 2 == 1 && ownLl
  adoptReconf p m ll
    (sendControl p 6 (m * 2 ^ 188 + b2n ll * 2 ^ 187 + body / 2 ^ 160 % 65536 * 2 ^ 160) s)

/-- A RECONFIG_ACK: the starting side adopts what it carries. -/
def reconfAcked (p body : Nat) (s : State) : State :=
  match (getLink p s).rc with
  | some r =>
    if body / 2 ^ 160 % 65536 == r.seq.toNat then adoptReconf p (body / 2 ^ 188) (body / 2 ^ 187 % 2 == 1) s else s
  | none => s

/-- A lane in use leaves service (R316, R323). -/
def laneFails (p lane : Nat) (s : State) : State :=
  let used := lstat p 39 36 s
  if !linkLive p s || used / 2 ^ lane % 2 == 0 then s
  else
    let s := modLink p (fun l => { l with healthy := setBits lane lane 0 l.healthy, usable := setBits lane lane 0 l.usable }) s
    startReconf p (lstat p 23 23 s == 1) s

/-! ### Selection at an egress port (R341, R342) -/

/-- The cells of a frame at a credit index (R312). -/
def frameCells (idx : Nat) (p : Packet) : Nat := if 26 ≤ idx then 1 else cellsOf p

/-- Head packets of the sublists of a queue, by VC (R341); one that has not come far enough to be sent waits (R166). -/
def headOf (p q idx : Nat) (s : State) : Option EgPkt :=
  (s.xbr.egq.find? (fun e => e.port == p && e.q == q && e.idx == idx)).filter (fun e => e.ready ≤ s.now)

/-- May the link send this packet: credit covers it whole (R312), and the frames held stay within R314? -/
def frameFits (p : Nat) (e : EgPkt) (s : State) : Bool :=
  let l := getLink p s
  let n := frameCells e.idx e.pkt
  let c := ((tget l.count e.idx).getD 0 + 65536 - (tget l.sent e.idx).getD 0) % 65536
  let held := l.held.foldl (fun a h => a + frameCells h.idx h.pkt) 0
  n ≤ c && held + n ≤ nz (rf Reg.LNK_CFG 63 52 s) && l.held.length < (if izl3 p s then 2047 else 511)

/-- The packet that a queue would send: its eligible sublists are taken in round robin (R341). -/
def queueHead (p q : Nat) (s : State) : Option EgPkt :=
  if !gateAdmits p q s then none
  else
    let ptr := (tget s.llt.rr (16 * p + q)).getD 0
    ((List.range 32).map (fun k => (ptr + k) % 32)).findSome? (fun i =>
      (headOf p q i s).bind (fun e => if frameFits p e s then some e else none))

def withLlt (f : Llt → Llt) (s : State) : State := { s with llt := f s.llt }

/-- CE is set on an ECT packet of REQ, FWD or RSP that leaves a queue of more than MARK_K cells (R155, R161). -/
def markCe (p : Nat) (e : EgPkt) (s : State) : Packet :=
  if bit 16 (rdReg Reg.LLT_MARK s) && e.pkt.ect && e.pkt.cls.toNat ≤ 2 && nz (rf Reg.LLT_MARK 15 0 s) < queueDepth p e.q s then
    { e.pkt with ce := true }
  else e.pkt

/-- The packet leaves its queue by the port's staging queue (R163), and its frame goes out, held until LACK covers it (R314). -/
def takePacket (p : Nat) (e : EgPkt) (s : State) : State :=
  let l := getLink p s
  let h : HeldFrame := ⟨l.txSeq, e.idx, markCe p e s, e.src⟩
  let n := frameCells e.idx e.pkt
  let s := withXbr (fun x => { x with egq := x.egq.erase e }) s
  let s := withLlt (fun t => { t with rr := tset t.rr (16 * p + e.q) ((e.idx + 1) % 32) }) s
  let (_, s) := stgJoin .ltx p l.txSeq h.pkt coreRate (linkRate p s) s
  let s := putLink p { l with
    txSeq := (l.txSeq + 1) % seqMod p s
    held := l.held ++ [h]
    sent := tset l.sent e.idx (((tget l.sent e.idx).getD 0 + n) % 65536) } s
  sendFrame p h (evcPulses 224 p n s)

/-- WEIGHT of a queue (R344). -/
def queueWeight (p q : Nat) (s : State) : Nat :=
  let k := q - 4
  nz (rf (Reg.LLT_WRR + 16 * p + 8 * (k / 8)) (8 * (k % 8) + 7) (8 * (k % 8)) s)

/-- The weighted part of R342: at most one turn round Q4 to Q15. -/
def selectWeighted (p : Nat) : Nat → State → State
  | 0, s => s
  | n + 1, s =>
    let q := (tget s.llt.cur p).getD 4
    let k := 16 * p + q
    let pass (s : State) : State := selectWeighted p n (withLlt (fun t => { t with
      granted := t.granted.filter (· != k)
      cur := tset t.cur p (if q == 15 then 4 else q + 1) }) s)
    match queueHead p q s with
    | some e =>
      let s := if s.llt.granted.contains k then s
        else withLlt (fun t => { t with
          deficit := tset t.deficit k ((tget t.deficit k).getD 0 + 64 * queueWeight p q s), granted := k :: t.granted }) s
      let len := 64 + e.pkt.payload.length
      let d := (tget s.llt.deficit k).getD 0
      if len ≤ d then takePacket p e (withLlt (fun t => { t with deficit := tset t.deficit k (d - len) }) s) else pass s
    | none =>
      pass (if (s.xbr.egq.any (fun e => e.port == p && e.q == q)) then s
        else withLlt (fun t => { t with deficit := tset t.deficit k 0 }) s)

/-- When the link can start a frame: its staging queue has room for the largest packet, and a packet is there to be sent (R166). -/
def egressTime (p : Nat) (s : State) : Nat :=
  let room := stgRoom (stgCapacity .ltx) 17 s.now (getStg .ltx p s).pkts
  match (s.xbr.egq.filter (fun e => e.port == p)).map (·.ready) with
  | [] => s.now
  | r :: t => max room (t.foldl min r)

/-- The Lamplighter selects the next packet of a port when the link can start a frame (R342). -/
def egressSelect (p : Nat) (s : State) : State :=
  if lstate p s != 5 && lstate p s != 6 then s
  else
    let s := advanceTo (egressTime p s) s
    match (List.range 4).findSome? (fun q => queueHead p q s) with
    | some e => takePacket p e s
    | none => selectWeighted p 12 s

end Sys2Proof.Machine
end

