-- ==== Sys2Proof/Machine/Qp.lean ====
section
/-! DEFINITION. Queue pairs: packets sent on their behalf, received PSNs, the matching engine's receives, entry to ERROR,
transitions in progress (04: R115 to R130, R523; 05: R144 to R149; 06: R169 to R186). -/

namespace Sys2Proof.Machine

def getQp (q : Nat) (s : State) : Option Qp := tget s.qpc.qps q

def putQp (q : Nat) (x : Qp) (s : State) : State := { s with qpc := { s.qpc with qps := tset s.qpc.qps q x } }

/-- Change a resident context, if the queue pair has one. -/
def modQp (q : Nat) (f : Qp → Qp) (s : State) : State :=
  match getQp q s with
  | some x => putQp q (f x) s
  | none => s

def withMte (f : Mte → Mte) (s : State) : State := { s with mte := f s.mte }

def withRxe (f : Rxe → Rxe) (s : State) : State := { s with rxe := f s.rxe }

/-- Write a context's image through to the context table (R111, R117, R119). -/
def writeImage (q : Nat) (s : State) : State :=
  match getQp q s, qpRange q s with
  | some x, some (f, first) => hostWrite f (imageAddr f q first s) (imageBytes q x) (putQp q { x with changed := false } s)
  | _, _ => s

/-! ### Context fetches (R124 to R126) -/

/-- Wick slots in use: resident contexts and fetches that have a slot. -/
def wickUsed (s : State) : Nat := s.qpc.qps.length + (s.qpc.fetches.filter (fun x => !x.2.waitSlot)).length

/-- Fetches in flight, those that wait to be issued again included; at most 256 (R124). -/
def fetchesOut (s : State) : Nat := (s.qpc.fetches.filter (fun x => !x.2.waitSlot)).length

/-- Is there a Wick slot for one more fetch, and may one more be in flight (R124, R125)? -/
def fetchRoom (s : State) : Bool := wickUsed s < 65536 && fetchesOut s < 256

/-- Record a fetch. -/
def putFetch (q : Nat) (x : Fetch) (s : State) : State := { s with qpc := { s.qpc with fetches := tset s.qpc.fetches q x } }

/-- Issue a fetch's read; one that cannot be issued has failed at once (R469). -/
def issueFetch (q : Nat) (x : Fetch) (s : State) : State :=
  match qpRange q s with
  | none => s
  | some (f, first) =>
    let a := imageAddr f q first s
    let s := evcPulse 200 0 s
    if readable f a 256 s then hostRead f a 256 (putFetch q x s)
    else putFetch q { x with waitRetry := !x.second } s

/-- Begin a context fetch for a queue pair, with a job that it will serve, if any: it joins one in flight, waits while all
65,536 slots are in use or 256 fetches are in flight, or is issued. -/
def startFetch (q : Nat) (job : Option CtxJob) (s : State) : State :=
  match tget s.qpc.fetches q with
  | some x => putFetch q { x with jobs := x.jobs ++ job.toList } s
  | none =>
    let x : Fetch := { waitSlot := false, second := false, waitRetry := false, jobs := job.toList }
    if fetchRoom s then issueFetch q x s else putFetch q { x with waitSlot := true } s

/-- Fetches that wait for a slot are issued as slots become free (R125). -/
def issueWaiting (s : State) : State :=
  s.qpc.fetches.foldl (fun s (q, x) =>
    if x.waitSlot && fetchRoom s then issueFetch q { x with waitSlot := false } s else s) s

/-! ### Packets that answer -/

/-- Send a packet from host port `hp`, whose host data came over a half of its controller: its check code is computed and it joins
the input of one of the port's two host attachments. -/
def transmitOn (half1 : Bool) (hp : Nat) (p : Packet) (s : State) : State :=
  inject (128 + hostAttachment hp p.psn half1 s) (sealCrc p) s

/-- Send a packet that no data on half 1 belongs to. -/
def transmit (hp : Nat) (p : Packet) (s : State) : State := transmitOn false hp p s

/-- The header of an answer to a packet: addressed to its source, class RSP. -/
def answer (p : Packet) : Packet :=
  { Packet.zero with
    cls := 2, dstEp := p.srcEp, srcEp := p.dstEp, dstQpn := p.srcQpn, srcQpn := p.dstQpn, dstIncarn := p.srcIncarn,
    srcIncarn := p.dstIncarn }

/-- NAK codes (R147). -/
def nakReceiverBusy : Nat := 0x80
def nakContextBusy : Nat := 0x81

/-- Refuse a packet with a NAK of a code and DETAIL (R147); SENT_T is its sender's time, as in any packet (R131). -/
def sendNak (p : Packet) (code detail : Nat) (s : State) : State :=
  transmit (epPort p.dstEp)
    { answer p with
      op := 0x11, psn := p.psn, sentT := sentT s
      addr := BitVec.ofNat 64 (p.sentT.toNat * 2 ^ 32)
      opx := BitVec.ofNat 64 (code % 256 * 2 ^ 56 + detail % 256 * 2 ^ 48) } s

/-- The source endpoints heard at a host port within ACTIVE_WIN (R154), at most 65,535. -/
def activeSources (hp : Nat) (s : State) : Nat :=
  let win := us (nz (rf Reg.RXE_ACK 47 40 s))
  min 65535 ((s.rxe.sources.filter (fun (k, t) => k / 2 ^ 17 == hp && s.now ≤ t + win)).length)

/-- The grant for an endpoint, in units of 4 KiB (R154, R146). -/
def grantUnits (hp : Nat) (s : State) : Nat :=
  let budget := nz (rf Reg.RXE_ACK 63 48 s) * 65536
  let n := nz (activeSources hp s)
  min 65535 (min budget (max 4096 (budget / (n * 4096) * 4096)) / 4096)

/-- What an ACK says of a packet that came at `since`. -/
def heard (p : Packet) (since : Nat) : Heard := { echo := p.sentT, incarn := p.srcIncarn, since := since }

/-- Send an ACK of everything received (R146, R149), caused by the packet `h`. The counts since the previous ACK start again.
SRC_INCARN is not listed in R146 and stays zero; SRC_QPN is what R116 asks of an ACK (DEDUCED). -/
def sendAck (q : Nat) (h : Heard) (s : State) : State :=
  match getQp q s with
  | none => s
  | some x =>
    let hp := hostPort (qpFn q s)
    let capable := bit 32 (rdReg Reg.RXE_ACK s)
    let p := { Packet.zero with
      op := 0x10, cls := 2, psn := x.par.rqPsn, dstEp := x.par.peerEp, dstQpn := x.par.peerQpn
      dstIncarn := h.incarn, srcEp := ownEp hp s, srcQpn := BitVec.ofNat 24 q
      payLen := 32
      payload := leBytes 32 (x.bitmap.toNat / 2 * 2)
      addr := BitVec.ofNat 64 (h.echo.toNat * 2 ^ 32 + (s.now - h.since) / 16 % 2 ^ 32)
      opx := BitVec.ofNat 64 ((if capable then min x.marked 65535 * 2 ^ 48 + min x.counted 65535 * 2 ^ 32 else 0) +
        grantUnits hp s * 2 ^ 16 + b2n capable) }
    transmit hp p (putQp q { x with ackPkts := 0, ackFirst := none, marked := 0, counted := 0 } s)

/-! ### Received PSNs (R144, R173) -/

/-- d = (i32)(PSN − ePSN). -/
def psnDist (x : Qp) (psn : BitVec 32) : Int := i32 (psn - x.par.rqPsn)

/-- Has a PSN been received: an old duplicate, or its bit is set? -/
def psnReceived (x : Qp) (psn : BitVec 32) : Bool :=
  let d := psnDist x psn
  d < 0 || (d < 256 && bit d.toNat x.bitmap)

/-- Is a PSN known (R173)? -/
def psnKnown (x : Qp) (psn : BitVec 32) : Bool :=
  let d := psnDist x psn
  d < 0 || (d < 256 && (bit d.toNat x.known || bit d.toNat x.bitmap))

/-- The PSNs of a message of `len` bytes (R135, R136). -/
def npsns (len : Nat) : Nat := max 1 (ceilDiv len 4096)

/-- Does a PSN lie in the span of a SEND message of which a packet has arrived and that is not delivered yet (R173)? -/
def inSendSpan (x : Qp) (psn : BitVec 32) : Bool :=
  x.recs.any (fun r => r.op == 0x01 && (psn - r.psn0).toNat < npsns r.msgLen.toNat)

/-- ePSN passes every consecutive set bit, and both bitmaps move with it (R144, R173); the PSN that comes into the window is known
if it lies in the span of a SEND. -/
def advanceEpsn : Nat → Qp → Qp
  | 0, x => x
  | n + 1, x =>
    if bit 0 x.bitmap then
      advanceEpsn n { x with
        par := { x.par with rqPsn := x.par.rqPsn + 1 }
        bitmap := x.bitmap >>> 1
        known := setBits 255 255 (b2n (inSendSpan x (x.par.rqPsn + 256))) (x.known >>> 1) }
    else x

/-- Mark a PSN received (R140, R144). -/
def markPsn (psn : BitVec 32) (x : Qp) : Qp :=
  let d := psnDist x psn
  if 0 ≤ d && d < 256 then
    advanceEpsn 256 { x with bitmap := setBits d.toNat d.toNat 1 x.bitmap, known := setBits d.toNat d.toNat 1 x.known }
  else x

/-- Mark `n` consecutive PSNs received. -/
def markRun (psn : BitVec 32) : Nat → Qp → Qp
  | 0, x => x
  | n + 1, x => markRun (psn + 1) n (markPsn psn x)

/-- Make the span of a SEND message known (R173). -/
def knowSpan (psn0 : BitVec 32) : Nat → Qp → Qp
  | 0, x => x
  | n + 1, x =>
    let d := psnDist x psn0
    knowSpan (psn0 + 1) n (if 0 ≤ d && d < 256 then { x with known := setBits d.toNat d.toNat 1 x.known } else x)

/-! ### Receives: notices, release of what they hold -/

/-- Finish a receive with a RECV_DONE notice in its reserved slot (R177). -/
def recvNotice (r : Recv) (src : BitVec 17) (immV : Bool) (imm : BitVec 32) (bytes : Nat) (st dt : BitVec 8)
    (kind : Nat) : Notice :=
  { addr := r.laddr, imm := if immV then imm else 0, key := r.user, src := src, bytes := bytes, detail := dt,
    status := st, kind := kind, qpn := r.qpn }

/-- A receive that falls due while its function is frozen waits for its flush after the freeze, in the slot that it reserved (R524). -/
def spend (r : Recv) (s : State) : State := withMte (fun m => { m with posted := m.posted ++ [{ r with spent := true }] }) s

/-- RECV_FLUSHED of a receive with the bytes already written; on a fenced ring the slot is released without a notice
(R129, R186). While its function is frozen the receive waits for the flush after the freeze (R524). -/
def flushRecv (r : Recv) (src : BitVec 17) (bytes : Nat) (s : State) : State :=
  if (getArv r.fn r.arv s).any (·.fenced) then arvGive r.fn r.arv .recv s
  else if frozen r.fn s then spend r s
  else writeNotice r.fn r.arv .recv (recvNotice r src false 0 bytes St.flushed 0 4) s

/-- Discard the unexpected messages of a queue pair: pool slots and pieces are released (R128); a receive already bound to
one finishes with RECV_FLUSHED (R186). -/
def dropUnexpected (q : Nat) (s : State) : State :=
  let mine := s.mte.unexp.filter (fun u => u.qpn == q)
  let s := withMte (fun m => { m with unexp := m.unexp.filter (fun u => u.qpn != q) }) s
  mine.foldl (fun s u =>
    match u.bound with
    | some r => flushRecv r u.src 0 s
    | none => arvGive u.fn u.arv .pool s) s

/-- Was the unexpected message's receive posted by a queue pair? -/
def unexpPostedBy (q : Nat) (u : Unexp) : Bool := u.bound.any (fun r => r.qpn == q)

/-- A message whose receive has been flushed: its later packets are marked and counted without placement (R186). -/
def flushedBound (u : Unexp) (r : Recv) : BoundRecv :=
  { recv := r, qpn := u.qpn, psn0 := u.psn0, msgLen := u.msgLen, src := u.src, immV := u.immV, imm := u.imm, written := 0,
    seen := [], flushed := true, pulls := 0, skey := u.skey, sva := u.sva }

/-- Bound receives when a queue pair stops (R186): those whose message arrives on it finish with RECV_FLUSHED; those that
it posted and whose message arrives on another finish at once, and the message goes on without placement. -/
def stopBound (q : Nat) (s : State) : State :=
  let mine := s.mte.bound.filter (fun b => b.qpn == q)
  let rest := s.mte.bound.filter (fun b => b.qpn != q)
  let posted := rest.filter (fun b => b.recv.qpn == q && !b.flushed)
  let copies := s.mte.unexp.filter (fun u => u.qpn != q && unexpPostedBy q u)
  let s := withMte (fun m => { m with
    bound := rest.map (fun b => if b.recv.qpn == q then { b with flushed := true } else b) ++
      copies.filterMap (fun u => if u.complete then none else u.bound.map (flushedBound u))
    unexp := m.unexp.filter (fun u => u.qpn == q || !unexpPostedBy q u) }) s
  let s := mine.foldl (fun s b => if b.flushed then s else flushRecv b.recv b.src b.written s) s
  let s := posted.foldl (fun s b => flushRecv b.recv b.src b.written s) s
  copies.foldl (fun s u => match u.bound with
    | some r => flushRecv r u.src 0 s
    | none => s) s

/-! ### Destination entries and charges (R153) -/

/-- Key of a destination entry. -/
def destKey (hp : Nat) (ep : BitVec 17) : Nat := hp * 2 ^ 17 + ep.toNat

def getDest (hp : Nat) (ep : BitVec 17) (s : State) : Option Dest := tget s.txe.dests (destKey hp ep)

def putDest (hp : Nat) (ep : BitVec 17) (d : Dest) (s : State) : State :=
  { s with txe := { s.txe with dests := tset s.txe.dests (destKey hp ep) d } }

/-- An entry with nothing outstanding is freed once its rate is back at RATE_MAX (R153). -/
def tidyDest (hp : Nat) (ep : BitVec 17) (s : State) : State :=
  match getDest hp ep s with
  | some d =>
    if d.outstanding == 0 && d.rateMax ≤ d.rate then
      { s with txe := { s.txe with dests := tdel s.txe.dests (destKey hp ep) } }
    else s
  | none => s

/-- Release a charge. -/
def uncharge (hp : Nat) (ep : BitVec 17) (n : Nat) (s : State) : State :=
  match getDest hp ep s with
  | some d => tidyDest hp ep (putDest hp ep { d with outstanding := d.outstanding - n } s)
  | none => s

/-- The charge that a message's packets still hold. -/
def msgCharge (m : TxMsg) : Nat := (m.pkts.map (·.charge)).foldl (· + ·) 0

/-! ### Entry to ERROR (R126 to R128) -/

/-- Finish a message's entry, if it has one. -/
def finishMsg (m : TxMsg) (st dt : BitVec 8) (s : State) : State :=
  match m.ref with
  | some ref => finishEntry ref st dt s
  | none => s

/-- Has a message's entry finished already, FROZEN or FLUSHED with its ring? Its remaining PSNs are not sent again (R148), while the
answers to what was sent still count (R440). -/
def msgDead (m : TxMsg) (s : State) : Bool := m.ref.any (fun r => !refLive r s)

/-- A waiting QP_MODIFY or QP_DESTROY finishes with a status. -/
def endTrans (q : Nat) (st : BitVec 8) (s : State) : State :=
  match getQp q s with
  | some x =>
    match x.trans with
    | some t => finishEntry t.ref st 0 (putQp q { x with trans := none } s)
    | none => s
  | none => s

/-- The entries of the atomic result table of a queue pair are freed (R380). -/
def dropResults (q : Nat) (s : State) : State :=
  withRxe (fun r => { r with results := r.results.filter (fun e => e.qpn != q) }) s

/-- Results that the received PSN frees: those at least 256 behind it (R380). -/
def ageResults (q : Nat) (psn : BitVec 32) (s : State) : State :=
  withRxe (fun r => { r with results := r.results.filter (fun e =>
    !(e.qpn == q && 256 ≤ i32 (psn - e.psn))) }) s

/-- The entries that name a queue pair and stand at the issue point of their rings, their check or table read in progress. -/
def issuingOf (q : Nat) (s : State) : List EntryRef :=
  s.cmp.rings.filterMap (fun (k, g) =>
    if !g.issuing then none else
    (firstUnissued g.entries).bind (fun i => (g.entries[i]?).bind (fun e =>
      if opNamesQp (eOpcode e.raw) && eQpn e.raw == q then
        some ⟨k / 4096, k % 4096, g.uid, g.head + BitVec.ofNat 32 i⟩ else none)))

/-- Does an entry that names a queue pair stand at a ring's issue point? -/
def beingIssued (q : Nat) (s : State) : Bool := !(issuingOf q s).isEmpty

/-- Every entry of a queue pair at an issue point finishes FLUSHED (R69): what it was checked for is given up. -/
def flushIssuing (q : Nat) (s : State) : State :=
  (issuingOf q s).foldl (fun s ref => issueFinish ref St.flushed 0 (dropIssue ref.fn ref.ring s)) s

/-- No message of a queue pair counts as noticed any more (R102). -/
def forgetNoticed (q : Nat) (s : State) : State := { s with qpc := { s.qpc with noticed := tdel s.qpc.noticed q } }

/-- A queue pair has no placement write on half 1 any more, and no error waits for it: it has left its old life behind. -/
def forgetHalf1 (q : Nat) (s : State) : State :=
  { s with qpc := { s.qpc with half1 := s.qpc.half1.filter (· != q), dueErr := tdel s.qpc.dueErr q } }

/-- What every stop of a queue pair's transport does (R128, R130): unfinished entries finish FLUSHED, charges are
released, partly placed messages and unexpected messages are abandoned, bound receives finish. -/
def abandonQp (q : Nat) (s : State) : State :=
  match getQp q s with
  | none => s
  | some x =>
    let hp := hostPort (qpFn q s)
    let s := putQp q { x with
      msgs := [], built := none, building := none, retries := 0, busy := 0, backoff := [], recs := [], readAt := []
      ackPkts := 0, ackFirst := none, marked := 0, counted := 0 } s
    let s := match x.building with
      | some (_, n) => drained n s
      | none => s
    let s := x.msgs.foldl (fun s m => uncharge hp x.par.peerEp (msgCharge m) (finishMsg m St.flushed 0 s)) s
    let s := x.recs.foldl (fun s r =>
      if r.slot && r.op != 0x01 then arvGive (qpFn q s) x.par.arvId.toNat .pool s else s) s
    flushIssuing q (dropResults q (dropUnexpected q (stopBound q (forgetNoticed q s))))

/-- A queue pair enters ERROR with a cause and DETAIL (R127, R128). One in RESET stays there and one in ERROR keeps its
cause. A waiting QP_MODIFY finishes with QP_STATE (R523). One that is not resident, as the posting queue pair of a receive may be
(R123), is fetched and enters ERROR before anything else of it is processed (DEDUCED, log entry 240). -/
def enterError (q : Nat) (cause detail : BitVec 8) (s : State) : State :=
  match getQp q s with
  | some x =>
    if x.par.state == .init || x.par.state == .active || x.par.state == .quiesced then
      let s := putQp q { x with par := { x.par with state := .error, errCause := cause, errDetail := detail } } s
      writeImage q (endTrans q St.qpState (abandonQp q s))
    else s
  | none =>
    if (tget s.qpc.bound q).isNone then s
    else
      let due := (tget s.qpc.dueErr q).getD (cause, detail)
      startFetch q none { s with qpc := { s.qpc with dueErr := tset s.qpc.dueErr q due } }

/-- A message fails with a class-Q status: its entry finishes with it and the queue pair enters ERROR (R69). A pull's
receive finishes with RECV_DONE and the status (R186). -/
def failMsg (q : Nat) (m : TxMsg) (st dt : BitVec 8) (s : State) : State :=
  let s := finishMsg m st dt s
  let s := if m.kind == .pull then
      match s.mte.bound.find? (fun b => b.recv.id == m.recv) with
      | some b =>
        let s := withMte (fun x => { x with bound := x.bound.filter (fun c => c.recv.id != m.recv) }) s
        if b.flushed then s
        else writeNotice b.recv.fn b.recv.arv .recv
          (recvNotice b.recv b.src b.immV b.imm b.written st dt 1) s
      | none => s
    else s
  enterError q st dt s

/-! ### The flush of R129 and transitions in progress (R119, R523) -/

/-- Finish every posted receive of a queue pair with RECV_FLUSHED (R129). -/
def flushPosted (q : Nat) (s : State) : State :=
  let mine := s.mte.posted.filter (fun r => r.qpn == q)
  let s := withMte (fun m => { m with posted := m.posted.filter (fun r => r.qpn != q) }) s
  mine.foldl (fun s r => flushRecv r 0 0 s) s

/-- Does an access under check belong to a packet of a queue pair? -/
def accessOf (q : Nat) (w : Waiting) : Bool :=
  match w.access.purpose with
  | .txData n _ => n == q
  | .rxKeyed p _ => p.dstQpn.toNat == q
  | .rxSend p _ _ => p.dstQpn.toNat == q
  | .uxCopy n _ _ => n == q
  | .atomicRecord p => p.dstQpn.toNat == q
  | _ => false

/-- Is an update of the atomic unit one of a packet of a queue pair? -/
def atomOf (q : Nat) (j : AtomJob) : Bool :=
  match j.kind with
  | .atomic n _ => n == q
  | .counterAdd n _ _ => n == q
  | _ => false

/-- Is a packet of a queue pair in the RXE, its accesses in the XLT, or in the miss buffer? -/
def rxBusy (q : Nat) (s : State) : Bool :=
  s.rxe.placing.any (fun p => p.qpn == q) || s.rxe.resps.any (fun r => r.qpn == q) || s.rxe.atoms.any (atomOf q) ||
  s.qpc.missBuf.any (fun p => p.1.dstQpn.toNat == q) || s.xlt.waiting.any (accessOf q)

/-- Is nothing of a queue pair left in the RXE, the XLT or the miss buffer, and no entry of it at an issue point (R129)? -/
def rxQuiet (q : Nat) (s : State) : Bool := !rxBusy q s && !beingIssued q s

/-- The parameters of a queue pair that enters RESET: INCARN advances and ERROR's record clears (R119). -/
def resetParam (p : QpParam) : QpParam :=
  { p with state := .reset, incarn := p.incarn + 1, errCause := 0, errDetail := 0 }

/-- Return INCARN in the block of a QP_MODIFY: bytes 4 and 5 (R118). -/
def returnIncarn (f : Nat) (blk : BitVec 64) (p : QpParam) (s : State) : State :=
  hostWrite f (blk + 4) (toBytes 2 p.incarn) s

/-- The FREE image (R121): STATE FREE, QPN and INCARN, zero elsewhere but for the CRC of R113 (DESIGN CHOICE: R121 has those bytes
zero, R113 has the CRC in every image). -/
def freeImage (q : Nat) (incarn : BitVec 16) : List Byte :=
  imageBytes q { Qp.idle { QpParam.zero with incarn := incarn } with hollow := true }

/-- A queue pair is gone: its FREE image is written and its slot and bound counts are released (R121). -/
def destroyQp (q : Nat) (s : State) : State :=
  match getQp q s, qpRange q s with
  | some x, some (f, first) =>
    let s := hostWrite f (imageAddr f q first s) (freeImage q x.par.incarn) s
    forgetHalf1 q (forgetNoticed q { s with qpc := { s.qpc with qps := tdel s.qpc.qps q, bound := tdel s.qpc.bound q } })
  | _, _ => s

/-- Does a queue pair have a pull in flight (R182), or a release that has not gone to the old peer yet (R183)? -/
def pullsInFlight (x : Qp) : Bool :=
  x.msgs.any (fun m => m.kind == .pull || (m.kind == .release && m.sentPsns < m.npsn))

/-- Does a release of a queue pair wait for the flushing read of its RECV_DONE (R183, R467)? -/
def releaseDue (q : Nat) (s : State) : Bool :=
  s.xlt.flushes.any (fun x => match x.2 with
    | .notice _ _ _ _ (some b) true => b.qpn == q
    | _ => false)

/-- Are initiator entries of a queue pair unfinished (R119)? -/
def initiatorBusy (x : Qp) (s : State) : Bool := x.msgs.any (fun m => m.ref.isSome && !msgDead m s)

/-- A transition in progress finishes once its condition holds (R119, R182, R523). The flush of a frozen function's queue pair waits for
the end of the freeze (R524), a hollow context's destruction for its image (R130). -/
def transCheck (q : Nat) (s : State) : State :=
  match getQp q s with
  | none => s
  | some x =>
    match x.trans with
    | none => s
    | some t =>
      let f := qpFn q s
      match t.kind with
      | .quiesce =>
        if initiatorBusy x s then s
        else
          let p := { x.par with state := .quiesced }
          finishEntry t.ref St.success 0 (returnIncarn f t.blk p (writeImage q (putQp q { x with par := p, trans := none } s)))
      | .toActive _ _ _ =>
        if pullsInFlight x || releaseDue q s then s
        else
          let p := { t.par with sqPsn := x.par.sqPsn, rqPsn := x.par.rqPsn }
          finishEntry t.ref St.success 0 (returnIncarn f t.blk p (writeImage q (putQp q { x with par := p, trans := none } s)))
      | .toReset =>
        if !rxQuiet q s || frozen f s then s
        else
          let s := flushPosted q s
          let p := resetParam x.par
          finishEntry t.ref St.success 0
            (returnIncarn f t.blk p (writeImage q (putQp q { Qp.idle p with used := true } (forgetHalf1 q s))))
      | .destroy =>
        if x.hollow || !rxQuiet q s || frozen f s then s else finishEntry t.ref St.success 0 (destroyQp q (flushPosted q s))

end Sys2Proof.Machine
end

