-- ==== Sys2Proof/Machine/Match.lean ====
section
/-! DEFINITION. Matching (06: R169 to R186): match lists, eligibility, unexpected messages, binding, pulls and releases;
and delivery by count (05: R140 to R142, R149). -/

namespace Sys2Proof.Machine

/-! ### Messages of the transmit side -/

/-- A message with nothing of its kind filled in. -/
def TxMsg.blank (kind : TxKind) (ref : Option EntryRef) : TxMsg :=
  { kind := kind, ref := ref, recv := 0, msn := 0, psn0 := 0, npsn := 1, len := 0, raddr := 0, rkey := 0, opx := 0,
    parts := [], inline := [], immV := false, imm := 0, notify := false, sentPsns := 0, placed := 0, pkts := [], lastAt := 0 }

/-- Queue a message on a queue pair: it takes the next MSN and the next PSNs (R135, R144, R145). -/
def queueMsg (q : Nat) (m : TxMsg) (s : State) : State :=
  modQp q (fun x => { x with
    msgs := x.msgs ++ [{ m with msn := x.msn, psn0 := x.par.sqPsn }]
    msn := x.msn + 1
    par := { x.par with sqPsn := x.par.sqPsn + BitVec.ofNat 32 m.npsn } }) s

/-! ### Match lists (R169 to R171) -/

/-- Does a receive match a SEND with match bits `m` from endpoint `src` (R170)? -/
def recvMatches (r : Recv) (m : BitVec 64) (src : BitVec 17) (s : State) : Bool :=
  (m ^^^ r.matchBits) &&& ~~~r.ignore == 0 && (r.source == src || r.source == ownEp (hostPort r.fn) s)

/-- The receives of a match list, in posting order. -/
def matchList (f arv : Nat) (pd : BitVec 16) (s : State) : List Recv :=
  s.mte.posted.filter (fun r => !r.spent && r.fn == f && r.arv == arv && r.pd == pd)

/-- The earliest posted receive of a match list that matches (R171). -/
def searchPosted (f arv : Nat) (pd : BitVec 16) (m : BitVec 64) (src : BitVec 17) (s : State) : Option Recv :=
  (matchList f arv pd s).find? (fun r => recvMatches r m src s)

/-- Is a receive a wildcard receive (R171)? -/
def wildcard (r : Recv) (s : State) : Bool := r.ignore != 0 || r.source == ownEp (hostPort r.fn) s

/-- The entries of a list that a search examines: up to the first hit (R187). -/
def examined {α : Type} (hit : α → Bool) (l : List α) : Nat := min l.length ((l.takeWhile (fun a => !hit a)).length + 1)

/-- The match operations of a search that examines entries of a wildcard or unexpected list: one, and one more for each further 16
(R187). -/
def matchOps (n : Nat) : Nat := max 1 ((n + 15) / 16)

/-- A SEND's search of its match list is counted (R187): it examines the wildcard receives posted before the receive that it takes. -/
def countSearch (f arv : Nat) (pd : BitVec 16) (m : BitVec 64) (src : BitVec 17) (s : State) : State :=
  let l := matchList f arv pd s
  let n := examined (fun r => recvMatches r m src s) l
  evcPulses 210 0 (matchOps ((l.take n).filter (fun r => wildcard r s)).length) s

/-- The eligible unexpected messages of a receive's match list. -/
def unexpList (r : Recv) (s : State) : List Unexp :=
  s.mte.unexp.filter (fun u => u.eligible && u.bound.isNone && u.fn == r.fn && u.arv == r.arv && u.pd == r.pd)

/-- A receive's search is counted (R187): an exact one looks in one bin, a wildcard one through the unexpected list. -/
def countRecvSearch (r : Recv) (s : State) : State :=
  let l := unexpList r s
  let first (u : Unexp) : Bool := recvMatches r u.m u.src s &&
    !l.any (fun v => recvMatches r v.m v.src s && v.order < u.order)
  let before := match l.find? first with
    | some u => (l.filter (fun v => v.order ≤ u.order)).length
    | none => l.length
  evcPulses 210 0 (matchOps (if wildcard r s then before else 0)) s

/-- The eligible unexpected message that a receive takes: the one that became eligible first (R171). -/
def searchUnexp (r : Recv) (s : State) : Option Unexp :=
  ((unexpList r s).filter (fun u => recvMatches r u.m u.src s)).foldl
    (fun best u => match best with
      | none => some u
      | some b => if u.order < b.order then some u else some b) none

/-- May the SEND message with first PSN `psn0` be processed (R174): every PSN from ePSN up to it known, and no pending
message of the queue pair before it? -/
def sendEligible (q : Nat) (x : Qp) (psn0 : BitVec 32) (s : State) : Bool :=
  let d := psnDist x psn0
  (List.range d.toNat).all (fun k => psnKnown x (x.par.rqPsn + BitVec.ofNat 32 k)) &&
    !s.mte.unexp.any (fun u => u.qpn == q && !u.eligible && psnDist x u.psn0 < d)

/-! ### Notices that follow placement writes (R141, R467) -/

/-- The release that follows the RECV_DONE of a pulled receive (R183); none goes out on a queue pair that no longer sends. -/
def queueRelease (b : BoundRecv) (s : State) : State :=
  if (getQp b.qpn s).any (fun x => x.par.state == .active || x.par.state == .quiesced) then
    queueMsg b.qpn { TxMsg.blank .release none with raddr := b.sva + BitVec.ofNat 64 b.msgLen, rkey := b.skey } s
  else s

/-- A receive has been finished: its release, if one follows. -/
def endRelease (recv : Option BoundRecv) (release : Bool) (s : State) : State :=
  match recv with
  | some b => if release then queueRelease b s else s
  | none => s

/-- Write a notice of a delivered message; when a placement write went on half 1, a flushing read there comes first, and the notice,
with the receive that it finishes and the release that follows it, waits for that. -/
def deliverNotice (half1 : Bool) (f arv : Nat) (b : Budget) (n : Notice) (recv : Option BoundRecv) (release : Bool) (s : State) : State :=
  if half1 then
    let link := fnLink f + 1
    let a := match tget s.xlt.dirty link with
      | some (_, a) => a
      | none => 0
    let s := flushRead link f a s
    { s with xlt := { s.xlt with flushes := s.xlt.flushes ++ [(link, .notice f arv b n recv release)] } }
  else endRelease recv release (writeNotice f arv b n s)

/-! ### Binding, pulls and copies -/

/-- STATUS of a receive by message length and buffer length (R177). -/
def lenStatus (msgLen blen : Nat) : BitVec 8 := if blen < msgLen then St.truncated else St.success

/-- RECV_DONE of a bound receive whose message has been delivered, and the binding ends (R177); with `release`, the release of a pulled
receive follows it (R183). One whose receive has been flushed has no RECV_DONE left (R186). -/
def recvDone (b : BoundRecv) (half1 release : Bool) (s : State) : State :=
  let s := withMte (fun m => { m with bound := m.bound.filter (fun c => c.recv.id != b.recv.id) }) s
  if b.flushed then endRelease (some b) release s
  else deliverNotice half1 b.recv.fn b.recv.arv .recv
    (recvNotice b.recv b.src b.immV b.imm (min b.msgLen b.recv.len) (lenStatus b.msgLen b.recv.len) 0 1) (some b) release s

/-- Has a placement write of a queue pair gone on half 1? A notice that follows its placement writes then needs a flushing read
(R175, R467). -/
def onHalf1 (q : Nat) (s : State) : Bool := s.qpc.half1.contains q

/-- A pulled receive is complete: RECV_DONE, then the release (R182, R183). -/
def pulledDone (b : BoundRecv) (s : State) : State := recvDone b (onHalf1 b.qpn s) true s

/-- The byte ranges that a pull reads into (R182): the receive's range cut at min(LEN, BLEN), one per non-empty fragment; of length 0,
one for a receive that has no fragments. -/
def pullParts (b : BoundRecv) : List Part :=
  let n := min b.msgLen b.recv.len
  if n == 0 then if b.recv.indirect then [] else b.recv.parts.take 1 |>.map (fun p => { p with len := 0 }) else sliceParts b.recv.parts 0 n

/-- The offset within the message of each part. -/
def withOffsets : Nat → List Part → List (Nat × Part)
  | _, [] => []
  | o, p :: t => (o, p) :: withOffsets (o + p.len) t

/-- Queue the READs of a pull on its queue pair, whose context is resident. -/
def queuePull (b : BoundRecv) (s : State) : State :=
  let ps := withOffsets 0 (pullParts b)
  if ps.isEmpty then pulledDone b s
  else ps.foldl (fun s (o, p) =>
    queueMsg b.qpn { TxMsg.blank .pull none with
      recv := b.recv.id, len := p.len, npsn := npsns p.len
      raddr := b.sva + BitVec.ofNat 64 o, rkey := b.skey, parts := [p] } s) s

/-- Bind an announcement and issue its pull (R182). A queue pair that has left the Wick cache is fetched first (R123). -/
def startPull (b : BoundRecv) (s : State) : State :=
  let b := { b with pulls := (pullParts b).length }
  let s := withMte (fun m => { m with bound := m.bound ++ [b] }) s
  match getQp b.qpn s with
  | some _ => queuePull b s
  | none => startFetch b.qpn (some (.pull b.recv.id)) s

/-- The pool address of byte 0 of a piece (R178, R188). -/
def pieceAddr (f piece : Nat) (s : State) : BitVec 64 :=
  BitVec.ofNat 64 (ff f Reg.MTE_UXPOOL 63 12 s * 4096 + 4096 * piece)

/-- A receive's copy fails on a status: RECV_DONE with it, the message's entry goes, and the posting queue pair enters
ERROR (R103, R179). -/
def copyFailed (u : Unexp) (r : Recv) (st dt : BitVec 8) (s : State) : State :=
  let s := withMte (fun m => { m with unexp := m.unexp.filter (fun v => !(v.qpn == u.qpn && v.psn0 == u.psn0)) }) s
  let s := writeNotice r.fn r.arv .recv (recvNotice r u.src u.immV u.imm 0 st dt 1) s
  enterError r.qpn st dt s

/-- The reads of the pieces that hold the first `n` bytes: address and length of each. -/
def pieceReads (f : Nat) (s : State) : List Nat → Nat → List (BitVec 64 × Nat)
  | [], _ => []
  | p :: t, n => if n == 0 then [] else (pieceAddr f p s, min n 4096) :: pieceReads f s t (n - min n 4096)

/-- The bound receive of a message. -/
def Unexp.boundRecv (u : Unexp) (r : Recv) : BoundRecv :=
  { recv := r, qpn := u.qpn, psn0 := u.psn0, msgLen := u.msgLen, src := u.src, immV := u.immV, imm := u.imm, written := 0,
    seen := [], flushed := false, pulls := 0, skey := u.skey, sva := u.sva }

/-- Begin the copy of a complete unexpected message into its receive (R179): the pieces are read; with nothing to copy the
receive is done at once. -/
def startCopy (u : Unexp) (r : Recv) (s : State) : State :=
  let n := min u.msgLen r.len
  if n == 0 then
    let s := withMte (fun m => { m with unexp := m.unexp.filter (fun v => !(v.qpn == u.qpn && v.psn0 == u.psn0)) }) s
    deliverNotice (onHalf1 u.qpn s) r.fn r.arv .recv
      (recvNotice r u.src u.immV u.imm 0 (lenStatus u.msgLen r.len) 0 1) (some (u.boundRecv r)) false s
  else
    let reads := pieceReads u.fn s u.pieces n
    if reads.all (fun (a, k) => readable u.fn a k s) then
      reads.foldl (fun s (a, k) => hostRead u.fn a k s) s
    else copyFailed u r St.localPcie 0 s

/-- Bind a receive to an unexpected message (R179, R182): its pool slot is released at the same moment (R62). -/
def bindUnexp (u : Unexp) (r : Recv) (s : State) : State :=
  let s := arvGive u.fn u.arv .pool s
  if u.announce then
    startPull (u.boundRecv r)
      (withMte (fun m => { m with unexp := m.unexp.filter (fun v => !(v.qpn == u.qpn && v.psn0 == u.psn0)) }) s)
  else
    let u' := { u with bound := some r, eligible := true }
    let s := withMte (fun m => { m with
      unexp := m.unexp.map (fun v => if v.qpn == u.qpn && v.psn0 == u.psn0 then u' else v) }) s
    if u.complete then startCopy u' r s else s

/-- Take a receive off the posted list. -/
def unpost (r : Recv) (s : State) : State :=
  withMte (fun m => { m with posted := m.posted.filter (fun c => c.id != r.id) }) s

/-- Process a pending message that has become eligible (R174): bind it to the earliest matching receive, or keep it as an
eligible unexpected message. -/
def processPending (u : Unexp) (s : State) : State :=
  let s := countSearch u.fn u.arv u.pd u.m u.src s
  match searchPosted u.fn u.arv u.pd u.m u.src s with
  | some r => bindUnexp u r (unpost r s)
  | none => withMte (fun m => { m with
      unexp := m.unexp.map (fun v =>
        if v.qpn == u.qpn && v.psn0 == u.psn0 then { v with eligible := true, order := m.nextOrder } else v)
      nextOrder := m.nextOrder + 1 }) s

/-- Process every pending message of a queue pair that has become eligible, in order (R174). -/
def processEligible (q : Nat) : Nat → State → State
  | 0, s => s
  | n + 1, s =>
    match getQp q s with
    | none => s
    | some x =>
      match s.mte.unexp.find? (fun u => u.qpn == q && !u.eligible && sendEligible q x u.psn0 s) with
      | some u => processEligible q n (processPending u s)
      | none => s

/-- Run R174 for a queue pair: each round processes one pending message. A fenced MTE processes none until it is back (R394). -/
def processAll (q : Nat) (s : State) : State :=
  if unitFenced 133 s then s else
  processEligible q ((s.mte.unexp.filter (fun u => u.qpn == q && !u.eligible)).length) s

/-! ### Unexpected messages (R178, R185) -/

/-- Pieces of a function's pool that are reserved. -/
def usedPieces (f : Nat) (s : State) : List Nat := (s.mte.unexp.filter (fun u => u.fn == f)).flatMap (·.pieces)

/-- The lowest free pieces of a pool of `size` (DESIGN CHOICE: R178 does not say which): `k` of them, or `none`. -/
def takePieces (used : List Nat) (size : Nat) : Nat → Nat → Nat → Option (List Nat)
  | _, _, 0 => some []
  | 0, _, _ + 1 => none
  | fuel + 1, lo, k + 1 =>
    if size ≤ lo then none
    else if used.contains lo then takePieces used size fuel (lo + 1) (k + 1)
    else (takePieces used size fuel (lo + 1) k).map (lo :: ·)

/-- Is a function's unexpected pool in use (R189)? -/
def poolActive (f : Nat) (s : State) : Bool := bit 1 (rdFn f Reg.MTE_UXCTRL s)

/-- Reserve, together, what the first packet of an unexpected or pending SEND needs (R178): an unexpected entry, a pool
slot, and for an eager message the pieces. `none`: RECEIVER_BUSY, and nothing is reserved. -/
def admitUnexp (u : Unexp) (s : State) : Option State :=
  let quota := rf (Reg.MTE_QUOTA + 8 * u.fn) 17 0 s
  let mine := (s.mte.unexp.filter (fun v => v.fn == u.fn)).length
  if 131072 ≤ s.mte.unexp.length || (quota != 0 && quota ≤ mine) then none
  else
    let pieces :=
      if u.announce then some []
      else if !poolActive u.fn s || rf Reg.MTE_CFG 39 32 s == 0 || rf Reg.MTE_CFG 39 32 s * 4096 < u.msgLen then none
      else
        let used := usedPieces u.fn s
        takePieces used (2 ^ ff u.fn Reg.MTE_UXPOOL 4 0 s) (used.length + npsns u.msgLen) 0 (npsns u.msgLen)
    match pieces with
    | none => none
    | some ps =>
      match arvTake u.fn u.arv .pool s with
      | none => none
      | some s => some (withMte (fun m => { m with
          unexp := m.unexp ++ [{ u with pieces := ps, order := m.nextOrder }]
          nextOrder := m.nextOrder + 1 }) s)

/-! ### Counting and delivery (R140 to R142, R149) -/

/-- First PSN of the message of a SEND or WRITE packet (R135): its own PSN less its offset in pieces. -/
def firstPsn (p : Packet) (off : Nat) : BitVec 32 := p.psn - BitVec.ofNat 32 (off / 4096)

/-- The offset of a packet within its message (R134). -/
def pktOffset (p : Packet) : Nat := if p.op == 0x01 then bits 31 0 p.addr else bits 31 0 p.opx

/-- Note a received packet that calls for an ACK, and send one if R149 asks for it. -/
def ackCount (q : Nat) (p : Packet) (since : Nat) (delivered : Bool) (s : State) : State :=
  let s := modQp q (fun x => { x with ackPkts := x.ackPkts + 1, ackFirst := some (x.ackFirst.getD (heard p since)) }) s
  let force := match getQp q s with
    | some x => nz (rf Reg.RXE_ACK 7 0 s) ≤ x.ackPkts
    | none => false
  if delivered || p.last || p.ce || force then sendAck q (heard p since) s else s

/-- The notice of a delivered NOTIFY write or counter add (R58, R141, R216). -/
def writeNoticeOf (q : Nat) (p : Packet) (bytes off : Nat) : Notice :=
  { addr := p.addr - BitVec.ofNat 64 off, imm := if p.immV then p.imm else 0, key := p.key, src := p.srcEp,
    bytes := bytes, detail := 0, status := St.success, kind := 2, qpn := q }

/-- A delivered SEND (R141, R177, R179): a bound receive is done; a message in the pool is complete and is copied if it is
bound. -/
def deliverSend (q : Nat) (psn0 : BitVec 32) (half1 : Bool) (s : State) : State :=
  match s.mte.bound.find? (fun b => b.qpn == q && b.psn0 == psn0) with
  | some b => recvDone b half1 false s
  | none =>
    match s.mte.unexp.find? (fun u => u.qpn == q && u.psn0 == psn0) with
    | some u =>
      let u := { u with complete := true }
      let s := withMte (fun m => { m with
        unexp := m.unexp.map (fun v => if v.qpn == q && v.psn0 == psn0 then u else v) }) s
      match u.bound with
      | some r => startCopy u r s
      | none => s
    | none => s

/-- Note that a placement write of a queue pair went on half 1 of its controller (R467). -/
def markHalf1 (q : Nat) (half1 : Bool) (s : State) : State :=
  if half1 && !s.qpc.half1.contains q then { s with qpc := { s.qpc with half1 := q :: s.qpc.half1 } } else s

/-- Note that a packet of a message went on half 1. -/
def noteHalf1 (q : Nat) (msn : BitVec 16) (half1 : Bool) (s : State) : State :=
  if half1 then modQp q (fun x => { x with
    recs := x.recs.map (fun r => if r.msn == msn then { r with half1 := true } else r) }) (markHalf1 q half1 s) else s

/-- A packet of a SEND or WRITE has been placed (R140): its PSN is marked received and its bytes are counted, together;
the message is delivered when its count reaches MSG_LEN (R141). A PSN received already is only acknowledged. Nothing is
marked for a queue pair that no longer accepts packets, and nothing is delivered to a frozen function: the packet is refused as R440
states (R524). Answers whether the packet was counted. -/
def countPacket (q : Nat) (p : Packet) (since : Nat) (half1 : Bool) (s : State) : State × Bool :=
  match getQp q s with
  | none => (s, false)
  | some x =>
    if !(x.par.state == .active || x.par.state == .quiesced) then (s, false)
    else if psnReceived x p.psn then (sendAck q (heard p since) s, false)
    else if frozen (qpFn q s) s then (sendNak p nakContextBusy 0 s, false)
    else
      let f := qpFn q s
      let off := pktOffset p
      let psn0 := firstPsn p off
      let s := ageResults q p.psn (putQp q (markPsn p.psn x) s)
      let s := noteHalf1 q p.msn half1 s
      let total := p.msgLen.toNat
      let rec? := x.recs.find? (fun r => r.msn == p.msn)
      let placed := (match rec? with
        | some r => r.placed
        | none => 0) + p.payload.length
      let multi := rec?.isSome
      let whole := !multi || placed == total
      let half := half1 || rec?.any (·.half1)
      let s := modQp q (fun x => { x with
        recs := if whole then x.recs.filter (fun r => r.msn != p.msn)
          else x.recs.map (fun r => if r.msn == p.msn then { r with placed := placed } else r) }) s
      let s :=
        if !whole then s
        else if p.op == 0x01 then deliverSend q psn0 (onHalf1 q s) s
        else if p.notify then
          deliverNotice half f x.par.arvId.toNat .pool (writeNoticeOf q p total off) none false s
        else s
      let s := processAll q s
      (ackCount q p since whole s, true)

end Sys2Proof.Machine
end

