-- ==== Sys2Proof/Machine/Tx.lean ====
section
/-! DEFINITION. The transmit engine (05: R135, R136, R145, R148, R151 to R157): windows, destination entries, rate
control, sending, acknowledgement, retransmission and busy retries. -/

namespace Sys2Proof.Machine

/-! ### Register values in their units (R158, R159, R162) -/

def initGrant (s : State) : Nat := nz (rf Reg.TXE_CC 63 56 s) * 4096
/-- T_UPD, the update interval of a destination entry's rate, in units of `now` (R158). -/
def updateTime (s : State) : Nat := nz (rf Reg.TXE_CC 31 24 s) * 8000
def haiRate (s : State) : Rat := (nz (rf Reg.TXE_CC 55 48 s) : Rat) / 2
def aiRate (s : State) : Rat := (nz (rf Reg.TXE_CC 47 40 s) : Rat) / 2
def rateMin (s : State) : Rat := (nz (rf Reg.TXE_CC 39 32 s) : Rat) / 2
def dTarget (s : State) : Rat := (nz (rf Reg.TXE_CC 23 16 s) : Rat) * 500
def windowMax (s : State) : Nat := nz (rf Reg.TXE_CC 15 0 s) * 4096
def busyMax (s : State) : Nat := us (nz (rf Reg.TXE_TIMER 55 48 s))
def busyBase (s : State) : Nat := us (nz (rf Reg.TXE_TIMER 47 40 s))
def reorderMin (s : State) : Rat := (nz (rf Reg.TXE_TIMER 39 32 s) : Rat) * 500
def rtoMax (s : State) : Rat := (nz (rf Reg.TXE_TIMER 31 24 s) : Rat) * 1000000
def rtoInit (s : State) : Rat := (nz (rf Reg.TXE_TIMER 23 16 s) : Rat) * 1000
def rtoMin (s : State) : Rat := (nz (rf Reg.TXE_TIMER 15 8 s) : Rat) * 1000

/-- A time in ns as a point of `now`, rounded up. -/
def nsPoint (t : Rat) : Nat := (t * 16).ceil.toNat

/-! ### Destination entries (R151 to R157) -/

/-- `1e30` of R156. -/
def bigRtt : Rat := rnd53 (10 ^ 30)

/-- RATE_MAX toward an endpoint: the negotiated rate, in Gb/s, of the port by which the first hop leaves (R156). A packet that stays on
the chip, or has no candidate, takes the rate of a port at full rate (DESIGN CHOICE). -/
def firstHopRate (ep : BitVec 17) (s : State) : Rat :=
  if ep.toNat / 4 == chipId s then 800
  else
    match candidates (epGroup ep) ep 2 s with
    | none => 800
    | some (ps, _) => 800 / (max 1 (portScale (pickLeast ps 0 s) s) : Nat)

/-- A new destination entry toward an endpoint (R154, R156). -/
def newDest (ep : BitVec 17) (s : State) : Dest :=
  { outstanding := 0, grant := initGrant s, srtt := none, rttvar := 0, rate := firstHopRate ep s, rateMax := firstHopRate ep s
    alpha := 1, updAt := s.now, tripAt := s.now, minAt := s.now
    base1 := bigRtt, base2 := bigRtt, baseTurn := false, rttAcc := 0, rttN := 0, marked := 0, counted := 0, clean := 0,
    delayMode := false, nocapTrips := 0, capTrips := 0, tripAcks := 0, tripCap := 0, tripNocap := 0, nextAt := 0 }

/-- base_rtt: the lesser of the two minima (R156). -/
def Dest.baseRtt (d : Dest) : Rat := min d.base1 d.base2

/-- RTO of a destination after `n` consecutive timeouts, in ns (R151). -/
def rtoOf (d : Option Dest) (n : Nat) (s : State) : Rat :=
  match d.bind (·.srtt), d with
  | some srtt, some d => min (rtoMax s) (min (rtoMax s) (max (rtoMin s) (srtt + 4 * d.rttvar)) * 2 ^ n)
  | _, _ => min (rtoMax s) (rtoInit s * 2 ^ n)

/-- A round-trip sample updates SRTT and RTTVAR (R151). -/
def Dest.rttSample (d : Dest) (x : Rat) : Dest :=
  match d.srtt with
  | none => { d with srtt := some x, rttvar := x / 2 }
  | some r => { d with rttvar := 3 / 4 * d.rttvar + 1 / 4 * |r - x|, srtt := some (7 / 8 * r + 1 / 8 * x) }

/-- The sample of an ACK or NAK: now − ECHO_T − ACK_DELAY modulo 2^32, discarded above RTO_MAX (R151). -/
def sampleOf (p : Packet) (s : State) : Option Rat :=
  let v := sentT s - p.addr.extractLsb' 32 32 - p.addr.extractLsb' 0 32
  let x : Rat := (v.toNat : Rat)
  if rtoMax s < x then none else some x

/-- `on_ack` of R156. -/
def Dest.onAck (d : Dest) (p : Packet) (sample : Option Rat) : Dest :=
  let cap := bit 0 p.opx
  let d := if cap then
      { d with tripAcks := d.tripAcks + 1, tripCap := d.tripCap + 1, marked := d.marked + BitVec.ofNat 32 (bits 63 48 p.opx),
               counted := d.counted + BitVec.ofNat 32 (bits 47 32 p.opx) }
    else { d with tripAcks := d.tripAcks + 1, tripNocap := d.tripNocap + 1 }
  match sample with
  | none => d
  | some x => { d with rttAcc := dAdd d.rttAcc x, rttN := d.rttN + 1, base1 := min d.base1 x, base2 := min d.base2 x }

/-- `every_trip` of R156 (R157). -/
def Dest.everyTrip (d : Dest) : Dest :=
  let d :=
    if d.tripAcks == 0 then d
    else if d.tripNocap == 0 then { d with capTrips := d.capTrips + 1, nocapTrips := 0 }
    else if d.tripCap == 0 then { d with nocapTrips := d.nocapTrips + 1, capTrips := 0 }
    else { d with capTrips := 0, nocapTrips := 0 }
  let d := if !d.delayMode && 8 ≤ d.nocapTrips then { d with delayMode := true } else d
  let d := if d.delayMode && 8 ≤ d.capTrips then { d with delayMode := false, alpha := 1 } else d
  { d with tripAcks := 0, tripCap := 0, tripNocap := 0 }

/-- `every_update` of R156, in double arithmetic. -/
def Dest.everyUpdate (d : Dest) (hai ai rmin target0 : Rat) : Dest :=
  let d :=
    if !d.delayMode then
      let d := if 0 < d.counted then
          { d with alpha := dAdd d.alpha (dMul (1 / 16) (dSub (dDiv d.marked.toNat d.counted.toNat) d.alpha)) } else d
      if 0 < d.marked then
        { d with rate := max rmin (dMul d.rate (dSub 1 (dDiv d.alpha 2))), clean := 0 }
      else
        { d with clean := d.clean + 1,
                 rate := min d.rateMax (dAdd d.rate (if 5 < d.clean + 1 then hai else ai)) }
    else if 0 < d.rttN then
      let rtt := dDiv d.rttAcc d.rttN.toNat
      let target := dAdd d.baseRtt target0
      if target < rtt then
        { d with rate := max rmin (dMul d.rate
            (max (1 / 2) (dSub 1 (dDiv (dMul (rnd53 (4 / 5)) (dSub rtt target)) rtt)))) }
      else { d with rate := min d.rateMax (dAdd d.rate ai) }
    else { d with rate := min d.rateMax (dAdd d.rate ai) }
  { d with marked := 0, counted := 0, rttAcc := 0, rttN := 0 }

/-! ### What may be sent (R145, R153) -/

/-- The oldest unacknowledged PSN of a queue pair (R145): of those outstanding and those not sent, the PSN nearest after the first
message's first. -/
def oldestPsn (x : Qp) : Option (BitVec 32) :=
  match x.msgs with
  | [] => none
  | m0 :: _ =>
    (x.msgs.flatMap (fun m =>
      m.pkts.flatMap (·.left) ++ (if m.sentPsns < m.npsn then [m.psn0 + BitVec.ofNat 32 m.sentPsns] else []))).foldl (fun best p =>
      match best with
      | none => some p
      | some b => if (p - m0.psn0).toNat < (b - m0.psn0).toNat then some p else some b) none

/-- How many PSNs from `psn` on lie in the window of 256 above the oldest unacknowledged PSN (R145). -/
def psnRoom (x : Qp) (psn : BitVec 32) : Nat :=
  match oldestPsn x with
  | none => 256
  | some u => 256 - (psn - u).toNat

/-- The first message that has PSNs still to be sent, and its place. -/
def nextMsg (s : State) : List TxMsg → Nat → Option (Nat × TxMsg)
  | [], _ => none
  | m :: t, i => if m.sentPsns < m.npsn && !msgDead m s then some (i, m) else nextMsg s t (i + 1)

/-- May a message of more than one packet start: fewer than 8 earlier multi-packet messages unfinished (R143, R145)? -/
def mayStart (x : Qp) (i : Nat) (m : TxMsg) : Bool :=
  m.npsn ≤ 1 || 0 < m.sentPsns || ((x.msgs.take i).filter (fun k => 1 < k.npsn)).length < 8

/-- Is a message a READ, a pull or a release, whose PSNs a READ_REQ requests? -/
def isRead (m : TxMsg) : Bool := m.kind == .read || m.kind == .pull || m.kind == .release

/-- The offset at which a message's next packet starts. -/
def nextOff (m : TxMsg) : Nat := 4096 * m.sentPsns

/-- Bytes of a message's next packet when it carries data (R135). -/
def pieceLen (m : TxMsg) : Nat := min 4096 (m.len - nextOff m)

/-- Must the next packet's data be read from host memory before it is built (R166)? -/
def needsData (m : TxMsg) : Bool := (m.kind == .send || m.kind == .write) && m.inline.isEmpty && 0 < pieceLen m

/-- The largest run of pieces that a READ_REQ may request (R136, R153): at most 64, within the PSN window and the
message, with OUTSTANDING plus REQ_LEN within the limit; one piece when nothing is outstanding. -/
def readRun (m : TxMsg) (room outstanding limit : Nat) : Nat → Nat
  | 0 => 0
  | r + 1 =>
    let bytes := min (4096 * (r + 1)) (m.len - nextOff m)
    if r + 1 ≤ room && r + 1 ≤ m.npsn - m.sentPsns && (outstanding + bytes ≤ limit || (r == 0 && outstanding == 0)) then r + 1
    else readRun m room outstanding limit r

/-- The part of a packet that is the same for every packet of a queue pair. -/
def txBase (q : Nat) (x : Qp) (s : State) : Packet :=
  { Packet.zero with
    dstEp := x.par.peerEp, dstQpn := x.par.peerQpn, dstIncarn := x.par.peerIncarn
    srcEp := ownEp (hostPort (qpFn q s)) s, srcQpn := BitVec.ofNat 24 q, srcIncarn := x.par.incarn, ect := true }

/-- The next packet of a message, with its data; `run` is the number of pieces a READ_REQ requests (R134 to R136, R180,
R183, R216, R376). A READ_REQ has LAST set when its run reaches the end of the READ (DESIGN CHOICE: R131 defines LAST by payload that
is the message's own). -/
def buildPacket (q : Nat) (x : Qp) (m : TxMsg) (run : Nat) (payload : List Byte) (s : State) : Packet :=
  let off := nextOff m
  let b := { txBase q x s with
    psn := m.psn0 + BitVec.ofNat 32 m.sentPsns, msn := m.msn, msgLen := BitVec.ofNat 32 m.len
    immV := m.immV, imm := m.imm, notify := m.notify, payload := payload, payLen := BitVec.ofNat 13 payload.length }
  match m.kind with
  | .send => { b with op := 0x01, addr := BitVec.ofNat 64 off, opx := m.opx, last := off + payload.length == m.len }
  | .announce => { b with op := 0x01, opx := m.opx, last := true, notify := true, msgLen := 16 }
  | .write => { b with
      op := 0x02, addr := m.raddr + BitVec.ofNat 64 off, opx := BitVec.ofNat 64 off, key := m.rkey
      last := off + payload.length == m.len }
  | .atomic => { b with op := 0x05, addr := m.raddr, opx := m.opx, key := m.rkey, msgLen := 32, last := true }
  | .counterAdd => { b with op := 0x07, addr := m.raddr, opx := m.opx, key := m.rkey, msgLen := 0, last := true }
  | _ =>
    let n := min (4096 * run) (m.len - off)
    let l := partAt m.parts off
    let body := leBytes 4 l.key.toNat ++ leBytes 4 n
    { b with
      op := 0x03, cls := if m.kind == .read then 0 else 1, last := off + n == m.len, addr := m.raddr + BitVec.ofNat 64 off, opx := l.addr
      key := m.rkey, payload := body, payLen := 8 }

/-- Are a host function's data reads and placements spread over both halves of its controller (R460)? -/
def halvesSplit (f : Nat) (s : State) : Bool :=
  f % 256 == 0 && bifurcated f s && bit (4 + f / 256) (rdReg Reg.HIF_CFG s) &&
    bit 15 (rdReg (Reg.HIF_LINK + 8 * (2 * (f / 256) + 1)) s)

/-- The half that a function's next split packet uses. -/
def nextHalf (f : Nat) (s : State) : Bool := halvesSplit f s && (tget s.hif.half (f / 256)).getD false

/-- Does a host function's data of this packet go on half 1 (R460)? The halves take packets in turn. -/
def takeHalf (f : Nat) (s : State) : Bool × State :=
  if halvesSplit f s then
    (nextHalf f s, { s with hif := { s.hif with half := tset s.hif.half (f / 256) (!nextHalf f s) } })
  else (false, s)

/-- When the packet after one of a given charge may leave (R156): the entry's pacing, in ns. -/
def paceAfter (charge : Nat) (d : Dest) (s : State) : Rat := (s.now : Rat) / 16 + ((charge + 64) * 8 : Nat) / d.rate

/-- A REQ or FWD packet that is sent again leaves no earlier than the pacing of its destination entry permits, and moves it on
(R156). -/
def pace (hp : Nat) (ep : BitVec 17) (charge : Nat) (s : State) : State :=
  match getDest hp ep s with
  | none => s
  | some d =>
    let s := advanceTo (nsPoint d.nextAt) s
    putDest hp ep { d with nextAt := paceAfter charge d s } s

/-- Record a packet as sent: the message's progress, the charge and the pacing of the destination entry (R153, R156). -/
def txRecord (q : Nat) (x : Qp) (i : Nat) (m : TxMsg) (run charge : Nat) (p : Packet) (d : Dest) (s : State) : State :=
  let hp := hostPort (qpFn q s)
  let psns := (List.range run).map (fun k => p.psn + BitVec.ofNat 32 k)
  let half1 := needsData m && x.builtHalf
  let m := { m with sentPsns := m.sentPsns + run, lastAt := s.now, pkts := m.pkts ++ [⟨p, psns, s.now, charge, half1⟩] }
  let s := putQp q { x with msgs := setAt x.msgs i m, built := none, used := true, changed := true } s
  putDest hp x.par.peerEp
    { d with outstanding := d.outstanding + charge, nextAt := paceAfter charge d s } s

/-- Send the next packet of a queue pair's message `i` (R153, R156): if its destination entry, window and PSN window allow
it, it leaves no earlier than its pacing permits. -/
def txSend (q : Nat) (x : Qp) (i : Nat) (m : TxMsg) (payload : List Byte) (s : State) : State :=
  let hp := hostPort (qpFn q s)
  let psn := m.psn0 + BitVec.ofNat 32 m.sentPsns
  match getDest hp x.par.peerEp s with
  | none =>
    if 65536 ≤ s.txe.dests.length then evcPulse 207 0 s else go hp psn (newDest x.par.peerEp s) s
  | some d => go hp psn d s
where
  /-- With the destination entry at hand. -/
  go (hp : Nat) (psn : BitVec 32) (d : Dest) (s : State) : State :=
    let limit := min d.grant (windowMax s)
    let room := psnRoom x psn
    let run := if isRead m then readRun m room d.outstanding limit 64 else 1
    let charge := if isRead m then min (4096 * run) (m.len - nextOff m) else max payload.length 64
    if run == 0 || room == 0 then s
    else if !(d.outstanding + charge ≤ limit || d.outstanding == 0) then s
    else
      let s := advanceTo (nsPoint d.nextAt) s
      let p := { buildPacket q x m run payload s with sentT := sentT s }
      transmitOn (needsData m && x.builtHalf) hp p (txRecord q x i m run charge p d s)

/-- May the TXE send for a queue pair at all: its state, no busy back-off, and the chip ID set (R152, R490)? -/
def txOpen (x : Qp) (s : State) : Bool :=
  (x.par.state == .active || x.par.state == .quiesced) && x.backoff.isEmpty && chipValid s

/-! ### Resends (R151, R152) -/

/-- Send a packet again, with RETX and a new SENT_T, when its pacing permits, and count it (R151, R156). -/
def resendPkt (hp : Nat) (t : TxPkt) (s : State) : TxPkt × State :=
  let charge := if t.pkt.op == 0x03 then leNat ((t.pkt.payload.drop 4).take 4) else max t.pkt.payload.length 64
  let s := pace hp t.pkt.dstEp charge s
  let p := { t.pkt with retx := true, sentT := sentT s }
  ({ t with pkt := p, sentAt := s.now }, evcPulse 205 hp (transmitOn t.half1 hp p s))

/-- Resend those packets of a list that `which` selects. -/
def resendList (hp : Nat) (which : TxPkt → Bool) : List TxPkt → State → List TxPkt × State
  | [], s => ([], s)
  | t :: rest, s =>
    if which t then
      let (t, s) := resendPkt hp t s
      let (rest, s) := resendList hp which rest s
      (t :: rest, s)
    else
      let (rest, s) := resendList hp which rest s
      (t :: rest, s)

/-- Resend those packets of a queue pair that `which` selects, of messages whose entries have not finished (R148). While the chip ID is not set
the TXE holds them, and its timer sends them later (R490). -/
def resendWhere (q : Nat) (which : TxPkt → Bool) (s : State) : State :=
  match getQp q s with
  | none => s
  | some x =>
    if !chipValid s then s else
    let hp := hostPort (qpFn q s)
    let (msgs, s) := x.msgs.foldl (fun (acc : List TxMsg × State) m =>
      let (pkts, s) := if msgDead m acc.2 then (m.pkts, acc.2) else resendList hp which m.pkts acc.2
      (acc.1 ++ [{ m with pkts := pkts, lastAt := if m.pkts.any which then s.now else m.lastAt }], s)) ([], s)
    modQp q (fun x => { x with msgs := msgs }) s

/-- The messages of a queue pair whose packets may be sent again (R148). -/
def liveMsgs (x : Qp) (s : State) : List TxMsg := x.msgs.filter (fun m => !msgDead m s)

/-- When the oldest outstanding packet's last copy left. -/
def oldestSent (x : Qp) (s : State) : Option Nat :=
  ((liveMsgs x s).flatMap (·.pkts)).foldl (fun best t => match best with
    | none => some t.sentAt
    | some b => some (min b t.sentAt)) none

/-! ### Acknowledgement (R148, R151 to R154) -/

/-- Does an ACK cover a PSN: before CUM, or its SACK bit set (R146, R148)? -/
def ackCovers (p : Packet) (psn : BitVec 32) : Bool :=
  let d := i32 (psn - p.psn)
  d < 0 || (d < 256 && bit d.toNat (ofBytes 256 p.payload))

/-- Do the PSNs of a message count as acknowledged by an ACK (R148)? -/
def ackable (m : TxMsg) : Bool :=
  m.kind == .send || m.kind == .announce || m.kind == .write || m.kind == .counterAdd

/-- Take acknowledged PSNs off a message's packets: the packets left, the charges released, and the latest departure among
packets wholly acknowledged. -/
def ackPkts (covers : BitVec 32 → Bool) : List TxPkt → List TxPkt × Nat × Option Nat
  | [] => ([], 0, none)
  | t :: rest =>
    let (pkts, freed, latest) := ackPkts covers rest
    let left := t.left.filter (fun p => !covers p)
    if left.isEmpty then (pkts, freed + t.charge, some (max t.sentAt (latest.getD 0)))
    else ({ t with left := left } :: pkts, freed, latest)

/-- Is a message finished by acknowledgement: every PSN sent and none outstanding (R30)? -/
def msgAcked (m : TxMsg) : Bool := ackable m && m.kind != .announce && m.sentPsns == m.npsn && m.pkts.isEmpty

/-- New PSNs have been acknowledged: n and b return to zero (R151, R152), charges are released, finished messages finish
their entries, and packets overtaken by more than the tolerance are resent early (R152). -/
def afterAck (q : Nat) (freed : Nat) (latest : Option Nat) (s : State) : State :=
  match getQp q s with
  | none => s
  | some x =>
    let hp := hostPort (qpFn q s)
    let srtt := ((getDest hp x.par.peerEp s).bind (·.srtt)).getD 0
    let tol := nsPoint (max (reorderMin s) (srtt / 4))
    let finished := x.msgs.filter msgAcked
    let s := putQp q { x with msgs := x.msgs.filter (fun m => !msgAcked m), retries := 0, busy := 0 } s
    let s := uncharge hp x.par.peerEp freed s
    let s := finished.foldl (fun s m => finishMsg m St.success 0 s) s
    match latest with
    | some t => resendWhere q (fun k => k.sentAt + tol < t) s
    | none => s

/-- Acknowledge the PSNs of a queue pair that `covers` selects among the messages that `which` selects. -/
def ackWhere (q : Nat) (which : TxMsg → Bool) (covers : BitVec 32 → Bool) (s : State) : State :=
  match getQp q s with
  | none => s
  | some x =>
    let done := x.msgs.map (fun m => if which m then (m, ackPkts covers m.pkts) else (m, (m.pkts, 0, none)))
    let freed := (done.map (fun r => r.2.2.1)).foldl (· + ·) 0
    let latest := (done.filterMap (fun r => r.2.2.2)).foldl (fun b t => some (max t (b.getD 0))) none
    let any := x.msgs.any (fun m => which m && m.pkts.any (fun t => t.left.any covers))
    if !any then s
    else afterAck q freed latest (putQp q { x with msgs := done.map (fun r => { r.1 with pkts := r.2.1 }) } s)

/-- The destination entry takes an ACK's grant and marks and its sample (R151, R154, R156); a NAK gives a sample only. -/
def destAck (q : Nat) (p : Packet) (isAck : Bool) (s : State) : State :=
  match getQp q s with
  | none => s
  | some x =>
    let hp := hostPort (qpFn q s)
    match getDest hp x.par.peerEp s with
    | none => s
    | some d =>
      let sample := sampleOf p s
      let d := match sample with
        | some v => d.rttSample v
        | none => d
      let d := if isAck then
          { d.onAck p sample with grant := nz (bits 31 16 p.opx) * 4096 }
        else d
      putDest hp x.par.peerEp d s

end Sys2Proof.Machine
end

