-- ==== Sys2Proof/Machine/Rx.lean ====
section
/-! DEFINITION. The receive engine (05: R137 to R143; 06: R173 to R183; 12: R376 to R381; 07: R216): what follows the
access check of an arriving packet, placement, the atomic unit, and the answers. -/

namespace Sys2Proof.Machine

/-! ### Refusals -/

/-- Is a packet one of the message of another with this MSN and PSN: the same MSN, and a PSN no farther away than the message is
long (R102)? -/
def sameMessage (p : Packet) (k : BitVec 16 × BitVec 32) : Bool :=
  k.1 == p.msn && (i32 (p.psn - k.2)).natAbs < npsns p.msgLen.toNat

/-- An ERROR_NOTICE for a refused remote access, at most one for a message (R101, R102). What is too far back to be of a
message still in the window (R136) is forgotten. -/
def remoteErrorNotice (q : Nat) (p : Packet) (detail : Nat) (s : State) : State :=
  match getQp q s with
  | none => s
  | some x =>
    let seen := ((tget s.qpc.noticed q).getD []).filter (fun k => (i32 (p.psn - k.2)).natAbs < 2 ^ 30)
    if seen.any (sameMessage p) then s
    else
      let s := { s with qpc := { s.qpc with noticed := tset s.qpc.noticed q ((p.msn, p.psn) :: seen) } }
      errorNotice (qpFn q s) x.par.arvId.toNat
        { addr := p.addr, imm := 0, key := p.key, src := p.srcEp, bytes := 0, detail := BitVec.ofNat 8 detail,
          status := St.remoteAccess, kind := 3, qpn := q } s

/-- A remote access violation (R101): nothing is placed, the notice is written and the NAK carries the DETAIL. -/
def refuseRemote (q : Nat) (p : Packet) (detail : Nat) (s : State) : State :=
  sendNak p 0x0D detail (remoteErrorNotice q p detail s)

/-- A REMOTE_INVALID refusal (R138): the receiving queue pair enters ERROR with that cause. -/
def refuseInvalid (q : Nat) (p : Packet) (s : State) : State :=
  enterError q St.remoteInvalid 0 (sendNak p 0x0E 0 s)

/-- Does a queue pair accept packets (R115)? -/
def accepting (x : Qp) : Bool := x.par.state == .active || x.par.state == .quiesced

/-! ### Placement (R140) -/

/-- Issue the placement writes of a packet that came at `since`, by the staging queue RXP (R163), and hold it until they have been
sent. -/
def placeSegs (q : Nat) (p : Packet) (since : Nat) (kind : PlaceKind) (serial : Nat) (segs : List Seg) (bytes : List Byte)
    (s : State) : State :=
  let f := qpFn q s
  let (half1, s) := takeHalf f s
  let link := if half1 then fnLink f + 1 else fnLink f
  let (ser, s) := stgNumbered s
  let s := (stgJoin .rxp (hostAttachment (hostPort f) p.psn half1 s) ser p coreRate coreRate s).2
  let s := writeSegs link f true segs bytes s
  withRxe (fun r => { r with placing := r.placing ++ [⟨q, p, kind, serial, half1, since, ser⟩] }) s

/-- Open the record of a message at its first packet to arrive, if it has several packets or holds a pool slot (R62, R142,
R143). -/
def openRec (q : Nat) (p : Packet) (psn0 : BitVec 32) (slot : Bool) (s : State) : State :=
  if p.msgLen.toNat ≤ 4096 && !slot then s
  else modQp q (fun x =>
    if x.recs.any (fun r => r.msn == p.msn) then x
    else { x with recs := x.recs ++ [{ msn := p.msn, psn0 := psn0, msgLen := p.msgLen, immV := p.immV, imm := p.imm,
                                       notify := p.notify, op := p.op, placed := 0, slot := slot, half1 := false }] }) s

/-! ### The atomic unit (R378) -/

/-- The aligned 8-byte word that holds a bus address. -/
def wordOf (bus : BitVec 64) : Nat := bus.toNat / 8 * 8

/-- AOP and WIDTH of an ATOMIC_REQ. -/
def atomicAop (p : Packet) : Nat := leNat ((p.payload.drop 20).take 1)
def atomicWidth (p : Packet) : Nat := 2 ^ leNat ((p.payload.drop 21).take 1)

/-- The ATOMIC_REQ that an update performs as a PCIe AtomicOp (R379): FADD, SWAP or CAS, on a controller whose PCIE_AOP bit is set. -/
def aopOf (j : AtomJob) (s : State) : Option Packet :=
  match j.kind with
  | .atomic _ p => if atomicAop p ≤ 2 && bit (j.fn / 256) (rdReg Reg.RXE_ATOM s) then some p else none
  | _ => none

/-- Issue the AtomicOp request of an update: FetchAdd, Swap or CAS on the operand's bytes. -/
def atomRequest (j : AtomJob) (p : Packet) (s : State) : State :=
  emit (.hostAtomic j.fn j.bus (atomicAop p) (atomicWidth p) p.opx (ofBytes 64 (p.payload.take 8)) (fnLink j.fn)) (wakeLink (fnLink j.fn) s)

/-- Begin the reads of updates whose words no earlier update holds (R378). A request outside the window is not issued, and completes as an
error (R469). For a frozen function no AtomicOp is issued: its packet is refused with CONTEXT_BUSY (R440). -/
def startAtoms (s : State) : State :=
  let step (acc : List AtomJob × State) (j : AtomJob) : List AtomJob × State :=
    let busy := acc.1.any (fun k => wordOf k.bus == wordOf j.bus && k.fn / 256 == j.fn / 256)
    if j.reading || busy then (acc.1 ++ [j], acc.2)
    else
      match aopOf j s with
      | some p =>
        if frozen j.fn s then (acc.1, sendNak p nakContextBusy 0 (drained j.serial acc.2))
        else if readable j.fn j.bus (atomicWidth p) s then (acc.1 ++ [{ j with reading := true, pcie := true }], atomRequest j p acc.2)
        else (acc.1 ++ [{ j with reading := true, pcie := true, barred := true }], acc.2)
      | none =>
        let word := BitVec.ofNat 64 (wordOf j.bus)
        if readable j.fn word 8 s then (acc.1 ++ [{ j with reading := true }], hostRead j.fn word 8 acc.2)
        else (acc.1 ++ [{ j with reading := true, barred := true }], acc.2)
  let (js, s) := s.rxe.atoms.foldl step ([], s)
  withRxe (fun r => { r with atoms := js }) s

/-- Put an update into the atomic unit. -/
def pushAtom (j : AtomJob) (s : State) : State := startAtoms (withRxe (fun r => { r with atoms := r.atoms ++ [j] }) s)

/-- The new value of an atomic's operand of `w` bytes (R375). -/
def atomicOp (aop w old op cmp : Nat) : Nat :=
  let m := 2 ^ (8 * w)
  let sgn (v : Nat) : Int := if v < m / 2 then (v : Int) else (v : Int) - m
  if aop == 0x00 then (old + op) % m
  else if aop == 0x01 then op % m
  else if aop == 0x02 then if old == cmp % m then op % m else old
  else if aop == 0x03 then Nat.land old (op % m)
  else if aop == 0x04 then Nat.lor old (op % m)
  else if aop == 0x05 then Nat.xor old (op % m)
  else if aop == 0x06 then if sgn (op % m) < sgn old then op % m else old
  else if aop == 0x07 then if sgn old < sgn (op % m) then op % m else old
  else if aop == 0x08 then min old (op % m)
  else if aop == 0x09 then max old (op % m)
  else old

/-- The ATOMIC_RESP to a request (R376). -/
def atomicAnswer (p : Packet) (old : BitVec 64) : Packet :=
  { answer p with
    op := 0x06, psn := p.psn, msn := p.msn, addr := ofBytes 64 ((p.payload.drop 8).take 8)
    key := ofBytes 32 ((p.payload.drop 16).take 4), opx := old }

/-! ### Answers to a READ_REQ (R136, R183) -/

/-- REQ_LEN and the requester's LKEY of a READ_REQ. -/
def reqLen (p : Packet) : Nat := leNat ((p.payload.drop 4).take 4)
def reqKey (p : Packet) : BitVec 32 := ofBytes 32 (p.payload.take 4)

/-- Is a READ_REQ the release of a rendezvous (R183)? -/
def isRelease (p : Packet) : Bool := p.cls == 1 && reqLen p == 0 && p.opx == 0 && reqKey p == 0

/-- The offset that a READ_REQ's own fields tell: zero for a run that is the whole READ, and what the length leaves for a run that
ends it (LAST, or no whole number of pieces). -/
def ownOffset (p : Packet) : Option Nat :=
  let n := reqLen p
  if n == p.msgLen.toNat then some 0
  else if p.last || n % 4096 != 0 then some (p.msgLen.toNat - n)
  else none

/-- The READ whose first PSN is known and to which a READ_REQ belongs. -/
def readOf (x : Qp) (p : Packet) : Option ReadAt :=
  x.readAt.find? (fun r => r.msn == p.msn && (p.psn - r.psn0).toNat < r.npsn)

/-- The offset within its READ at which a READ_REQ's run starts (R134, R136): what the request tells, or the distance of its PSN
from the READ's first. A run of which neither is known, because it came before the runs ahead of it, has a free value: nothing
that has reached the target says where it stands. -/
def runOffset (x : Qp) (p : Packet) : Nat :=
  match ownOffset p, readOf x p with
  | some o, _ => o
  | none, some r => 4096 * (p.psn - r.psn0).toNat
  | none, none => Config.readOffset p.msn p.psn

/-- The PSN that the first piece of a READ_REQ's READ takes, where it is known: by the run's offset, or because the run stands at
ePSN and belongs to no READ that has begun. -/
def readStart (x : Qp) (p : Packet) : Option (BitVec 32) :=
  match ownOffset p, readOf x p with
  | some o, _ => some (p.psn - BitVec.ofNat 32 (o / 4096))
  | none, some r => some r.psn0
  | none, none => if p.psn == x.par.rqPsn then some p.psn else none

/-- Note the READ of an accepted READ_REQ; the newest 16 are kept, twice what a peer may have under way (R145). -/
def noteRead (p : Packet) (x : Qp) : Qp :=
  if reqLen p == p.msgLen.toNat || (readOf x p).isSome then x
  else
    match readStart x p with
    | some psn0 => { x with readAt := ({ msn := p.msn, psn0 := psn0, npsn := npsns p.msgLen.toNat } : ReadAt) :: x.readAt.take 15 }
    | none => x

/-- READ_RESP number `j` of the answer to a READ_REQ whose run starts at an offset (R134, R136). -/
def respOf (at_ : Nat) (p : Packet) (j : Nat) (data : List Byte) : Packet :=
  let k := 4096 * j
  let o := at_ + k
  { answer p with
    op := 0x04, ect := true, psn := p.psn + BitVec.ofNat 32 j, msn := p.msn, msgLen := p.msgLen
    addr := if isRelease p then 0 else p.opx + BitVec.ofNat 64 k
    opx := BitVec.ofNat 64 (o % 2 ^ 32), key := reqKey p, last := o + data.length == p.msgLen.toNat
    payLen := BitVec.ofNat 13 data.length, payload := data }

/-- Send a READ_RESP (R136). -/
def sendResp (at_ : Nat) (p : Packet) (j : Nat) (data : List Byte) (s : State) : State :=
  transmit (epPort p.dstEp) { respOf at_ p j data with sentT := sentT s } s

/-! ### Releases at the source of a rendezvous (R183) -/

/-- SVA + LEN of an announcement. -/
def announceEnd (m : TxMsg) : BitVec 64 :=
  match m.parts with
  | p :: _ => p.addr + BitVec.ofNat 64 p.len
  | [] => 0

/-- SKEY of an announcement. -/
def announceKey (m : TxMsg) : BitVec 32 :=
  match m.parts with
  | p :: _ => p.key
  | [] => 0

/-- A release finishes the oldest outstanding rendezvous SEND that it names (R183). -/
def releaseSend (q : Nat) (p : Packet) (s : State) : State :=
  match getQp q s with
  | none => s
  | some x =>
    let mine (m : TxMsg) : Bool := m.kind == .announce && announceEnd m == p.addr && announceKey m == p.key
    match x.msgs.find? mine with
    | none => s
    | some m =>
      let s := putQp q { x with msgs := dropFirst mine x.msgs } s
      finishMsg m St.success 0 (uncharge (hostPort (qpFn q s)) x.par.peerEp (msgCharge m) s)

/-! ### After the check of a keyed packet: steps 9 to 11 of R137 -/

/-- Count a REQ or FWD packet that has come toward MARKED and COUNTED of the next ACK (R146, R155): a duplicate and a refused one
too. -/
def markCount (q : Nat) (p : Packet) (s : State) : State :=
  modQp q (fun x => { x with counted := x.counted + 1, marked := x.marked + b2n p.ce }) s

/-- Reserve the pool slot of a NOTIFY write or counter add at the first packet of its message (R62): `none` if the pool is
empty. -/
def notifySlot (q : Nat) (x : Qp) (p : Packet) (s : State) : Option State :=
  if p.notify && !x.recs.any (fun r => r.msn == p.msn) then arvTake (qpFn q s) x.par.arvId.toNat .pool s else some s

/-- A WRITE that has passed its check (R140, R142). -/
def passWrite (q : Nat) (x : Qp) (p : Packet) (since serial : Nat) (segs : List Seg) (s : State) : State :=
  if psnReceived x p.psn then sendAck q (heard p since) (drained serial s)
  else
    match notifySlot q x p s with
    | none => sendNak p nakReceiverBusy 0 (drained serial s)
    | some s =>
      placeSegs q p since .write serial segs p.payload (openRec q p (firstPsn p (pktOffset p)) p.notify s)

/-- A COUNTER_ADD that has passed its check goes to the atomic unit (R216, R378). A copy of one that is being performed is
dropped. -/
def passCounterAdd (q : Nat) (x : Qp) (p : Packet) (since serial : Nat) (segs : List Seg) (s : State) : State :=
  if psnReceived x p.psn then sendAck q (heard p since) (drained serial s)
  else if s.rxe.atoms.any (fun j => match j.kind with
      | .counterAdd n k _ => n == q && k.psn == p.psn
      | _ => false) then drained serial s
  else
    match notifySlot q x p s, segs with
    | none, _ => sendNak p nakReceiverBusy 0 (drained serial s)
    | some s, g :: _ =>
      pushAtom ⟨.counterAdd q p since, qpFn q s, g.bus, serial, false, false, false⟩ (openRec q p p.psn p.notify s)
    | some s, [] => drained serial s

/-- Send a kept ATOMIC_RESP again (R380). -/
def resendResult (q : Nat) (x : Qp) (p : Packet) (s : State) : State :=
  match s.rxe.results.find? (fun e => e.qpn == q && e.incarn == x.par.incarn && e.psn == p.psn) with
  | some e => transmit (epPort p.dstEp) { atomicAnswer p e.old with sentT := sentT s } s
  | none => ignored 130 s

/-- Is the update of an ATOMIC_REQ under way in the atomic unit? -/
def atomUnderWay (q : Nat) (psn : BitVec 32) (s : State) : Bool :=
  s.rxe.atoms.any (fun j => match j.kind with
    | .atomic n k => n == q && k.psn == psn
    | _ => false)

/-- An ATOMIC_REQ that has passed its check (R376, R380). Its PSN is received once the update has been made (R140, R175); a copy of
one that is being performed is dropped. -/
def passAtomic (q : Nat) (x : Qp) (p : Packet) (serial : Nat) (segs : List Seg) (s : State) : State :=
  if psnReceived x p.psn then resendResult q x p (drained serial s)
  else
    let busy := (s.rxe.atoms.filter (fun j => match j.kind with
      | .atomic _ _ => true
      | _ => false)).length
    if atomUnderWay q p.psn s then drained serial s
    else if 16384 ≤ s.rxe.results.length + busy then sendNak p nakReceiverBusy 0 (drained serial s)
    else
      match segs with
      | [] => drained serial s
      | g :: _ => pushAtom ⟨.atomic q p, qpFn q s, g.bus, serial, false, false, false⟩ s

/-- Begin the reads of a READ_REQ's answer, piece by piece (R136). -/
def readPieces (q at_ : Nat) (p : Packet) (serial : Nat) (segs : List Seg) : Nat → Nat → State → State
  | 0, _, s => s
  | n + 1, j, s =>
    let len := min 4096 (reqLen p - 4096 * j)
    let s := readSegs (fnLink (qpFn q s)) (qpFn q s) true (sliceSegs segs (4096 * j) len) s
    let s := withRxe (fun r => { r with resps := r.resps ++ [⟨q, respOf at_ p j [], p, serial⟩] }) s
    readPieces q at_ p serial segs n (j + 1) s

/-- A READ_REQ that has passed its check (R136, R145): its whole run is received, and it is answered; a duplicate is
acknowledged and answered again (R137). -/
def passRead (q : Nat) (x : Qp) (p : Packet) (since serial : Nat) (segs : List Seg) (s : State) : State :=
  let run := npsns (reqLen p)
  let again := psnReceived x p.psn
  let at_ := runOffset (noteRead p x) p
  let s :=
    if again then sendAck q (heard p since) s
    else ageResults q (p.psn + BitVec.ofNat 32 (run - 1)) (processAll q (putQp q (markRun p.psn run (noteRead p x)) s))
  if reqLen p == 0 then
    let s := sendResp at_ p 0 [] (drained serial s)
    if isRelease p && !again then releaseSend q p s else s
  else readPieces q at_ p serial segs run 0 s

/-! ### READ_RESP at the requester (R139 to R143, R148, R183) -/

/-- The message of a queue pair that has a PSN outstanding. -/
def ownerOf (x : Qp) (psn : BitVec 32) : Option TxMsg :=
  x.msgs.find? (fun m => m.pkts.any (fun t => t.left.contains psn))

/-- Does a READ_RESP agree with itself and with the read record (step 7 of R137)? -/
def respAgrees (m : TxMsg) (p : Packet) : Bool :=
  let off := pktOffset p
  let n := p.payload.length
  p.msgLen.toNat == m.len && p.msn == m.msn && p.immV == m.immV && p.imm == m.imm && p.notify == m.notify &&
  off % 4096 == 0 && off + n ≤ m.len && (4096 ≤ n || off + n == m.len)

/-- A PSN of a READ is acknowledged: its packet keeps the others, and as much of its charge as bytes remain. Answers the
packets and the charge released. -/
def respPkts (psn : BitVec 32) (n : Nat) : List TxPkt → List TxPkt × Nat
  | [] => ([], 0)
  | t :: rest =>
    if t.left.contains psn then
      let left := t.left.filter (· != psn)
      if left.isEmpty then (rest, t.charge)
      else ({ t with left := left, charge := t.charge - n } :: rest, min n t.charge)
    else
      let (r, f) := respPkts psn n rest
      (t :: r, f)

/-- A READ or pull whose every PSN has been placed is delivered (R141): a READ finishes, and the last pull of a receive
completes it (R182). For a frozen function a pull's receive is left for its flush (R524). -/
def readDelivered (q : Nat) (m : TxMsg) (s : State) : State :=
  let s := modQp q (fun x => { x with msgs := dropFirst (fun k => k.msn == m.msn && k.psn0 == m.psn0) x.msgs }) s
  if m.kind == .pull && !frozen (qpFn q s) s then
    match s.mte.bound.find? (fun b => b.recv.id == m.recv) with
    | none => s
    | some b =>
      let b := { b with pulls := b.pulls - 1 }
      let s := withMte (fun x => { x with bound := x.bound.map (fun c => if c.recv.id == m.recv then b else c) }) s
      if b.pulls == 0 then pulledDone b s else s
  else finishMsg m St.success 0 s

/-- A READ_RESP has been placed, or needed no placement (R140, R148): its PSN is acknowledged and its bytes counted. -/
def readPlaced (q : Nat) (psn : BitVec 32) (n : Nat) (s : State) : State :=
  match getQp q s with
  | none => s
  | some x =>
    match ownerOf x psn with
    | none => s
    | some m =>
      let (pkts, freed) := respPkts psn n m.pkts
      let m' := { m with pkts := pkts, placed := m.placed + n }
      let s := putQp q { x with msgs := x.msgs.map (fun k => if k.psn0 == m.psn0 && k.msn == m.msn then m' else k) } s
      let s := afterAck q freed none s
      if m'.pkts.isEmpty && m'.sentPsns == m'.npsn then readDelivered q m' s else s

/-- Congestion marks on the READ_RESPs go straight into the destination entry (R155). -/
def respMark (q : Nat) (x : Qp) (p : Packet) (s : State) : State :=
  let hp := hostPort (qpFn q s)
  match getDest hp x.par.peerEp s with
  | some d => putDest hp x.par.peerEp
      { d with marked := d.marked + BitVec.ofNat 32 (b2n p.ce), counted := d.counted + 1 } s
  | none => s

/-- The ranges that a READ_RESP is placed into: ADDR under KEY, or for a READ with several fragments, its bytes through
them (R35, R140). -/
def respParts (m : TxMsg) (p : Packet) : List Part :=
  if m.parts.length ≤ 1 then [⟨p.key, p.addr, p.payload.length⟩]
  else sliceParts m.parts (pktOffset p) p.payload.length

/-- Bytes of a packet are written to a receive's buffer: they count once, however often the packet comes (R186). -/
def BoundRecv.wrote (b : BoundRecv) (psn : BitVec 32) (n : Nat) : BoundRecv :=
  if b.seen.contains psn then b else { b with written := b.written + n, seen := psn :: b.seen }

/-- The bytes of a packet go to the buffer of a bound receive. -/
def noteWritten (recv : Nat) (psn : BitVec 32) (n : Nat) (s : State) : State :=
  withMte (fun m => { m with bound := m.bound.map (fun b => if b.recv.id == recv then b.wrote psn n else b) }) s

/-- Is the data of a pull discarded, because its receive has been flushed (R186)? -/
def pullDiscards (m : TxMsg) (s : State) : Bool :=
  m.kind == .pull && !s.mte.bound.any (fun b => b.recv.id == m.recv && !b.flushed)

/-- An arriving READ_RESP, from step 7 of R137 on. One that disagrees with the read record fails its READ with
REMOTE_INVALID; no NAK answers it, because an RSP gives rise to nothing (R297). -/
def rxReadResp (q : Nat) (x : Qp) (p : Packet) (s : State) : State :=
  match ownerOf x p.psn with
  | none => ignored 130 s
  | some m =>
    if !isRead m then ignored 130 s
    else if !respAgrees m p then failMsg q m St.remoteInvalid 0 s
    else
      let s := respMark q x p s
      if m.kind == .release || pullDiscards m s || frozen (qpFn q s) s then readPlaced q p.psn p.payload.length s
      else xltStart
        { fn := qpFn q s, dom := some x.par.pd, parts := respParts m p, rights := 0b00010, rd := false, wr := true
          testsOnly := false, purpose := .rxKeyed p s.now } s

/-- A READ_RESP that has passed its check is placed, unless its receive has been flushed in the meantime (R186). -/
def passResp (q : Nat) (x : Qp) (p : Packet) (serial : Nat) (segs : List Seg) (s : State) : State :=
  match ownerOf x p.psn with
  | none => drained serial s
  | some m =>
    if pullDiscards m s then readPlaced q p.psn p.payload.length (drained serial s)
    else
      let s := if m.kind == .pull then noteWritten m.recv p.psn p.payload.length s else s
      placeSegs q p s.now .readResp serial segs p.payload s

/-- A keyed packet whose check has an outcome (steps 8 to 11 of R137). A queue pair that no longer accepts packets cuts the
packet short; a function frozen in the meantime refuses a request as R440 states. -/
def rxKeyed (p : Packet) (since : Nat) (c : Checked) (s : State) : State :=
  let q := p.dstQpn.toNat
  let serial := match c with
    | .pass n _ => n
    | .fail _ => 0
  match getQp q s with
  | none => drained serial s
  | some x =>
    if !accepting x then drained serial s
    else
      let fz := frozen (qpFn q s) s
      match c with
      | .fail d =>
        if p.op == 0x04 then
          match ownerOf x p.psn with
          | some m =>
            if fz || pullDiscards m s then readPlaced q p.psn p.payload.length s
            else failMsg q m (faultStatus d) (BitVec.ofNat 8 d) s
          | none => s
        else if fz then sendNak p nakContextBusy 0 s
        else refuseRemote q p d s
      | .pass n segs =>
        if p.op == 0x04 then
          if fz then readPlaced q p.psn p.payload.length (drained n s) else passResp q x p n segs s
        else if fz then sendNak p nakContextBusy 0 (drained n s)
        else if p.op == 0x02 then passWrite q x p since n segs s
        else if p.op == 0x03 then passRead q x p since n segs s
        else if p.op == 0x05 then passAtomic q x p n segs s
        else passCounterAdd q x p since n segs s

/-! ### SEND (R173 to R183) -/

/-- The announced or carried length of a SEND message. -/
def sendLen (p : Packet) : Nat :=
  if p.notify then leNat ((p.payload.drop 12).take 4) else p.msgLen.toNat

/-- An announcement has been recorded: its PSN is received at once, and nothing is placed (R181). -/
def markAnnounce (q : Nat) (p : Packet) (since : Nat) (s : State) : State :=
  processAll q (ackCount q p since false (ageResults q p.psn (modQp q (markPsn p.psn) s)))

/-- Place a packet of an eager SEND into its bound receive (R176): the check of what it writes is asked for; a packet that
writes nothing is counted at once. -/
def placeSend (q : Nat) (p : Packet) (since : Nat) (b : BoundRecv) (s : State) : State :=
  let off := pktOffset p
  let n := min (off + p.payload.length) b.recv.len - off
  if b.flushed || n == 0 then (countPacket q p since false s).1
  else xltStart
    { fn := b.recv.fn, dom := some b.recv.pd, parts := sliceParts b.recv.parts off n, rights := 0b00010, rd := false
      wr := true, testsOnly := false, purpose := .rxSend p b.recv.id since } s

/-- Write a packet of an eager unexpected SEND to its piece (R178). -/
def placePiece (q : Nat) (p : Packet) (since : Nat) (u : Unexp) (s : State) : State :=
  let piece := (u.pieces[pktOffset p / 4096]?).getD 0
  placeSegs q p since .pieces 0 [⟨pieceAddr u.fn piece s, p.payload.length⟩] p.payload s

/-- The unexpected entry that a SEND's first packet would make. -/
def newUnexp (q : Nat) (x : Qp) (p : Packet) (eligible : Bool) (s : State) : Unexp :=
  { fn := qpFn q s, arv := x.par.arvId.toNat, pd := x.par.pd, qpn := q, psn0 := firstPsn p (pktOffset p), src := p.srcEp
    m := p.opx, msgLen := sendLen p, immV := p.immV, imm := p.imm, announce := p.notify
    sva := ofBytes 64 (p.payload.take 8), skey := ofBytes 32 ((p.payload.drop 8).take 4), pieces := []
    complete := false, eligible := eligible, order := 0, bound := none }

/-- Note a SEND message's first packet: its span is known and its record is open (R142, R173). -/
def noteSend (q : Nat) (p : Packet) (s : State) : State :=
  let psn0 := firstPsn p (pktOffset p)
  openRec q p psn0 false (modQp q (knowSpan psn0 (npsns p.msgLen.toNat)) s)

/-- The first packet of a SEND message to arrive (R174, R178, R182): bound at once if it is eligible and a receive
matches, otherwise admitted as unexpected or pending, or refused. -/
def rxSendFirst (q : Nat) (x : Qp) (p : Packet) (since : Nat) (s : State) : State :=
  let psn0 := firstPsn p (pktOffset p)
  let eligible := sendEligible q x psn0 s
  let u := newUnexp q x p eligible s
  let s := if eligible then countSearch u.fn u.arv u.pd u.m u.src s else s
  match if eligible then searchPosted u.fn u.arv u.pd u.m u.src s else none with
  | some r =>
    let b := u.boundRecv r
    let s := noteSend q p (unpost r s)
    if p.notify then markAnnounce q p since (startPull b s)
    else processAll q (placeSend q p since b (withMte (fun m => { m with bound := m.bound ++ [b] }) s))
  | none =>
    match admitUnexp u s with
    | none => sendNak p nakReceiverBusy 0 s
    | some s =>
      let s := noteSend q p s
      if p.notify then markAnnounce q p since s
      else
        match s.mte.unexp.find? (fun v => v.qpn == q && v.psn0 == psn0) with
        | some v => processAll q (placePiece q p since v s)
        | none => s

/-- An arriving SEND, from step 9 of R137 on. One that comes while the MTE is fenced is lost (R394). -/
def rxSend (q : Nat) (x : Qp) (p : Packet) (since : Nat) (s : State) : State :=
  let psn0 := firstPsn p (pktOffset p)
  if psnReceived x p.psn then sendAck q (heard p since) s
  else if unitFenced 133 s then s
  else
    match s.mte.bound.find? (fun b => b.qpn == q && b.psn0 == psn0) with
    | some b => placeSend q p since b s
    | none =>
      match s.mte.unexp.find? (fun u => u.qpn == q && u.psn0 == psn0) with
      | some u => placePiece q p since u s
      | none => rxSendFirst q x p since s

/-- The check of a placement into a bound receive has an outcome (R103, R176). A receive that has failed stays bound, and further
packets of its message are not placed (R174, R186). -/
def rxSendChecked (p : Packet) (recv since : Nat) (c : Checked) (s : State) : State :=
  let q := p.dstQpn.toNat
  match c, getQp q s, s.mte.bound.find? (fun b => b.recv.id == recv) with
  | .pass n segs, some x, some b =>
    if !accepting x then drained n s
    else if frozen (qpFn q s) s then sendNak p nakContextBusy 0 (drained n s)
    else if b.flushed then (countPacket q p since false (drained n s)).1
    else
      let k := (segs.map (·.len)).foldl (· + ·) 0
      placeSegs q p since .send n segs (p.payload.take k) (noteWritten recv p.psn k s)
  | .pass n _, _, _ => drained n s
  | .fail d, some x, some b =>
    if !accepting x then s
    else if frozen (qpFn q s) s then sendNak p nakContextBusy 0 s
    else if b.flushed then (countPacket q p since false s).1
    else
      let s := sendNak p 0x0D d s
      let s := withMte (fun m => { m with bound := m.bound.map (fun c => if c.recv.id == recv then { c with flushed := true } else c) }) s
      let s := writeNotice b.recv.fn b.recv.arv .recv
        (recvNotice b.recv b.src b.immV b.imm b.written (faultStatus d) (BitVec.ofNat 8 d) 1) s
      enterError b.recv.qpn (faultStatus d) (BitVec.ofNat 8 d) s
  | .fail _, _, _ => s

/-! ### Steps 1 to 8 of R137 -/

/-- Is a packet of class REQ or FWD? -/
def isRequest (p : Packet) : Bool := p.cls.toNat ≤ 1

/-- Step 7 of R137 for a request: does its header agree with itself and with the message record? -/
def headerAgrees (x : Qp) (p : Packet) : Bool :=
  let off := pktOffset p
  let n := p.payload.length
  if p.op == 0x01 || p.op == 0x02 then
    off + n ≤ p.msgLen.toNat && off % 4096 == 0 && (4096 ≤ n || off + n == p.msgLen.toNat) &&
    match x.recs.find? (fun r => r.msn == p.msn) with
    | some r => r.msgLen == p.msgLen && r.immV == p.immV && r.imm == p.imm && r.notify == p.notify
    | none =>
      p.msgLen.toNat ≤ 4096 || psnReceived x p.psn || (x.recs.filter (fun r => 4096 < r.msgLen.toNat)).length < 8
  else if p.op == 0x05 then
    let w := leNat ((p.payload.drop 21).take 1)
    atomicAop p ≤ 0x0A && (w == 2 || w == 3) && p.addr.toNat % 2 ^ w == 0
  else true

/-- The access that a keyed request asks for (R80, R134, R376). -/
def keyedAccess (q : Nat) (x : Qp) (p : Packet) (since : Nat) (s : State) : Access :=
  let len := if p.op == 0x02 then p.payload.length else if p.op == 0x03 then reqLen p
    else if p.op == 0x05 then atomicWidth p else 8
  { fn := qpFn q s, dom := some x.par.pd, parts := [⟨p.key, p.addr, len⟩]
    rights := if p.op == 0x02 then 0b01000 else if p.op == 0x03 then 0b00100 else 0b10000
    rd := p.op != 0x02, wr := p.op != 0x03, testsOnly := false, purpose := .rxKeyed p since }

/-- Note the source endpoint of a REQ or FWD packet (R154) and count its mark (R443). -/
def noteSource (p : Packet) (s : State) : State :=
  let hp := epPort p.dstEp
  let s := withRxe (fun r => { r with sources := tset r.sources (destKey hp p.srcEp) s.now }) s
  if p.ce then evcPulse 209 hp s else s

/-- Does a packet belong to the queue pair as R116 asks? -/
def fromPeer (x : Qp) (p : Packet) : Bool :=
  p.dstIncarn == x.par.incarn && p.srcEp == x.par.peerEp && p.srcQpn == x.par.peerQpn

/-- Steps 6 to 8 of R137 for a request of a resident queue pair that accepts it. -/
def rxRequest (q : Nat) (x : Qp) (p : Packet) (since : Nat) (s : State) : State :=
  let d := psnDist x p.psn
  if !(-(2 ^ 30 : Int) ≤ d && d ≤ 255) then ignored 130 s
  else
    let s := markCount q p s
    match getQp q s with
    | none => s
    | some x =>
      if !headerAgrees x p then refuseInvalid q p s
      else if p.op == 0x01 then rxSend q x p since s
      else xltStart (keyedAccess q x p since s) s

end Sys2Proof.Machine
end

