-- ==== Sys2Proof/Machine/Resp.lean ====
section
/-! DEFINITION. Responses at the sender (05: R146 to R152; 12: R377), the data of packets under way (R166), the way of an
arriving packet through steps 1 to 5 of R137 with the miss buffer (R125), and context fetches (R124, R126). -/

namespace Sys2Proof.Machine

/-! ### ACK and NAK (R146 to R148, R152) -/

/-- Does a rendezvous SEND wait for its release with its announcement acknowledged (R183)? -/
def waitsRelease (m : TxMsg) : Bool := m.kind == .announce && m.sentPsns == 1 && m.pkts.isEmpty

/-- An arriving ACK. One that names no outstanding PSN is discarded and counted (R148). -/
def rxAck (q : Nat) (x : Qp) (p : Packet) (s : State) : State :=
  let covers := ackCovers p
  if x.msgs.any (fun m => m.pkts.any (fun t => t.left.any covers) || (waitsRelease m && covers m.psn0)) then
    ackWhere q ackable covers (destAck q p true s)
  else ignored 130 s

/-- The message whose packet a NAK refuses: one with the PSN outstanding, or a rendezvous SEND whose probe it answers
(R184). -/
def nakOwner (x : Qp) (psn : BitVec 32) : Option TxMsg :=
  x.msgs.find? (fun m => m.pkts.any (fun t => t.left.contains psn) || (waitsRelease m && m.psn0 == psn))

/-- The `b`-th consecutive busy back-off, lengthened by a random 0 to 25 % (R152), in units of `now`. -/
def busyTime (b : Nat) (s : State) : Nat × State :=
  let (k, s) := fresh s
  (min (busyBase s * 2 ^ (b - 1)) (busyMax s) * (1024 + Config.jitter k % 257) / 1024, s)

/-- A busy NAK: the queue pair backs off, or the entry fails once BUSY_LIMIT is passed (R152). -/
def busyNak (q : Nat) (x : Qp) (m : TxMsg) (psn : BitVec 32) (s : State) : State :=
  let s := evcPulse 206 (hostPort (qpFn q s)) s
  let b := x.busy + 1
  if x.par.busyLimit != 0 && x.par.busyLimit.toNat < b then failMsg q m St.busyExceeded 0 s
  else
    let (t, s) := busyTime b s
    modQp q (fun y => { y with busy := b, backoff := y.backoff ++ [(psn, s.now + t)] }) s

/-- An arriving NAK (R147, R148). -/
def rxNak (q : Nat) (x : Qp) (p : Packet) (s : State) : State :=
  let code := bits 63 56 p.opx
  match nakOwner x p.psn with
  | none => ignored 130 s
  | some m =>
    if code == 0x80 || code == 0x81 then busyNak q x m p.psn (destAck q p false s)
    else if code == 0x0D then failMsg q m St.remoteAccess (BitVec.ofNat 8 (bits 55 48 p.opx)) (destAck q p false s)
    else if code == 0x0E then failMsg q m St.remoteInvalid 0 (destAck q p false s)
    else if code == 0x0F then failMsg q m St.remoteQpError 0 (destAck q p false s)
    else ignored 130 s

/-! ### ATOMIC_RESP (R220, R221, R377) -/

/-- Write a result record: bytes 0 to 11, then READY as one 4-byte write (R220, R221). -/
def writeRecord (f : Nat) (bus : BitVec 64) (value : BitVec 64) (st dt : BitVec 8) (gen : Nat) (s : State) : State :=
  let body := leBytes 8 value.toNat ++ leBytes 2 gen ++ [st, dt]
  hostWrite f (bus + 12) (leBytes 4 (0x80000000 + gen % 65536)) (hostWrite f bus body s)

/-- The ATOMIC message whose response has arrived and whose record is being written. -/
def atomicWaiting (x : Qp) (psn : BitVec 32) : Option TxMsg :=
  x.msgs.find? (fun m => m.kind == .atomic && m.psn0 == psn && m.pkts.isEmpty && m.sentPsns == 1)

/-- An ATOMIC has finished: its message goes and its entry finishes. -/
def atomicDone (q : Nat) (m : TxMsg) (s : State) : State :=
  finishMsg m St.success 0 (modQp q (fun x => { x with msgs := dropFirst (fun k => k.psn0 == m.psn0 && k.kind == .atomic) x.msgs }) s)

/-- An arriving ATOMIC_RESP: its PSN is acknowledged, and the result record follows if RES_ADDR is not zero (R377). -/
def rxAtomicResp (q : Nat) (x : Qp) (p : Packet) (s : State) : State :=
  match ownerOf x p.psn with
  | none => ignored 130 s
  | some m =>
    if m.kind != .atomic then ignored 130 s
    else
      let (pkts, freed) := respPkts p.psn 0 m.pkts
      let m := { m with pkts := pkts }
      let s := putQp q { x with msgs := x.msgs.map (fun k => if k.psn0 == m.psn0 && k.kind == .atomic then m else k) } s
      let s := afterAck q freed none s
      if p.addr == 0 || frozen (qpFn q s) s then atomicDone q m s
      else xltStart
        { fn := qpFn q s, dom := some x.par.pd, parts := [⟨p.key, p.addr, 16⟩], rights := 0b00010, rd := false, wr := true
          testsOnly := false, purpose := .atomicRecord p } s

/-- The check of an ATOMIC's result record has an outcome (R377). -/
def atomicRecordChecked (p : Packet) (c : Checked) (s : State) : State :=
  let q := p.dstQpn.toNat
  match c, (getQp q s).bind (fun x => atomicWaiting x p.psn) with
  | .pass n segs, some m =>
    let gen := ((m.ref.map (·.idx.toNat)).getD 0) % 65536
    let s := match segs with
      | g :: _ => writeRecord (qpFn q s) g.bus p.opx St.success 0 gen s
      | [] => s
    atomicDone q m (drained n s)
  | .pass n _, none => drained n s
  | .fail d, some m => failMsg q m (faultStatus d) (BitVec.ofNat 8 d) s
  | .fail _, none => s

/-! ### The miss buffer (R125) -/

/-- Put a packet whose context is not resident into the miss buffer, or refuse it (R125), as while the buffer is fenced (R394). -/
def missPacket (q : Nat) (p : Packet) (s : State) : State :=
  let fetching := (tget s.qpc.fetches q).isSome
  if 2048 ≤ s.qpc.missBuf.length || 64 ≤ (s.qpc.missBuf.filter (fun k => k.1.dstQpn.toNat == q)).length ||
      (!fetching && 256 ≤ fetchesOut s) || unitFenced 127 s then sendNak p nakContextBusy 0 s
  else
    let s := { s with qpc := { s.qpc with missBuf := s.qpc.missBuf ++ [(p, s.now)] } }
    if fetching then s else startFetch q none s

/-! ### Arrival (R137) -/

/-- Step 4 and 5 of R137 for a resident context (R115, R116), and what follows, for a packet that came at `since`. -/
def rxResident (q : Nat) (x : Qp) (p : Packet) (since : Nat) (s : State) : State :=
  let req := isRequest p
  if !accepting x then
    if !req then ignored 130 s
    else if x.par.state == .reset || x.par.state == .init then
      if p.dstIncarn == x.par.incarn then sendNak p nakContextBusy 0 s else s
    else sendNak p 0x0F 0 s
  else if !fromPeer x p then evcPulse 203 0 s
  else
    let s := modQp q (fun y => { y with used := true, changed := true }) s
    match getQp q s with
    | none => s
    | some x =>
      if p.op == 0x10 then rxAck q x p s
      else if p.op == 0x11 then rxNak q x p s
      else if p.op == 0x04 then rxReadResp q x p s
      else if p.op == 0x06 then rxAtomicResp q x p s
      else rxRequest q x p since s

/-- A packet at the RXE, through the steps of R137 and R440. -/
def rxArrive (p : Packet) (s : State) : State :=
  if e2eCrc p != p.crc then evcPulse 208 (epPort p.dstEp) s
  else
    let q := p.dstQpn.toNat
    let req := isRequest p
    let s := if req then noteSource p s else s
    match qpRange q s with
    | none => if req then sendNak p 0x0F 0 s else ignored 130 s
    | some (f, _) =>
      if req && frozen f s then sendNak p nakContextBusy 0 s
      else
        match getQp q s with
        | some x => rxResident q x p s.now s
        | none =>
          if !req then ignored 130 s
          else if !bit 1 (rdFn f Reg.QPC_CTXTAB_CTRL s) then sendNak p 0x0F 0 s
          else missPacket q p s

/-! ### Data of packets under way (R107, R136, R166) -/

/-- Bytes of a message's next packet that need no read: inline data, an announcement's descriptor, an atomic's operands. -/
def plainPayload (m : TxMsg) : List Byte :=
  if m.kind == .announce then
    match m.parts with
    | p :: _ => leBytes 8 p.addr.toNat ++ leBytes 4 p.key.toNat ++ leBytes 4 p.len
    | [] => []
  else m.inline

/-- Cells of the data of a queue pair's packet that queue HTX of an attachment holds, or keeps room for while it is read. -/
def htxOf (n : Nat) (held : Bool) (q : Nat) (x : Qp) (s : State) : Nat :=
  match nextMsg s x.msgs 0 with
  | none => 0
  | some (_, m) =>
    let psn := m.psn0 + BitVec.ofNat 32 m.sentPsns
    let has := x.built.any (fun b => b.1 == psn) || (!held && x.building.any (fun b => b.1 == psn))
    if has && hostAttachment (hostPort (qpFn q s)) psn x.builtHalf s == n then ceilDiv (pieceLen m) 256 else 0

/-- Cells in queue HTX of an attachment, with those that reads under way will fill unless `held`. -/
def htxCells (n : Nat) (held : Bool) (s : State) : Nat := (s.qpc.qps.map (fun (x : Nat × Qp) => htxOf n held x.1 x.2 s)).sum

/-- Has queue HTX room for the data of a packet (R163)? -/
def htxRoom (q : Nat) (psn : BitVec 32) (m : TxMsg) (s : State) : Bool :=
  let f := qpFn q s
  htxCells (hostAttachment (hostPort f) psn (nextHalf f s) s) false s + ceilDiv (pieceLen m) 256 ≤ stgCapacity .htx

/-- The TXE turns to the next packet of a queue pair: it asks for its data, or sends it (R135, R153, R166). Nothing new is
sent for a frozen function. -/
def txNext (q : Nat) (s : State) : State :=
  match getQp q s with
  | none => s
  | some x =>
    if !txOpen x s || frozen (qpFn q s) s then s
    else
      match nextMsg s x.msgs 0 with
      | none => s
      | some (i, m) =>
        if !mayStart x i m then s
        else if !needsData m then txSend q x i m (plainPayload m) s
        else
          let psn := m.psn0 + BitVec.ofNat 32 m.sentPsns
          match x.built.filter (fun b => b.1 == psn) with
          | some (_, bs) => txSend q x i m bs s
          | none =>
            if x.building.isSome || !htxRoom q psn m s then s
            else
              xltStart
                { fn := qpFn q s, dom := some x.par.pd, parts := sliceParts m.parts (nextOff m) (pieceLen m)
                  rights := 0b00001, rd := true, wr := false, testsOnly := false, purpose := .txData q psn }
                (putQp q { x with building := some (psn, 0) } s)

/-- The message whose packet with a PSN is being built. -/
def buildingMsg (x : Qp) (psn : BitVec 32) (s : State) : Option TxMsg :=
  match x.building, nextMsg s x.msgs 0 with
  | some (p, _), some (_, m) => if p == psn && m.psn0 + BitVec.ofNat 32 m.sentPsns == psn then some m else none
  | _, _ => none

/-- The TXE stops building a packet that it will not send (R148). -/
def stopBuilding (q : Nat) (psn : BitVec 32) (s : State) : State :=
  modQp q (fun x => if x.building.any (fun b => b.1 == psn) then { x with building := none } else x) s

/-- The check of a packet's source data has an outcome (R107). -/
def txDataChecked (q : Nat) (psn : BitVec 32) (c : Checked) (s : State) : State :=
  match c, getQp q s with
  | .pass n segs, some x =>
    match buildingMsg x psn s with
    | some _ =>
      let f := qpFn q s
      let (half1, s) := takeHalf f s
      let s := putQp q { x with building := some (psn, n), builtHalf := half1 } s
      readSegs (fnLink f + (if half1 then 1 else 0)) f true segs s
    | none => stopBuilding q psn (drained n s)
  | .pass n _, none => drained n s
  | .fail d, some x =>
    match buildingMsg x psn s with
    | some m => failMsg q m (faultStatus d) (BitVec.ofNat 8 d) s
    | none => stopBuilding q psn s
  | .fail _, none => s

/-- The data of the packet being built has come (R166); a PCIe error fails its entry (R67). -/
def txDataCome (q : Nat) (psn : BitVec 32) (d : ReadResult) (s : State) : State :=
  match getQp q s with
  | none => s
  | some x =>
    match buildingMsg x psn s, x.building with
    | some m, some (_, n) =>
      if n == 0 then s
      else
        let s := drained n (putQp q { x with building := none } s)
        match d with
        | .pcieError => failMsg q m St.localPcie 0 s
        | .data bs => modQp q (fun y => { y with built := some (psn, fitBytes (pieceLen m) bs) }) s
    | none, some (p, n) => if p == psn && n != 0 then stopBuilding q psn (drained n s) else s
    | _, none => s

/-- The last piece of an answer with this access has gone. -/
def respEnd (serial : Nat) (s : State) : State :=
  if s.rxe.resps.any (fun r => r.serial == serial) then s else drained serial s

/-- The data of a READ_RESP has come (R136). A PCIe error is reported as a remote access violation with DETAIL 0
(DEDUCED from R381). -/
def respDataCome (q : Nat) (psn : BitVec 32) (d : ReadResult) (s : State) : State :=
  match s.rxe.resps.find? (fun r => r.qpn == q && r.resp.psn == psn) with
  | none => s
  | some r =>
    let s := withRxe (fun e => { e with resps := dropFirst (fun k => k.qpn == q && k.resp.psn == psn) e.resps }) s
    let j := (psn - r.req.psn).toNat
    let s := match d with
      | .data bs => sendResp (bits 31 0 r.resp.opx - 4096 * j) r.req j (fitBytes (min 4096 (reqLen r.req - 4096 * j)) bs) s
      | .pcieError => refuseRemote q r.req 0 s
    respEnd r.serial s

/-! ### Placement complete (R140, R141) -/

/-- A packet leaves the staging queue of one of the attachments of its host port. -/
def leaveHost (k : StgKind) (hp : Nat) (which : StgPkt → Bool) (s : State) : State :=
  stgLeave k (2 * hp + 1) which (stgLeave k (2 * hp) which s)

/-- A packet's placement writes have been sent, when RXP has passed them on: it is marked and counted, and its message may be
delivered. -/
def placementDone (q : Nat) (psn : BitVec 32) (resp : Bool) (s : State) : State :=
  let mine (p : Placing) : Bool := p.qpn == q && p.pkt.psn == psn && (p.kind == .readResp) == resp
  match s.rxe.placing.find? mine with
  | none => s
  | some p =>
    let s := leaveHost .rxp (hostPort (qpFn q s)) (fun e => e.id == p.ser) s
    let s := drained p.serial (withRxe (fun r => { r with placing := dropFirst mine r.placing }) s)
    if resp then readPlaced q psn p.pkt.payload.length (markHalf1 q p.half1 s)
    else (countPacket q p.pkt p.since p.half1 s).1

/-! ### Timers (R149, R151, R152, R184) -/

/-- The oldest unacknowledged message: the one whose packet left first. -/
def oldestMsg (x : Qp) (s : State) : Option TxMsg :=
  match oldestSent x s with
  | none => none
  | some t => (liveMsgs x s).find? (fun m => m.pkts.any (fun p => p.sentAt == t))

/-- RTO expires (R151), counted from the setting of the chip ID if that came later (R490): the packets older than RTO are sent again, or past RETRY_LIMIT the oldest entry fails. -/
def rtoExpire (q : Nat) (s : State) : State :=
  match getQp q s with
  | none => s
  | some x =>
    match oldestSent x s, oldestMsg x s with
    | some t0, some m =>
      let rto := nsPoint (rtoOf (getDest (hostPort (qpFn q s)) x.par.peerEp s) x.retries s)
      let s := advanceTo (max t0 s.xbr.since + rto) s
      if frozen (qpFn q s) s then s
      else if x.par.retryLimit.toNat < x.retries + 1 then failMsg q m St.retryExceeded 0 s
      else
        let s := putQp q { x with retries := x.retries + 1 } s
        resendWhere q (fun t => t.sentAt + rto ≤ s.now) s
    | _, _ => s

/-- Send the announcement of a rendezvous SEND once more, with RETX (R184). -/
def probeAgain (q : Nat) (x : Qp) (m : TxMsg) (s : State) : State :=
  let hp := hostPort (qpFn q s)
  let s := pace hp x.par.peerEp 64 s
  let p := { buildPacket q x { m with sentPsns := 0 } 1 (plainPayload m) s with sentT := sentT s, retx := true }
  let s := modQp q (fun y => { y with msgs := y.msgs.map (fun k =>
    if k.psn0 == m.psn0 && k.kind == .announce then { k with lastAt := s.now } else k) }) s
  evcPulse 205 hp (transmit hp p s)

/-- A busy back-off ends (R152): the refused packet is sent again. -/
def backoffEnd (q : Nat) (s : State) : State :=
  match getQp q s with
  | none => s
  | some x =>
    match x.backoff with
    | [] => s
    | (psn, t) :: rest =>
      let s := advanceTo t (putQp q { x with backoff := rest } s)
      if frozen (qpFn q s) s then s
      else
        match (liveMsgs x s).find? (fun m => waitsRelease m && m.psn0 == psn) with
        | some m => probeAgain q x m s
        | none => resendWhere q (fun k => k.left.contains psn) s

/-- ACK_DELAY expires after the first packet since the last ACK (R149). -/
def ackExpire (q : Nat) (s : State) : State :=
  match getQp q s with
  | none => s
  | some x =>
    match x.ackFirst with
    | none => s
    | some h => sendAck q h (advanceTo (h.since + nz (rf Reg.RXE_ACK 31 16 s) * 16) s)

end Sys2Proof.Machine
end

