-- ==== Sys2Proof/Machine/Issue.lean ====
section
/-! DEFINITION. Issue of the entries that name a queue pair or a counter word (02: R30 to R36; 04: R115; 06: R172, R180;
12: R375): tests at issue, the messages they queue, posted receives, and what follows their fragment tables. -/

namespace Sys2Proof.Machine

/-! ### Queue pairs at issue (R115, R125) -/

/-- What an entry that names a queue pair finds. -/
inductive QpGate where
  | status (st : BitVec 8)
  | fetch
  | ok (x : Qp)
  deriving DecidableEq, Repr

/-- Judge the queue pair that an entry of function `f` names (R115, R523). -/
def qpGate (f q : Nat) (post : Bool) (s : State) : QpGate :=
  match qpRange q s with
  | none => .status St.notPermitted
  | some (g, _) =>
    if g != f then .status St.notPermitted
    else
      match getQp q s with
      | none => if (tget s.qpc.bound q).isNone then .status St.qpState else .fetch
      | some x =>
        match x.par.state with
        | .error => .status St.flushed
        | .active =>
          if !post && x.trans.any (fun t => t.kind == .quiesce) then .status St.qpState else .ok x
        | .quiesced => if post then .ok x else .status St.qpState
        | .init => if post then .ok x else .status St.qpState
        | _ => .status St.qpState

/-- An entry's queue pair fails with a class-Q status: the entry finishes with it, and the queue pair enters ERROR (R69). -/
def failEntry (ref : EntryRef) (q : Nat) (st dt : BitVec 8) (s : State) : State :=
  enterError q st dt (issueFinish ref st dt s)

/-- Queue a message for an entry that is issued. -/
def issueMsg (ref : EntryRef) (q : Nat) (m : TxMsg) (s : State) : State :=
  queueMsg q m (modQp q (fun x => { x with used := true, changed := true }) (markIssued ref s))

/-! ### Messages of entries (R30, R134, R135, R376) -/

/-- The first `n` bytes of an INLINE entry's data area (R34). -/
def inlineData (e : BitVec 512) : List Byte := leBytes (eLength e) (bits 319 128 e)

/-- The message of a SEND, sent eagerly. -/
def sendMsg (ref : EntryRef) (e : BitVec 512) (parts : List Part) : TxMsg :=
  { TxMsg.blank .send (some ref) with
    len := eLength e, npsn := npsns (eLength e), opx := eRaddr e, parts := parts
    inline := if eInline e then inlineData e else [], immV := eImm e
    imm := if eImm e then (eX64 e).extractLsb' 0 32 else 0 }

/-- The announcement of a rendezvous SEND (R180). -/
def announceMsg (ref : EntryRef) (e : BitVec 512) : TxMsg :=
  { TxMsg.blank .announce (some ref) with
    len := 16, opx := eRaddr e, parts := [⟨eLkey e, eLaddr e, eLength e⟩], immV := eImm e
    imm := if eImm e then (eX64 e).extractLsb' 0 32 else 0, notify := true }

/-- The message of a WRITE. -/
def writeMsg (ref : EntryRef) (e : BitVec 512) (parts : List Part) : TxMsg :=
  { sendMsg ref e parts with kind := .write, opx := 0, raddr := eRaddr e, rkey := eRkey e, notify := eNotify e }

/-- The message of a READ. -/
def readMsg (ref : EntryRef) (e : BitVec 512) (parts : List Part) : TxMsg :=
  { TxMsg.blank .read (some ref) with
    len := eLength e, npsn := npsns (eLength e), raddr := eRaddr e, rkey := eRkey e, parts := parts }

/-- The message of an ATOMIC (R376). -/
def atomicMsg (ref : EntryRef) (e : BitVec 512) : TxMsg :=
  { TxMsg.blank .atomic (some ref) with
    len := 32, raddr := eRaddr e, rkey := eRkey e, opx := eY64 e
    inline := leBytes 8 (eX64 e).toNat ++ leBytes 8 (eLaddr e).toNat ++ leBytes 4 (eLkey e).toNat ++
      leBytes 1 (bits 135 128 e) ++ leBytes 1 (bits 143 136 e) ++ leBytes 10 0 }

/-- The message of a COUNTER_ADD (R216). -/
def counterAddMsg (ref : EntryRef) (e : BitVec 512) : TxMsg :=
  { TxMsg.blank .counterAdd (some ref) with raddr := eRaddr e, rkey := eRkey e, opx := eY64 e, notify := eNotify e }

/-- The single range that LADDR, LKEY and LENGTH name. -/
def directPart (e : BitVec 512) : List Part := [⟨eLkey e, eLaddr e, eLength e⟩]

/-! ### Accesses at issue -/

/-- An access made for an entry that names queue pair `q`. -/
def entryAccess (ref : EntryRef) (_q : Nat) (x : Qp) (parts : List Part) (rights : BitVec 5) (rd wr testsOnly : Bool)
    (purpose : Purpose) : Access :=
  { fn := ref.fn, dom := some x.par.pd, parts := parts, rights := rights, rd := rd, wr := wr, testsOnly := testsOnly
    purpose := purpose }

/-- Hold the issue point for an entry whose check has been asked for. -/
def askEntry (ref : EntryRef) (acc : Access) (s : State) : State := xltStart acc (setIssuing ref true none s)

/-- Ask for the fragment table of an INDIRECT entry (R35). Its address must be a multiple of 16. -/
def askTable (ref : EntryRef) (q : Nat) (x : Qp) (e : BitVec 512) (s : State) : State :=
  if (eLaddr e).toNat % 16 != 0 then issueFinish ref St.misaligned 0 s
  else askEntry ref
    (entryAccess ref q x [⟨eLkey e, eLaddr e, 16 * eFrags e⟩] 0b00001 true false false (.entryTable ref)) s

/-- Ask for the check of a SEND or WRITE of length zero (R107). -/
def askZero (ref : EntryRef) (q : Nat) (x : Qp) (e : BitVec 512) (s : State) : State :=
  askEntry ref (entryAccess ref q x (directPart e) 0b00001 true false false (.zeroCheck ref)) s

/-! ### SEND, WRITE, READ, ATOMIC, COUNTER_ADD -/

/-- The rendezvous threshold in bytes, 0 for none (R190). -/
def rndvThresh (s : State) : Nat := rf Reg.MTE_CFG 31 16 s * 1024

/-- Issue a SEND (R34, R35, R107, R180). -/
def issueSend (ref : EntryRef) (q : Nat) (x : Qp) (e : BitVec 512) (s : State) : State :=
  if eInline e then issueMsg ref q (sendMsg ref e []) s
  else if eIndirect e then askTable ref q x e s
  else if rndvThresh s != 0 && rndvThresh s < eLength e then
    askEntry ref (entryAccess ref q x (directPart e) 0b00101 true false true (.sendTest ref)) s
  else if eLength e == 0 then askZero ref q x e s
  else issueMsg ref q (sendMsg ref e (directPart e)) s

/-- Issue a WRITE. -/
def issueWrite (ref : EntryRef) (q : Nat) (x : Qp) (e : BitVec 512) (s : State) : State :=
  if eInline e then issueMsg ref q (writeMsg ref e []) s
  else if eIndirect e then askTable ref q x e s
  else if eLength e == 0 then askZero ref q x e s
  else issueMsg ref q (writeMsg ref e (directPart e)) s

/-- Issue a READ. -/
def issueRead (ref : EntryRef) (q : Nat) (x : Qp) (e : BitVec 512) (s : State) : State :=
  if eIndirect e then askTable ref q x e s else issueMsg ref q (readMsg ref e (directPart e)) s

/-- Issue an ATOMIC (R375): RADDR aligned to its width, LADDR zero or 16-byte aligned. -/
def issueAtomic (ref : EntryRef) (q : Nat) (_x : Qp) (e : BitVec 512) (s : State) : State :=
  if (eRaddr e).toNat % 2 ^ bits 143 136 e != 0 || (eLaddr e).toNat % 16 != 0 then issueFinish ref St.misaligned 0 s
  else issueMsg ref q (atomicMsg ref e) s

/-- Issue a COUNTER_ADD: the target word is 8-byte aligned (R33). -/
def issueCounterAdd (ref : EntryRef) (q : Nat) (_x : Qp) (e : BitVec 512) (s : State) : State :=
  if (eRaddr e).toNat % 8 != 0 then issueFinish ref St.misaligned 0 s else issueMsg ref q (counterAddMsg ref e) s

/-- Issue an entry that names a queue pair, if the ring's next entry carries the opcode: the queue pair is judged, or its
context is fetched first and the entry is not issued yet (R125). -/
def issueQp (op : Nat) (post : Bool) (go : EntryRef → Nat → Qp → BitVec 512 → State → State) (f r : Nat) (s : State) :
    State :=
  match issueOf op f r s with
  | none => s
  | some (ref, e) =>
    match qpGate f (eQpn e) post s with
    | .status st => issueFinish ref st 0 s
    | .fetch => if (tget s.qpc.fetches (eQpn e)).isSome then s else startFetch (eQpn e) none s
    | .ok x => go ref (eQpn e) x e s

/-- An entry whose check or table has an outcome goes on with what its queue pair has become in the meantime (R69, R115, R523): it
finishes with the status that the queue pair gives an entry now, or is issued as `go` says. -/
def entryGoesOn (ref : EntryRef) (post : Bool) (go : Qp → State → State) (s : State) : State :=
  if !refLive ref s then s
  else
    match qpGate ref.fn (eQpn (refRaw ref s)) post s with
    | .status st => issueFinish ref st 0 s
    | .fetch => s
    | .ok x => go x s

/-- The tests of R180 have an outcome: the SEND is announced, waits while 16 rendezvous SENDs of its queue pair wait for
release (R184), or is sent eagerly. -/
def sendTested (ref : EntryRef) (c : Checked) (s : State) : State :=
  let e := refRaw ref s
  let q := eQpn e
  let s := match c with
    | .pass n _ => drained n s
    | .fail _ => s
  entryGoesOn ref false (fun x s =>
    match c with
    | .fail _ => issueMsg ref q (sendMsg ref e (directPart e)) s
    | .pass _ _ =>
      if 16 ≤ (x.msgs.filter (fun m => m.kind == .announce)).length then s
      else issueMsg ref q (announceMsg ref e) s) (setIssuing ref false none s)

/-- The zero-length check has an outcome (R107). -/
def zeroChecked (ref : EntryRef) (c : Checked) (s : State) : State :=
  let e := refRaw ref s
  let q := eQpn e
  match c with
  | .pass n _ =>
    entryGoesOn ref false (fun _ s =>
      issueMsg ref q (if eOpcode e == 0x02 then writeMsg ref e (directPart e) else sendMsg ref e (directPart e)) s)
      (drained n (setIssuing ref false none s))
  | .fail d => entryGoesOn ref false (fun _ s => failEntry ref q (faultStatus d) (BitVec.ofNat 8 d) s) (setIssuing ref false none s)

/-! ### POST_RECV (R61, R172, R185) -/

/-- Ask for the check of a receive's buffer (R172). -/
def askRecv (ref : EntryRef) (q : Nat) (x : Qp) (parts : List Part) (s : State) : State :=
  askEntry ref (entryAccess ref q x parts 0b00010 false true false (.postRecv ref)) s

/-- Issue a POST_RECV. -/
def issuePostRecv (ref : EntryRef) (q : Nat) (x : Qp) (e : BitVec 512) (s : State) : State :=
  if eIndirect e then askTable ref q x e s else askRecv ref q x (directPart e) s

/-- Is there room for one more posted receive of a function (R185, R191)? A receive gives up its posted-receive entry when it is
bound (DESIGN CHOICE: R185 does not say when). -/
def postedRoom (f : Nat) (s : State) : Bool :=
  let quota := rf (Reg.MTE_QUOTA + 8 * f) 50 32 s
  s.mte.posted.length < 262144 && (quota == 0 || (s.mte.posted.filter (fun r => r.fn == f)).length < quota)

/-- The MTE accepts a receive (R172): it is bound to an eligible unexpected message, or posted. -/
def acceptRecv (r : Recv) (s : State) : State :=
  let s := countRecvSearch r s
  let s := withMte (fun m => { m with nextRecv := m.nextRecv + 1 }) s
  match searchUnexp r s with
  | some u => bindUnexp u r s
  | none => withMte (fun m => { m with posted := m.posted ++ [r] }) s

/-- A receive's buffer has been checked (R172): the slot, the posted-receive entry, and the MTE. -/
def postRecvChecked (ref : EntryRef) (parts : List Part) (c : Checked) (s : State) : State :=
  let e := refRaw ref s
  let q := eQpn e
  match c with
  | .fail d => entryGoesOn ref true (fun _ s => failEntry ref q (faultStatus d) (BitVec.ofNat 8 d) s) (setIssuing ref false none s)
  | .pass n _ =>
    entryGoesOn ref true (fun x s =>
      let a := x.par.arvId.toNat
      match arvTake ref.fn a .recv s with
      | none => issueFinish ref St.arrivalNoSlot 0 s
      | some s1 =>
        if !postedRoom ref.fn s then issueFinish ref St.noResource 0 s
        else
          let r : Recv :=
            { id := s1.mte.nextRecv, fn := ref.fn, arv := a, pd := x.par.pd, qpn := q, user := eUser e
              matchBits := eX64 e, ignore := eY64 e, source := e.extractLsb' 128 17, laddr := eLaddr e
              len := eLength e, parts := parts, indirect := eIndirect e, spent := false }
          issueFinish ref St.success 0 (acceptRecv r s1)) (drained n (setIssuing ref false none s))

/-! ### Fragment tables (R35) -/

/-- The domain of the region that holds an entry's descriptor is remembered with the read of it (R219). -/
def notePd (ref : EntryRef) (e : BitVec 512) (s : State) : State :=
  match getRing ref.fn ref.ring s, tget s.xlt.descs (descKey ref.fn ((eLkey e).toNat / 256)) with
  | some g, some d => putRing ref.fn ref.ring { g with readPd := d.pd } s
  | _, _ => s

/-- The check of a table or descriptor has an outcome: it is read, or the entry finishes with the fault. -/
def tableChecked (ref : EntryRef) (c : Checked) (s : State) : State :=
  let e := refRaw ref s
  match c with
  | .pass n segs =>
    if refLive ref s then readSegs (fnLink ref.fn) ref.fn false segs (notePd ref e (setIssuing ref true (some n) s)) else drained n s
  | .fail d =>
    let s := setIssuing ref false none s
    if !refLive ref s then s
    else if opNamesQp (eOpcode e) then
      entryGoesOn ref (eOpcode e == 0x06) (fun _ s => failEntry ref (eQpn e) (faultStatus d) (BitVec.ofNat 8 d) s) s
    else issueFinish ref (faultStatus d) (BitVec.ofNat 8 d) s

/-- An INDIRECT entry goes on with its fragments (R35): their lengths must add up to LENGTH. -/
def fragmentsCome (ref : EntryRef) (e : BitVec 512) (bs : List Byte) (s : State) : State :=
  let q := eQpn e
  let parts := fragParts (eFrags e) (fitBytes (16 * eFrags e) bs)
  entryGoesOn ref (eOpcode e == 0x06) (fun x s =>
    if partsLen parts != eLength e then issueFinish ref St.malformed 0 s
    else if eOpcode e == 0x01 then issueMsg ref q (sendMsg ref e parts) s
    else if eOpcode e == 0x02 then issueMsg ref q (writeMsg ref e parts) s
    else if eOpcode e == 0x03 then issueMsg ref q (readMsg ref e parts) s
    else askRecv ref q x parts s) s

/-- The entry of a ring whose table or descriptor is being read, with the access's number. -/
def readingEntry (f r : Nat) (s : State) : Option (EntryRef × BitVec 512 × Nat) :=
  match getRing f r s with
  | none => none
  | some g =>
    match g.reading, issuable f r s with
    | some n, some (ref, e) => some (ref, e, n)
    | _, _ => none

/-! ### WAIT_CTR and SIGNAL (R33) -/

/-- An access to a counter word, which names no queue pair (R80). -/
def counterAccess (ref : EntryRef) (e : BitVec 512) (wr : Bool) (purpose : Purpose) : Access :=
  { fn := ref.fn, dom := none, parts := [⟨eLkey e, eLaddr e, 8⟩], rights := if wr then 0b00011 else 0b00001, rd := true
    wr := wr, testsOnly := false, purpose := purpose }

/-- The device looks at the counter word of a WAIT_CTR, which is issued if it has not been; `w` is what the read of the
word returned. -/
def waitCtrLook (f r : Nat) (idx : BitVec 32) (w : ReadResult) (s : State) : State :=
  match getRing f r s with
  | none => s
  | some g =>
    let ref : EntryRef := ⟨f, r, g.uid, idx⟩
    let go (e : BitVec 512) (s : State) : State :=
      if (eLaddr e).toNat % 8 != 0 then finishEntry ref St.misaligned 0 s
      else xltStart (counterAccess ref e false (.waitCtr ref w)) s
    match issueOf 0x11 f r s with
    | some (n, e) => if n == ref then go e (markIssued ref s) else s
    | none =>
      match refEntry ref s with
      | some (_, _, x) =>
        if x.issued && x.result.isNone && eOpcode x.raw == 0x11 && !frozen f s then go x.raw s else s
      | none => s

/-- The check of a WAIT_CTR's counter word has an outcome (R33): the word is read and compared, unsigned. -/
def waitCtrChecked (ref : EntryRef) (w : ReadResult) (c : Checked) (s : State) : State :=
  let e := refRaw ref s
  match c with
  | .fail d => finishEntry ref (faultStatus d) (BitVec.ofNat 8 d) s
  | .pass n segs =>
    let s := drained n (readSegs (fnLink ref.fn) ref.fn false segs s)
    match w with
    | .pcieError => finishEntry ref St.localPcie 0 s
    | .data bs => if (eX64 e).toNat ≤ leNat (fitBytes 8 bs) then finishEntry ref St.success 0 s else s

/-- Issue a SIGNAL (R33). -/
def issueSignal (f r : Nat) (s : State) : State :=
  match issueOf 0x12 f r s with
  | none => s
  | some (ref, e) =>
    if (eLaddr e).toNat % 8 != 0 then issueFinish ref St.misaligned 0 s
    else xltStart (counterAccess ref e true (.signal ref)) (markIssued ref s)

/-- The check of a SIGNAL's counter word has an outcome: the addend goes to the atomic unit (R33, R378). -/
def signalChecked (ref : EntryRef) (c : Checked) (s : State) : State :=
  match c with
  | .fail d => finishEntry ref (faultStatus d) (BitVec.ofNat 8 d) s
  | .pass n segs =>
    match segs with
    | g :: _ => pushAtom ⟨.signal ref (eY64 (refRaw ref s)), ref.fn, g.bus, n, false, false, false⟩ s
    | [] => drained n s

end Sys2Proof.Machine
end

