-- ==== Sys2Proof/Machine/Admin.lean ====
section
/-! DEFINITION. Admin entries of the CMP and the XLT (02: R56, R57, R66, R522; 03: R70 to R83, R95 to R98, R104 to R107,
R521): their parameter blocks, their tests and what they perform. -/

namespace Sys2Proof.Machine

/-! ### The parameter block (R522) -/

/-- Bits [hi:lo] of a block are zero. -/
def zeroBits {n : Nat} (hi lo : Nat) (b : BitVec n) : Bool := bits hi lo b == 0

/-- Return a field of `k` bytes in the block of an entry. -/
def blkWrite (ref : EntryRef) (e : BitVec 512) (at_ k v : Nat) (s : State) : State :=
  hostWrite ref.fn (eLaddr e + BitVec.ofNat 64 at_) (leBytes k v) s

/-- An admin entry's next step once its block has been read: a status with which it finishes, or an action. -/
abbrev AdminGo := EntryRef → BitVec 512 → BitVec 2048 → State → State

/-- Run the admin ring's next entry with what the read of its parameter block returned, if it carries the opcode (R522). A
block outside the window is not read, and a PCIe error changes nothing else. -/
def adminRun (op f : Nat) (d : ReadResult) (go : AdminGo) (s : State) : State :=
  match issueOf op f 0 s with
  | none => s
  | some (ref, e) =>
    let n := adminBlockLen op
    if n == 0 then go ref e 0 (markIssued ref s)
    else if !inWindow f (eLaddr e) n s then issueFinish ref St.notPermitted 0 s
    else
      let s := hostRead f (eLaddr e) n (markIssued ref s)
      match d with
      | .pcieError => finishEntry ref St.localPcie 0 s
      | .data bs => go ref e (ofBytes 2048 (fitBytes n bs)) s

/-! ### Command Rings (R56, R57) -/

/-- Is a doorbell page of a function in use? -/
def pageUsed (f page : Nat) (s : State) : Bool :=
  match tget s.cmp.pages (ringKey f page) with
  | some (.ring _) => true
  | some (.arv _) => true
  | _ => false

/-- Assign or free a doorbell page. -/
def setPage (f page : Nat) (u : PageUse) (s : State) : State :=
  { s with cmp := { s.cmp with pages := tset s.cmp.pages (ringKey f page) u } }

/-- Mirror word length and alignment by layout (R49, R51). -/
def mirrorLen (fmt8520 : Bool) : Nat := if fmt8520 then 4 else 8

/-- Size, alignment and layout tests that RING_CREATE and the admin ring share (R55, R56). -/
def ringShapeOk (log2 : Nat) (fmt8520 : Bool) (base mirror : BitVec 64) : Bool :=
  6 ≤ log2 && log2 ≤ 20 && (!fmt8520 || log2 ≤ 15) && base.toNat % 4096 == 0 && mirror.toNat % mirrorLen fmt8520 == 0

/-- The ring and its mirror lie in the window (R55, R56). -/
def ringInWindow (f log2 : Nat) (fmt8520 : Bool) (base mirror : BitVec 64) (s : State) : Bool :=
  inWindow f base (64 * 2 ^ log2) s && inWindow f mirror (mirrorLen fmt8520) s

/-- A ring begins to exist: RUNNING and empty at START, with its first mirror write (R55, R56). -/
def newRing (f id page log2 : Nat) (fmt8520 : Bool) (base mirror : BitVec 64) (start : BitVec 32) (s : State) : State :=
  let g : Ring :=
    { uid := s.cmp.nextUid, base := base, log2size := log2, mirror := mirror, fmt8520 := fmt8520, page := page
      head := start, tail := start, state := .running, errcnt := 0, published := start, entries := [], waitOwn := false
      issuing := false, reading := none, readPd := 0 }
  let s := { s with cmp := { s.cmp with nextUid := s.cmp.nextUid + 1 } }
  publish f id (setPage f page (.ring id) (putRing f id g s))

/-- Command Rings of all functions, and of one, without the admin rings (DESIGN CHOICE: R56 does not say whether an admin ring is
one of the 32,768). -/
def ringCount (s : State) : Nat := (s.cmp.rings.filter (fun x => x.1 % 4096 != 0)).length
def ringCountOf (f : Nat) (s : State) : Nat := (s.cmp.rings.filter (fun x => x.1 / 4096 == f && x.1 % 4096 != 0)).length

/-- RING_CREATE (R56). Of several tests that fail, MALFORMED comes first, then INVALID_PARAM, NOT_PERMITTED and NO_RESOURCE
(DESIGN CHOICE: R56 gives no order). -/
def ringCreateGo : AdminGo := fun ref e b s =>
  let f := ref.fn
  let mirror := b.extractLsb' 192 64
  let base := b.extractLsb' 128 64
  let page := bits 75 64 b
  let log2 := bits 4 0 b
  let fmt := bit 8 b
  if !(zeroBits 127 112 b && zeroBits 95 76 b && zeroBits 31 9 b && zeroBits 7 5 b) then finishEntry ref St.malformed 0 s
  else if !ringShapeOk log2 fmt base mirror || page == 0 || pageUsed f page s then finishEntry ref St.invalidParam 0 s
  else if !ringInWindow f log2 fmt base mirror s then finishEntry ref St.notPermitted 0 s
  else if 32768 ≤ ringCount s || 4095 ≤ ringCountOf f s then finishEntry ref St.noResource 0 s
  else
    match tfree s.cmp.rings (ringKey f 4096) (ringKey f 1) 4095 with
    | none => finishEntry ref St.noResource 0 s
    | some k =>
      let id := k % 4096
      finishEntry ref St.success 0
        (blkWrite ref e 12 2 id (newRing f id page log2 fmt base mirror (b.extractLsb' 32 32) s))

/-- A ring goes: its issued entries finish FLUSHED, its mirror shows DESTROYED, its identifier and page are free (R55,
R57). -/
def dropRing (f id : Nat) (s : State) : State :=
  let s := sweepRing f id St.flushed s
  match getRing f id s with
  | none => s
  | some g =>
    let s := writeMirror f g 4 s
    setPage f g.page .gone { s with cmp := { s.cmp with rings := tdel s.cmp.rings (ringKey f id) } }

/-- RING_DESTROY (R57). -/
def ringDestroyGo : AdminGo := fun ref e _ s =>
  let id := (eX64 e).toNat
  if id == 0 then finishEntry ref St.notPermitted 0 s
  else if 4096 ≤ id || (getRing ref.fn id s).isNone then finishEntry ref St.invalidParam 0 s
  else finishEntry ref St.success 0 (dropRing ref.fn id s)

/-- RING_RESUME (R57). -/
def ringResumeGo : AdminGo := fun ref e _ s =>
  let id := (eX64 e).toNat
  if id == 0 then finishEntry ref St.notPermitted 0 s
  else if 4096 ≤ id then finishEntry ref St.invalidParam 0 s
  else
    match getRing ref.fn id s with
    | none => finishEntry ref St.invalidParam 0 s
    | some g =>
      if g.state == .stoppedFetch || g.state == .frozen then
        finishEntry ref St.success 0 (setRingState ref.fn id .running s)
      else finishEntry ref St.invalidParam 0 s

/-! ### Arrival Rings (R58, R60, R66) -/

/-- Is a queue pair bound to an Arrival Ring? -/
def arvBound (f a : Nat) (s : State) : Bool := s.qpc.bound.any (fun x => x.2.fn == f && x.2.arvId.toNat == a)

/-- The lowest ARV_ID that no ring of the function holds and no queue pair of it is bound to (R66, R127). -/
def freeArv (f : Nat) (s : State) : Option Nat :=
  (List.range 4096).find? (fun a => a != 0 && (getArv f a s).isNone && !arvBound f a s)

/-- Arrival Rings of a function. -/
def arvCountOf (f : Nat) (s : State) : Nat := (s.cmp.arvs.filter (fun x => x.1 / 4096 == f)).length

/-- ARV_CREATE (R66). -/
def arvCreateGo : AdminGo := fun ref e b s =>
  let f := ref.fn
  let base := b.extractLsb' 128 64
  let page := bits 75 64 b
  let log2 := bits 4 0 b
  let size := 2 ^ log2
  let pool := bits 31 12 b
  let start := b.extractLsb' 32 32
  if !(zeroBits 255 192 b && zeroBits 127 112 b && zeroBits 95 76 b && zeroBits 11 5 b) then
    finishEntry ref St.malformed 0 s
  else if !(6 ≤ log2 && log2 ≤ 20 && base.toNat % 4096 == 0) || page == 0 || pageUsed f page s || size < pool + 8 then
    finishEntry ref St.invalidParam 0 s
  else if !inWindow f base (32 * size) s then finishEntry ref St.notPermitted 0 s
  else if 32768 ≤ s.cmp.arvs.length || 4095 ≤ arvCountOf f s then finishEntry ref St.noResource 0 s
  else
    match freeArv f s with
    | none => finishEntry ref St.noResource 0 s
    | some a =>
      let g : Arv :=
        { base := base, log2size := log2, page := page, freeErr := 4, freePool := pool, freeRecv := size - pool - 4
          written := [], consumed := start, produced := start, lost := 0, fenced := false }
      finishEntry ref St.success 0 (blkWrite ref e 12 2 a (setPage f page (.arv a) (putArv f a g s)))

/-- ARV_DESTROY (R66). -/
def arvDestroyGo : AdminGo := fun ref e _ s =>
  let f := ref.fn
  let a := (eX64 e).toNat
  if 4096 ≤ a then finishEntry ref St.invalidParam 0 s
  else
    match getArv f a s with
    | none => finishEntry ref St.invalidParam 0 s
    | some g =>
      if arvBound f a s && !g.fenced then finishEntry ref St.invalidParam 0 s
      else finishEntry ref St.success 0
        (setPage f g.page .gone { s with cmp := { s.cmp with arvs := tdel s.cmp.arvs (ringKey f a) } })

/-! ### Protection domains (R70, R71) -/

/-- PD_ALLOC (R70). -/
def pdAllocGo : AdminGo := fun ref e b s =>
  let root := b.extractLsb' 64 64
  if !(zeroBits 63 48 b && zeroBits 31 0 b) then finishEntry ref St.malformed 0 s
  else if root.toNat % 4096 != 0 then finishEntry ref St.misaligned 0 s
  else if root != 0 && !inWindow ref.fn root 4096 s then finishEntry ref St.notPermitted 0 s
  else
    match tfree s.xlt.pds 65536 0 65536 with
    | none => finishEntry ref St.noResource 0 s
    | some pd =>
      let s := { s with xlt := { s.xlt with pds := tset s.xlt.pds pd { owner := ref.fn, root := root } } }
      finishEntry ref St.success 0 (blkWrite ref e 4 2 pd s)

/-- Mark the walks in progress that an invalidation catches, so that they fill nothing; an access that waits gives up the leaves
that are removed, and finds them anew (R96). -/
def stopFills (hit : Walk → Bool) (gone : Leaf → Bool) (s : State) : State :=
  let mark (w : Waiting) : Waiting :=
    let w := { w with leaves := w.leaves.filter (fun l => !gone l) }
    match w.wait with
    | .walk k => if hit k then { w with wait := .walk { k with noFill := true } } else w
    | _ => w
  { s with xlt := { s.xlt with waiting := s.xlt.waiting.map mark } }

/-- PD_FREE (R71). -/
def pdFreeGo : AdminGo := fun ref e _ s =>
  let pd : BitVec 16 := (eX64 e).extractLsb' 0 16
  match pdJudge ref.fn pd s with
  | some st => finishEntry ref st 0 s
  | none =>
    if s.xlt.regions.any (fun x => x.2.pd == pd) || s.qpc.bound.any (fun x => x.2.pd == pd) ||
        s.xlt.btrs.any (fun x => x.2.pd == pd) || s.xlt.locked.any (fun x => x.2.leaf.dom == pd) then
      finishEntry ref St.invalidParam 0 s
    else
      let s := stopFills (fun w => w.dom == pd) (fun l => l.dom == pd) s
      finishEntry ref St.success 0 { s with xlt := { s.xlt with
        pds := tdel s.xlt.pds pd.toNat
        xtc := s.xlt.xtc.filter (fun l => l.dom != pd)
        walks := s.xlt.walks.filter (fun w => w.dom != pd) } }

/-! ### Keys (R77, R78, R104) -/

/-- Wait for a region descriptor that an admin entry needs; one that cannot be read finishes the entry with LOCAL_PCIE
(R522). -/
def askDesc (ref : EntryRef) (idx : Nat) (purpose : Purpose) (s : State) : State :=
  let a := descAddr ref.fn idx s
  if !readable ref.fn a 32 s then finishEntry ref St.localPcie 0 s
  else suspend
    { fn := ref.fn, dom := none, parts := [], rights := 0, rd := false, wr := false, testsOnly := true, purpose := purpose }
    [] (.desc idx) (hostRead ref.fn a 32 s)

/-- Does a region lie inside a BTR? -/
def insideBtr (va size : Nat) (b : Btr) : Bool :=
  b.vaBase.toNat ≤ va && va + size ≤ b.vaBase.toNat + b.size.toNat

/-- Is a BTR allocated to another function (R77, R81)? -/
def btrOther (f n : Nat) (s : State) : Bool := bit 12 (rdReg (Reg.XLT_BTR_ALLOC + 8 * n) s) && !btrOwned f n s

/-- The tests of MR_REGISTER that need no descriptor (R77, R74, R521): `none` if all pass. -/
def registerJudge (f : Nat) (b : BitVec 256) (s : State) : Option (BitVec 8) :=
  let va := bits 255 192 b
  let size := bits 191 128 b
  let idx := bits 127 104 b
  let pd : BitVec 16 := b.extractLsb' 80 16
  let btr := bits 79 72 b
  if !(zeroBits 71 70 b && zeroBits 63 0 b) then some St.malformed
  else
    match pdJudge f pd s with
    | some st => some st
    | none =>
      let root := ((tget s.xlt.pds pd.toNat).map (·.root)).getD 0
      if !keytabActive f s || idx == 0 || 2 ^ keytabLog2 f s ≤ idx || size == 0 || 2 ^ 48 < size || bits 68 64 b == 0 then
        some St.invalidParam
      else if !bit 69 b then if root == 0 || 2 ^ 48 < va + size then some St.invalidParam else none
      else if btrOther f btr s then some St.notPermitted
      else
        match tget s.xlt.btrs btr with
        | none => some St.invalidParam
        | some x =>
          if !btrOwned f btr s then some St.invalidParam
          else if x.pd != pd then some St.notPermitted
          else if !insideBtr va size x then some St.invalidParam else none

/-- MR_REGISTER with its 32-byte block (R77, R78). -/
def registerGo (ref : EntryRef) (b : BitVec 256) (s : State) : State :=
  let f := ref.fn
  let idx := bits 127 104 b
  match registerJudge f b s with
  | some st => finishEntry ref st 0 s
  | none =>
    match tget s.xlt.descs (descKey f idx) with
    | none => askDesc ref idx (.mrRegister ref b) s
    | some d =>
      if d.state == .valid || d.state == .revoking then finishEntry ref St.invalidParam 0 s
      else
        let n : Desc :=
          { va := b.extractLsb' 192 64, size := b.extractLsb' 128 64, gen := d.gen + 1, pd := b.extractLsb' 80 16
            btr := b.extractLsb' 72 8, state := .valid, modeBtr := bit 69 b, rights := b.extractLsb' 64 5 }
        let s := { s with xlt := { s.xlt with
          regions := tset s.xlt.regions (descKey f idx) { pd := n.pd, btr := if n.modeBtr then some n.btr else none } } }
        finishEntry ref St.success 0 (blkWrite ref (refRaw ref s) 12 1 n.gen.toNat (writeDesc f idx n s))

/-- MR_REVOKE with its 16-byte block (R104): the revocation point, and then the drain. -/
def revokeGo (ref : EntryRef) (b : BitVec 128) (s : State) : State :=
  let f := ref.fn
  let key := bits 127 96 b
  let idx := key / 256
  if !zeroBits 95 0 b then finishEntry ref St.malformed 0 s
  else if !keytabActive f s || idx == 0 || 2 ^ keytabLog2 f s ≤ idx then finishEntry ref St.invalidParam 0 s
  else
    match tget s.xlt.descs (descKey f idx) with
    | none => askDesc ref idx (.mrRevoke ref b) s
    | some d =>
      if d.state != .valid || d.gen.toNat != key % 256 then finishEntry ref St.invalidParam 0 s
      else if !pdOwned f d.pd s then finishEntry ref St.notPermitted 0 s
      else
        let d := { d with state := .revoking }
        startDrain ref (.revoke idx d) [] (writeDesc f idx d s)

/-- MR_REGISTER and MR_REVOKE as admin entries. -/
def mrRegisterGo : AdminGo := fun ref _ b s => registerGo ref (b.extractLsb' 0 256) s
def mrRevokeGo : AdminGo := fun ref _ b s => revokeGo ref (b.extractLsb' 0 128) s

/-! ### Invalidation and locks (R95 to R98) -/

/-- What an invalidation covers. -/
structure InvScope where
  fn : Nat
  scope : Nat
  pd : BitVec 16
  va : Nat
  size : Nat
  deriving DecidableEq, Repr

/-- Does an invalidation match a range of a domain (R95)? -/
def InvScope.hits (v : InvScope) (s : State) (dom : BitVec 16) (a n : Nat) : Bool :=
  if v.scope == 0 then dom == v.pd && overlaps a n v.va v.size
  else if v.scope == 1 then dom == v.pd
  else pdOwned v.fn dom s

/-- The virtual range that a walk-cache entry covers (R95). -/
def WalkEntry.start (w : WalkEntry) : Nat := w.tag.toNat * 2 ^ (12 + 9 * w.level)
def WalkEntry.span (w : WalkEntry) : Nat := 2 ^ (12 + 9 * w.level)

/-- The accesses suspended in a walk that an invalidation catches: such a walk still translates its access, which therefore uses what
is removed (R96). The walk of XLT_LOCK is made anew. -/
def caughtWalks (hit : Walk → Bool) (s : State) : List Nat :=
  s.xlt.waiting.filterMap (fun w => match w.wait, w.access.purpose with
    | .walk _, .lockPage _ => none
    | .walk k, _ => if hit k then some w.serial else none
    | _, _ => none)

/-- XLT_INVALIDATE (R95, R96, R98). LOCKED_LEFT counts the locked entries in the range whether or not LEAF is set (DESIGN CHOICE:
R95 does not say). -/
def xltInvalidateGo : AdminGo := fun ref e b s =>
  let scope := bits 5 4 b
  let pd : BitVec 16 := b.extractLsb' 112 16
  let leaf := bit 0 b
  let walk := bit 1 b
  let judge := if scope == 0 || scope == 1 then pdJudge ref.fn pd s else none
  if !(zeroBits 111 96 b && zeroBits 63 6 b && zeroBits 3 2 b) || (scope != 0 && !zeroBits 255 128 b) ||
      (scope == 2 && pd != 0) then finishEntry ref St.malformed 0 s
  else
    match judge with
    | some st => finishEntry ref st 0 s
    | none =>
      if (!leaf && !walk) || scope == 3 || (scope == 0 && zeroBits 191 128 b) then finishEntry ref St.invalidParam 0 s
      else
        let v : InvScope := { fn := ref.fn, scope := scope, pd := pd, va := bits 255 192 b, size := bits 191 128 b }
        let hitLeaf (l : Leaf) : Bool := v.hits s l.dom l.va.toNat (2 ^ l.log2)
        let left := (s.xlt.locked.filter (fun x => hitLeaf x.2.leaf)).length
        let n := if walk then 39 else 30
        let caught (w : Walk) : Bool := v.hits s w.dom (w.va.toNat / 2 ^ n * 2 ^ n) (2 ^ n)
        let s' := stopFills caught (fun l => leaf && hitLeaf l) s
        let s' := { s' with xlt := { s'.xlt with
          xtc := if leaf then s'.xlt.xtc.filter (fun l => !hitLeaf l) else s'.xlt.xtc
          walks := if walk then s'.xlt.walks.filter (fun w => !v.hits s w.dom w.start w.span) else s'.xlt.walks } }
        startDrain ref .other (caughtWalks caught s) (blkWrite ref e 8 4 left s')

/-- The locked slot that holds a page of a domain. -/
def lockedSlot (pd : BitVec 16) (va : Nat) (s : State) : Option Nat :=
  (s.xlt.locked.find? (fun x => x.2.leaf.covers pd va)).map (·.1)

/-- Begin the walk of XLT_LOCK (R97), unless the page may not be locked. -/
def lockWalk (ref : EntryRef) (pd : BitVec 16) (va : Nat) (s : State) : State :=
    match pdJudge ref.fn pd s with
    | some st => finishEntry ref st 0 s
    | none =>
      let root := ((tget s.xlt.pds pd.toNat).map (·.root)).getD 0
      if root == 0 || 2 ^ 48 ≤ va || (lockedSlot pd va s).isSome then finishEntry ref St.invalidParam 0 s
      else if 256 ≤ s.xlt.locked.length then finishEntry ref St.noResource 0 s
      else
        let w := walkStart pd root va s
        if !tableOk ref.fn w.table s then finishEntry ref St.translationFault 0x11 (countFault ref.fn 0x11 s)
        else
          let s := hostRead ref.fn (w.table + BitVec.ofNat 64 (8 * tableIndex w.level va)) 8 s
          suspend
            { fn := ref.fn, dom := some pd, parts := [], rights := 0, rd := false, wr := false, testsOnly := true
              purpose := .lockPage ref } [] (.walk w) s

/-- XLT_LOCK (R97). -/
def xltLockGo : AdminGo := fun ref _ b s =>
  if !(zeroBits 47 40 b && zeroBits 31 0 b) then finishEntry ref St.malformed 0 s
  else lockWalk ref (b.extractLsb' 48 16) (bits 127 64 b) s

/-- The walk of XLT_LOCK has reached its leaf: it goes into the lowest free lockable entry, in place of any unlocked entry
for the page (R97). A walk that an invalidation or a PD_FREE has caught fills nothing: the page is judged and walked anew (R71,
R96). -/
def lockLeaf (ref : EntryRef) (w : Walk) (l : Leaf) (s : State) : State :=
  if w.noFill then lockWalk ref w.dom w.va.toNat s
  else
  let s := w.path.foldr fillWalk s
  if (lockedSlot l.dom w.va.toNat s).isSome then finishEntry ref St.invalidParam 0 s
  else
    match tfree s.xlt.locked 256 0 256 with
    | none => finishEntry ref St.noResource 0 s
    | some n =>
      let s := { s with xlt := { s.xlt with
        locked := tset s.xlt.locked n { owner := ref.fn, leaf := l, stale := false }
        xtc := s.xlt.xtc.filter (fun m => !(m.dom == l.dom && m.va == l.va && m.log2 == l.log2)) } }
      finishEntry ref St.success 0 (blkWrite ref (refRaw ref s) 4 1 n s)

/-- XLT_UNLOCK (R97). -/
def xltUnlockGo : AdminGo := fun ref _ b s =>
  let va := bits 127 64 b
  let pd : BitVec 16 := b.extractLsb' 48 16
  let slot := bits 39 32 b
  if !(zeroBits 47 40 b && zeroBits 31 0 b) then finishEntry ref St.malformed 0 s
  else
    match pdJudge ref.fn pd s with
    | some st => finishEntry ref st 0 s
    | none =>
      match tget s.xlt.locked slot with
      | none => finishEntry ref St.invalidParam 0 s
      | some l =>
        if l.owner != ref.fn then finishEntry ref St.notPermitted 0 s
        else if !l.leaf.covers pd va then finishEntry ref St.invalidParam 0 s
        else startDrain ref .other [] { s with xlt := { s.xlt with locked := tdel s.xlt.locked slot } }

/-! ### BTR_SET (R82) -/

/-- Does a live region name a BTR? -/
def btrInUse (n : Nat) (s : State) : Bool := s.xlt.regions.any (fun x => x.2.btr.any (fun b => b.toNat == n))

/-- BTR_SET (R82). -/
def btrSetGo : AdminGo := fun ref _ b s =>
  let f := ref.fn
  let n := bits 63 56 b
  let pd : BitVec 16 := b.extractLsb' 32 16
  let va := bits 255 192 b
  let bus := bits 191 128 b
  let size := bits 127 64 b
  if bit 48 b && !(zeroBits 55 49 b && zeroBits 31 2 b) then finishEntry ref St.malformed 0 s
  else if !bit 48 b then
    if !btrOwned f n s then finishEntry ref St.notPermitted 0 s
    else if btrInUse n s then finishEntry ref St.invalidParam 0 s
    else finishEntry ref St.success 0 { s with xlt := { s.xlt with btrs := tdel s.xlt.btrs n } }
  else
    match pdJudge f pd s with
    | some st => finishEntry ref st 0 s
    | none =>
      if !btrOwned f n s then finishEntry ref St.notPermitted 0 s
      else if va % 4096 != 0 || bus % 4096 != 0 || size % 4096 != 0 then finishEntry ref St.misaligned 0 s
      else if size == 0 || btrInUse n s then finishEntry ref St.invalidParam 0 s
      else if 2 ^ 64 < bus + size || !inWindow f (BitVec.ofNat 64 bus) size s then finishEntry ref St.notPermitted 0 s
      else
        let x : Btr :=
          { vaBase := b.extractLsb' 192 64, busBase := b.extractLsb' 128 64, size := b.extractLsb' 64 64, pd := pd
            read := bit 0 b, write := bit 1 b }
        finishEntry ref St.success 0 { s with xlt := { s.xlt with btrs := tset s.xlt.btrs n x } }

end Sys2Proof.Machine
end

