-- ==== Sys2Proof/Machine/Contexts.lean ====
section
/-! DEFINITION. Queue-pair admin entries, context fetches and evictions, and the tables that functions enable (03: R74;
04: R108 to R130, R523; 06: R189; 02: R55). -/

namespace Sys2Proof.Machine

/-! ### Bound counts (R117, R119) -/

/-- Record which objects a queue pair that is not FREE is bound to. -/
def setBound (q f : Nat) (p : QpParam) (s : State) : State :=
  { s with qpc := { s.qpc with bound := tset s.qpc.bound q { fn := f, pd := p.pd, arvId := p.arvId } } }

/-- Does the function hold a live (unfenced) Arrival Ring of a number (R117)? -/
def arvLive (f a : Nat) (s : State) : Bool := (getArv f a s).any (fun g => !g.fenced)

/-- Is a function's context table in use (R110)? -/
def ctxtabActive (f : Nat) (s : State) : Bool := bit 1 (rdFn f Reg.QPC_CTXTAB_CTRL s)

/-- Does a QPN lie in a function's range? -/
def inRange (f q : Nat) (s : State) : Bool := (qpRange q s).any (fun r => r.1 == f)

/-! ### QP_CREATE (R117) -/

/-- The tests of QP_CREATE that need no image: `none` if all pass. -/
def createJudge (f : Nat) (b : BitVec 128) (s : State) : Option (BitVec 8) :=
  let q := bits 127 104 b
  let pd : BitVec 16 := b.extractLsb' 80 16
  if !(zeroBits 103 100 b && zeroBits 98 96 b && zeroBits 79 76 b && zeroBits 47 0 b) then some St.malformed
  else if !ctxtabActive f s then some St.invalidParam
  else if !inRange f q s then some St.notPermitted
  else
    match pdJudge f pd s with
    | some st => some st
    | none =>
      if q == 0 || !arvLive f (bits 75 64 b) s || (tget s.qpc.bound q).isSome then some St.invalidParam
      else if bit 99 b && 8192 ≤ (s.qpc.qps.filter (fun x => x.2.par.pin)).length then some St.noResource
      else none

/-- QP_CREATE asks for the image of its QPN. -/
def qpCreateGo : AdminGo := fun ref _ b s =>
  let blk : BitVec 128 := b.extractLsb' 0 128
  match createJudge ref.fn blk s with
  | some st => finishEntry ref st 0 s
  | none => startFetch (bits 127 104 blk) (some (.create ref blk)) s

/-- The FREE image has come: the queue pair begins to exist in RESET (R117). -/
def createDone (ref : EntryRef) (b : BitVec 128) (incarn : BitVec 16) (s : State) : State :=
  match createJudge ref.fn b s with
  | some st => finishEntry ref st 0 s
  | none =>
    let q := bits 127 104 b
    let p : QpParam :=
      { QpParam.zero with
        pin := bit 99 b, pd := b.extractLsb' 80 16, arvId := b.extractLsb' 64 12, incarn := incarn + 1, egressQ := 4
        retryLimit := 7, busyLimit := 16, state := .reset }
    let s := writeImage q (putQp q (Qp.idle p) (setBound q ref.fn p s))
    finishEntry ref St.success 0 (blkWrite ref (refRaw ref s) 6 2 p.incarn.toNat s)

/-! ### QP_MODIFY (R118, R119, R523) -/

/-- The MASK bits that a transition requires and those that it permits (R119): bits [7:1] as in the block. -/
def transMasks (a b : QpState) : Option (Nat × Nat) :=
  match a, b with
  | .reset, .init => some (0, 0x1E)
  | .init, .active => some (0xE0, 0xE6)
  | .active, .quiesced => some (0, 0)
  | .quiesced, .active => some (0, 0x86)
  | .init, .reset => some (0, 0)
  | .init, .error => some (0, 0)
  | .active, .error => some (0, 0)
  | .quiesced, .error => some (0, 0)
  | .error, .reset => some (0, 0)
  | _, _ => none

/-- The fields whose MASK bit is zero, and the reserved fields, are zero (R118, R522). -/
def modifyFieldsOk (b : BitVec 256) : Bool :=
  let m (i : Nat) : Bool := bit i b
  zeroBits 134 132 b && zeroBits 99 96 b && zeroBits 79 76 b && zeroBits 31 8 b && !m 0 &&
  (m 7 || zeroBits 191 135 b) && (m 6 || zeroBits 255 224 b) && (m 5 || zeroBits 223 192 b) && (m 4 || zeroBits 95 80 b) &&
  (m 3 || zeroBits 75 64 b) && (m 2 || zeroBits 131 128 b) && (m 1 || zeroBits 63 48 b)

/-- The parameters with the fields that MASK selects. -/
def modifyParam (b : BitVec 256) (p : QpParam) (st : QpState) : QpParam :=
  let p := if bit 7 b then
      { p with peerEp := b.extractLsb' 135 17, peerQpn := b.extractLsb' 168 24, peerIncarn := b.extractLsb' 152 16 } else p
  let p := if bit 6 b then { p with sqPsn := b.extractLsb' 224 32 } else p
  let p := if bit 5 b then { p with rqPsn := b.extractLsb' 192 32 } else p
  let p := if bit 4 b then { p with pd := b.extractLsb' 80 16 } else p
  let p := if bit 3 b then { p with arvId := b.extractLsb' 64 12 } else p
  let p := if bit 2 b then { p with egressQ := b.extractLsb' 128 4 } else p
  let p := if bit 1 b then { p with retryLimit := b.extractLsb' 56 8, busyLimit := b.extractLsb' 48 8 } else p
  { p with state := st }

/-- The tests of a transition that the table lists (R119, R127): `none` if all pass. -/
def modifyJudge (f : Nat) (b : BitVec 256) (x : Qp) (st : QpState) (s : State) : Option (BitVec 8) :=
  let mask := bits 7 0 b
  match transMasks x.par.state st with
  | none => some St.qpState
  | some (req, perm) =>
    let pdBad := if bit 4 b then pdJudge f (b.extractLsb' 80 16) s else none
    if x.hollow && st == .reset then some St.qpState
    else if Nat.land mask req != req || Nat.land mask perm != mask then some St.invalidParam
    else
      match pdBad with
      | some e => some e
      | none =>
        let arv := (modifyParam b x.par st).arvId.toNat
        if x.par.state == .reset && !arvLive f arv s then some St.invalidParam
        else if bit 2 b && bits 131 128 b < 4 then some St.invalidParam
        else none

/-- Finish a QP_MODIFY whose transition is complete: the image is written and INCARN returned. -/
def modifyDone (ref : EntryRef) (q : Nat) (blk : BitVec 64) (s : State) : State :=
  match getQp q s with
  | none => finishEntry ref St.success 0 s
  | some x => finishEntry ref St.success 0 (returnIncarn ref.fn blk x.par (writeImage q s))

/-- Perform a transition that has passed its tests (R119, R182). -/
def modifyPerform (ref : EntryRef) (q : Nat) (b : BitVec 256) (x : Qp) (st : QpState) (blk : BitVec 64) (s : State) :
    State :=
  let par := modifyParam b x.par st
  let wait (k : TransKind) (s : State) : State :=
    transCheck q (modQp q (fun y => { y with trans := some ⟨ref, k, par, blk⟩ }) s)
  match x.par.state, st with
  | .reset, .init => modifyDone ref q blk (setBound q ref.fn par (putQp q { x with par := par } s))
  | .init, .active =>
    modifyDone ref q blk (processAll q (putQp q { x with par := par, msn := 0, bitmap := 0, known := 0 } s))
  | .active, .quiesced => wait .quiesce s
  | .quiesced, .active =>
    if bit 7 b then wait (.toActive par.peerEp par.peerQpn par.peerIncarn) s
    else modifyDone ref q blk (putQp q { x with par := par } s)
  | .init, .reset => wait .toReset (flushPosted q s)
  | .error, .reset => wait .toReset (flushPosted q s)
  | _, _ => modifyDone ref q blk (enterError q 0x80 0 s)

/-- QP_MODIFY of a resident queue pair (R119, R523). -/
def modifyResident (ref : EntryRef) (b : BitVec 256) (blk : BitVec 64) (x : Qp) (s : State) : State :=
  let q := bits 127 104 b
  match QpState.ofCode (bits 103 100 b) with
  | none => finishEntry ref St.qpState 0 s
  | some st =>
    if x.trans.isSome && st != .error then finishEntry ref St.qpState 0 s
    else
      match modifyJudge ref.fn b x st s with
      | some e => finishEntry ref e 0 s
      | none => modifyPerform ref q b x st blk s

/-- QP_MODIFY (R118): a context that is not resident is fetched first. -/
def qpModifyGo : AdminGo := fun ref e b s =>
  let blk : BitVec 256 := b.extractLsb' 0 256
  let q := bits 127 104 blk
  if !modifyFieldsOk blk then finishEntry ref St.malformed 0 s
  else if !ctxtabActive ref.fn s then finishEntry ref St.invalidParam 0 s
  else if !inRange ref.fn q s then finishEntry ref St.notPermitted 0 s
  else
    match getQp q s with
    | some x => modifyResident ref blk (eLaddr e) x s
    | none =>
      if (tget s.qpc.bound q).isNone then finishEntry ref St.qpState 0 s
      else startFetch q (some (.modify ref blk)) s

/-! ### QP_QUERY (R120) and QP_DESTROY (R121, R130) -/

/-- Replace the block of a QP_QUERY with an image. -/
def queryWrite (ref : EntryRef) (bs : List Byte) (s : State) : State :=
  finishEntry ref St.success 0 (hostWrite ref.fn (eLaddr (refRaw ref s)) bs s)

/-- QP_QUERY (R120). -/
def qpQueryGo : AdminGo := fun ref _ b s =>
  let q := bits 23 0 b
  if !zeroBits 2047 24 b then finishEntry ref St.malformed 0 s
  else if !ctxtabActive ref.fn s then finishEntry ref St.invalidParam 0 s
  else if !inRange ref.fn q s then finishEntry ref St.notPermitted 0 s
  else
    match getQp q s with
    | some x => queryWrite ref (imageBytes q x) s
    | none => startFetch q (some (.query ref)) s

/-- QP_DESTROY of a resident queue pair (R121, R129, R130, R523). A hollow one re-reads its image first, and is being destroyed all the
while (R523). -/
def destroyResident (ref : EntryRef) (q : Nat) (x : Qp) (s : State) : State :=
  if x.trans.isSome || !(x.par.state == .reset || x.par.state == .error) then finishEntry ref St.qpState 0 s
  else if x.hollow then
    startFetch q (some (.destroy ref)) (modQp q (fun y => { y with trans := some ⟨ref, .destroy, x.par, 0⟩ }) s)
  else
    transCheck q (modQp q (fun y => { y with trans := some ⟨ref, .destroy, x.par, 0⟩ }) (flushPosted q s))

/-- QP_DESTROY (R121). -/
def qpDestroyGo : AdminGo := fun ref e _ s =>
  let q := (eX64 e).toNat
  if !ctxtabActive ref.fn s then finishEntry ref St.invalidParam 0 s
  else if !inRange ref.fn q s then finishEntry ref St.notPermitted 0 s
  else
    match getQp q s with
    | some x => destroyResident ref q x s
    | none =>
      if (tget s.qpc.bound q).isNone then finishEntry ref St.qpState 0 s
      else startFetch q (some (.destroy ref)) s

/-! ### The end of a context fetch (R114, R124 to R127, R130) -/

/-- Process what waited for a fetch: the jobs, then the held packets in the order they arrived. -/
def serveFetch (q : Nat) (jobs : State → State) (s : State) : State :=
  let mine := s.qpc.missBuf.filter (fun p => p.1.dstQpn.toNat == q)
  let s := { s with qpc := { s.qpc with missBuf := s.qpc.missBuf.filter (fun p => p.1.dstQpn.toNat != q) } }
  let s := jobs { s with qpc := { s.qpc with dueErr := tdel s.qpc.dueErr q } }
  mine.foldl (fun s (p, since) =>
    match getQp q s with
    | some x =>
      if frozen (qpFn q s) s then sendNak p nakContextBusy 0 s else rxResident q x p since s
    | none => sendNak p 0x0F 0 s) s

/-- A job on a QPN that no queue pair has but whose image is not FREE, as after a function reset: nothing is installed (R117,
R120). -/
def jobUnbound (q : Nat) (x : Qp) (j : CtxJob) (s : State) : State :=
  match j with
  | .create ref _ => finishEntry ref St.invalidParam 0 s
  | .modify ref _ => finishEntry ref St.qpState 0 s
  | .query ref => queryWrite ref (imageBytes q x) s
  | .destroy ref => finishEntry ref St.qpState 0 s
  | .pull _ => s

/-- QP_DESTROY of a hollow queue pair fails (R130): it is no longer being destroyed. -/
def destroyFails (ref : EntryRef) (q : Nat) (s : State) : State :=
  finishEntry ref St.invalidParam 0 (modQp q (fun x =>
    if x.trans.any (fun t => t.ref == ref) then { x with trans := none } else x) s)

/-- A job of a fetch that has succeeded (R117 to R121, R130, R523), on the queue pair as it then stands: resident, or FREE with an
INCARN. An earlier job of the same fetch may have created or destroyed it. A pull completes even if its receive has been flushed
(R186). -/
def jobGo (q : Nat) (incarn : BitVec 16) (j : CtxJob) (s : State) : State :=
  match getQp q s, j with
  | some _, .create ref _ => finishEntry ref St.invalidParam 0 s
  | some x, .modify ref b => modifyResident ref b (eLaddr (refRaw ref s)) x s
  | some x, .query ref => queryWrite ref (imageBytes q x) s
  | some x, .destroy ref => if x.hollow then destroyFails ref q s else destroyResident ref q x s
  | some _, .pull recv =>
    match s.mte.bound.find? (fun b => b.recv.id == recv) with
    | some b => queuePull b s
    | none => s
  | none, .create ref b => createDone ref b incarn s
  | none, .modify ref _ => finishEntry ref St.qpState 0 s
  | none, .query ref => queryWrite ref (freeImage q incarn) s
  | none, .destroy ref => finishEntry ref St.qpState 0 s
  | none, .pull _ => stopBound q s

/-- The jobs of a fetch in the order in which they came, each with the INCARN that the queue pair last had. -/
def jobsGo (q : Nat) : BitVec 16 → List CtxJob → State → State
  | _, [], s => s
  | inc, j :: t, s =>
    let inc := match getQp q s with
      | some x => x.par.incarn
      | none => inc
    jobsGo q inc t (jobGo q inc j s)

/-- What is held on chip of a queue pair whose image cannot be read (R126, R130): STATE ERROR and ERR_CAUSE. -/
def lostQp (pcie : Bool) : Qp :=
  { Qp.idle { QpParam.zero with state := .error, errCause := if pcie then 0x81 else 0x82 } with hollow := true }

/-- A job on a queue pair whose fetch has failed twice (R117, R120, R130). A QP_QUERY of a QPN that no queue pair has is answered with
the image of a lost one, and nothing is held (DEDUCED from R120). -/
def jobFailed (q : Nat) (pcie : Bool) (j : CtxJob) (s : State) : State :=
  match j with
  | .create ref _ => finishEntry ref (if pcie then St.localPcie else St.invalidParam) 0 s
  | .modify ref b =>
    if bits 103 100 b == 5 then finishEntry ref St.success 0 s else finishEntry ref St.qpState 0 s
  | .query ref =>
    match getQp q s with
    | some x => queryWrite ref (imageBytes q x) s
    | none => queryWrite ref (imageBytes q (lostQp pcie)) s
  | .destroy ref => destroyFails ref q s
  | .pull _ => s

/-- Install a context (R127): one for which an error waits, or whose Arrival Ring has been fenced, enters ERROR before anything is
processed. -/
def installQp (q f : Nat) (x : Qp) (s : State) : State :=
  let s := putQp q x s
  let s := match tget s.qpc.dueErr q with
    | some (cause, detail) => enterError q cause detail s
    | none => s
  if !arvLive f x.par.arvId.toNat s then enterError q St.arrivalOverrun 0 s else s

/-- A fetched context takes its slot. A queue pair that was held without its image (R130) stays in ERROR with its cause and is whole
again, so that QP_DESTROY can proceed. -/
def installFetched (q f : Nat) (y : Qp) (s : State) : State :=
  match getQp q s with
  | some x =>
    if x.hollow then putQp q { y with par := { y.par with state := .error, errCause := x.par.errCause, errDetail := 0 } } s else s
  | none => installQp q f y s

/-- Remove a fetch. -/
def endFetch (q : Nat) (s : State) : State := { s with qpc := { s.qpc with fetches := tdel s.qpc.fetches q } }

/-- Both reads of a fetch have failed (R126, R130): a queue pair that exists is held on chip by QPN, STATE and ERR_CAUSE
alone. Where the two reads fail differently, the second's failure is the cause (DESIGN CHOICE: R126 names a cause only for the same
failure twice). -/
def fetchFailed (q f : Nat) (x : Fetch) (pcie : Bool) (s : State) : State :=
  let s := endFetch q s
  let s :=
    if (tget s.qpc.bound q).isNone || (getQp q s).isSome then s
    else
      let s := evcPulse 201 f s
      abandonQp q (putQp q (lostQp pcie) s)
  issueWaiting (serveFetch q (fun s => x.jobs.foldl (fun s j => jobFailed q pcie j s) s) s)

/-- A context-image read returns (R114, R126). -/
def fetchCome (q : Nat) (d : ReadResult) (s : State) : State :=
  match tget s.qpc.fetches q, qpRange q s with
  | some x, some (f, _) =>
    if x.waitSlot || x.waitRetry then s
    else
      let bad (pcie : Bool) : State :=
        if x.second then fetchFailed q f x pcie s else putFetch q { x with waitRetry := true } s
      match d with
      | .pcieError => bad true
      | .data bs =>
        match imageDecode (fitBytes 256 bs) with
        | .free incarn => issueWaiting (serveFetch q (jobsGo q incarn x.jobs) (endFetch q s))
        | .corrupt => bad false
        | .live y =>
          let s := endFetch q s
          if (tget s.qpc.bound q).isNone then issueWaiting (serveFetch q (fun s => x.jobs.foldl (fun s j => jobUnbound q y j s) s) s)
          else issueWaiting (serveFetch q (jobsGo q y.par.incarn x.jobs) (installFetched q f y s))
  | _, _ => s

/-- A failed fetch is issued once more (R126). -/
def fetchRetry (q : Nat) (s : State) : State :=
  match tget s.qpc.fetches q, qpRange q s with
  | some x, some (f, first) =>
    if !x.waitRetry then s
    else
      let x := { x with waitRetry := false, second := true }
      if readable f (imageAddr f q first s) 256 s then issueFetch q x s else fetchFailed q f x true s
  | _, _ => s

/-! ### Eviction (R123, R124) -/

/-- Is a READ of the peer under way of which a READ_REQ has still to come? -/
def readUnderWay (x : Qp) : Bool := x.readAt.any (fun r => 0 < i32 (r.psn0 + BitVec.ofNat 32 r.npsn - x.par.rqPsn))

/-- May a context be evicted (R123)? One that holds no image in memory (R130) may not, nor one that has a release to send. -/
def evictable (q : Nat) (x : Qp) (s : State) : Bool :=
  !x.par.pin && !x.hollow && x.msgs.isEmpty && x.recs.isEmpty && x.ackFirst.isNone && x.trans.isNone &&
  x.backoff.isEmpty && x.building.isNone && !beingIssued q s && !readUnderWay x && !rxBusy q s &&
  !releaseDue q s

/-- The clock sweep over contexts from the hand on: contexts used since it last passed lose their mark, and the first that
was not used is chosen. -/
def sweepQps (s : State) : List Nat → Tab Qp → Option Nat × Tab Qp
  | [], t => (none, t)
  | q :: rest, t =>
    match tget t q with
    | none => sweepQps s rest t
    | some x =>
      if !evictable q x s then sweepQps s rest t
      else if x.used then sweepQps s rest (tset t q { x with used := false })
      else (some q, t)

/-- Evict one context (R124): written back if it has changed, and its slot given to a fetch that waits. -/
def evictOne (s : State) : State :=
  let keys := s.qpc.qps.map (·.1)
  let order := keys.filter (fun k => s.qpc.hand < k) ++ keys.filter (fun k => k ≤ s.qpc.hand)
  let (pick, t) := sweepQps s (order ++ order) s.qpc.qps
  let s := { s with qpc := { s.qpc with qps := t } }
  match pick with
  | none => s
  | some q =>
    let s := match getQp q s with
      | some x => if x.changed then writeImage q s else s
      | none => s
    issueWaiting { s with qpc := { s.qpc with qps := tdel s.qpc.qps q, hand := q } }

/-- Eviction starts when fewer than 256 slots are free and stops when 512 are (R124). -/
def eviction (s : State) : State :=
  let free := 65536 - wickUsed s
  let on := free < 256 || (s.qpc.evicting && free < 512)
  let s := { s with qpc := { s.qpc with evicting := on } }
  if on then evictOne s else s

/-! ### The tables that a function enables (R55, R74, R110, R189) -/

/-- Set ENABLE of a control register, and ACTIVE or CFG_ERR with it. -/
def enableTable (f ctrl : Nat) (ok : Bool) (s : State) : State :=
  if bit 1 (rdFn f ctrl s) then s
  else
    let s := setFf f ctrl 0 0 1 s
    if ok then setFf f ctrl 1 1 1 s else setFf f ctrl 2 2 1 s

/-- Clear ENABLE and ACTIVE, unless the table is still held: then only CFG_ERR is set. -/
def disableTable (f ctrl : Nat) (held : Bool) (s : State) : State :=
  if !bit 1 (rdFn f ctrl s) then setFf f ctrl 0 0 0 s
  else if held then setFf f ctrl 2 2 1 s
  else setFf f ctrl 1 0 0 s

/-- May the key table be used (R74)? The whole table lies in the window, not its first byte alone (DESIGN CHOICE: R74 speaks of its
BASE). -/
def keytabOk (f : Nat) (s : State) : Bool :=
  let n := keytabLog2 f s
  6 ≤ n && n ≤ 24 && inWindow f (descAddr f 0 s) (32 * 2 ^ n) s

/-- May the context table be used (R109, R110)? -/
def ctxtabOk (f : Nat) (s : State) : Bool :=
  let v := rdReg (Reg.QPC_RANGE + 8 * f) s
  bit 31 v && inWindow f (BitVec.ofNat 64 (ff f Reg.QPC_CTXTAB 63 12 s * 4096)) (256 * 2 ^ bits 28 24 v) s

/-- May the unexpected pool be used (R188, R189)? -/
def uxpoolOk (f : Nat) (s : State) : Bool :=
  let n := ff f Reg.MTE_UXPOOL 4 0 s
  4 ≤ n && n ≤ 20 && inWindow f (BitVec.ofNat 64 (ff f Reg.MTE_UXPOOL 63 12 s * 4096)) (4096 * 2 ^ n) s

/-- The key table of a function is no longer used: its cached descriptors go. -/
def keytabOff (f : Nat) (s : State) : State :=
  let held := s.xlt.regions.any (fun x => x.1 / 2 ^ 24 == f)
  let s' := disableTable f Reg.XLT_KEYTAB_CTRL held s
  if held then s' else { s' with xlt := { s'.xlt with descs := s'.xlt.descs.filter (fun x => x.1 / 2 ^ 24 != f) } }

/-- CMR_ADMIN_CTRL is written with ENABLE 1 (R54, R55). -/
def adminEnable (f : Nat) (start : BitVec 32) (s : State) : State :=
  if bit 1 (rdFn f Reg.CMR_ADMIN_CTRL s) then s
  else
    let s := setFf f Reg.CMR_ADMIN_CTRL 0 0 1 (setFf f Reg.CMR_ADMIN_CTRL 63 32 start.toNat s)
    let r := rdFn f Reg.CMR_ADMIN_RING s
    let log2 := bits 4 0 r
    let fmt := bit 5 r
    let base := BitVec.ofNat 64 (bits 63 12 r * 4096)
    let mirror := BitVec.ofNat 64 (ff f Reg.CMR_ADMIN_MIRROR 63 2 s * 4)
    if ringShapeOk log2 fmt base mirror && ringInWindow f log2 fmt base mirror s then
      setFf f Reg.CMR_ADMIN_CTRL 1 1 1 (newRing f 0 0 log2 fmt base mirror start s)
    else setFf f Reg.CMR_STATUS 1 1 1 s

/-- CMR_ADMIN_CTRL is written with ENABLE 0 (R55). Page 0 stays assigned to the admin ring. -/
def adminDisable (f : Nat) (s : State) : State :=
  let s := setFf f Reg.CMR_ADMIN_CTRL 0 0 0 s
  if !bit 1 (rdFn f Reg.CMR_ADMIN_CTRL s) then s
  else setFf f Reg.CMR_ADMIN_CTRL 1 1 0 (dropRing f 0 s)

/-! ### Returns of the XLT's reads (R72, R85 to R91) -/

/-- Take out of the suspended accesses those that a test selects. -/
def takeWaiting (which : Waiting → Bool) (s : State) : List Waiting × State :=
  (s.xlt.waiting.filter which, { s with xlt := { s.xlt with waiting := s.xlt.waiting.filter (fun w => !which w) } })

/-- Change the wait of the suspended accesses that a test selects. -/
def setWaits (which : Waiting → Bool) (f : Waiting → Waiting) (s : State) : State :=
  { s with xlt := { s.xlt with waiting := s.xlt.waiting.map (fun w => if which w then f w else w) } }

/-- Is an access one of an admin entry that waits for a descriptor? -/
def descAdmin (w : Waiting) : Bool :=
  match w.access.purpose with
  | .mrRegister _ _ => true
  | .mrRevoke _ _ => true
  | _ => false

/-- A region descriptor has been read (R72, R80, R522): accesses that wait for it are checked again, and admin entries go
on. A failed read fills nothing. -/
def descCome (f idx : Nat) (d : ReadResult) (s : State) : State :=
  let which (w : Waiting) : Bool := w.access.fn == f && w.wait == .desc idx
  if !s.xlt.waiting.any which then s
  else
    let (admins, s) := takeWaiting (fun w => which w && descAdmin w) s
    let s := match d with
      | .data bs => cacheDesc f idx (Desc.decode (ofBytes 256 (fitBytes 32 bs))) s
      | .pcieError => s
    let s := setWaits which (fun w => { w with wait := match d with
      | .data _ => .ready
      | .pcieError => .failed 0x07 }) s
    admins.foldl (fun s w =>
      match w.access.purpose, d with
      | .mrRegister ref b, .data _ => registerGo ref b s
      | .mrRevoke ref b, .data _ => revokeGo ref b s
      | .mrRegister ref _, .pcieError => finishEntry ref St.localPcie 0 s
      | .mrRevoke ref _, .pcieError => finishEntry ref St.localPcie 0 s
      | _, _ => s) s

/-- A walk ends without a leaf (R89 to R91, R97). -/
def walkAborts (w : Waiting) (detail : Nat) (s : State) : State :=
  match w.access.purpose with
  | .lockPage ref =>
    let (_, s) := takeWaiting (fun k => k.serial == w.serial) s
    finishEntry ref St.translationFault (BitVec.ofNat 8 detail) (countFault w.access.fn detail s)
  | _ => setWaits (fun k => k.serial == w.serial) (fun k => { k with wait := .failed detail }) s

/-- A walk has read one entry (R85 to R91): it aborts, goes down a level, or has its leaf. -/
def walkCome (serial : Nat) (d : ReadResult) (s : State) : State :=
  match s.xlt.waiting.find? (fun w => w.serial == serial) with
  | none => s
  | some w =>
    match w.wait with
    | .walk k =>
      match d with
      | .pcieError => walkAborts w 0x10 s
      | .data bs =>
        match walkEntry k (ofBytes 64 (fitBytes 8 bs)) with
        | .fail n => walkAborts w n s
        | .table next =>
          let k := k.down next
          if !tableOk w.access.fn k.table s then walkAborts w 0x11 s
          else
            let s := hostRead w.access.fn (k.table + BitVec.ofNat 64 (8 * tableIndex k.level k.va.toNat)) 8 s
            setWaits (fun j => j.serial == serial) (fun j => { j with wait := .walk k }) s
        | .leaf l =>
          match w.access.purpose with
          | .lockPage ref => lockLeaf ref k l (takeWaiting (fun j => j.serial == serial) s).2
          | _ =>
            setWaits (fun j => j.serial == serial) (fun j => { j with wait := .ready, leaves := l :: j.leaves })
              (fillCaches k l s)
    | _ => s

/-- The oldest flushing read of a PCIe link has completed (R105, R141, R467). A drain cannot tell an error from success
(DEDUCED: R105 asks only that the read complete); a notice that waited for one that failed is not written, and its queue
pair enters ERROR with LOCAL_PCIE. While the function is frozen nothing is written, and a receive waits for its flush (R524). The release
of a pulled receive follows its notice (R183). -/
def flushCome (link : Nat) (d : ReadResult) (s : State) : State :=
  match s.xlt.flushes.find? (fun x => x.1 == link) with
  | none => s
  | some (_, why) =>
    let s := { s with xlt := { s.xlt with flushes := dropFirst (fun x => x.1 == link) s.xlt.flushes } }
    match why with
    | .drain _ => drainStep s
    | .notice f a b n recv release =>
      if frozen f s then
        match recv with
        | some c => endRelease recv release (spend c.recv s)
        | none => s
      else
        match d with
        | .data _ => endRelease recv release (writeNotice f a b n s)
        | .pcieError =>
          let s := match b with
            | .recv => writeNotice f a b { n with status := St.flushed, kind := 4, bytes := 0 } s
            | _ => arvGive f a b s
          enterError n.qpn St.localPcie 0 (endRelease recv release s)

end Sys2Proof.Machine
end

