-- ==== Sys2Proof/Machine/TaperCode.lean ====
section
/-! DEFINITION. The instruction words of the Taper cores (08: R235, R236): encoder and decoder. -/

namespace Sys2Proof.Machine

/-- A word from its opcode and the 24 bits below. -/
def tWord (opc low : Nat) : BitVec 32 := BitVec.ofNat 32 (opc * 2 ^ 24 + low)

/-- Format R. -/
def fmtR (opc : Nat) (rd ra rb : WReg) : BitVec 32 := tWord opc (rd.toNat * 2 ^ 20 + ra.toNat * 2 ^ 16 + rb.toNat * 2 ^ 12)

/-- Format I; format B has the same fields. -/
def fmtI (opc : Nat) (rd ra : WReg) (imm : BitVec 16) : BitVec 32 :=
  tWord opc (rd.toNat * 2 ^ 20 + ra.toNat * 2 ^ 16 + imm.toNat)

/-- Format J. -/
def fmtJ (opc : Nat) (off : BitVec 24) : BitVec 32 := tWord opc off.toNat

/-- Format V. -/
def fmtV (opc : Nat) (vd vb : VReg) (ra rb : WReg) (imm : BitVec 12) : BitVec 32 :=
  tWord opc (vd.toNat * 2 ^ 22 + vb.toNat * 2 ^ 20 + ra.toNat * 2 ^ 16 + rb.toNat * 2 ^ 12 + imm.toNat)

/-- The word of a Taper instruction; `none` for what no word of R236 stands for. -/
def taperEncode (i : Instr) : Option (BitVec 32) :=
  match i with
  | .tAdd _ rd ra rb => some (fmtR 0x01 rd ra rb)
  | .tSub _ rd ra rb => some (fmtR 0x02 rd ra rb)
  | .tAnd _ rd ra rb => some (fmtR 0x03 rd ra rb)
  | .tOr _ rd ra rb => some (fmtR 0x04 rd ra rb)
  | .tXor _ rd ra rb => some (fmtR 0x05 rd ra rb)
  | .tShl _ rd ra rb => some (fmtR 0x06 rd ra rb)
  | .tShr _ rd ra rb => some (fmtR 0x07 rd ra rb)
  | .tSar _ rd ra rb => some (fmtR 0x08 rd ra rb)
  | .tMul _ rd ra rb => some (fmtR 0x09 rd ra rb)
  | .tMulhu _ rd ra rb => some (fmtR 0x0A rd ra rb)
  | .tSlt _ rd ra rb => some (fmtR 0x0B rd ra rb)
  | .tSltu _ rd ra rb => some (fmtR 0x0C rd ra rb)
  | .tAadd _ rd ra rb => some (fmtR 0x28 rd ra rb)
  | .tAswp _ rd ra rb => some (fmtR 0x29 rd ra rb)
  | .tAcas _ rd ra rb => some (fmtR 0x2A rd ra rb)
  | .tCcpy _ rd ra rb => some (fmtR 0x5A rd ra rb)
  | .tMbxput _ rd ra rb => some (fmtR 0x63 rd ra rb)
  | .tAddi _ rd ra imm => some (fmtI 0x10 rd ra imm)
  | .tAndi _ rd ra imm => some (fmtI 0x11 rd ra imm)
  | .tOri _ rd ra imm => some (fmtI 0x12 rd ra imm)
  | .tXori _ rd ra imm => some (fmtI 0x13 rd ra imm)
  | .tSlti _ rd ra imm => some (fmtI 0x17 rd ra imm)
  | .tSltiu _ rd ra imm => some (fmtI 0x18 rd ra imm)
  | .tLd _ rd ra imm => some (fmtI 0x20 rd ra imm)
  | .tLw _ rd ra imm => some (fmtI 0x21 rd ra imm)
  | .tLh _ rd ra imm => some (fmtI 0x22 rd ra imm)
  | .tLb _ rd ra imm => some (fmtI 0x23 rd ra imm)
  | .tSt _ rd ra imm => some (fmtI 0x24 rd ra imm)
  | .tSw _ rd ra imm => some (fmtI 0x25 rd ra imm)
  | .tSh _ rd ra imm => some (fmtI 0x26 rd ra imm)
  | .tSb _ rd ra imm => some (fmtI 0x27 rd ra imm)
  | .tShli _ rd ra imm => if bits 15 6 imm == 0 then some (fmtI 0x14 rd ra imm) else none
  | .tShri _ rd ra imm => if bits 15 6 imm == 0 then some (fmtI 0x15 rd ra imm) else none
  | .tSari _ rd ra imm => if bits 15 6 imm == 0 then some (fmtI 0x16 rd ra imm) else none
  | .tMovz _ rd lane imm => some (fmtI 0x19 rd (lane.zeroExtend 4) imm)
  | .tMovk _ rd lane imm => some (fmtI 0x1A rd (lane.zeroExtend 4) imm)
  | .tBeq _ ra rb off => some (fmtI 0x40 ra rb off)
  | .tBne _ ra rb off => some (fmtI 0x41 ra rb off)
  | .tBlt _ ra rb off => some (fmtI 0x42 ra rb off)
  | .tBge _ ra rb off => some (fmtI 0x43 ra rb off)
  | .tBltu _ ra rb off => some (fmtI 0x44 ra rb off)
  | .tBgeu _ ra rb off => some (fmtI 0x45 ra rb off)
  | .tJmp _ off => some (fmtJ 0x48 off)
  | .tCall _ off => some (fmtJ 0x49 off)
  | .tRet _ => some (fmtR 0x4B 0 0 0)
  | .tEnd _ => some (fmtR 0x4C 0 0 0)
  | .tCfree _ => some (fmtR 0x5B 0 0 0)
  | .tWaitev _ rd imm => some (fmtI 0x50 rd 0 imm)
  | .tPollev _ rd imm => some (fmtI 0x51 rd 0 imm)
  | .tSys _ rd imm => some (fmtI 0x54 rd 0 imm)
  | .tBrk _ imm => some (fmtI 0x4F 0 0 imm)
  | .tJr _ ra => some (fmtR 0x4A 0 ra 0)
  | .tTimer _ ra => some (fmtR 0x52 0 ra 0)
  | .tRdtime _ rd => some (fmtR 0x53 rd 0 0)
  | .tVld _ vd ra imm => some (fmtV 0x30 vd 0 ra 0 imm)
  | .tVst _ vb ra imm => some (fmtV 0x31 0 vb ra 0 imm)
  | .tVins _ vd ra lane => some (fmtV 0x32 vd 0 ra 0 (lane.zeroExtend 12))
  | .tVext _ rb vb lane => some (fmtV 0x33 0 vb 0 rb (lane.zeroExtend 12))
  | .tVmov _ vd vb => some (fmtV 0x34 vd vb 0 0 0)
  | .tVzero _ vd => some (fmtV 0x35 vd 0 0 0 0)
  | .tCrd _ vd ra imm => some (fmtV 0x58 vd 0 ra 0 imm)
  | .tCwr _ vb ra imm => some (fmtV 0x59 0 vb ra 0 imm)
  | .tColop _ vb => some (fmtV 0x60 0 vb 0 0 0)
  | .tMsg _ vb => some (fmtV 0x61 0 vb 0 0 0)
  | .tHxfer _ vb => some (fmtV 0x62 0 vb 0 0 0)
  | .tSemacq _ rd ra => some (fmtR 0x64 rd ra 0)
  | .tSemrel _ ra => some (fmtR 0x65 0 ra 0)
  | .tNote _ vb rb => some (fmtV 0x66 0 vb 0 rb 0)
  | _ => none

/-- The instruction that a word stands for on core `c`, if it is one of R236 with its zero fields zero. -/
def taperDecode (c : CoreId) (w : BitVec 32) : Option Instr :=
  let opc := bits 31 24 w
  let rd : WReg := w.extractLsb' 20 4
  let ra : WReg := w.extractLsb' 16 4
  let rb : WReg := w.extractLsb' 12 4
  let imm : BitVec 16 := w.extractLsb' 0 16
  let i12 : BitVec 12 := w.extractLsb' 0 12
  let vd : VReg := w.extractLsb' 22 2
  let vb : VReg := w.extractLsb' 20 2
  let z (hi lo : Nat) : Bool := bits hi lo w == 0
  let on (ok : Bool) (i : Instr) : Option Instr := if ok then some i else none
  match opc with
  | 0x01 => on (z 11 0) (.tAdd c rd ra rb)
  | 0x02 => on (z 11 0) (.tSub c rd ra rb)
  | 0x03 => on (z 11 0) (.tAnd c rd ra rb)
  | 0x04 => on (z 11 0) (.tOr c rd ra rb)
  | 0x05 => on (z 11 0) (.tXor c rd ra rb)
  | 0x06 => on (z 11 0) (.tShl c rd ra rb)
  | 0x07 => on (z 11 0) (.tShr c rd ra rb)
  | 0x08 => on (z 11 0) (.tSar c rd ra rb)
  | 0x09 => on (z 11 0) (.tMul c rd ra rb)
  | 0x0A => on (z 11 0) (.tMulhu c rd ra rb)
  | 0x0B => on (z 11 0) (.tSlt c rd ra rb)
  | 0x0C => on (z 11 0) (.tSltu c rd ra rb)
  | 0x28 => on (z 11 0) (.tAadd c rd ra rb)
  | 0x29 => on (z 11 0) (.tAswp c rd ra rb)
  | 0x2A => on (z 11 0) (.tAcas c rd ra rb)
  | 0x5A => on (z 11 0) (.tCcpy c rd ra rb)
  | 0x63 => on (z 11 0) (.tMbxput c rd ra rb)
  | 0x10 => some (.tAddi c rd ra imm)
  | 0x11 => some (.tAndi c rd ra imm)
  | 0x12 => some (.tOri c rd ra imm)
  | 0x13 => some (.tXori c rd ra imm)
  | 0x17 => some (.tSlti c rd ra imm)
  | 0x18 => some (.tSltiu c rd ra imm)
  | 0x20 => some (.tLd c rd ra imm)
  | 0x21 => some (.tLw c rd ra imm)
  | 0x22 => some (.tLh c rd ra imm)
  | 0x23 => some (.tLb c rd ra imm)
  | 0x24 => some (.tSt c rd ra imm)
  | 0x25 => some (.tSw c rd ra imm)
  | 0x26 => some (.tSh c rd ra imm)
  | 0x27 => some (.tSb c rd ra imm)
  | 0x14 => on (z 15 6) (.tShli c rd ra imm)
  | 0x15 => on (z 15 6) (.tShri c rd ra imm)
  | 0x16 => on (z 15 6) (.tSari c rd ra imm)
  | 0x19 => on (z 19 18) (.tMovz c rd (w.extractLsb' 16 2) imm)
  | 0x1A => on (z 19 18) (.tMovk c rd (w.extractLsb' 16 2) imm)
  | 0x40 => some (.tBeq c rd ra imm)
  | 0x41 => some (.tBne c rd ra imm)
  | 0x42 => some (.tBlt c rd ra imm)
  | 0x43 => some (.tBge c rd ra imm)
  | 0x44 => some (.tBltu c rd ra imm)
  | 0x45 => some (.tBgeu c rd ra imm)
  | 0x48 => some (.tJmp c (w.extractLsb' 0 24))
  | 0x49 => some (.tCall c (w.extractLsb' 0 24))
  | 0x4B => on (z 23 0) (.tRet c)
  | 0x4C => on (z 23 0) (.tEnd c)
  | 0x5B => on (z 23 0) (.tCfree c)
  | 0x50 => on (z 19 16) (.tWaitev c rd imm)
  | 0x51 => on (z 19 16) (.tPollev c rd imm)
  | 0x54 => on (z 19 16) (.tSys c rd imm)
  | 0x4F => on (z 23 16) (.tBrk c imm)
  | 0x4A => on (z 23 20 && z 15 0) (.tJr c ra)
  | 0x52 => on (z 23 20 && z 15 0) (.tTimer c ra)
  | 0x53 => on (z 19 0) (.tRdtime c rd)
  | 0x30 => on (z 21 20 && z 15 12) (.tVld c vd ra i12)
  | 0x31 => on (z 23 22 && z 15 12) (.tVst c vb ra i12)
  | 0x32 => on (z 21 20 && z 15 3) (.tVins c vd ra (w.extractLsb' 0 3))
  | 0x33 => on (z 23 22 && z 19 16 && z 11 3) (.tVext c rb vb (w.extractLsb' 0 3))
  | 0x34 => on (z 19 0) (.tVmov c vd vb)
  | 0x35 => on (z 21 0) (.tVzero c vd)
  | 0x58 => on (z 21 20 && z 15 12) (.tCrd c vd ra i12)
  | 0x59 => on (z 23 22 && z 15 12) (.tCwr c vb ra i12)
  | 0x60 => on (z 23 22 && z 19 0) (.tColop c vb)
  | 0x61 => on (z 23 22 && z 19 0) (.tMsg c vb)
  | 0x62 => on (z 23 22 && z 19 0) (.tHxfer c vb)
  | 0x64 => on (z 15 0) (.tSemacq c rd ra)
  | 0x65 => on (z 23 20 && z 15 0) (.tSemrel c ra)
  | 0x66 => on (z 23 22 && z 19 16 && z 11 0) (.tNote c vb rb)
  | _ => none

end Sys2Proof.Machine
end

