-- ==== Sys2Proof/Machine/Numerics.lean ====
section
/-! DEFINITION. The arithmetic of the reduction units (07: R208, R209, R211 to R215). -/

namespace Sys2Proof.Machine

/-! ### Floating-point formats (R209) -/

/-- A binary format: exponent and fraction bits. -/
structure FpFmt where
  e : Nat
  f : Nat
  deriving DecidableEq, Repr

def fp64 : FpFmt := ⟨11, 52⟩
def fp32 : FpFmt := ⟨8, 23⟩
def bf16 : FpFmt := ⟨8, 7⟩
def fp16 : FpFmt := ⟨5, 10⟩

/-- The encoding of +∞: the largest exponent with a zero fraction. -/
def FpFmt.infBits (m : FpFmt) : Nat := (2 ^ m.e - 1) * 2 ^ m.f

/-- The bit of the sign. -/
def FpFmt.signBit (m : FpFmt) : Nat := 2 ^ (m.e + m.f)

/-- The canonical quiet NaN (R209). -/
def FpFmt.qnan (m : FpFmt) : Nat := m.infBits + 2 ^ (m.f - 1)

def FpFmt.neg (m : FpFmt) (x : Nat) : Bool := x / m.signBit % 2 == 1
def FpFmt.abs (m : FpFmt) (x : Nat) : Nat := x % m.signBit
def FpFmt.isNan (m : FpFmt) (x : Nat) : Bool := m.infBits < m.abs x
def FpFmt.isInf (m : FpFmt) (x : Nat) : Bool := m.abs x == m.infBits

/-- The magnitude of a finite value in units of the format's least subnormal. -/
def FpFmt.mag (m : FpFmt) (x : Nat) : Nat :=
  let ex := m.abs x / 2 ^ m.f
  let fr := x % 2 ^ m.f
  if ex == 0 then fr else (2 ^ m.f + fr) * 2 ^ (ex - 1)

/-- The finite value as an integer in those units. -/
def FpFmt.int (m : FpFmt) (x : Nat) : Int := if m.neg x then -(m.mag x : Int) else m.mag x

/-- A quotient by a power of two rounded to nearest, ties to even. -/
def rneShift (n k : Nat) : Nat :=
  let q := n / 2 ^ k
  let r := n % 2 ^ k
  if 2 ^ k < 2 * r || (2 * r == 2 ^ k && q % 2 == 1) then q + 1 else q

/-- The encoding of a magnitude in units of the least subnormal, rounded to nearest even; beyond the largest finite value it is
infinity. -/
def FpFmt.encodeMag (m : FpFmt) (n : Nat) : Nat :=
  if n < 2 ^ (m.f + 1) then n
  else
    let k := Nat.log2 n - m.f
    min m.infBits (k * 2 ^ m.f + rneShift n k)

/-- IEEE 754 addition with roundTiesToEven (R209). -/
def FpFmt.add (m : FpFmt) (a b : Nat) : Nat :=
  if m.isNan a || m.isNan b then m.qnan
  else if m.isInf a then (if m.isInf b && m.neg a != m.neg b then m.qnan else a)
  else if m.isInf b then b
  else
    let v := m.int a + m.int b
    if v == 0 then (if m.neg a && m.neg b then m.signBit else 0)
    else if v < 0 then m.signBit + m.encodeMag v.natAbs else m.encodeMag v.natAbs

/-- The order of MIN and MAX: −0 below +0 (R209). -/
def FpFmt.key (m : FpFmt) (x : Nat) : Int := if m.neg x then -(m.abs x : Int) - 1 else m.abs x

def FpFmt.minimum (m : FpFmt) (a b : Nat) : Nat :=
  if m.isNan a || m.isNan b then m.qnan else if m.key a ≤ m.key b then a else b

def FpFmt.maximum (m : FpFmt) (a b : Nat) : Nat :=
  if m.isNan a || m.isNan b then m.qnan else if m.key b ≤ m.key a then a else b

/-! ### Elements (R208, R209) -/

/-- Bytes of an element of a TYPE (R208). -/
def elemBytes (ty : Nat) : Nat :=
  if ty == 0 || ty == 4 || ty == 6 then 8 else if ty == 1 || ty == 5 || ty == 7 then 4 else 2

/-- A pair of OP and TYPE is permitted (R208). -/
def pairOk (op ty : Nat) : Bool :=
  (op ≤ 2 && ty ≤ 7) || (3 ≤ op && op ≤ 5 && 4 ≤ ty && ty ≤ 7) || ((op == 6 || op == 7) && ty == 0)

/-- The floating-point format of a TYPE, if it has one. -/
def typeFmt (ty : Nat) : Option FpFmt :=
  if ty == 0 then some fp64 else if ty == 1 then some fp32 else if ty == 2 then some bf16 else if ty == 3 then some fp16 else none

/-- An unsigned number of `w` bits read as signed. -/
def asSigned (w x : Nat) : Int := if x < 2 ^ (w - 1) then (x : Int) else (x : Int) - 2 ^ w

/-- One operation of a rounded mode on two elements (R209). -/
def elemOp (op ty a b : Nat) : Nat :=
  match typeFmt ty with
  | some m => if op == 0 then m.add a b else if op == 1 then m.minimum a b else m.maximum a b
  | none =>
    let w := 8 * elemBytes ty
    let below : Bool := if ty == 4 || ty == 5 then asSigned w a ≤ asSigned w b else a ≤ b
    if op == 0 then (a + b) % 2 ^ w
    else if op == 1 then (if below then a else b)
    else if op == 2 then (if below then b else a)
    else if op == 3 then Nat.land a b
    else if op == 4 then Nat.lor a b
    else Nat.xor a b

/-- The elements of a chunk, little-endian. -/
def elems (w : Nat) : Nat → List Byte → List Nat
  | 0, _ => []
  | n + 1, bs => leNat (bs.take w) :: elems w n (bs.drop w)

/-- The bytes of elements. -/
def unelems (w : Nat) (xs : List Nat) : List Byte := xs.flatMap (leBytes w)

/-- A rounded REDUCE of chunks of `len` bytes: a left fold in the listed order (R211). -/
def reduceRounded (op ty len : Nat) : List (List Byte) → List Byte
  | [] => []
  | c :: cs =>
    let w := elemBytes ty
    let n := len / w
    unelems w (cs.foldl (fun r d => List.zipWith (elemOp op ty) r (elems w n d)) (elems w n c))

/-! ### The long accumulator (R212 to R215) -/

/-- A LAC to which nothing has been added. -/
def Lac.zero : Lac := { v := 0, nanf := false, pinf := false, ninf := false, allNeg0 := true }

/-- A LAC with the flags of an addend (R213). -/
def Lac.flag (l : Lac) (nan pinf ninf negZero : Bool) (x : Int) : Lac :=
  { v := l.v + BitVec.ofInt 4288 x, nanf := l.nanf || nan, pinf := l.pinf || pinf, ninf := l.ninf || ninf, allNeg0 := l.allNeg0 && negZero }

/-- An fp64 value is added exactly (R213). -/
def Lac.addF64 (l : Lac) (x : Nat) : Lac :=
  let m := fp64
  if m.isNan x then l.flag true false false false 0
  else if m.isInf x then l.flag false (!m.neg x) (m.neg x) false 0
  else l.flag false false false (m.neg x && m.mag x == 0) (m.int x * 2 ^ 1074)

/-- The exact product of two fp64 values is added (R213). -/
def Lac.addProd (l : Lac) (a b : Nat) : Lac :=
  let m := fp64
  let neg := m.neg a != m.neg b
  if m.isNan a || m.isNan b then l.flag true false false false 0
  else if m.isInf a || m.isInf b then
    if (m.mag a == 0 && !m.isInf a) || (m.mag b == 0 && !m.isInf b) then l.flag true false false false 0
    else l.flag false (!neg) neg false 0
  else l.flag false false false (neg && (m.mag a == 0 || m.mag b == 0)) (m.int a * m.int b)

/-- A partial is added. -/
def Lac.join (l k : Lac) : Lac :=
  { v := l.v + k.v, nanf := l.nanf || k.nanf, pinf := l.pinf || k.pinf, ninf := l.ninf || k.ninf,
    allNeg0 := l.allNeg0 && k.allNeg0 }

/-- The number of limbs of the shortest two's-complement run that holds a value (R214). -/
def limbCount (x : Int) : Nat → Nat
  | 0 => 0
  | n + 1 =>
    let c := 67 - n
    if -(2 ^ (64 * c - 1) : Int) ≤ x && x < 2 ^ (64 * c - 1) then c else limbCount x n

/-- The index of the lowest limb that is not zero. -/
def lowLimb (x : Nat) : Nat → Nat → Nat
  | k, 0 => k
  | k, n + 1 => if x / 2 ^ (64 * k) % 2 ^ 64 == 0 then lowLimb x (k + 1) n else k

/-- The record of a LAC in an exact partial (R214). -/
def Lac.record (l : Lac) : List Byte :=
  let flags := (if l.nanf then 128 else 0) + (if l.pinf then 64 else 0) + (if l.ninf then 32 else 0) +
    (if l.allNeg0 then 16 else 0)
  if l.v == 0 then leBytes 8 flags
  else
    let low := lowLimb l.v.toNat 0 66
    let x := l.v.toInt / 2 ^ (64 * low)
    let c := limbCount x 67
    leBytes 8 (low * 2 ^ 57 + c * 2 ^ 50 + flags) ++ leBytes (8 * c) (x % 2 ^ (64 * c)).toNat

/-- The LAC of a record at the front of a partial, and the bytes after it (R214). -/
def recordLac (bs : List Byte) : Lac × List Byte :=
  let w := leNat (bs.take 8)
  let low := w / 2 ^ 57
  let c := w / 2 ^ 50 % 128
  let x := leNat ((bs.drop 8).take (8 * c))
  ({ v := BitVec.ofInt 4288 ((if c == 0 then 0 else asSigned (64 * c) x) * 2 ^ (64 * low))
     nanf := w / 128 % 2 == 1
     pinf := w / 64 % 2 == 1
     ninf := w / 32 % 2 == 1
     allNeg0 := w / 16 % 2 == 1 }, bs.drop (8 + 8 * c))

/-- The LACs of `n` records. -/
def recordLacs : Nat → List Byte → List Lac
  | 0, _ => []
  | n + 1, bs =>
    let (l, rest) := recordLac bs
    l :: recordLacs n rest

/-- The number of records in a partial; the bound is its length in 8-byte words. -/
def recordCount : Nat → List Byte → Nat
  | 0, _ => 0
  | n + 1, bs => if bs.length < 8 then 0 else 1 + recordCount n (recordLac bs).2

/-- The correctly rounded fp64 of a LAC (R215). -/
def Lac.round (l : Lac) : Nat :=
  if l.nanf || (l.pinf && l.ninf) then fp64.qnan
  else if l.pinf then fp64.infBits
  else if l.ninf then fp64.signBit + fp64.infBits
  else if l.v == 0 then (if l.allNeg0 then fp64.signBit else 0)
  else
    let s := if l.v.toInt < 0 then fp64.signBit else 0
    let m := l.v.toInt.natAbs
    let h := Nat.log2 m
    if 3172 ≤ h then s + fp64.infBits
    else
      let lsb := max (h - 52) 1074
      let q := rneShift m lsb
      s + min fp64.infBits (if q < 2 ^ 52 then q else (lsb - 1074) * 2 ^ 52 + q)

/-- The contents of a chunk as LACs: `isPart` for an exact partial; otherwise fp64 values (XSUM), or pairs summed into one
(XDOT). -/
def chunkLacs (dot isPart : Bool) (len : Nat) (bs : List Byte) : List Lac :=
  if isPart then recordLacs (recordCount (bs.length / 8 + 1) bs) bs
  else if dot then [(List.range (len / 16)).foldl (fun l k =>
    l.addProd (leNat ((bs.drop (16 * k)).take 8)) (leNat ((bs.drop (16 * k + 8)).take 8))) Lac.zero]
  else (elems 8 (len / 8) bs).map Lac.zero.addF64

/-- The accumulators of an exact REDUCE, one for each element (R213). -/
def exactLacs (dot : Bool) (len : Nat) : List (Bool × List Byte) → List Lac
  | [] => []
  | (p, c) :: cs => cs.foldl (fun r (q, d) => List.zipWith Lac.join r (chunkLacs dot q len d)) (chunkLacs dot p len c)

/-- An exact REDUCE (R213 to R215): rounded fp64 values with ROUND, an exact partial without. -/
def reduceExact (dot round : Bool) (len : Nat) (cs : List (Bool × List Byte)) : List Byte :=
  let r := exactLacs dot len cs
  if round then r.flatMap (fun l => leBytes 8 l.round) else r.flatMap Lac.record

end Sys2Proof.Machine
end

