-- ==== Sys2Proof/Machine/Lck.lean ====
section
/-! DEFINITION. The lock unit (12: R366 to R374): grants, queues, releases, abandonment. -/

namespace Sys2Proof.Machine

def Sem.free : Sem := { holder := none, queue := [], grants := 0, abandoned := false, excused := none }

/-- Semaphore `n`; one never used is free (R497). -/
def getSem (n : Nat) (s : State) : Sem := (tget s.sems n).getD Sem.free
def putSem (n : Nat) (x : Sem) (s : State) : State := { s with sems := tset s.sems n x }

/-- Counted on IGNORED of the LCK. -/
def lckIgnored (s : State) : State := ignored 136 s

/-- May function `f` use semaphore `n` (R366)? -/
def semAllowed (n f : Nat) (s : State) : Bool :=
  let v := rdReg (Reg.LCK_ALLOC + 8 * n) s
  bit 28 v && Nat.land f (bits 27 16 v) == bits 11 0 v

/-- Register `d` of a core's activation holds a value; w0 is never written (R234). -/
def Act.setW (a : Act) (d : Nat) (v : BitVec 64) : Act :=
  if d == 0 then a else { a with w := Vector.ofFn (fun i => if i.val == d then v else a.w[i.val]) }

/-- The activation of a core changes, if it runs one. -/
def modAct (c : Nat) (f : Act → Act) (s : State) : State :=
  match tget s.tpr.cores c with
  | some x => { s with tpr := { s.tpr with cores := tset s.tpr.cores c { x with act := x.act.map f } } }
  | none => s

/-- A core's SEMACQ on a semaphore, if it waits for one, returns a grant status (R373). -/
def semReturn (m : BitVec 12) (n st : Nat) (s : State) : State :=
  modAct (m.toNat - 0x400) (fun a =>
    match a.wait with
    | some (.sem k rd) => if k == n then { a.setW rd (BitVec.ofNat 64 st) with wait := none } else a
    | _ => a) s

/-- Is a master ID that of a Taper core? -/
def isCore (m : BitVec 12) : Bool := 0x400 ≤ m.toNat && m.toNat < 0x480

/-- A semaphore is granted to a master (R369); a core's SEMACQ returns, with the abandonment in its status (R371, R373). -/
def semGrant (n : Nat) (m : BitVec 12) (s : State) : State :=
  let x := getSem n s
  let s := putSem n { x with holder := some m, grants := x.grants + 1, abandoned := x.abandoned && !isCore m } s
  if isCore m then semReturn m n (if x.abandoned then 1 else 0) s else s

/-- A semaphore becomes free and its queue's head is granted in the same cycle (R369 to R371); `ab`: after an abandonment. With
no waiter the next grant carries it (DEDUCED from LCK_STAT's map). -/
def semFree (n : Nat) (ab : Bool) (s : State) : State :=
  let x := getSem n s
  match x.queue with
  | [] => putSem n { x with holder := none, abandoned := ab } s
  | m :: t => semGrant n m (putSem n { x with holder := none, queue := t, abandoned := ab } s)

/-- The holder abandons a semaphore (R371). -/
def semAbandon (n : Nat) (m : BitVec 12) (s : State) : State :=
  semFree n true (putSem n { getSem n s with excused := some m } s)

/-- A request (R369): granted, queued, refused without a trace, or ignored and counted. -/
def semAcquire (n : Nat) (m : BitVec 12) (s : State) : State :=
  let x := getSem n s
  if x.holder == some m || x.queue.contains m then lckIgnored s
  else if x.holder.isNone then semGrant n m s
  else if 4096 ≤ semWaiters s then s
  else putSem n { x with queue := x.queue ++ [m] } s

/-- A withdrawal (R370). -/
def semCancel (n : Nat) (m : BitVec 12) (s : State) : State :=
  let x := getSem n s
  if x.queue.contains m then putSem n { x with queue := x.queue.filter (· != m) } s else lckIgnored s

/-- What a release by a master is (R370, R371). -/
inductive RelKind where
  | own | excused | foreign
  deriving DecidableEq, Repr

def semRelKind (n : Nat) (m : BitVec 12) (s : State) : RelKind :=
  let x := getSem n s
  if x.holder == some m then .own else if x.excused == some m then .excused else .foreign

/-- A master writes something other than a release to a semaphore: the excuse of R371 ends. -/
def semNoExcuse (n : Nat) (m : BitVec 12) (s : State) : State :=
  let x := getSem n s
  if x.excused == some m then putSem n { x with excused := none } s else s

/-- LCK_STAT as a master reads it (R367). -/
def semStat (n : Nat) (m : BitVec 12) (s : State) : BitVec 64 :=
  let x := getSem n s
  let mine := x.holder == some m
  BitVec.ofNat 64 ((if mine then 2 ^ 63 else 0) + (if mine && x.abandoned then 2 ^ 62 else 0) +
    (if x.queue.contains m then 2 ^ 61 else 0) + (if x.holder.isSome then 2 ^ 60 else 0) + x.grants.toNat * 2 ^ 44 +
    ((x.holder.map (·.toNat)).getD 0) * 2 ^ 32 + x.queue.length % 4096)

/-- A read of LCK_STAT: ABANDONED is cleared by its holder's read (R367). -/
def semRead (n : Nat) (m : BitVec 12) (s : State) : State :=
  let x := getSem n s
  if x.holder == some m then putSem n { x with abandoned := false } s else s

/-- A master is reset at the LCK (R371): out of every queue, and every semaphore that it holds is abandoned. -/
def semResetGo (m : BitVec 12) (s : State) : State :=
  let out (e : Nat × Sem) : Nat × Sem := (e.1, { e.2 with queue := e.2.queue.filter (· != m) })
  let s : State := { s with sems := s.sems.map out }
  (s.sems.map (·.1)).foldl (fun s n => if (getSem n s).holder == some m then semAbandon n m s else s) s

/-- A master is reset (R371); while the LCK is fenced that waits at the crossing (R389). -/
def semReset (m : BitVec 12) (s : State) : State := if unitFenced 136 s then holdReq (.reset m) s else semResetGo m s

/-- The state of every semaphore is lost (R374): free, no queue, the next grant carries ABANDONED, and Taper waiters receive
LOST. -/
def semLose (s : State) : State :=
  let lost (n : Nat) : Nat × Sem :=
    (n, { getSem n s with holder := none, queue := [], abandoned := true, excused := none })
  let waits := s.sems.flatMap (fun (n, x) => x.queue.map (fun m => (n, m)))
  waits.foldl (fun s (n, m) => if isCore m then semReturn m n 3 s else s) { s with sems := (List.range 1024).map lost }

/-- Is a semaphore held, or has it waiters? -/
def semBusy (n : Nat) (s : State) : Bool := (getSem n s).holder.isSome || !(getSem n s).queue.isEmpty

end Sys2Proof.Machine
end

