-- ==== Sys2Proof/Machine/Mem.lean ====
section
/-! DEFINITION. Memories inside the block: cells in canonical form (addresses strictly rising, no cell equal to what an unlisted
address reads as), read and written byte by byte. LDM and CSM read 0 where unlisted, the flash 0xFF. -/

namespace Sys2Proof.Machine

/-- The byte at an address; `d` where it is not listed. -/
def memGet (d : Byte) : List Host.Cell → Nat → Byte
  | [], _ => d
  | (k, v) :: t, a => if k == a then v else if a < k then d else memGet d t a

/-- The memory with a byte at an address; writing `d` unlists the address. -/
def memSet (d : Byte) : List Host.Cell → Nat → Byte → List Host.Cell
  | [], a, x => if x == d then [] else [(a, x)]
  | (k, v) :: t, a, x =>
    if k == a then (if x == d then t else (a, x) :: t)
    else if a < k then (if x == d then (k, v) :: t else (a, x) :: (k, v) :: t)
    else (k, v) :: memSet d t a x

/-- `n` bytes from an address up. -/
def memRead (d : Byte) (m : List Host.Cell) : Nat → Nat → List Byte
  | _, 0 => []
  | a, n + 1 => memGet d m a :: memRead d m (a + 1) n

/-- Bytes written from an address up. -/
def memWrite (d : Byte) : List Host.Cell → Nat → List Byte → List Host.Cell
  | m, _, [] => m
  | m, a, b :: t => memWrite d (memSet d m a b) (a + 1) t

/-- The canonical form. -/
def Memory.wf (d : Byte) : List Host.Cell → Bool
  | [] => true
  | [(_, v)] => v != d
  | (k, v) :: (k', v') :: t => v != d && k < k' && Memory.wf d ((k', v') :: t)

end Sys2Proof.Machine
end

