-- ==== Sys2Proof/Machine/TprBase.lean ====
section
/-! DEFINITION. Taper programs: events, activations and invocations (08: R243 to R249, R264 to R266). -/

namespace Sys2Proof.Machine

def withTpr (f : Tpr → Tpr) (s : State) : State := { s with tpr := f s.tpr }

/-- Discarded by the TPR and counted. -/
def tprIgnored (s : State) : State := ignored 48 s

/-! Codes of TAPER_FAULT (R262). -/
namespace Tf
def illegal : BitVec 8 := 0x01
def misaligned : BitVec 8 := 0x02
def address : BitVec 8 := 0x03
def uncorrectable : BitVec 8 := 0x04
def watchdog : BitVec 8 := 0x05
def classOrder : BitVec 8 := 0x06
def badDescriptor : BitVec 8 := 0x07
def context : BitVec 8 := 0x08
def evqFull : BitVec 8 := 0x09
def protection : BitVec 8 := 0x0A
def trap : BitVec 8 := 0x0B
def coreFenced : BitVec 8 := 0x0C
def frozen : BitVec 8 := 0x0D
def noEnd : BitVec 8 := 0x0E
def imageFormat : BitVec 8 := 0x20
def imageCrc : BitVec 8 := 0x21
def imageVerify : BitVec 8 := 0x22
end Tf

def EvQueue.empty : EvQueue := { words := [], slots := 0, timer := none }
def Core.idle : Core := { act := none, resetAt := 0 }

def getCore (c : Nat) (s : State) : Core := (tget s.tpr.cores c).getD Core.idle
def putCore (c : Nat) (x : Core) (s : State) : State := withTpr (fun t => { t with cores := tset t.cores c x }) s
/-- Cores are reset now; SYS counts from here (R237). -/
def resetCores (cs : List Nat) (s : State) : State :=
  cs.foldl (fun s c => putCore c { getCore c s with resetAt := s.now } s) s

def getInvoc (i : Nat) (s : State) : Option Invoc := tget s.tpr.invocs i
def putInvoc (i : Nat) (v : Invoc) (s : State) : State := withTpr (fun t => { t with invocs := tset t.invocs i v }) s
def modInvoc (i : Nat) (f : Invoc → Invoc) (s : State) : State := withTpr (fun t => { t with invocs := tmod t.invocs i f }) s
def getImage (i : Nat) (s : State) : Option Image := tget s.tpr.images i
def getProg (h : Nat) (s : State) : Option Prog := tget s.tpr.progs h

/-- The input of the switch core by which a cluster sends (R13, R230). -/
def clusterAtt (cl : Nat) : Nat := 168 + cl

/-- TM_RTO in 1/16 ns (R267). -/
def tmRto (s : State) : Nat := us (nz (rf Reg.TPR_CFG 47 40 s))

/-- A cluster sends a packet. -/
def tprSend (att : Nat) (p : Packet) (s : State) : State := inject att (sealCrc p) s

/-- Master ID of a core (R230). -/
def coreMaster (c : Nat) : BitVec 12 := BitVec.ofNat 12 (0x400 + c)

/-- The core that runs an activation of an invocation. -/
def coreOf (i : Nat) (s : State) : Option Nat :=
  (s.tpr.cores.find? (fun (_, x) => x.act.any (fun a => a.inv == some i))).map (·.1)

/-! ### Events (R247, R248) -/

/-- An event word (R247). -/
def eventWord (kind : Nat) (st dt : BitVec 8) (aux tag chunk : Nat) : BitVec 64 :=
  BitVec.ofNat 64 (kind * 2 ^ 56 + st.toNat * 2 ^ 48 + dt.toNat * 2 ^ 40 + aux % 256 * 2 ^ 32 + tag % 65536 * 2 ^ 16 +
    chunk % 65536)

def eventKind (w : BitVec 64) : Nat := bits 63 56 w

/-- Has ABORT (KIND 3) or TIMER (KIND 6), which have slots of their own (R248)? -/
def ownSlot (w : BitVec 64) : Bool := eventKind w == 3 || eventKind w == 6

/-- An event joins a queue: ABORT before every other, the rest in order (R247). -/
def EvQueue.push (q : EvQueue) (w : BitVec 64) : EvQueue :=
  { q with words := if eventKind w == 3 then w :: q.words else q.words ++ [w] }

/-- The oldest event whose KIND bit is set in a mask, and the queue without it; its slot is free again. -/
def EvQueue.take (q : EvQueue) (mask : BitVec 16) : Option (BitVec 64 × EvQueue) :=
  match q.words.find? (fun w => eventKind w < 16 && bit (eventKind w) mask) with
  | some w => some (w, { q with words := q.words.erase w, slots := if ownSlot w then q.slots else q.slots - 1 })
  | none => none

/-- Is ABORT among the events queued? -/
def EvQueue.aborted (q : EvQueue) : Bool := q.words.any (fun w => eventKind w == 3)

/-- A ready activation joins its cluster's list, oldest first (R244). -/
def pushReady (c : Nat) (r : Ready) (s : State) : State :=
  withTpr (fun t => { t with ready := tset t.ready c ((tget t.ready c).getD [] ++ [r]) }) s

/-- An activation that waits in WAITEV takes an event that has come (R236, R247). -/
def wakeAct (q : EvQueue) (a : Act) : Act × EvQueue :=
  match a.wait with
  | some (.event m rd) =>
    match q.take m with
    | some (w, q') => ({ a.setW rd w with wait := none }, q')
    | none => (a, q)
  | _ => (a, q)

/-- The events of an invocation are looked at: a waiting activation takes one, or an EVENT activation is made ready while
events are queued and none runs or is ready (R243, R245). -/
def invSched (i : Nat) (s : State) : State :=
  match getInvoc i s with
  | none => s
  | some v =>
    match coreOf i s with
    | some c =>
      match (getCore c s).act with
      | some a =>
        let (a', q) := wakeAct v.evq a
        putInvoc i { v with evq := q } (putCore c { getCore c s with act := some a' } s)
      | none => s
    | none =>
      let hasEvent := (getImage v.image s).any (fun m => m.event != 0xFFFFFFFF)
      if v.busy || v.ended || v.failed.isSome || v.evq.words.isEmpty || !hasEvent then s
      else pushReady v.cluster (.inv i false) (putInvoc i { v with busy := true } s)

/-- An event comes for an invocation; one that has ended gets none (R249). -/
def invEvent (i : Nat) (w : BitVec 64) (s : State) : State :=
  match getInvoc i s with
  | none => s
  | some v => if v.ended || v.failed.isSome then s else invSched i (putInvoc i { v with evq := v.evq.push w } s)

/-- An event comes for the owner of an HXFER or MSG: an invocation, or a message activation that still runs. -/
def ownerEvent (o : OpOwner) (w : BitVec 64) (s : State) : State :=
  match o with
  | .inv i => invEvent i w s
  | .act c uid =>
    modAct c (fun a =>
      if a.uid == uid && a.wait != some .returning then
        let (a', q) := wakeAct (a.evq.push w) a
        { a' with evq := q }
      else a) s
  | .none => s

/-! ### Memory -/

/-- LDM cell of a core, and CSM cell of a cluster. -/
def ldmKey (core a : Nat) : Nat := core * 0x8000 + a
def csmKey (cluster a : Nat) : Nat := cluster * 2 ^ 22 + a

def readLdm (core a n : Nat) (s : State) : List Byte := memRead 0 s.tpr.ldm (ldmKey core a) n
def readCsm (cl a n : Nat) (s : State) : List Byte := memRead 0 s.tpr.csm (csmKey cl a) n
def writeLdm (core a : Nat) (bs : List Byte) (s : State) : State :=
  withTpr (fun t => { t with ldm := memWrite 0 t.ldm (ldmKey core a) bs }) s
def writeCsm (cl a : Nat) (bs : List Byte) (s : State) : State :=
  withTpr (fun t => { t with csm := memWrite 0 t.csm (csmKey cl a) bs }) s

/-- OBJ_CELLS (R267). -/
def objLimit (s : State) : Nat := nz (rf Reg.TPR_CFG 19 0 s)

/-! ### Programs (R264 to R266, R269) -/

/-- Invocations of an image. -/
def imageInvocs (i : Nat) (s : State) : Nat := (s.tpr.invocs.filter (fun (_, v) => v.image == i)).length

/-- TPR_PROG_STAT of a handle (R269). -/
def showProg (h : Nat) (s : State) : State :=
  let off := Reg.TPR_PROG_STAT + 8 * h
  match getProg h s with
  | none => wrReg off 0 s
  | some p =>
    let st := match p.state with
      | .live => 1
      | .frozen => 2
      | .unloading => 3
    wrReg off (BitVec.ofNat 64 (imageInvocs p.image s % 8192 * 2 ^ 40 + p.owner * 2 ^ 28 + p.clusters.toNat * 2 ^ 12 +
      p.old.length % 256 * 2 ^ 4 + b2n p.collective * 4 + st)) s

/-- Does an activation run an image? -/
def imageRuns (i : Nat) (s : State) : Bool := s.tpr.cores.any (fun (_, x) => x.act.any (fun a => a.image == i))

/-- An image that no program names any more goes once no activation runs it: a message activation may outlive the unload of its
program, which waits for invocations alone (R266; DEDUCED). -/
def imageSweep (i : Nat) (s : State) : State :=
  if imageRuns i s || s.tpr.progs.any (fun (_, p) => p.image == i || p.old.contains i) then s
  else withTpr (fun t => { t with images := tdel t.images i }) s

/-- Images that no invocation runs any more are freed, and an unload whose last invocation has ended finishes (R265, R266). -/
def progDrain (h : Nat) (s : State) : State :=
  match getProg h s with
  | none => s
  | some p =>
    let spent := p.old.filter (fun i => imageInvocs i s == 0 && !imageRuns i s)
    let s := withTpr (fun t => { t with images := t.images.filter (fun (k, _) => !spent.contains k) }) s
    let p := { p with old := p.old.filter (fun i => !spent.contains i) }
    let s := withTpr (fun t => { t with progs := tset t.progs h p }) s
    let gone := p.unload.isSome && p.old.all (fun i => imageInvocs i s == 0) && imageInvocs p.image s == 0
    if gone then
      let s := (p.image :: p.old).foldl (fun s i => imageSweep i s) (withTpr (fun t => { t with progs := tdel t.progs h }) s)
      let s := showProg h s
      match p.unload with
      | some ref => finishEntry ref St.success 0 s
      | none => s
    else showProg h s

/-! ### Ends (R245, R246) -/

/-- A core gives up its activation: semaphores that it still holds are abandoned and places in queues given up (R246, R371). -/
def freeCore (c : Nat) (s : State) : State :=
  match (getCore c s).act with
  | none => s
  | some a =>
    let s := putCore c { getCore c s with act := none } s
    imageSweep a.image (progDrain a.prog (semReset (coreMaster c) s))

/-- The activation of an invocation stops, and a ready one is taken back. -/
def stopAct (i : Nat) (s : State) : State :=
  let s := withTpr (fun t => { t with ready := t.ready.map (fun (k, l) => (k, l.filter (fun r =>
    match r with
    | .inv j _ => j != i
    | _ => true))) }) s
  match coreOf i s with
  | some c => freeCore c s
  | none => s

/-- An invocation is gone: its activation, instance block, descriptor cells and event queue are freed; its HXFERs and MSGs have
no owner any more. -/
def dropInvoc (i : Nat) (s : State) : State :=
  match getInvoc i s with
  | none => s
  | some v =>
    let s := stopAct i s
    let own (o : OpOwner) : OpOwner := if o == .inv i then .none else o
    let s := withTpr (fun t => { t with
      invocs := tdel t.invocs i
      hxfers := t.hxfers.map (fun (k, h) => (k, { h with owner := own h.owner }))
      tmsgs := t.tmsgs.map (fun m => { m with owner := own m.owner }) }) s
    progDrain v.prog s

end Sys2Proof.Machine
end

