-- ==== Sys2Proof/Machine/Col.lean ====
section
/-! DEFINITION. Collective instances (07: R192 to R201, R220 to R227): the operation descriptor, packets sent and resent, the end
and the failure of an instance, result records and mailboxes. -/

namespace Sys2Proof.Machine

def withCol (f : Col → Col) (s : State) : State := { s with col := f s.col }

/-- Discarded by the COL and counted. -/
def colIgnored (s : State) : State := ignored 117 s

def getInst (i : Nat) (s : State) : Option ColInst := tget s.col.insts i
def putInst (i : Nat) (x : ColInst) (s : State) : State := withCol (fun c => { c with insts := tset c.insts i x }) s
def modInst (i : Nat) (f : ColInst → ColInst) (s : State) : State := withCol (fun c => { c with insts := tmod c.insts i f }) s

/-- Is an instance active: has it neither failed nor finished? -/
def ColInst.active (x : ColInst) : Bool := x.failed.isNone && !x.finished

/-- The active instance of a handle at an endpoint (R192). -/
def findInst (hp : Nat) (comm : BitVec 32) (seq : BitVec 16) (s : State) : Option (Nat × ColInst) :=
  s.col.insts.find? (fun (_, x) => x.hp == hp && x.comm == comm && x.seq == seq && x.active)

/-! ### Descriptors (R193, R197) -/

def hSrc (h : BitVec 512) : BitVec 64 := h.extractLsb' 448 64
def hDst (h : BitVec 512) : BitVec 64 := h.extractLsb' 384 64
def hRes (h : BitVec 512) : BitVec 64 := h.extractLsb' 320 64
def hSkey (h : BitVec 512) : BitVec 32 := h.extractLsb' 288 32
def hDkey (h : BitVec 512) : BitVec 32 := h.extractLsb' 256 32
def hResKind (h : BitVec 512) : Nat := bits 141 140 h
def hOp (h : BitVec 512) : Nat := bits 135 132 h
def hType (h : BitVec 512) : Nat := bits 131 128 h

def oCop (o : BitVec 512) : Nat := bits 511 504 o
def oSched (o : BitVec 512) : Bool := bit 503 o
def oHost (o : BitVec 512) : Bool := bit 502 o
def oRound (o : BitVec 512) : Bool := bit 501 o
def oPeer (o : BitVec 512) : BitVec 17 := o.extractLsb' 479 17
def oDir (o : BitVec 512) : Nat := bits 478 478 o
def oMask (o : BitVec 512) : BitVec 16 := o.extractLsb' 448 16
def oMask2 (o : BitVec 512) : BitVec 16 := o.extractLsb' 432 16
def oTag (o : BitVec 512) : Nat := bits 431 416 o
def oChunk (o : BitVec 512) : Nat := bits 415 400 o
def oCnt (o : BitVec 512) : Nat := bits 399 384 o
def oIn (o : BitVec 512) (k : Nat) : Nat := bits (271 + 16 * k) (256 + 16 * k) o
def oOut (o : BitVec 512) : Nat := bits 255 240 o
def oLen (o : BitVec 512) : Nat := bits 223 192 o
def oHoff (o : BitVec 512) : BitVec 64 := o.extractLsb' 128 64
def oValue (o : BitVec 512) : BitVec 64 := o.extractLsb' 64 64
def oKey (o : BitVec 512) : BitVec 32 := o.extractLsb' 32 32

/-- PSN of an operation's packets: TAG and CHUNK (R200). -/
def oPsn (o : BitVec 512) : BitVec 32 := o.extractLsb' 400 32

/-- CB_MAX: up to 16,384 (R228, R229). -/
def cbMax (s : State) : Nat := min 16384 (nz (rf Reg.COL_CFG 47 32 s))

/-- Does a buffer identifier name a chunk buffer of an instance? One that is held stays one when CB_MAX is lowered (R229). -/
def chunkId (x : ColInst) (n : Nat) (s : State) : Bool := n < cbMax s || (tget x.bufs n).isSome

/-- Is a buffer identifier SRC or DST? -/
def hostBuf (n : Nat) : Bool := n == 0xFFFE || n == 0xFFFF

/-- Does a buffer identifier name a chunk buffer, SRC or DST (R197)? -/
def bufIdOk (x : ColInst) (n : Nat) (s : State) : Bool := chunkId x n s || hostBuf n

/-- The fields of a descriptor that an operation does not use are zero (R197). TAG and CHUNK name any operation's event; SCHED
counts as used where a packet is sent, the COL_ABORTs of ABORT included. -/
def opZeros (o : BitVec 512) : Bool :=
  let c := oCop o
  let z (hi lo : Nat) : Bool := bits hi lo o == 0
  let sched := c == 1 || c == 2 || c == 3 || c == 6 || c == 9 || z 503 503
  let host := c == 2 || c == 3 || z 502 502
  let round := c == 4 || z 501 501
  let peer := c == 1 || c == 2 || c == 6 || c == 9 || z 495 479
  let mask := c == 3 || (z 478 478 && z 463 432)
  let cnt := c == 4 || c == 8 || z 399 384
  let ins := c == 4 || c == 8 || (z 383 272 && (c == 2 || c == 3 || c == 5 || z 271 256))
  let out := c == 1 || c == 4 || c == 5 || z 255 240
  let len := (2 ≤ c && c ≤ 5) || z 223 192
  let hoff := (2 ≤ c && c ≤ 6) || z 191 128
  let value := c == 6 || c == 7 || z 127 64
  let key := c == 6 || z 63 32
  z 500 496 && z 477 464 && z 239 224 && z 31 0 && sched && host && round && peer && mask && cnt && ins && out && len && hoff &&
    value && key

/-- Does an operation keep R197 and R198? -/
def opOk (x : ColInst) (o : BitVec 512) (s : State) : Bool :=
  let c := oCop o
  let ins := (List.range (oCnt o)).map (oIn o)
  let ids := ins.all (fun n => bufIdOk x n s)
  let rest := ((List.range 8).drop (oCnt o)).all (fun k => oIn o k == 0)
  let exact := hOp x.head == 6 || hOp x.head == 7
  let off (host : Bool) : Bool := host || oHoff o == 0
  opZeros o && oLen o ≤ 4096 &&
  (if c == 1 then oOut o < cbMax s
   else if c == 2 then bufIdOk x (oIn o 0) s && off (oHost o || hostBuf (oIn o 0))
   else if c == 3 then bufIdOk x (oIn o 0) s && oHost o && (oDir o == 0 || oMask2 o == 0)
   else if c == 4 then
     1 ≤ oCnt o && oCnt o ≤ 8 && ids && rest && bufIdOk x (oOut o) s && (exact || !oRound o) &&
     off (hostBuf (oOut o) || ins.any hostBuf)
   else if c == 5 then bufIdOk x (oIn o 0) s && bufIdOk x (oOut o) s && off (hostBuf (oOut o) || hostBuf (oIn o 0))
   else if c == 8 then 1 ≤ oCnt o && oCnt o ≤ 8 && rest && ins.all (fun n => chunkId x n s)
   else c == 6 || c == 7 || c == 9 || c == 15)

/-! ### Details of COLL_ERROR (R227) -/

namespace Cd
def badDescriptor : BitVec 8 := 0x01
def badOptype : BitVec 8 := 0x02
def noProgram : BitVec 8 := 0x03
def duplicate : BitVec 8 := 0x04
def mailboxBusy : BitVec 8 := 0x05
def aborted : BitVec 8 := 0x06
def peerAborted : BitVec 8 := 0x07
def peerLost : BitVec 8 := 0x08
def unitFenced : BitVec 8 := 0x09
def programFault : BitVec 8 := 0x0A
def badOperation : BitVec 8 := 0x0B
end Cd

/-! ### Packets (R200, R201) -/

/-- The handle in OPX (R192). -/
def instHandle (x : ColInst) : BitVec 64 := BitVec.ofNat 64 (x.comm.toNat * 2 ^ 32 + x.seq.toNat * 2 ^ 16 + x.prog.toNat)

/-- The header of an instance's packet. -/
def colPkt (x : ColInst) (op : BitVec 8) (sched : Bool) (peer : BitVec 17) (psn : BitVec 32) (s : State) : Packet :=
  { Packet.zero with
    op := op, cls := if sched then 4 else 3, dstEp := peer, srcEp := ownEp x.hp s, opx := instHandle x, psn := psn }

/-- The instance has met an endpoint (R196). -/
def meet (i : Nat) (ep : BitVec 17) (s : State) : State :=
  modInst i (fun x => { x with met := if x.met.contains ep then x.met else x.met ++ [ep] }) s

/-- COL_RTO in 1/16 ns (R228). -/
def colRto (s : State) : Nat := us (nz (rf Reg.COL_CFG 31 24 s))

/-- A packet that needs a COL_ACK is remembered (R201). -/
def colRemember (i : Nat) (op : Option Nat) (hp : Nat) (p : Packet) (s : State) : State :=
  withCol (fun c => { c with
    tx := c.tx ++ [{ id := c.nextTx, inst := i, op := op, hp := hp, pkt := p, tries := 0, sentAt := s.now, rto := colRto s }]
    nextTx := c.nextTx + 1 }) s

/-- A packet of the COL goes out. A fenced COL puts out nothing (R389). -/
def colOut (hp : Nat) (p : Packet) (s : State) : State := if unitFenced 117 s then s else transmit hp p s

/-- Send a packet that needs a COL_ACK. What a fenced COL does not send is sent by its timer (R201, R394). -/
def colSend (i : Nat) (op : Option Nat) (hp : Nat) (p : Packet) (s : State) : State :=
  colOut hp p (colRemember i op hp p (meet i p.dstEp s))

/-- Acknowledge a collective packet (R201). The COL_ACK of a packet of class SCH goes on class SCH; which of the two classes a
receiver answers on, R200 leaves open (DESIGN CHOICE). -/
def colAnswer (p : Packet) (s : State) : State :=
  colOut (epPort p.dstEp)
    { Packet.zero with
      op := 0x22, cls := if p.cls == 4 then 4 else 3, dstEp := p.srcEp, srcEp := p.dstEp, opx := p.opx, psn := p.psn
      imm := BitVec.ofNat 32 (if p.op == 0x20 then p.imm.toNat / 65536 else 0) } s

/-! ### Mailboxes (R223 to R226) -/

def Mbx.empty : Mbx := { state := .empty, gen := 0, status := 0, detail := 0, value := 0, inst := 0 }
def getMbx (n : Nat) (s : State) : Mbx := (tget s.mbx n).getD Mbx.empty
def putMbx (n : Nat) (x : Mbx) (s : State) : State := { s with mbx := tset s.mbx n x }

/-- Is a mailbox allocated to a function? -/
def mbxOwned (n f : Nat) (s : State) : Bool :=
  let v := rdReg (Reg.MBX_ALLOC + 8 * n) s
  bit 12 v && bits 11 0 v == f

/-- A result makes a mailbox FULL (R225). -/
def mbxSet (n : Nat) (st dt : BitVec 8) (value : BitVec 64) (s : State) : State :=
  putMbx n { getMbx n s with state := .full, status := st, detail := dt, value := value } s

/-- A result for a mailbox: while the MBX is fenced it is held at the crossing (R389). -/
def mbxFill (n : Nat) (st dt : BitVec 8) (value : BitVec 64) (s : State) : State :=
  if unitFenced 137 s then holdReq (.mbxFill n st dt value) s else mbxSet n st dt value s

/-! ### Events and the end of an operation -/

/-- An event for the program of an instance. -/
def instEvent (x : ColInst) (w : BitVec 64) (s : State) : State := if x.inv == 0 then s else invEvent x.inv w s

/-- COL_DONE of an operation (R247). -/
def colDone (o : BitVec 512) (st dt : BitVec 8) : BitVec 64 := eventWord 1 st dt (oCop o) (oTag o) (oChunk o)

/-- The packets of an operation, or of all (`none`), of an instance are no longer resent; its COL_ABORTs still are (R201). -/
def dropTx (i : Nat) (op : Option Nat) (s : State) : State :=
  withCol (fun c => { c with tx := c.tx.filter (fun t =>
    !(t.inst == i && (op.isNone || t.op == op)) || (op.isNone && t.pkt.op == 0x23)) }) s

/-! ### The end of an invocation and of an instance (R195, R245, R246, R263) -/

/-- An instance is gone, with its chunk buffers, operations and packets waiting for acknowledgement. -/
def dropInst (i : Nat) (s : State) : State := withCol (fun c => { c with insts := tdel c.insts i }) (dropTx i none s)

/-- COL_START finishes (R195). -/
def instFinish (i : Nat) (st dt : BitVec 8) (s : State) : State :=
  match getInst i s with
  | some x => if x.finished then s else finishEntry x.ref st dt (putInst i { x with finished := true } s)
  | none => s

/-- Write a result record (R220, R221): bytes 0 to 11, then READY. -/
def writeRecordAt (f : Nat) (bus : BitVec 64) (idx : BitVec 32) (st dt : BitVec 8) (value : BitVec 64) (s : State) : State :=
  let gen := idx.toNat % 65536
  let s := hostWrite f bus (toBytes 8 value ++ leBytes 4 (dt.toNat * 2 ^ 24 + st.toNat * 2 ^ 16 + gen)) s
  hostWrite f (bus + 12) (leBytes 4 (0x80000000 + gen)) s

/-- The access to an instance's result record. -/
def recordAccess (i : Nat) (x : ColInst) (op : Option Nat) (st dt : BitVec 8) (value : BitVec 64) : Access :=
  { fn := x.fn, dom := some x.pd, parts := [⟨hDkey x.head, hRes x.head, 16⟩], rights := 0b00010, rd := false, wr := true,
    testsOnly := false, purpose := .colRecord i op st dt value }

/-- The event of a failure: ABORT, with its DETAIL (R247). -/
def abortEvent (st dt : BitVec 8) : BitVec 64 :=
  let d := if st == St.collError && (dt == Cd.peerAborted || dt == Cd.peerLost || dt == Cd.unitFenced) then dt else Cd.aborted
  eventWord 3 St.collError d 0 0 0

/-- The operation that frees an admitted read of a REDUCE. -/
def opDrains (o : ColOp) (s : State) : State :=
  match o.phase with
  | .reducing _ (some n) => drained n s
  | _ => s

/-- An instance fails (R195, R196, R227): its operations stop, its program receives ABORT, every endpoint met gets COL_ABORT, a
result not yet written is written with the failing status, and COL_START finishes. With `sched` the COL_ABORTs go on class SCH, as an
ABORT operation's SCHED asks (R197, R200). -/
def instFailOn (sched : Bool) (i : Nat) (st dt : BitVec 8) (s : State) : State :=
  match getInst i s with
  | none => s
  | some x =>
    if !x.active then s else
    let s := dropTx i none (putInst i { x with failed := some (st, dt), ops := [], resultDone := true } s)
    let s := x.ops.foldl (fun s o => instEvent x (colDone o.desc St.collError Cd.aborted) (opDrains o s)) s
    let s := instEvent x (abortEvent st dt) s
    let s := x.met.foldl (fun s ep => colSend i none x.hp (colPkt x 0x23 sched ep 0 s) s) s
    if x.resultDone || hResKind x.head == 0 then instFinish i st dt s
    else if hResKind x.head == 2 then instFinish i st dt (mbxFill (bits 11 0 (hRes x.head)) st dt 0 s)
    else xltStart (recordAccess i x none st dt 0) s

/-- An instance fails, with COL_ABORTs of class COL. -/
def instFail (i : Nat) (st dt : BitVec 8) (s : State) : State := instFailOn false i st dt s

/-- The failure of an invocation: its activation stops, and its trigger object's cells are released (R254, R262, R263). -/
def invFail (i : Nat) (st dt : BitVec 8) (s : State) : State :=
  match getInvoc i s with
  | none => s
  | some v =>
    if v.failed.isSome then s else
    let s := stopAct i (putInvoc i { v with failed := some (st, dt), busy := false, obj := none } (evcPulse 215 dt.toNat s))
    if v.inst == 0 then s else instFail v.inst St.collError Cd.programFault s

/-- Is a HOST part still under check for an instance (R204)? Placement writes come before the result and the end (R195). -/
def placesDue (i : Nat) (s : State) : Bool :=
  s.xlt.waiting.any (fun w =>
    match w.access.purpose with
    | .colPlace j _ => j == i
    | _ => false)

/-- Operations of an invocation that have not finished. -/
def invOps (v : Invoc) (s : State) : Nat :=
  v.ops + (((getInst v.inst s).map (fun x => x.ops.length)).getD 0)

/-- An invocation whose END has been executed or that has failed is concluded once its operations have finished; one that has
nothing left to run fails with NO_END (R245, R246, R263); the chunk of a CREDIT comes no more once the instance has failed. -/
def conclude (i : Nat) (s : State) : State :=
  match getInvoc i s with
  | none => s
  | some v =>
    let s := if v.failed.isNone && !v.ended && !v.busy && invOps v s == 0 &&
        (v.evq.slots == 0 || (v.inst != 0 && !(getInst v.inst s).any (·.active))) && v.evq.words.isEmpty &&
        v.evq.timer.isNone then invFail i St.taperFault Tf.noEnd s else s
    match getInvoc i s with
    | none => s
    | some v =>
      if invOps v s != 0 then s
      else
        match v.failed with
        | some (st, dt) =>
          if v.inst == 0 then finishEntry v.ref st dt (dropInvoc i s)
          else
            match getInst v.inst s with
            | some x => if x.finished then dropInst v.inst (dropInvoc i s) else s
            | none => dropInvoc i s
        | none =>
          if !v.ended then s
          else if v.inst == 0 then finishEntry v.ref St.success 0 (dropInvoc i s)
          else
            match getInst v.inst s with
            | some x =>
              if x.failed.isNone && placesDue v.inst s then s
              else if x.failed.isNone then dropInst v.inst (dropInvoc i (instFinish v.inst St.success 0 s))
              else if x.finished then dropInst v.inst (dropInvoc i s) else s
            | none => dropInvoc i s

/-- An operation of an instance finishes: COL_DONE, and its invocation is looked at. -/
def opFinish (i op : Nat) (st dt : BitVec 8) (s : State) : State :=
  match getInst i s with
  | none => s
  | some x =>
    match x.ops.find? (fun o => o.id == op) with
    | none => s
    | some o =>
      let s := dropTx i (some op) (putInst i { x with ops := x.ops.filter (fun o => o.id != op) } s)
      conclude x.inv (instEvent x (colDone o.desc st dt) s)

/-- An operation fails, and its instance with it (R227, R250). -/
def opFail (i op : Nat) (st dt : BitVec 8) (s : State) : State :=
  match getInst i s with
  | none => s
  | some x =>
    match x.ops.find? (fun o => o.id == op) with
    | none => s
    | some o =>
      let s := dropTx i (some op) (putInst i { x with ops := x.ops.filter (fun o => o.id != op) } (opDrains o s))
      conclude x.inv (instFail i st dt (instEvent x (colDone o.desc st dt) s))

/-- An instance fails for a reason other than one operation's, and its invocation is looked at. -/
def instAbortOn (sched : Bool) (i : Nat) (dt : BitVec 8) (s : State) : State :=
  match getInst i s with
  | some x => conclude x.inv (instFailOn sched i St.collError dt s)
  | none => s

/-- An instance aborts, with COL_ABORTs of class COL. -/
def instAbort (i : Nat) (dt : BitVec 8) (s : State) : State := instAbortOn false i dt s

end Sys2Proof.Machine
end

