-- ==== Sys2Proof/Machine/ColOps.lean ====
section
/-! DEFINITION. The operations of a collective program (07: R197 to R199, R202 to R206, R211 to R214). -/

namespace Sys2Proof.Machine

/-! ### Buffers (R197 to R199) -/

def CBuf.held (peer : BitVec 17) (psn : BitVec 32) : CBuf :=
  { full := false, data := [], peer := peer, psn := psn, part := 0, parts := 1, isPartial := none }

/-- The chunk in a buffer, if it is complete. -/
def bufData (x : ColInst) (n : Nat) : Option CBuf := (tget x.bufs n).bind (fun b => if b.full then some b else none)

/-- Whether a chunk holds an exact partial (R214): one made here is known, one in several parts is, else a free value tells. -/
def chunkPartial (x : ColInst) (b : CBuf) : Bool :=
  match b.isPartial with
  | some p => p
  | none => 1 < b.parts || Config.partialChunk b.peer (instHandle x) b.psn

/-- `n` bytes of a chunk; what lies beyond its end is a free value. -/
def chunkBytes (n : Nat) (bs : List Byte) (s : State) : List Byte × State :=
  if n ≤ bs.length then (bs.take n, s)
  else
    let (k, s) := fresh s
    (bs ++ fitBytes (n - bs.length) (Config.undefBytes k (n - bs.length)), s)

/-- The access to an instance's SRC or DST at an offset (R193, R197). -/
def hostAccess (x : ColInst) (buf len : Nat) (off : BitVec 64) (wr : Bool) (purpose : Purpose) : Access :=
  let src := buf == 0xFFFE
  { fn := x.fn, dom := some x.pd
    parts := [⟨if src then hSkey x.head else hDkey x.head, (if src then hSrc x.head else hDst x.head) + off, len⟩]
    rights := if wr then 0b00010 else 0b00001, rd := !wr, wr := wr, testsOnly := false, purpose := purpose }

/-- An operation's phase changes. -/
def setPhase (i op : Nat) (ph : ColPhase) (s : State) : State :=
  modInst i (fun x => { x with ops := x.ops.map (fun o => if o.id == op then { o with phase := ph } else o) }) s

/-- The parts of an exact partial: at most 4,096 bytes each, split at record boundaries (R214). The first argument bounds the
number of records. -/
def splitRecords : Nat → List Byte → List Byte → List (List Byte)
  | 0, cur, _ => [cur]
  | n + 1, cur, bs =>
    if bs.length < 8 then [cur]
    else
      let len := bs.length - (recordLac bs).2.length
      let r := bs.take len
      if 4096 < cur.length + len then cur :: splitRecords n r (bs.drop len) else splitRecords n (cur ++ r) (bs.drop len)

/-- Does a chunk buffer hold an exact partial made here, whose length its records tell and not LEN (R214)? -/
def CBuf.ownPartial (b : CBuf) : Bool := b.isPartial == some true

/-- The parts in which an operation sends a chunk (R200, R214). -/
def sendParts (x : ColInst) (o : BitVec 512) (d : List Byte) : List (List Byte) :=
  match bufData x (oIn o 0) with
  | some b => if !hostBuf (oIn o 0) && b.ownPartial && 4096 < b.data.length then splitRecords 513 [] b.data else [d]
  | none => [d]

/-! ### SEND (R198) -/

/-- The packet of a part. -/
def dataPkt (x : ColInst) (o : BitVec 512) (peer : BitVec 17) (addr : BitVec 64) (part parts total : Nat) (d : List Byte)
    (msn : BitVec 16) (s : State) : Packet :=
  { colPkt x 0x20 (oSched o) peer (oPsn o) s with
    addr := addr, msn := msn, imm := BitVec.ofNat 32 (part % 65536 * 65536 + parts % 65536)
    msgLen := BitVec.ofNat 32 total, payLen := BitVec.ofNat 13 d.length, payload := d }

/-- ADDR of a HOST part: bit 63 and the offset in the receiver's DST (R200). -/
def hostAddr (off : BitVec 64) : BitVec 64 := BitVec.ofNat 64 (2 ^ 63 + off.toNat % 2 ^ 48)

/-- Total length of parts. -/
def totalLen (ps : List (List Byte)) : Nat := ps.foldl (fun a p => a + p.length) 0

/-- The parts of a HOST SEND all go out at once. -/
def sendHost (i : Nat) (x : ColInst) (o : ColOp) (ps : List (List Byte)) (s : State) : State :=
  (ps.zipIdx).foldl (fun s (d, k) =>
    let off := totalLen (ps.take k)
    colSend i (some o.id) x.hp
      (dataPkt x o.desc (oPeer o.desc) (hostAddr (oHoff o.desc + BitVec.ofNat 64 off)) k ps.length (totalLen ps) d 0 s) s)
    (setPhase i o.id (.waiting ps.length) s)

/-- The first credit from a peer for a chunk that no part has used. -/
def freeCredit (x : ColInst) (peer : BitVec 17) (psn : BitVec 32) : Option ColCredit :=
  x.credits.find? (fun c => c.peer == peer && c.psn == psn && !c.used)

/-- Send the next part of a SEND against a credit, as long as credits are held (R198, R214). -/
def sendCredited (i : Nat) (o : ColOp) (ps : List (List Byte)) : Nat → Nat → State → State
  | 0, _, s => s
  | n + 1, k, s =>
    match getInst i s with
    | none => s
    | some x =>
      match ps[k]?, freeCredit x (oPeer o.desc) (oPsn o.desc) with
      | some d, some c =>
        let use (e : ColCredit) : ColCredit := if e == c then { e with used := true } else e
        let s := putInst i { x with credits := x.credits.map use } s
        let p := dataPkt x o.desc (oPeer o.desc) (BitVec.ofNat 64 c.buf) k ps.length (totalLen ps) d 0 s
        sendCredited i o ps n (k + 1) (colSend i (some o.id) x.hp p (setPhase i o.id (.waiting (k + 1)) s))
      | _, _ => s

/-- A SEND goes on once credits have come: parts that wait for credits lie in a chunk buffer (R198). -/
def sendMore (i : Nat) (o : ColOp) (sent : Nat) (s : State) : State :=
  match getInst i s with
  | none => s
  | some x =>
    match bufData x (oIn o.desc 0) with
    | some b =>
      let ps := sendParts x o.desc b.data
      sendCredited i o ps ps.length sent s
    | none => s

/-- The data of a SEND is at hand. A SEND whose credit another has used meanwhile waits again for one (R198). -/
def sendGo (i : Nat) (x : ColInst) (o : ColOp) (d : List Byte) (s : State) : State :=
  let ps := sendParts x o.desc d
  if oHost o.desc then sendHost i x o ps s
  else if (freeCredit x (oPeer o.desc) (oPsn o.desc)).isNone then setPhase i o.id .queued s
  else sendCredited i o ps ps.length 0 s

/-! ### MCAST (R202 to R204) -/

/-- The device of this group at a row and column, as an endpoint of its host port 0. -/
def gridEp (row col : Nat) (s : State) : BitVec 17 := BitVec.ofNat 17 ((chipGroup s * 256 + row * 16 + col) * 4)

/-- Positions set in a mask. -/
def maskBits (m : BitVec 16) : List Nat := (List.range 16).filter (fun k => bit k m)

/-- The row and column at position `k` of a step. -/
def stepAt (dir k : Nat) (s : State) : Nat × Nat := if dir == 0 then (chipRow s, k) else (k, chipCol s)

/-- The devices that MASK and MASK2 name, the own one apart (R204). -/
def mcastDevices (o : BitVec 512) (s : State) : List (Nat × Nat) :=
  let own := (chipRow s, chipCol s)
  let first := (maskBits (oMask o)).map (fun k => stepAt (oDir o) k s)
  let second := if oDir o == 0 then
      first.flatMap (fun (_, c) => ((maskBits (oMask2 o)).filter (· != chipRow s)).map (fun r => (r, c)))
    else []
  ((first ++ second).filter (· != own)).eraseDups

/-- The two ports to a neighbour of the own row or column (R272): those whose PEER is the position. -/
def stepPorts (dir k : Nat) (s : State) : List Nat :=
  (List.range 124).filter (fun p => portRole p s == (if dir == 0 then 1 else 2) && portPeer p s == k)

/-- Of the parallel links, the usable one with fewer cells queued, the lower port on a tie (R203). -/
def stepPort (dir k : Nat) (s : State) : Option Nat :=
  ((stepPorts dir k s).filter (fun p => portUsable p s)).foldl (fun b p =>
    match b with
    | none => some p
    | some q => if queuedCells p s < queuedCells q s then some p else some q) none

/-- Send one copy of a Candelabra step by its direct link; with no usable link it waits for the unicast resend (R204). A row step is
the packet's first hop, and the column step of R204 continues it with the budget of one hop (R292). The copies of one step share their
cells, under its number (R203). -/
def sendCopy (dir k budget copy : Nat) (p : Packet) (s : State) : State :=
  match stepPort dir k s with
  | some out => sendOwn budget copy (sealCrc p) out s
  | none => s

/-- Replications in flight: MCASTs that have been taken up and have not finished (R204). -/
def mcastsInFlight (s : State) : Nat :=
  s.col.insts.foldl (fun a (_, x) => a + (x.ops.filter (fun o => oCop o.desc == 3 && o.phase != .queued)).length) 0

/-- The placement of a HOST part into a member's DST (R204). -/
def placeAccess (i : Nat) (x : ColInst) (p : Packet) : Access :=
  hostAccess x 0xFFFF p.payload.length (BitVec.ofNat 64 (bits 47 0 p.addr)) true (.colPlace i p)

/-- Place a HOST part for a member, once (R201, R204); a part of no byte places nothing. -/
def placeFor (i : Nat) (p : Packet) (s : State) : State :=
  match getInst i s with
  | none => s
  | some x =>
    let key := (p.srcEp, p.psn, BitVec.ofNat 16 (p.imm.toNat / 65536), p.addr)
    if x.hostSeen.contains key then s
    else
      let s := putInst i { x with hostSeen := key :: x.hostSeen } s
      if p.payload.isEmpty then s else xltStart (placeAccess i x p) s

/-- The active instances of a handle on this device, at every endpoint. -/
def localMembers (comm : BitVec 32) (seq : BitVec 16) (s : State) : List Nat :=
  s.col.insts.filterMap (fun (i, x) => if x.comm == comm && x.seq == seq && x.active then some i else none)

/-- The data of an MCAST is at hand: copies go out, the own members are served, and every expected device is remembered. With the CND
fenced meanwhile it fails (R394). -/
def mcastGo (i : Nat) (x : ColInst) (o : ColOp) (d : List Byte) (s : State) : State :=
  if unitFenced 116 s then opFail i o.id St.collError Cd.unitFenced s else
  let desc := o.desc
  let ownPos := if oDir desc == 0 then chipCol s else chipRow s
  let pkt (ep : BitVec 17) (msn : BitVec 16) (s : State) : Packet :=
    dataPkt x desc ep (hostAddr (oHoff desc)) 0 1 d.length d msn s
  let (n, s) := stgNumbered s
  let s := (maskBits (oMask desc)).foldl (fun s k =>
    if k == ownPos then s
    else
      let (r, c) := stepAt (oDir desc) k s
      sendCopy (oDir desc) k 2 n (pkt (gridEp r c s) (if oDir desc == 0 then oMask2 desc else 0) s) s) s
  let devs := mcastDevices desc s
  let s := setPhase i o.id (.waiting 1) s
  let s := devs.foldl (fun s (r, c) =>
    colRemember i (some o.id) x.hp (sealCrc (pkt (gridEp r c s) 0 s)) (meet i (gridEp r c s) s)) s
  let s := if bit ownPos (oMask desc) then
      (localMembers x.comm x.seq s).foldl (fun s j => placeFor j (pkt (ownEp x.hp s) 0 s) s) s
    else s
  if devs.isEmpty then opFinish i o.id St.success 0 s else s

/-! ### PLACE and REDUCE (R198, R211 to R214) -/

/-- The result of an operation goes to its OUT: a chunk buffer, SRC or DST (R197, R198). A chunk buffer that the instance does not hold is
BAD_OPERATION. The chunk is whole in its buffer, whatever part the buffer held before (R211). -/
def outGo (i : Nat) (x : ColInst) (o : ColOp) (d : List Byte) (part : Option Bool) (s : State) : State :=
  let out := oOut o.desc
  if hostBuf out then xltStart (hostAccess x out d.length (oHoff o.desc) true (.colWrite i o.id d)) (setPhase i o.id .checking s)
  else
    match tget x.bufs out with
    | none => opFail i o.id St.collError Cd.badOperation s
    | some b =>
      opFinish i o.id St.success 0
        (putInst i { x with bufs := tset x.bufs out { b with full := true, data := d, part := 0, parts := 1, isPartial := part } } s)

/-- The data of a PLACE is at hand. What is known of a chunk goes with its copy. -/
def placeGo (i : Nat) (x : ColInst) (o : ColOp) (d : List Byte) (s : State) : State :=
  outGo i x o d (((bufData x (oIn o.desc 0)).map (fun b => some (chunkPartial x b))).getD (some false)) s

/-- An operation that sends or copies has its data. -/
def dataGo (i op : Nat) (d : List Byte) (s : State) : State :=
  match getInst i s with
  | none => s
  | some x =>
    match x.ops.find? (fun o => o.id == op) with
    | none => s
    | some o =>
      if oCop o.desc == 2 then sendGo i x o d s
      else if oCop o.desc == 3 then mcastGo i x o d s
      else placeGo i x o d s

/-- Does a SEND that fills a chunk buffer lack the credit for its first part (R198)? -/
def lacksCredit (x : ColInst) (o : ColOp) : Bool :=
  oCop o.desc == 2 && !oHost o.desc && (freeCredit x (oPeer o.desc) (oPsn o.desc)).isNone

/-- An operation that sends or copies starts (R198): its data comes from a complete chunk buffer, or from SRC or DST under check.
`r` is what the reads of host data returned. A buffer that the instance does not hold is BAD_OPERATION; one that is not complete
is waited for (DEDUCED from R211), and so is a SEND's credit. A chunk gives LEN bytes; a SEND of an exact partial made here gives its
records (R214). -/
def dataStart (i : Nat) (x : ColInst) (o : ColOp) (r : ReadResult) (s : State) : State :=
  let n := oIn o.desc 0
  if lacksCredit x o && (hostBuf n || (tget x.bufs n).isSome) then s
  else if hostBuf n then
    if oLen o.desc == 0 then dataGo i o.id [] s
    else xltStart (hostAccess x n (oLen o.desc) (oHoff o.desc) false (.colRead i o.id r)) (setPhase i o.id .checking s)
  else
    match tget x.bufs n with
    | none => opFail i o.id St.collError Cd.badOperation s
    | some b =>
      if !b.full then s
      else if b.ownPartial && oCop o.desc == 2 then dataGo i o.id b.data s
      else
        let (d, s) := chunkBytes (oLen o.desc) b.data s
        dataGo i o.id d s

/-- The logical RDUs in use. -/
def rdusBusy (s : State) : List Nat :=
  s.col.insts.flatMap (fun (_, x) => x.ops.filterMap (fun o =>
    match o.phase with
    | .reducing r _ => some r
    | _ => none))

/-- The lowest logical RDU that is served (R392) and free. -/
def freeRdu (s : State) : Option Nat :=
  (List.range 32).find? (fun r => !bit 8 (rdReg (Reg.SNF_MAP_RDU + 8 * r) s) && !(rdusBusy s).contains r)

/-- Is any logical RDU still served, or about to be by a spare? -/
def anyRdu (s : State) : Bool :=
  (List.range 32).any (fun r => !bit 8 (rdReg (Reg.SNF_MAP_RDU + 8 * r) s)) ||
  s.snf.spares.any (fun x =>
    match x.1 with
    | .rdu _ => true
    | _ => false)

/-- The inputs of a REDUCE in order, each once for all its parts: chunk buffers, SRC or DST. -/
def reduceInputs (o : BitVec 512) : List Nat := (List.range (oCnt o)).map (oIn o)

/-- The host bytes that a REDUCE reads. -/
def reduceHost (x : ColInst) (o : BitVec 512) : List Part :=
  (reduceInputs o).filterMap (fun n =>
    if n == 0xFFFE then some ⟨hSkey x.head, hSrc x.head + oHoff o, oLen o⟩
    else if n == 0xFFFF then some ⟨hDkey x.head, hDst x.head + oHoff o, oLen o⟩
    else none)

/-- The access of a REDUCE to its host inputs; with none, an access of no part, which is admitted at once. -/
def reduceAccess (i : Nat) (x : ColInst) (o : ColOp) : Access :=
  { fn := x.fn, dom := some x.pd, parts := reduceHost x o.desc, rights := 0b00001, rd := true, wr := false, testsOnly := false,
    purpose := .colRead i o.id (.data []) }

/-- Part `k` of the chunk of which a buffer holds a part (R214). -/
def chunkPart (x : ColInst) (b : CBuf) (k : Nat) : Option CBuf :=
  (x.bufs.find? (fun (_, c) => c.full && c.peer == b.peer && c.psn == b.psn && c.parts == b.parts && c.part == k)).map (·.2)

/-- The parts held of the chunk in a buffer, in PART order (R214). -/
def chunkOf (x : ColInst) (b : CBuf) : List Byte :=
  if b.parts ≤ 1 then b.data
  else (List.range b.parts).flatMap (fun k => ((chunkPart x b k).map (·.data)).getD [])

/-- Are all the parts of a chunk held (R211)? -/
def chunkWhole (x : ColInst) (b : CBuf) : Bool :=
  b.full && (b.parts ≤ 1 || (List.range b.parts).all (fun k => (chunkPart x b k).isSome))

/-- A REDUCE starts (R211): every input chunk is complete and an RDU is free. -/
def reduceStart (i : Nat) (x : ColInst) (o : ColOp) (s : State) : State :=
  let ins := (reduceInputs o.desc).filter (fun n => !hostBuf n)
  if ins.any (fun n => (tget x.bufs n).isNone) then opFail i o.id St.collError Cd.badOperation s
  else if !anyRdu s then opFail i o.id St.collError Cd.unitFenced s
  else if !ins.all (fun n => (tget x.bufs n).any (chunkWhole x)) then s
  else
    match freeRdu s with
    | none => s
    | some r =>
      let s := setPhase i o.id (.reducing r none) s
      if (reduceHost x o.desc).isEmpty then s else xltStart (reduceAccess i x o) s

/-- The inputs of a REDUCE as chunks: whether each is an exact partial, and its bytes; `host` holds the host bytes that have been
read. -/
def gatherInputs (x : ColInst) (o : BitVec 512) : List Nat → List Byte → State → List (Bool × List Byte) × State
  | [], _, s => ([], s)
  | n :: t, host, s =>
    if hostBuf n then
      let (r, s) := gatherInputs x o t (host.drop (oLen o)) s
      ((false, fitBytes (oLen o) host) :: r, s)
    else
      match tget x.bufs n with
      | none => gatherInputs x o t host s
      | some b =>
        if chunkPartial x b then
          let (r, s) := gatherInputs x o t host s
          ((true, chunkOf x b) :: r, s)
        else
          let (d, s) := chunkBytes (oLen o) b.data s
          let (r, s) := gatherInputs x o t host s
          ((false, d) :: r, s)

/-- An instance's chunk buffers as a REDUCE finds them: those freed since it began are kept for it (R211). -/
def withKept (x : ColInst) (o : ColOp) : ColInst := { x with bufs := o.kept.foldl (fun t (k, b) => tset t k b) x.bufs }

/-- The physical site that serves a logical RDU (R392). -/
def rduSite (r : Nat) (s : State) : Nat := rf (Reg.SNF_MAP_RDU + 8 * r) 7 0 s

/-- An RDU's accumulators after an exact REDUCE (R212): element e is accumulated in LAC e mod 4, and each LAC keeps the last value
that it held (DESIGN CHOICE). -/
def keepLacs (r : Nat) (ls : List Lac) (s : State) : State :=
  withCol (fun c => { c with
    lacs := (ls.zipIdx).foldl (fun t (l, e) => tset t (4 * rduSite r s + e % 4) l) c.lacs }) s

/-- An RDU completes a REDUCE (R209, R211, R213). -/
def reduceGo (i : Nat) (x : ColInst) (o : ColOp) (host : List Byte) (s : State) : State :=
  let op := hOp x.head
  let (ins, s) := gatherInputs (withKept x o) o.desc (reduceInputs o.desc) host s
  if op == 6 || op == 7 then
    let s := match o.phase with
      | .reducing r _ => keepLacs r (exactLacs (op == 7) (oLen o.desc) ins) s
      | _ => s
    outGo i x o (reduceExact (op == 7) (oRound o.desc) (oLen o.desc) ins) (some (!oRound o.desc)) s
  else outGo i x o (reduceRounded op (hType x.head) (oLen o.desc) (ins.map (·.2))) (some false) s

/-- REDUCE_COMPLETE: the RDU of a REDUCE is done; `d` is what the reads of its host inputs returned. While its logical RDU is ABSENT
the REDUCE is yet to be run again on the spare (R211). -/
def reduceDone (i op : Nat) (d : ReadResult) (s : State) : State :=
  match getInst i s with
  | none => s
  | some x =>
    match x.ops.find? (fun o => o.id == op) with
    | none => s
    | some o =>
      match o.phase with
      | .reducing r n =>
        if (!(reduceHost x o.desc).isEmpty && n.isNone) || bit 8 (rdReg (Reg.SNF_MAP_RDU + 8 * r) s) then s
        else
          let s := match n with
            | some k => drained k s
            | none => s
          match getInst i s, d with
          | some x, .data bs => reduceGo i x o bs s
          | some x, .pcieError =>
            if (reduceHost x o.desc).isEmpty then reduceGo i x o [] s else opFail i op St.localPcie 0 (setPhase i op .queued s)
          | none, _ => s
      | _ => s

/-! ### Outcomes of the checks -/

/-- The check of an operation's host data has an outcome. A fault finishes COL_START with it (R227). -/
def colReadChecked (i op : Nat) (r : ReadResult) (c : Checked) (s : State) : State :=
  let o := (getInst i s).bind (fun x => x.ops.find? (fun o => o.id == op))
  match o, c with
  | none, .pass n _ => drained n s
  | none, .fail _ => s
  | some _, .fail d => opFail i op (faultStatus d) (BitVec.ofNat 8 d) s
  | some o, .pass n segs =>
    let f := ((getInst i s).map (·.fn)).getD 0
    let s := readSegs (fnLink f) f false segs s
    match o.phase with
    | .reducing rdu _ => setPhase i op (.reducing rdu (some n)) s
    | _ =>
      let s := drained n s
      match r with
      | .data bs => dataGo i op (fitBytes (oLen o.desc) bs) s
      | .pcieError => opFail i op St.localPcie 0 s

/-- The check of an operation's writes to DST has an outcome. -/
def colWriteChecked (i op : Nat) (bs : List Byte) (c : Checked) (s : State) : State :=
  match c with
  | .fail d => opFail i op (faultStatus d) (BitVec.ofNat 8 d) s
  | .pass n segs =>
    match getInst i s with
    | some x =>
      if x.ops.any (fun o => o.id == op) then opFinish i op St.success 0 (drained n (writeSegs (fnLink x.fn) x.fn false segs bs s))
      else drained n s
    | none => drained n s

/-- The check of a HOST part's placement has an outcome (R204, R227): a fault aborts the member's instance, and the sender gets
COL_ABORT. -/
def colPlaceChecked (i : Nat) (p : Packet) (c : Checked) (s : State) : State :=
  match c with
  | .pass n segs =>
    match getInst i s with
    | some x => conclude x.inv (drained n (if x.active then writeSegs (fnLink x.fn) x.fn false segs p.payload s else s))
    | none => drained n s
  | .fail d =>
    match getInst i s with
    | some x => conclude x.inv (instFail i (faultStatus d) (BitVec.ofNat 8 d) (if x.active then meet i p.srcEp s else s))
    | none => s

/-- The check of a result record has an outcome (R195, R220, R227): it is written; the operation or COL_START finishes. -/
def colRecordChecked (i : Nat) (op : Option Nat) (st dt : BitVec 8) (v : BitVec 64) (c : Checked) (s : State) : State :=
  match getInst i s with
  | none => match c with
    | .pass n _ => drained n s
    | .fail _ => s
  | some x =>
    match c, op with
    | .fail d, some k => opFail i k (faultStatus d) (BitVec.ofNat 8 d) s
    | .fail _, none => conclude x.inv (instFinish i st dt s)
    | .pass n segs, some k =>
      if x.ops.any (fun o => o.id == k) then
        let s := writeRecordAt x.fn ((segs.head?.map (·.bus)).getD 0) x.ref.idx st dt v s
        opFinish i k St.success 0 (modInst i (fun x => { x with resultDone := true }) (drained n s))
      else drained n s
    | .pass n segs, none =>
      let s := drained n (writeRecordAt x.fn ((segs.head?.map (·.bus)).getD 0) x.ref.idx st dt v s)
      conclude x.inv (instFinish i st dt s)

end Sys2Proof.Machine
end

