-- ==== Sys2Proof/Machine/ColNet.lean ====
section
/-! DEFINITION. The collective engine's operations as they are taken up, its packets, the early table and the combining of CADDs
(07: R196 to R204, R216 to R219). -/

namespace Sys2Proof.Machine

/-! ### The early table (R196, R199, R219) -/

def sameHandle (hp : Nat) (comm : BitVec 32) (seq : BitVec 16) (e : Early) : Bool := e.hp == hp && e.comm == comm && e.seq == seq

def getEarly (hp : Nat) (comm : BitVec 32) (seq : BitVec 16) (s : State) : Option Early := s.col.early.find? (sameHandle hp comm seq)

/-- Change the entry of a handle, making it if there is room among 4,096; `none` when the table is full. -/
def modEarly (hp : Nat) (comm : BitVec 32) (seq : BitVec 16) (f : Early → Early) (s : State) : Option State :=
  match getEarly hp comm seq s with
  | some _ => some (withCol (fun c => { c with early := c.early.map (fun e => if sameHandle hp comm seq e then f e else e) }) s)
  | none =>
    if 4096 ≤ s.col.early.length then none
    else some (withCol (fun c => { c with
      early := c.early ++ [f { hp := hp, comm := comm, seq := seq, credits := [], combs := [], tomb := none }] }) s)

/-- Entries that hold nothing are free. -/
def tidyEarly (s : State) : State :=
  withCol (fun c => { c with early := c.early.filter (fun e => !e.credits.isEmpty || !e.combs.isEmpty || e.tomb.isSome) }) s

/-- TOMB_TIME in 1/16 ns (R228). -/
def tombTime (s : State) : Nat := us (nz (rf Reg.COL_CFG 63 48 s))

/-- Leave a tombstone; `none` when the early table is full. -/
def leaveTomb (hp : Nat) (comm : BitVec 32) (seq : BitVec 16) (s : State) : Option State :=
  modEarly hp comm seq (fun e => { e with tomb := some (s.now + tombTime s) }) s

/-- A tombstone's time is over. -/
def tombExpire (hp : Nat) (comm : BitVec 32) (seq : BitVec 16) (s : State) : State :=
  match (getEarly hp comm seq s).bind (·.tomb) with
  | some t => tidyEarly ((modEarly hp comm seq (fun e => { e with tomb := none }) (advanceTo t s)).getD s)
  | none => s

/-! ### Combining (R217 to R219) -/

def getComb (c : Nat) (s : State) : Option Comb := tget s.col.combs c
def putComb (c : Nat) (x : Comb) (s : State) : State := withCol (fun k => { k with combs := tset k.combs c x }) s

/-- COMM and SEQ of a CADD. -/
def caddComm (p : Packet) : BitVec 32 := p.imm
def caddSeq (p : Packet) : BitVec 16 := p.msn

/-- Acknowledge one constituent (R218): the upstream hop gets CADD_ACK, an operation of this device finishes. A hop sequence stays
known until the hop's numbering has gone half round. -/
def ackCustody (u : Custody) (s : State) : State :=
  match u with
  | .op i id => opFinish i id St.success 0 s
  | .hop inp seq ep =>
    let old := s.col.done.filter (fun d => d != (inp, seq) && (d.1 != inp || (seq - d.2).toNat < 2 ^ 31))
    let s := withCol (fun c => { c with done := (inp, seq) :: old }) s
    let a := sealCrc { Packet.zero with op := 0x25, cls := 3, psn := seq, dstEp := ep, srcEp := ownEp 0 s }
    if inp < 128 then sendOwn 2 0 a inp s
    else emit (.deliverCol a) s

/-- A combined CADD has been acknowledged downstream or applied: every constituent is acknowledged and the slot is free. -/
def combDone (c : Nat) (s : State) : State :=
  match getComb c s with
  | some x => x.custody.foldl (fun s u => ackCustody u s) (withCol (fun k => { k with combs := tdel k.combs c }) s)
  | none => s

/-- Is a constituent the CADD of a hop sequence on an input? -/
def isHop (inp : Nat) (seq : BitVec 32) : Custody → Bool
  | .hop i q _ => i == inp && q == seq
  | .op _ _ => false

/-- The access of a CADD at its collector (R219). -/
def caddAccess (c : Nat) (x : ColInst) (p : Packet) : Access :=
  { fn := x.fn, dom := some x.pd, parts := [⟨p.key, p.addr, 8⟩], rights := 0b10000, rd := true, wr := true, testsOnly := false,
    purpose := .cadd c }

/-- A CADD is refused (R219): counted, its senders' instances abort with PEER_ABORTED, and it is acknowledged. -/
def combRefuse (c : Nat) (s : State) : State :=
  match getComb c s with
  | none => s
  | some x =>
    let p := x.pkt
    let s := combDone c (colIgnored s)
    x.custody.foldl (fun s u =>
      match u with
      | .op i _ => instAbort i Cd.peerAborted s
      | .hop _ _ ep =>
        let q := { Packet.zero with
          op := 0x23, cls := 3, dstEp := ep, srcEp := p.dstEp
          opx := BitVec.ofNat 64 (p.imm.toNat * 2 ^ 32 + p.msn.toNat * 2 ^ 16) }
        transmit (epPort p.dstEp) q (colRemember 0 none (epPort p.dstEp) q s)) s

/-- A combined CADD reaches its collector on this device (R219): checked, or held in the early table; with no room there it waits
to be tried again. The instance has met the endpoints whose packets it takes (R196). -/
def combApply (c : Nat) (s : State) : State :=
  match getComb c s with
  | none => s
  | some x =>
    let p := x.pkt
    match findInst (epPort p.dstEp) (caddComm p) (caddSeq p) s with
    | some (n, i) =>
      let s := x.custody.foldl (fun s u =>
        match u with
        | .hop _ _ ep => meet n ep s
        | .op _ _ => s) s
      if p.addr.toNat % 8 != 0 then combRefuse c s else xltStart (caddAccess c i p) (putComb c { x with phase := .applying } s)
    | none =>
      match modEarly (epPort p.dstEp) (caddComm p) (caddSeq p) (fun e => { e with combs := e.combs ++ [c] }) s with
      | some s => putComb c { x with phase := .early } s
      | none => putComb c { x with phase := .sent, since := s.now, wait := colRto s } s

/-- The check of a CADD at its collector has an outcome: the addend goes to the atomic unit (R216, R219). -/
def caddChecked (c : Nat) (k : Checked) (s : State) : State :=
  match k, getComb c s with
  | .pass n segs, some x =>
    let p := x.pkt
    let f := (findInst (epPort p.dstEp) (caddComm p) (caddSeq p) s).map (fun (_, i) => i.fn)
    match f with
    | some f =>
      pushAtom ⟨.cadd c p.opx, f, (segs.head?.map (·.bus)).getD 0, n, false, false, false⟩ s
    | none => combRefuse c (drained n s)
  | .pass n _, none => drained n s
  | .fail _, _ => combRefuse c s

/-- Put a combined CADD's packet on its way (R217): one packet at its egress, with the device's own hop sequence. -/
def combEmit (x : Comb) (s : State) : State := sendOwn x.budget 0 (sealCrc x.pkt) x.egress s

/-- The combining interval of a slot ends (R217), unless the COL is fenced (R389). -/
def combClose (c : Nat) (s : State) : State :=
  match getComb c s with
  | some x =>
    if x.phase != .open_ || unitFenced 117 s then s
    else
      let s := advanceTo (x.since + x.wait) s
      if x.egress == 184 then combApply c s
      else
        let q := s.col.hopSeq + 1
        let x := { x with phase := .sent, since := s.now, wait := colRto s, pkt := { x.pkt with psn := q } }
        combEmit x (putComb c x (withCol (fun k => { k with hopSeq := q }) s))
  | none => s

/-- A hop without CADD_ACK after COL_RTO: the CADD is sent again (R218), unless the COL is fenced (R389). -/
def combResend (c : Nat) (s : State) : State :=
  match getComb c s with
  | some x =>
    if x.phase != .sent || unitFenced 117 s then s
    else
      let s := evcPulse 213 0 (advanceTo (x.since + x.wait) s)
      if x.egress == 184 then combApply c s else combEmit x (putComb c { x with since := s.now, wait := colRto s } s)
  | none => s

/-- Does a combined CADD stand open for the same target at the same egress (R217)? -/
def combMatches (egress : Nat) (p : Packet) (x : Comb) : Bool :=
  x.phase == .open_ && x.egress == egress && x.pkt.dstEp == p.dstEp && x.pkt.addr == p.addr && x.pkt.key == p.key &&
  x.pkt.imm == p.imm && x.pkt.msn == p.msn

/-- A CADD joins the combining of its egress (R217, R218); `none` when all 2,048 slots are in use. The combined packet keeps the intra
budget of its first constituent. -/
def combJoin (egress budget : Nat) (p : Packet) (u : Custody) (s : State) : Option State :=
  match s.col.combs.find? (fun (_, x) => combMatches egress p x) with
  | some (c, x) =>
    let q := { x.pkt with opx := x.pkt.opx + p.opx, msgLen := x.pkt.msgLen + p.msgLen }
    some (putComb c { x with pkt := q, custody := x.custody ++ [u] } s)
  | none =>
    (tfree s.col.combs 2048 0 2048).map (fun c =>
      putComb c { egress := egress, budget := budget, pkt := p, custody := [u], phase := .open_, since := s.now, wait := nz (rf Reg.COL_CFG 15 8 s) * 128 } s)

/-- The egress of a CADD: a fabric port by the fixed route, or 184 for this device's own COL (R217, R288). -/
def caddEgress (inp : Nat) (p : Packet) (s : State) : Option Nat :=
  if p.dstEp.toNat / 4 == chipId s then some 184
  else
    match routeOnce (newIn inp 0 0 p s) p s with
    | (.port out _, _) => some out
    | _ => none

/-- A CADD comes on an input (R217, R218): whether it has been taken, and the State. A damaged one is discarded and counted; a
resend that is in custody is not added again, and one acknowledged before is acknowledged again. -/
def caddCome (inp : Nat) (p : Packet) (s : State) : Bool × State :=
  if e2eCrc p != p.crc then (true, colIgnored s)
  else if s.col.done.contains (inp, p.psn) then (true, ackCustody (.hop inp p.psn p.srcEp) s)
  else if s.col.combs.any (fun (_, x) => x.custody.any (isHop inp p.psn)) then (true, s)
  else
    match caddEgress inp p s with
    | none => (true, evcPulse 218 (inputTile inp) s)
    | some e =>
      match combJoin e (intraBudget inp p s) p (.hop inp p.psn p.srcEp) s with
      | some s => (true, s)
      | none => (false, s)

/-- A CADD_ACK comes on the port on which the CADD left (R218). -/
def caddAcked (inp : Nat) (p : Packet) (s : State) : State :=
  if e2eCrc p != p.crc then colIgnored s
  else
    match s.col.combs.find? (fun (_, x) => x.phase == .sent && x.egress == inp && x.pkt.psn == p.psn) with
    | some (c, _) => combDone c s
    | none => s

/-! ### Operations taken up (R198) -/

/-- COP_CREDIT: a chunk buffer is reserved and the peer told; with none free it waits (R199). -/
def copCreditGo (i : Nat) (x : ColInst) (o : ColOp) (s : State) : State :=
  let out := oOut o.desc
  if (tget x.bufs out).isSome || cbMax s ≤ buffersHeld s then s
  else
    let s := putInst i { x with bufs := tset x.bufs out (CBuf.held (oPeer o.desc) (oPsn o.desc)) } s
    colSend i (some o.id) x.hp
      { colPkt x 0x21 (oSched o.desc) (oPeer o.desc) (oPsn o.desc) s with addr := BitVec.ofNat 64 out }
      (setPhase i o.id (.waiting 1) s)

/-- COP_CADD: the addition joins the combining of its egress, once the chip ID is set (R276). -/
def copCaddGo (i : Nat) (x : ColInst) (o : ColOp) (s : State) : State :=
  if !chipValid s then s else
  let p := { colPkt x 0x24 (oSched o.desc) (oPeer o.desc) 0 s with
    addr := oHoff o.desc, opx := oValue o.desc, key := oKey o.desc, imm := x.comm, msn := x.seq, msgLen := 1 }
  match caddEgress 184 p s with
  | none => evcPulse 218 0 s
  | some e =>
    match combJoin e 2 p (.op i o.id) s with
    | some s => setPhase i o.id (.waiting 1) (meet i (oPeer o.desc) s)
    | none => s

/-- Does an MCAST that has not gone out yet place its data for this device's own members (R203)? -/
def mcastPlaces (o : ColOp) (s : State) : Bool :=
  oCop o.desc == 3 && (o.phase == .queued || o.phase == .checking) &&
  bit (if oDir o.desc == 0 then chipCol s else chipRow s) (oMask o.desc)

/-- Is a placement write of the instance still to come (R195): of an operation before number `n`, a PLACE or REDUCE into host memory that
has not finished or an MCAST that has not placed its own copy, or of a HOST part under check? -/
def placesBefore (i : Nat) (x : ColInst) (n : Nat) (s : State) : Bool :=
  placesDue i s || x.ops.any (fun e => e.id < n &&
    (((oCop e.desc == 4 || oCop e.desc == 5) && hostBuf (oOut e.desc)) || mcastPlaces e s))

/-- Is a placement write still to come before an operation's result? -/
def placesFirst (i : Nat) (x : ColInst) (o : ColOp) (s : State) : Bool := placesBefore i x o.id s

/-- COP_RESULT: the result record is written after its check, or the mailbox at once, and placement writes come first (R195). An
instance without a result, or whose result has been written, breaks R198. -/
def copResultGo (i : Nat) (x : ColInst) (o : ColOp) (s : State) : State :=
  if x.resultDone || hResKind x.head == 0 then opFail i o.id St.collError Cd.badOperation s
  else if placesFirst i x o s then s
  else if hResKind x.head == 1 then
    xltStart (recordAccess i x (some o.id) St.success 0 (oValue o.desc)) (setPhase i o.id .checking s)
  else
    let s := mbxFill (bits 11 0 (hRes x.head)) St.success 0 (oValue o.desc) s
    opFinish i o.id St.success 0 (putInst i { x with resultDone := true } s)

/-- Does a chunk buffer hold an input of a running REDUCE, or a part of one (R211, R214)? -/
def reduceReads (x : ColInst) (o : ColOp) (n : Nat) (b : CBuf) : Bool :=
  match o.phase with
  | .reducing _ _ => (reduceInputs o.desc).any (fun k =>
      k == n || (tget x.bufs k).any (fun c => 1 < c.parts && c.peer == b.peer && c.psn == b.psn))
  | _ => false

/-- Chunk buffers leave an instance; a running REDUCE keeps those that it reads until it finishes (R199, R211). -/
def freeBufs (x : ColInst) (ids : List Nat) : ColInst :=
  let out := x.bufs.filter (fun (k, _) => ids.contains k)
  { x with
    bufs := x.bufs.filter (fun (k, _) => !ids.contains k)
    ops := x.ops.map (fun o =>
      { o with kept := (out.filter (fun (k, b) => reduceReads x o k b)).foldl (fun t (k, b) => tset t k b) o.kept }) }

/-- COP_FREE: chunk buffers that the instance holds are freed. -/
def copFreeGo (i : Nat) (x : ColInst) (o : ColOp) (s : State) : State :=
  let ids := (List.range (oCnt o.desc)).map (oIn o.desc)
  if !ids.all (fun n => (tget x.bufs n).isSome) then opFail i o.id St.collError Cd.badOperation s
  else opFinish i o.id St.success 0 (putInst i (freeBufs x ids) s)

/-- COP_ABORT: the instance aborts, and PEER gets COL_ABORT as well; with SCHED they go on class SCH. The operation finishes first; the abort stands even after the
program's END (R196). -/
def copAbortGo (i : Nat) (x : ColInst) (o : ColOp) (s : State) : State :=
  let s := meet i (oPeer o.desc) (modInst i (fun x => { x with ops := x.ops.filter (fun e => e.id != o.id) }) s)
  instAbortOn (oSched o.desc) i Cd.aborted (instEvent x (colDone o.desc St.success 0) s)

/-- COP_END: once every other operation has finished, COL_START can finish (R195). -/
def copEndGo (i : Nat) (x : ColInst) (_o : ColOp) (s : State) : State :=
  if x.ops.length == 1 then conclude x.inv (putInst i { x with ops := [] } s) else s

/-- COP_MCAST: with the CND fenced it fails; with 64 replications in flight it waits (R204). -/
def copMcastGo (d : ReadResult) (i : Nat) (x : ColInst) (o : ColOp) (s : State) : State :=
  if unitFenced 116 s then opFail i o.id St.collError Cd.unitFenced s
  else if 64 ≤ mcastsInFlight s then s
  else dataStart i x o d s

/-- Can an operation go on as far as its own buffers tell (R198, R211)? The chunk that a SEND, an MCAST or a PLACE takes is complete, a SEND
into a chunk buffer has its credit, and the chunks that a REDUCE takes are complete. A buffer that is not held is no reason to wait. -/
def opReady (x : ColInst) (o : ColOp) : Bool :=
  let c := oCop o.desc
  let held (n : Nat) (p : CBuf → Bool) : Bool := hostBuf n || (match tget x.bufs n with
    | some b => p b
    | none => true)
  if c == 2 || c == 3 || c == 5 then
    held (oIn o.desc 0) (·.full) && !(lacksCredit x o && (hostBuf (oIn o.desc 0) || (tget x.bufs (oIn o.desc 0)).isSome))
  else if c == 4 then
    (reduceInputs o.desc).all (fun n => held n (chunkWhole x)) ||
    (reduceInputs o.desc).any (fun n => !hostBuf n && (tget x.bufs n).isNone)
  else true

/-- The operation of a COP that is taken up next: the oldest that can go on, or that breaks R197 or R198. -/
def opNext (cop : Nat) (x : ColInst) (s : State) : Option ColOp :=
  x.ops.find? (fun o => o.phase == .queued && oCop o.desc == cop && (!opOk x o.desc s || opReady x o))

/-- An instance's next operation of a COP is taken up; one that breaks R197 or R198 fails with its instance. -/
def copStep (cop i : Nat) (go : Nat → ColInst → ColOp → State → State) (s : State) : State :=
  match getInst i s with
  | none => s
  | some x =>
    if !x.active || unitFenced 117 s then s else
    match opNext cop x s with
    | none => s
    | some o => if opOk x o.desc s then go i x o s else opFail i o.id St.collError Cd.badOperation s

/-- An operation descriptor joins its instance (R250). One whose COP is not defined fails at once. -/
def colopPut (i : Nat) (desc : BitVec 512) (s : State) : State :=
  match getInst i s with
  | none => s
  | some x =>
    let o : ColOp := { id := x.nextOp, desc := desc, phase := .queued, kept := [] }
    let s := putInst i { x with ops := x.ops ++ [o], nextOp := x.nextOp + 1 } s
    let c := oCop desc
    if (1 ≤ c && c ≤ 9) || c == 15 then s else opFail i x.nextOp St.collError Cd.badOperation s

/-! ### Packets (R199 to R204) -/

def pktComm (p : Packet) : BitVec 32 := p.opx.extractLsb' 32 32
def pktSeq (p : Packet) : BitVec 16 := p.opx.extractLsb' 16 16

/-- The instance that a packet names at its endpoint. -/
def pktInst (p : Packet) (s : State) : Option (Nat × ColInst) := findInst (epPort p.dstEp) (pktComm p) (pktSeq p) s

/-- A COL_DATA part for a chunk buffer (R199): it fills the buffer reserved for it, and COL_CHUNK tells the program. -/
def dataToBuf (p : Packet) (s : State) : State :=
  match pktInst p s with
  | none => s
  | some (i, x) =>
    let n := bits 13 0 p.addr
    match tget x.bufs n with
    | none => s
    | some b =>
      if b.full || b.peer != p.srcEp || b.psn != p.psn then s
      else
        let part := p.imm.toNat / 65536
        let parts := p.imm.toNat % 65536
        let b := { b with full := true, data := p.payload, part := part, parts := parts }
        let s := putInst i { x with
          bufs := tset x.bufs n b
          met := if x.met.contains p.srcEp then x.met else x.met ++ [p.srcEp] } s
        let tag := p.psn.toNat / 65536
        instEvent x (eventWord 2 St.success 0 parts tag (if part == 0 then p.psn.toNat % 65536 else part)) s

/-- A row-step copy with MASK2: this device issues the column step itself (R204), which continues the packet at a higher rank (R292). A
fenced CND makes no copies, and the origin's unicast completes the step (R394). -/
def columnStep (p : Packet) (s : State) : State :=
  if unitFenced 116 s then s else
  let (n, s) := stgNumbered s
  (maskBits p.msn).foldl (fun s k =>
    if k == chipRow s then s else sendCopy 1 k 1 n { p with msn := 0, dstEp := gridEp k (chipCol s) s } s) s

/-- A COL_DATA packet (R201, R204): acknowledged always; a HOST part is placed for the members that it reaches. -/
def colDataCome (p : Packet) (s : State) : State :=
  if e2eCrc p != p.crc then colIgnored s
  else
    let s := colAnswer p s
    if bit 63 p.addr then
      let copy := p.msn != 0 || Config.mcastCopy p.srcEp p.opx p.psn
      let s := if p.msn != 0 then columnStep p s else s
      let who := if copy then localMembers (pktComm p) (pktSeq p) s else (pktInst p s).toList.map (·.1)
      who.foldl (fun s i => placeFor i p (meet i p.srcEp s)) s
    else dataToBuf p s

/-- SEND operations that wait for credit go on. -/
def sendsGoOn (i : Nat) (s : State) : State :=
  match getInst i s with
  | none => s
  | some x => x.ops.foldl (fun s o =>
    match o.phase with
    | .waiting k => if oCop o.desc == 2 && !oHost o.desc then sendMore i o k s else s
    | _ => s) s

/-- A COL_CREDIT (R199, R201): given to the instance, or held in the early table; with no room there it is not acknowledged. One
for an instance that has failed here is acknowledged only. -/
def colCreditCome (p : Packet) (s : State) : State :=
  if e2eCrc p != p.crc then colIgnored s
  else
    let c : ColCredit := { peer := p.srcEp, psn := p.psn, buf := bits 13 0 p.addr, used := false }
    let same (d : ColCredit) : Bool := d.peer == c.peer && d.psn == c.psn && d.buf == c.buf
    match pktInst p s with
    | some (i, x) =>
      let x := if x.credits.any same then x else { x with credits := x.credits ++ [c] }
      sendsGoOn i (colAnswer p (meet i p.srcEp (putInst i x s)))
    | none =>
      if s.col.insts.any (fun (_, x) => x.hp == epPort p.dstEp && x.comm == pktComm p && x.seq == pktSeq p) then colAnswer p s
      else
        match modEarly (epPort p.dstEp) (pktComm p) (pktSeq p)
            (fun e => if e.credits.any same then e else { e with credits := e.credits ++ [c] }) s with
        | some s => colAnswer p s
        | none => s

/-- Have all the parts of an operation been sent and acknowledged? -/
def opAcked (i : Nat) (o : ColOp) (s : State) : Bool :=
  match o.phase, getInst i s with
  | .waiting k, some x =>
    let parts := if oCop o.desc == 2 && !oHost o.desc then
        match bufData x (oIn o.desc 0) with
        | some b => (sendParts x o.desc b.data).length
        | none => 1
      else k
    parts ≤ k && !s.col.tx.any (fun t => t.inst == i && t.op == some o.id)
  | _, _ => false

/-- A COL_ACK (R201): the oldest packet that it acknowledges need not be sent again; an operation all of whose parts are
acknowledged finishes. -/
def colAckCome (p : Packet) (s : State) : State :=
  if e2eCrc p != p.crc then colIgnored s
  else
    let same (t : ColTx) : Bool :=
      t.pkt.dstEp == p.srcEp && t.hp == epPort p.dstEp && pktComm t.pkt == pktComm p && pktSeq t.pkt == pktSeq p &&
      t.pkt.psn == p.psn && (if t.pkt.op == 0x20 then t.pkt.imm.toNat / 65536 else 0) == p.imm.toNat
    match s.col.tx.find? same with
    | none => s
    | some t =>
      let s := withCol (fun c => { c with tx := c.tx.filter (fun u => u.id != t.id) }) s
      match t.op, getInst t.inst s with
      | some k, some x =>
        match x.ops.find? (fun o => o.id == k) with
        | some o => if opAcked t.inst o s then opFinish t.inst k St.success 0 s else s
        | none => s
      | _, _ => s

/-- A COL_ABORT (R196): an active instance aborts with PEER_ABORTED; otherwise a tombstone is left, and
one that is held stays as it is (R201). -/
def colAbortCome (p : Packet) (s : State) : State :=
  if e2eCrc p != p.crc then colIgnored s
  else
    match pktInst p s with
    | some (i, _) => instAbort i Cd.peerAborted (colAnswer p s)
    | none =>
      if ((getEarly (epPort p.dstEp) (pktComm p) (pktSeq p) s).bind (·.tomb)).isSome then colAnswer p s
      else
        match leaveTomb (epPort p.dstEp) (pktComm p) (pktSeq p) s with
        | some s => colAnswer p s
        | none => s

/-- COL_RTO of an unacknowledged packet (R201): sent again by unicast, or the instance fails with PEER_LOST. A fenced COL sends
nothing (R389). -/
def colResend (id : Nat) (s : State) : State :=
  match s.col.tx.find? (fun t => t.id == id) with
  | none => s
  | some t =>
    if unitFenced 117 s then s else
    let s := advanceTo (t.sentAt + t.rto) s
    if nz (rf Reg.COL_CFG 23 16 s) ≤ t.tries then
      let s := withCol (fun c => { c with tx := c.tx.filter (fun u => u.id != id) }) s
      instAbort t.inst Cd.peerLost s
    else
      let p := { t.pkt with msn := if t.pkt.op == 0x20 then 0 else t.pkt.msn }
      let upd (u : ColTx) : ColTx := if u.id == id then { u with tries := u.tries + 1, sentAt := s.now, rto := colRto s } else u
      transmit t.hp p (evcPulse 213 0 (withCol (fun c => { c with tx := c.tx.map upd }) s))

/-- What the early table holds for a handle is given to its instance, which has become active (R199, R219). -/
def earlyGive (i : Nat) (s : State) : State :=
  match getInst i s with
  | none => s
  | some x =>
    match getEarly x.hp x.comm x.seq s with
    | none => s
    | some e =>
      let s := withCol (fun c => { c with early := c.early.filter (fun e => !sameHandle x.hp x.comm x.seq e) }) s
      let s := putInst i { x with credits := e.credits, met := (e.credits.map (·.peer)).eraseDups } s
      e.combs.foldl (fun s c => combApply c s) s

end Sys2Proof.Machine
end

