-- ==== Sys2Proof/Machine/Tpr.lean ====
section
/-! DEFINITION. The Taper cores at work (08: R230 to R237, R243 to R263): addresses, exceptions, the shared forms of the
instructions, operations on the device, dispatch. -/

namespace Sys2Proof.Machine

/-! ### Activations -/

/-- Is a core stopped by HALT (R431)? -/
def coreHalted (c : Nat) (s : State) : Bool := s.sec.halts.contains (some c)

/-- A core executes an instruction, if it runs an activation that waits for nothing. -/
def tprRun (c : Nat) (k : Act → State → State) (s : State) : State :=
  match (getCore c s).act with
  | some a => if a.wait.isSome || coreHalted c s then s else k a s
  | none => s

/-- Register `d`; w0 reads as zero (R234). -/
def Act.getW (a : Act) (d : Nat) : BitVec 64 := if d == 0 then 0 else if h : d < 16 then a.w[d] else 0

/-- v register `d`. -/
def Act.getV (a : Act) (d : Nat) : BitVec 512 := if h : d < 4 then a.v[d] else 0

/-- v register `d` holds a value. -/
def Act.setV (a : Act) (d : Nat) (x : BitVec 512) : Act :=
  { a with v := Vector.ofFn (fun i => if i.val == d then x else a.v[i.val]) }

/-- The activation goes on at the next instruction. -/
def Act.next (a : Act) : Act := { a with pc := a.pc + 4 }

/-- A core's activation stands as given. -/
def setAct (c : Nat) (a : Act) (s : State) : State := putCore c { getCore c s with act := some a } s

/-- The core's activation goes on with register `d` holding a value. -/
def writeW (c : Nat) (a : Act) (d : Nat) (v : BitVec 64) (s : State) : State := setAct c (a.setW d v).next s

/-- The core's activation goes on with a v register holding a value. -/
def writeV (c : Nat) (a : Act) (d : Nat) (v : BitVec 512) (s : State) : State := setAct c (a.setV d v).next s

/-- Cluster of a logical core (R230). -/
def clusterOf (c : Nat) : Nat := c / 8

/-- The function that loaded the image that an activation runs (R242). -/
def actOwner (a : Act) (s : State) : Nat := ((getImage a.image s).map (·.owner)).getD 0

/-- The domain of an activation's host accesses: the PD of its image's load (R242). Which PD an image replaced by another keeps, the
spec does not say: its own (DESIGN CHOICE). -/
def actPd (a : Act) (s : State) : BitVec 16 := ((getImage a.image s).map (·.pd)).getD 0

/-- Where an activation's image lies in its cluster: code, instance area, data segment. -/
def actPlace (c : Nat) (a : Act) (s : State) : Nat × Nat × Nat :=
  ((getImage a.image s).bind (fun m => tget m.place (clusterOf c))).getD (0, 0, 0)

/-- A message activation ends (R245, R263): its core and trigger object are free, its MSGs go on without it. -/
def endMsgAct (c : Nat) (a : Act) (s : State) : State :=
  let mine (o : OpOwner) : OpOwner := if o == .act c a.uid then .none else o
  freeCore c (withTpr (fun t => { t with
    hxfers := t.hxfers.map (fun (k, h) => (k, { h with owner := mine h.owner }))
    tmsgs := t.tmsgs.map (fun m => { m with owner := mine m.owner }) }) s)

/-- An exception ends a core's activation (R262, R263). -/
def tprExc (c : Nat) (a : Act) (dt : BitVec 8) (s : State) : State :=
  match a.inv with
  | some i => conclude i (invFail i St.taperFault dt s)
  | none => endMsgAct c a (evcPulse 215 dt.toNat s)

/-- Does an invocation wait: no activation of it runs, or the one that runs waits (R264)? -/
def invWaits (i : Nat) (s : State) : Bool :=
  match coreOf i s with
  | some c => (getCore c s).act.any (fun a => a.wait.isSome)
  | none => true

/-- A program is frozen by PROTECTION in an activation of one of its images (R264): its waiting invocations fail at once. One that is
UNLOADING is frozen too, and its UNLOAD still ends with its last invocation (R266). -/
def progFreeze (h image : Nat) (s : State) : State :=
  match getProg h s with
  | none => s
  | some p =>
    if p.state == .frozen || !(p.image :: p.old).contains image then s
    else
      let s := showProg h (withTpr (fun t => { t with progs := tset t.progs h { p with state := .frozen } }) s)
      let mine := s.tpr.invocs.filterMap (fun (i, v) => if v.prog == h && v.failed.isNone && invWaits i s then some i else none)
      mine.foldl (fun s i => conclude i (invFail i St.taperFault Tf.frozen s)) s

/-- PROTECTION (R264). -/
def tprProtection (c : Nat) (a : Act) (s : State) : State :=
  let site := rf (Reg.SNF_MAP_CORE + 8 * c) 7 0 s
  progFreeze a.prog a.image
    (fcuOccurIn (some (if site < 128 then 288 + site / 8 else 304 + (site - 128))) 163 (tprExc c a Tf.protection s))

/-! ### Addresses (R231, R232) -/

/-- Where a Taper address leads. -/
inductive TAddr where
  | ldm (off : Nat)
  | csm (addr : Nat)
  deriving DecidableEq, Repr

/-- Does [a, a + n) lie in [b, b + len)? -/
def within (a n b len : Nat) : Bool := b ≤ a && a + n ≤ b + len

/-- Does a byte range lie in the heap reservation of an activation's image: its data segment, its instance area, or both where they
adjoin (R231)? -/
def inHeap (c : Nat) (act : Act) (a n : Nat) (s : State) : Bool :=
  match getImage act.image s with
  | some m =>
    let (_, ia, ds) := actPlace c act s
    let il := m.maxInst * m.instSize
    let dl := m.dataSize
    within a n ia il || within a n ds dl || (ia == ds + dl && within a n ds (dl + il)) || (ds == ia + il && within a n ia (il + dl))
  | none => false

/-- Where `n` bytes at an address lie for an access by a program (R231): `none` where the map forbids it. `heapOnly`: for an
atomic. -/
def tAddr (c : Nat) (act : Act) (addr : BitVec 64) (n : Nat) (wr heapOnly : Bool) (s : State) : Option TAddr :=
  let a := addr.toNat
  if !heapOnly && a + n ≤ 0x8000 then some (.ldm a)
  else if 0x200000 ≤ a && a + n ≤ 0x2C0000 then
    match getImage act.image s with
    | some m =>
      let (code, _, _) := actPlace c act s
      if !wr && !heapOnly && within a n code (m.codeLen + m.roLen) then some (.csm a) else none
    | none => none
  else if inHeap c act a n s then some (.csm a)
  else none

/-- Where a transfer's local bytes lie: in LDM or in the heap (R251, R254, R257). -/
def tData (c : Nat) (act : Act) (addr : BitVec 64) (n : Nat) (s : State) : Option TAddr :=
  match tAddr c act addr n true false s with
  | some (.ldm a) => some (.ldm a)
  | some (.csm a) => some (.csm a)
  | none => none

def tRead (c : Nat) (t : TAddr) (n : Nat) (s : State) : List Byte :=
  match t with
  | .ldm a => readLdm c a n s
  | .csm a => readCsm (clusterOf c) a n s

def tWrite (c : Nat) (t : TAddr) (bs : List Byte) (s : State) : State :=
  match t with
  | .ldm a => writeLdm c a bs s
  | .csm a => writeCsm (clusterOf c) a bs s

/-- An access of `n` bytes (R231, R232): MISALIGNED is judged before ADDRESS (DESIGN CHOICE). -/
def tAccess (c : Nat) (a : Act) (addr : BitVec 64) (n : Nat) (wr heapOnly : Bool) (k : TAddr → State → State) (s : State) : State :=
  if addr.toNat % n != 0 then tprExc c a Tf.misaligned s
  else
    match tAddr c a addr n wr heapOnly s with
    | some t => k t s
    | none => tprExc c a Tf.address s

/-! ### Shared forms of the instructions (R235, R236) -/

/-- Sign extension of an immediate to 64 bits. -/
def sext {n : Nat} (v : BitVec n) : BitVec 64 := v.signExtend 64

/-- rd ← f ra rb. -/
def tprAlu (c : CoreId) (rd ra rb : WReg) (f : BitVec 64 → BitVec 64 → BitVec 64) (s : State) : State :=
  tprRun c.toNat (fun a s => writeW c.toNat a rd.toNat (f (a.getW ra.toNat) (a.getW rb.toNat)) s) s

/-- rd ← f ra for an immediate form. -/
def tprImm (c : CoreId) (rd ra : WReg) (f : BitVec 64 → BitVec 64) (s : State) : State :=
  tprRun c.toNat (fun a s => writeW c.toNat a rd.toNat (f (a.getW ra.toNat)) s) s

/-- A shift by an immediate: imm16[15:6] must be zero (R236). -/
def tprShift (c : CoreId) (rd ra : WReg) (imm : BitVec 16) (f : BitVec 64 → Nat → BitVec 64) (s : State) : State :=
  tprRun c.toNat (fun a s =>
    if bits 15 6 imm != 0 then tprExc c.toNat a Tf.illegal s
    else writeW c.toNat a rd.toNat (f (a.getW ra.toNat) (bits 5 0 imm)) s) s

/-- rd ← `n` bytes at ra + sext(imm16). -/
def tprLoad (c : CoreId) (rd ra : WReg) (imm : BitVec 16) (n : Nat) (s : State) : State :=
  tprRun c.toNat (fun a s =>
    tAccess c.toNat a (a.getW ra.toNat + sext imm) n false false (fun t s =>
      writeW c.toNat a rd.toNat (ofBytes 64 (tRead c.toNat t n s)) s) s) s

/-- `n` bytes at ra + sext(imm16) ← rd. -/
def tprStore (c : CoreId) (rd ra : WReg) (imm : BitVec 16) (n : Nat) (s : State) : State :=
  tprRun c.toNat (fun a s =>
    tAccess c.toNat a (a.getW ra.toNat + sext imm) n true false (fun t s =>
      setAct c.toNat a.next (tWrite c.toNat t (toBytes n (a.getW rd.toNat)) s)) s) s

/-- An atomic on 8 bytes of the heap at ra: rd ← old, memory ← f old. -/
def tprAtomic (c : CoreId) (rd ra : WReg) (f : Act → BitVec 64 → BitVec 64) (s : State) : State :=
  tprRun c.toNat (fun a s =>
    tAccess c.toNat a (a.getW ra.toNat) 8 true true (fun t s =>
      let old := ofBytes 64 (tRead c.toNat t 8 s)
      writeW c.toNat a rd.toNat old (tWrite c.toNat t (toBytes 8 (f a old)) s)) s) s

/-- Is an address an instruction of the executing image (R236)? -/
def codeAddr (c : Nat) (a : Act) (t : BitVec 64) (s : State) : Bool :=
  match getImage a.image s with
  | some m => t.toNat % 4 == 0 && within t.toNat 4 (actPlace c a s).1 m.codeLen
  | none => false

/-- A jump, taken: outside the code it raises ADDRESS. -/
def tprJump (c : Nat) (a : Act) (t : BitVec 64) (s : State) : State :=
  if codeAddr c a t s then setAct c { a with pc := t } s else tprExc c a Tf.address s

/-- A conditional branch. -/
def tprBranch (c : CoreId) (ra rb : WReg) (off : BitVec 16) (cond : BitVec 64 → BitVec 64 → Bool) (s : State) : State :=
  tprRun c.toNat (fun a s =>
    if cond (a.getW ra.toNat) (a.getW rb.toNat) then tprJump c.toNat a (a.pc + 4 * sext off) s
    else setAct c.toNat a.next s) s

/-! ### The event queue of an activation (R247, R248) -/

/-- The event queue that an activation uses. -/
def actQueue (a : Act) (s : State) : EvQueue :=
  match a.inv with
  | some i => ((getInvoc i s).map (·.evq)).getD EvQueue.empty
  | none => a.evq

/-- Store the event queue that an activation uses. -/
def putQueue (c : Nat) (a : Act) (q : EvQueue) (s : State) : State :=
  match a.inv with
  | some i => modInvoc i (fun v => { v with evq := q }) s
  | none => modAct c (fun b => { b with evq := q }) s

/-- The owner of the operations that an activation issues. -/
def actOpOwner (c : Nat) (a : Act) : OpOwner :=
  match a.inv with
  | some i => .inv i
  | none => .act c a.uid

/-- Take `n` event slots for an operation; with none left it raises EVQ_FULL and is not performed (R248). -/
def takeSlots (c : Nat) (a : Act) (n : Nat) (k : State → State) (s : State) : State :=
  let q := actQueue a s
  if 64 < q.slots + n then tprExc c a Tf.evqFull s else k (putQueue c a { q with slots := q.slots + n } s)

/-- An HXFER or MSG of an invocation is outstanding. -/
def addOp (a : Act) (s : State) : State :=
  match a.inv with
  | some i => modInvoc i (fun v => { v with ops := v.ops + 1 }) s
  | none => s

/-- An HXFER or MSG has finished: its event, and the end of what waited for it (R245). -/
def ownerDone (o : OpOwner) (w : BitVec 64) (s : State) : State :=
  match o with
  | .inv i => conclude i (ownerEvent o w (modInvoc i (fun v => { v with ops := v.ops - 1 }) s))
  | .act c uid =>
    let s := ownerEvent o w s
    match (getCore c s).act with
    | some a =>
      if a.uid == uid && a.wait == some .returning && !s.tpr.hxfers.any (fun (_, h) => h.owner == o) then endMsgAct c a s else s
    | none => s
  | .none => s

/-- WAITEV: the activation takes an event, or waits for one. -/
def tprWaitev (c : Nat) (rd : Nat) (imm : BitVec 16) (a : Act) (s : State) : State :=
  match (actQueue a s).take imm with
  | some (w, q) => writeW c { a with evq := if a.inv.isNone then q else a.evq } rd w (putQueue c a q s)
  | none => setAct c { a.next with wait := some (.event imm rd) } s

/-- POLLEV: an event, or 0. -/
def tprPollev (c : Nat) (rd : Nat) (imm : BitVec 16) (a : Act) (s : State) : State :=
  match (actQueue a s).take imm with
  | some (w, q) => writeW c { a with evq := if a.inv.isNone then q else a.evq } rd w (putQueue c a q s)
  | none => writeW c a rd 0 s

/-- TIMER: armed `t` ns from now, or cancelled. -/
def tprTimer (c : Nat) (t : BitVec 64) (a : Act) (s : State) : State :=
  let q := { actQueue a s with timer := if t == 0 then none else some (s.now + 16 * t.toNat) }
  setAct c { a with evq := if a.inv.isNone then q else a.evq }.next (putQueue c a q s)

/-- The timer of a queue has expired: TIMER, with a slot of its own. -/
def timerWord : BitVec 64 := eventWord 6 0 0 0 0 0

/-- SYS (R237). -/
def sysValue (c : Nat) (a : Act) (n : Nat) (s : State) : Option (BitVec 64) :=
  let v (x : Nat) : Option (BitVec 64) := some (BitVec.ofNat 64 x)
  if n == 0 then v c
  else if n == 1 then v (clusterOf c)
  else if n == 2 then v a.prog
  else if n == 3 then v (actOwner a s)
  else if n == 4 then v (a.inv.getD 0)
  else if n == 5 then v (chipId s)
  else if n == 6 then v ((s.now - (getCore c s).resetAt) * 9 / 80)
  else if n == 7 then v (((getImage a.image s).map (·.version.toNat)).getD 0)
  else if n == 8 then v (actPlace c a s).1
  else if n == 9 then v (actPlace c a s).2.2
  else none

/-! ### Ends (R245) -/

/-- RET: the activation ends; a message activation waits for its HXFERs first. -/
def tprRet (c : Nat) (a : Act) (s : State) : State :=
  match a.inv with
  | some i => conclude i (invSched i (modInvoc i (fun v => { v with busy := false }) (freeCore c s)))
  | none =>
    if s.tpr.hxfers.any (fun (_, h) => h.owner == .act c a.uid) then
      let mine (o : OpOwner) : OpOwner := if o == .act c a.uid then .none else o
      setAct c { a with wait := some .returning, evq := { EvQueue.empty with slots := a.evq.slots } }
        (withTpr (fun t => { t with tmsgs := t.tmsgs.map (fun m => { m with owner := mine m.owner }) }) s)
    else endMsgAct c a s

/-- The descriptor of COP END with no other field. -/
def endDesc : BitVec 512 := BitVec.ofNat 512 (0x0F * 2 ^ 504)

/-- END: the invocation ends once its operations have finished; a collective program passes COP END, with descriptor `x`, to the
COL. -/
def tprEnd (c : Nat) (x : BitVec 512) (a : Act) (s : State) : State :=
  match a.inv with
  | none => tprRet c a s
  | some i =>
    let s := modInvoc i (fun v => { v with ended := true, evq := { v.evq with timer := none } }) s
    let s := setAct c { a with wait := some .ending } s
    match getInvoc i s with
    | some v =>
      if v.inst != 0 && (getInst v.inst s).any (·.active) then colopPut v.inst x s
      else conclude i s
    | none => s

/-! ### Objects (R254) -/

/-- The object that an activation selects with ra: its bytes. Selector 0xFFFF is the trigger object, any other a chunk buffer
held by the instance. -/
def objBytes (a : Act) (sel : Nat) (s : State) : Option (List Byte) :=
  if sel == 0xFFFF then
    match a.inv with
    | some i => ((getInvoc i s).bind (·.obj)).map (·.bytes)
    | none => a.obj.map (·.bytes)
  else
    match a.inv.bind (fun i => getInvoc i s) with
    | some v => ((getInst v.inst s).bind (fun x => tget x.bufs sel)).map (·.data)
    | none => none

/-- CRD. -/
def tprCrd (c : Nat) (vd : Nat) (r : BitVec 64) (a : Act) (s : State) : State :=
  let off := bits 31 0 r
  match objBytes a (bits 63 48 r) s with
  | some bs =>
    if bits 47 32 r != 0 || off % 64 != 0 then tprExc c a Tf.address s
    else writeV c a vd (ofBytes 512 (fitBytes 64 (bs.drop off))) s
  | none => tprExc c a Tf.address s

/-- Store 64 bytes in a chunk's bytes. -/
def spliceBytes (bs : List Byte) (off : Nat) (x : List Byte) : List Byte :=
  fitBytes off bs ++ x ++ bs.drop (off + x.length)

/-- CWR: chunk buffers only, within their 4 KiB. -/
def tprCwr (c : Nat) (x : BitVec 512) (r : BitVec 64) (a : Act) (s : State) : State :=
  let off := bits 31 0 r
  let sel := bits 63 48 r
  match objBytes a sel s, a.inv.bind (fun i => getInvoc i s) with
  | some bs, some v =>
    if sel == 0xFFFF || bits 47 32 r != 0 || off % 64 != 0 || 4096 ≤ off then tprExc c a Tf.address s
    else
      let s := modInst v.inst (fun i => { i with
        bufs := tmod i.bufs sel (fun b => { b with data := spliceBytes bs off (toBytes 64 x) }) }) s
      setAct c a.next s
  | _, _ => tprExc c a Tf.address s

/-- CCPY: `n` bytes of an object to local memory. -/
def tprCcpy (c : Nat) (dst r n : BitVec 64) (a : Act) (s : State) : State :=
  match objBytes a (bits 63 48 r) s, tData c a dst n.toNat s with
  | some bs, some t =>
    if bits 47 32 r != 0 then tprExc c a Tf.address s
    else setAct c a.next (tWrite c t (fitBytes n.toNat (bs.drop (bits 31 0 r))) s)
  | _, _ => tprExc c a Tf.address s

/-- CFREE: the trigger object's cells are released. -/
def tprCfree (c : Nat) (a : Act) (s : State) : State :=
  match a.inv with
  | some i => setAct c a.next (modInvoc i (fun v => { v with obj := none }) s)
  | none => setAct c { a with obj := none }.next s

/-! ### Operations on the device (R249 to R260) -/

/-- The second slot of a CREDIT that is not performed is free again: no chunk comes (R248, R249). -/
def noChunk (i : Nat) (x : BitVec 512) (s : State) : State :=
  if oCop x == 1 then modInvoc i (fun v => { v with evq := { v.evq with slots := v.evq.slots - 1 } }) s else s

/-- COLOP (R249, R250). One whose COP is END ends the activation as END does, unless its descriptor breaks R197: that operation fails
like any other. After a failure, FREE and ABORT are performed and judged all the same. -/
def tprColop (c : Nat) (x : BitVec 512) (a : Act) (s : State) : State :=
  match a.inv.bind (fun i => getInvoc i s) with
  | none => tprExc c a Tf.context s
  | some v =>
    if v.inst == 0 then tprExc c a Tf.context s
    else
      takeSlots c a (if oCop x == 1 then 2 else 1) (fun s =>
        if oCop x == 15 && opZeros x then tprEnd c x a s
        else
        let s := setAct c a.next s
        match getInst v.inst s with
        | none => invEvent v.num (colDone x St.collError Cd.aborted) (noChunk v.num x s)
        | some i =>
          if i.failed.isNone then colopPut v.inst x s
          else if (oCop x == 8 || oCop x == 9 || oCop x == 15) && !opOk i x s then
            instEvent i (colDone x St.collError Cd.badOperation) s
          else if oCop x == 8 then
            let ids := (List.range (oCnt x)).map (oIn x)
            if ids.all (fun n => (tget i.bufs n).isSome) then
              instEvent i (colDone x St.success 0) (putInst v.inst { i with bufs := i.bufs.filter (fun (k, _) => !ids.contains k) } s)
            else instEvent i (colDone x St.collError Cd.badOperation) s
          else if oCop x == 9 then
            instEvent i (colDone x St.success 0) (colSend v.inst none i.hp (colPkt i 0x23 false (oPeer x) 0 s) s)
          else instEvent i (colDone x St.collError Cd.aborted) (noChunk v.num x s)) s

/-- The classes on which a MSG may go, by the activation's trigger (R260). -/
def msgClassOk (a : Act) (cls : Nat) (s : State) : Bool :=
  match a.inv.bind (fun i => getInvoc i s) with
  | some v => if v.inst == 0 then cls == 0 else cls == 3
  | none =>
    if a.cls == 0 then cls == 1 || cls == 2
    else if a.cls == 1 then cls == 2
    else if a.cls == 3 then cls == 3
    else false

/-- MSG (R257, R258, R260). -/
def tprMsg (c : Nat) (x : BitVec 512) (a : Act) (s : State) : State :=
  let len := bits 335 320 x
  let cls := bits 366 364 x
  let src := tData c a (x.extractLsb' 256 64) len s
  if 4 ≤ cls || 4096 < len || bits 399 384 x != 0 || bits 363 352 x != 0 || bits 255 0 x != 0 then tprExc c a Tf.badDescriptor s
  else if !msgClassOk a cls s then tprExc c a Tf.classOrder s
  else if len != 0 && src.isNone then tprExc c a Tf.address s
  else
    takeSlots c a 1 (fun s =>
      let d := match src with
        | some t => tRead c t len s
        | none => []
      let hp := hostPort (actOwner a s)
      let p := { Packet.zero with
        op := 0x30, cls := BitVec.ofNat 3 cls, addr := BitVec.ofNat 64 (bits 415 400 x), opx := x.extractLsb' 448 64
        key := x.extractLsb' 416 32, msgLen := BitVec.ofNat 32 len, payLen := BitVec.ofNat 13 len, last := true
        psn := s.tpr.psn, dstEp := x.extractLsb' 367 17, srcEp := ownEp hp s, payload := d }
      let m : TmsgTx := { att := clusterAtt (clusterOf c), pkt := p, owner := actOpOwner c a, tag := x.extractLsb' 336 16, tries := 0, sentAt := s.now, rto := tmRto s }
      tprSend m.att p (setAct c { ((getCore c s).act.getD a) with pc := a.pc + 4 }
        (addOp a (withTpr (fun t => { t with psn := t.psn + 1, tmsgs := t.tmsgs ++ [m] }) s)))) s

/-- HXFER (R251). -/
def tprHxfer (c : Nat) (x : BitVec 512) (a : Act) (s : State) : State :=
  let dir := bits 239 238 x
  let len := bits 351 320 x
  let laddr := x.extractLsb' 256 64
  let hva := x.extractLsb' 448 64
  let loc := tData c a laddr len s
  if dir == 3 || bits 237 0 x != 0 || (dir == 2 && (len != 0 || hva.toNat % 8 != 0)) ||
      (dir != 2 && (len == 0 || 65536 < len || x.extractLsb' 384 64 != 0 || laddr.toNat % 8 != 0)) then
    tprExc c a Tf.badDescriptor s
  else if dir != 2 && loc.isNone then tprExc c a Tf.address s
  else
    takeSlots c a 1 (fun s =>
      let bs := match loc with
        | some t => if dir == 1 then tRead c t len s else []
        | none => []
      let f := actOwner a s
      let id := s.tpr.nextId
      let h : Hxfer :=
        { owner := actOpOwner c a, fn := f, dir := dir, core := c, laddr := laddr, len := len, tag := x.extractLsb' 240 16,
          bytes := if dir == 2 then toBytes 8 (x.extractLsb' 384 64) else bs, serial := none, outcome := none }
      let acc : Access :=
        { fn := f, dom := some (actPd a s)
          parts := [⟨x.extractLsb' 352 32, hva, if dir == 2 then 8 else len⟩]
          rights := if dir == 0 then 0b00001 else if dir == 1 then 0b00010 else 0b00011
          rd := dir != 1, wr := dir != 0, testsOnly := false, purpose := .hxfer id }
      let s := addOp a (withTpr (fun t => { t with hxfers := tset t.hxfers id h, nextId := t.nextId + 1 }) s)
      xltStart acc (setAct c { ((getCore c s).act.getD a) with pc := a.pc + 4 } s)) s

/-- An HXFER finishes with HOST_DONE (R251). -/
def hxferDone (id : Nat) (st dt : BitVec 8) (s : State) : State :=
  match tget s.tpr.hxfers id with
  | some h =>
    ownerDone h.owner (eventWord 5 st dt 0 h.tag.toNat 0) (withTpr (fun t => { t with hxfers := tdel t.hxfers id }) s)
  | none => s

/-- The check of an HXFER has an outcome (R251). -/
def hxferChecked (id : Nat) (k : Checked) (s : State) : State :=
  match k, tget s.tpr.hxfers id with
  | .fail d, _ => hxferDone id (faultStatus d) (BitVec.ofNat 8 d) s
  | .pass n _, none => drained n s
  | .pass n segs, some h =>
    if h.dir == 0 then
      readSegs (fnLink h.fn) h.fn true segs (withTpr (fun t => { t with hxfers := tset t.hxfers id { h with serial := some n } }) s)
    else if h.dir == 1 then
      hxferDone id St.success 0 (drained n (writeSegs (fnLink h.fn) h.fn false segs h.bytes s))
    else
      pushAtom ⟨.hxfer id (ofBytes 64 h.bytes), h.fn, (segs.head?.map (·.bus)).getD 0, n, false, false, false⟩ s

/-- HXFER_COMPLETE: the data of a DIR 0 transfer has come; it goes to local memory unless its owner has been ended. -/
def hxferData (id : Nat) (d : ReadResult) (s : State) : State :=
  match tget s.tpr.hxfers id with
  | none => s
  | some h =>
    match h.serial with
    | none => s
    | some n =>
      let s := drained n s
      match d with
      | .pcieError => hxferDone id St.localPcie 0 s
      | .data bs =>
        let a := h.laddr.toNat
        let t : TAddr := if a < 0x8000 then .ldm a else .csm a
        hxferDone id St.success 0 (if h.owner == .none then s else tWrite h.core t (fitBytes h.len bs) s)

/-- MBXPUT (R252). A collective program's result waits for the placement writes of its instance, as COP_RESULT does (R195). -/
def tprMbxput (c : Nat) (rd : Nat) (r v : BitVec 64) (a : Act) (s : State) : State :=
  let n := bits 11 0 r
  let m := getMbx n s
  let own := ((a.inv.bind (fun i => getInvoc i s)).map (·.inst)).getD 0
  if unitFenced 137 s then s
  else if !mbxOwned n (actOwner a s) s then tprProtection c a s
  else if m.state == .full then writeW c a rd 1 s
  else if m.state == .armed && (own == 0 || m.inst != own) then writeW c a rd 2 s
  else if m.state == .armed && (getInst own s).any (fun x => placesBefore own x x.nextOp s) then s
  else
    let s := mbxFill n (r.extractLsb' 24 8) (r.extractLsb' 16 8) v s
    let s := if m.state == .armed then modInst own (fun x => { x with resultDone := true }) s else s
    writeW c a rd 0 s

/-- SEMACQ (R253, R369, R373), which waits while the LCK is fenced (R389). -/
def tprSemacq (c : Nat) (rd : Nat) (r : BitVec 64) (a : Act) (s : State) : State :=
  let n := bits 9 0 r
  let m := coreMaster c
  if unitFenced 136 s then s
  else if !semAllowed n (actOwner a s) s then tprProtection c a (fcuOccur 161 s)
  else
    let s := semNoExcuse n m s
    let x := getSem n s
    if x.holder == some m then writeW c a rd 0 s
    else if x.holder.isNone then writeW c a rd (if x.abandoned then 1 else 0) (semGrant n m s)
    else if 4096 ≤ semWaiters s then writeW c a rd 2 s
    else setAct c { a.next with wait := some (.sem n rd) } (semAcquire n m s)

/-- SEMREL (R253, R370), which waits while the LCK is fenced (R389): a foreign release raises PROTECTION. -/
def tprSemrel (c : Nat) (r : BitVec 64) (a : Act) (s : State) : State :=
  let n := bits 9 0 r
  if unitFenced 136 s then s
  else if !semAllowed n (actOwner a s) s then tprProtection c a (fcuOccur 161 s)
  else
    match semRelKind n (coreMaster c) s with
    | .own => setAct c a.next (semFree n false s)
    | .excused => setAct c a.next (lckIgnored s)
    | .foreign => tprProtection c a (fcuOccur 161 (evcPulse 228 n s))

/-- NOTE (R256). -/
def tprNote (c : Nat) (rb : Nat) (x : BitVec 512) (a : Act) (s : State) : State :=
  let f := actOwner a s
  let id := bits 319 308 x
  match getArv f id s with
  | none => writeW c a rb 2 s
  | some g =>
    if g.fenced then writeW c a rb 2 s
    else
      match arvTake f id .pool s with
      | none => writeW c a rb 1 s
      | some s =>
        let n : Notice :=
          { addr := x.extractLsb' 448 64, imm := x.extractLsb' 416 32, key := x.extractLsb' 384 32, src := ownEp (hostPort f) s
            bytes := bits 383 352 x, detail := 0, status := St.success, kind := 5, qpn := bits 351 328 x }
        writeW c a rb 0 (writeNotice f id .pool n s)

/-! ### Dispatch (R243, R244, R264) -/

/-- A core with no activation that serves (R392). -/
def coreFree (c : Nat) (s : State) : Bool :=
  (getCore c s).act.isNone && !bit 8 (rdReg (Reg.SNF_MAP_CORE + 8 * c) s) && !coreHalted c s

/-- An activation at its entry point (R243). -/
def newAct (uid prog image : Nat) (inv : Option Nat) (pc : Nat) (ws : List (BitVec 64)) (obj : Option TrigObj) (cls : BitVec 3)
    (s : State) : Act :=
  { uid := uid, prog := prog, image := image, inv := inv, pc := BitVec.ofNat 64 pc
    w := Vector.ofFn (fun i => if i.val == 14 then 0x8000 else if i.val == 0 then 0 else (ws[i.val - 1]?).getD 0)
    v := Vector.replicate 4 0
    started := s.gtime.toNat, wdog := us (nz (rf Reg.TPR_CFG 63 48 s)), wait := none, evq := EvQueue.empty, obj := obj, cls := cls }

/-- May a ready activation be dispatched in a cluster: its image is not withdrawn there (R233), and a message's program is
LIVE? -/
def mayDispatch (cl : Nat) (r : Ready) (s : State) : Bool :=
  match r with
  | .inv i _ => ((getInvoc i s).bind (fun v => getImage v.image s)).any (fun m => !m.withdrawn.contains cl)
  | .msg h _ _ => (getProg h s).any (fun p => p.state == .live && (getImage p.image s).any (fun m => !m.withdrawn.contains cl))

/-- Address of an invocation's instance block. -/
def instBlock (v : Invoc) (s : State) : Nat :=
  match getImage v.image s with
  | some m => ((tget m.place v.cluster).getD (0, 0, 0)).2.1 + v.slot * m.instSize
  | none => 0

/-- A core takes an activation. -/
def startAct (c : Nat) (a : Act) (s : State) : State := setAct c a (withTpr (fun t => { t with nextId := t.nextId + 1 }) s)

/-- Dispatch one ready activation to a core; an invocation of a FROZEN program fails instead (R264). -/
def dispatchTo (c cl : Nat) (r : Ready) (s : State) : State :=
  let uid := s.tpr.nextId
  match r with
  | .inv i start =>
    match getInvoc i s with
    | none => s
    | some v =>
      if (getProg v.prog s).any (fun p => p.state == .frozen) then conclude i (invFail i St.taperFault Tf.frozen s)
      else
        match getImage v.image s with
        | none => s
        | some m =>
          let code := ((tget m.place cl).getD (0, 0, 0)).1
          let len := BitVec.ofNat 64 (if v.obj.isSome then v.descLen else 0)
          if start then
            startAct c (newAct uid v.prog v.image (some i) (code + m.start.toNat)
              [BitVec.ofNat 64 v.num, v.y64, BitVec.ofNat 64 (instBlock v s), len, v.x64] none 0 s) s
          else
            match v.evq.take 0xFFFF with
            | none => modInvoc i (fun v => { v with busy := false }) s
            | some (w, q) =>
              startAct c (newAct uid v.prog v.image (some i) (code + m.event.toNat)
                [BitVec.ofNat 64 v.num, w, BitVec.ofNat 64 (instBlock v s), len] none 0 s) (putInvoc i { v with evq := q } s)
  | .msg h p cells =>
    match (getProg h s).bind (fun g => (getImage g.image s).map (fun m => (g.image, m))) with
    | none => s
    | some (im, m) =>
      let (code, _, ds) := (tget m.place cl).getD (0, 0, 0)
      let obj : TrigObj := { bytes := headerBytes p ++ p.payload, cells := cells }
      startAct c (newAct uid h im none (code + m.msge.toNat)
        [0, p.opx, BitVec.ofNat 64 ds, BitVec.ofNat 64 p.payload.length, BitVec.ofNat 64 p.srcEp.toNat,
          BitVec.ofNat 64 p.cls.toNat] (some obj) p.cls s) s

/-- ACTIVATION_DISPATCH: the oldest ready activation of a cluster goes to its lowest free core (R244). -/
def dispatch (cl : Nat) (s : State) : State :=
  if s.snf.clusters.contains cl then s else
  let l := (tget s.tpr.ready cl).getD []
  match l.find? (fun r => mayDispatch cl r s), (List.range 8).find? (fun k => coreFree (8 * cl + k) s) with
  | some r, some k => dispatchTo (8 * cl + k) cl r (withTpr (fun t => { t with ready := tset t.ready cl (l.erase r) }) s)
  | _, _ => s

/-- WATCHDOG (R246). -/
def tprWatchdog (c : Nat) (s : State) : State :=
  match (getCore c s).act with
  | some a => tprExc c a Tf.watchdog (reachGtime (a.started + a.wdog) s)
  | none => s

/-- A timer expires (R247): the TIMER event of an invocation, or of the message activation of a core. -/
def timerExpire (c inv : Nat) (s : State) : State :=
  if inv != 0 then
    match getInvoc inv s with
    | some v =>
      match v.evq.timer with
      | some t => invEvent inv timerWord (putInvoc inv { v with evq := { v.evq with timer := none } } (advanceTo t s))
      | none => s
    | none => s
  else
    match (getCore c s).act with
    | some a =>
      match a.inv, a.evq.timer with
      | none, some t =>
        let s := advanceTo t s
        ownerEvent (.act c a.uid) timerWord (setAct c { a with evq := { a.evq with timer := none } } s)
      | _, _ => s
    | none => s

end Sys2Proof.Machine
end

