-- ==== Sys2Proof/Machine/TprLoad.lean ====
section
/-! DEFINITION. Taper programs loaded, replaced and removed; invocations and collective instances started; Taper messages received
(07: R192 to R196; 08: R238 to R244, R258 to R261, R265 to R268). -/

namespace Sys2Proof.Machine

/-! ### Images (R238 to R241) -/

def lb (b : BitVec 512) (hi lo : Nat) : Nat := bits hi lo b
def lImage (b : BitVec 512) : BitVec 64 := b.extractLsb' 448 64
def lLen (b : BitVec 512) : Nat := lb b 447 416
def lHandle (b : BitVec 512) : Nat := lb b 383 368
def lPd (b : BitVec 512) : BitVec 16 := b.extractLsb' 352 16
def lClusters (b : BitVec 512) : BitVec 16 := b.extractLsb' 336 16
def lMaxInst (b : BitVec 512) : Nat := lb b 335 320
def lInstSize (b : BitVec 512) : Nat := 64 * lb b 319 304
def lDataSize (b : BitVec 512) : Nat := 64 * lb b 303 288
def lKind (b : BitVec 512) : Bool := bit 259 b
def lUnload (b : BitVec 512) : Bool := bit 258 b
def lInherit (b : BitVec 512) : Bool := bit 257 b
def lReplace (b : BitVec 512) : Bool := bit 256 b

/-- Field of an image's header. -/
def imgField (bs : List Byte) (at_ : Nat) : Nat := leNat ((bs.drop at_).take 4)

/-- The header keeps R238 and agrees with IMAGE_LEN. -/
def imageShape (len : Nat) (bs : List Byte) : Bool :=
  let code := imgField bs 4
  let ro := imgField bs 8
  imgField bs 0 == 0x31525054 && code % 4 == 0 && 4 ≤ code && code ≤ 262144 && ro % 64 == 0 && ro ≤ 262144 &&
  len == 64 + code + ro && bs.length == len && ((bs.drop 28).take 32).all (· == 0)

/-- The image's CRC (R238). -/
def imageCrcOk (bs : List Byte) : Bool := crc32c (bs.take 60 ++ bs.drop 64) == ofBytes 32 ((bs.drop 60).take 4)

/-- Byte offset of the target of a branch or jump at an offset, if the word is one. -/
def wordTarget (pc : Nat) (w : BitVec 32) : Option Int :=
  let opc := bits 31 24 w
  if 0x40 ≤ opc && opc ≤ 0x45 then some ((pc : Int) + 4 * (w.extractLsb' 0 16).toInt)
  else if opc == 0x48 || opc == 0x49 then some ((pc : Int) + 4 * (w.extractLsb' 0 24).toInt)
  else none

/-- Verification of the code words from an offset (R241). -/
def verifyWords (codeLen : Nat) : Nat → Nat → List Byte → Bool
  | 0, _, _ => true
  | n + 1, pc, bs =>
    let w : BitVec 32 := ofBytes 32 (bs.take 4)
    (taperDecode 0 w).isSome &&
    (match wordTarget pc w with
      | some t => 0 ≤ t && t < codeLen
      | none => true) &&
    verifyWords codeLen n (pc + 4) (bs.drop 4)

/-- An entry offset is absent, or lies in the code (R241). -/
def entryOk (codeLen off : Nat) : Bool := off == 0xFFFFFFFF || (off % 4 == 0 && off < codeLen)

/-- An image passes verification (R241). -/
def imageVerifies (kind : Bool) (bs : List Byte) : Bool :=
  let code := imgField bs 4
  let st := imgField bs 12
  let ev := imgField bs 16
  let ms := imgField bs 20
  verifyWords code (code / 4) 0 (bs.drop 64) && entryOk code st && entryOk code ev && entryOk code ms &&
  (if kind then st != 0xFFFFFFFF && ev != 0xFFFFFFFF else st != 0xFFFFFFFF || ms != 0xFFFFFFFF)

/-! ### Room in a cluster (R240) -/

/-- The reservations of program area and heap in a cluster: start and length. -/
def usedAreas (cl : Nat) (s : State) : List (Nat × Nat) :=
  s.tpr.images.flatMap (fun (_, m) =>
    match tget m.place cl with
    | some (code, ia, ds) =>
      [(code, m.codeLen + m.roLen), (ia, m.maxInst * m.instSize)] ++ (if m.ownsData then [(ds, m.dataSize)] else [])
    | none => [])

/-- The lowest start of a list at which `len` bytes fit between `lo` and `hi`, beside what is used. -/
def fitAmong (lo hi len : Nat) (used : List (Nat × Nat)) (starts : List Nat) : Option Nat :=
  let ok (x : Nat) : Bool := lo ≤ x && x + len ≤ hi && used.all (fun (a, n) => n == 0 || len == 0 || !overlaps x len a n)
  (starts.filter ok).foldl (fun b x =>
    match b with
    | none => some x
    | some y => some (min x y)) none

/-- Where `len` contiguous bytes fit between `lo` and `hi` (R240): the lowest 64-byte aligned start, or with none the lowest start of
all (DESIGN CHOICE). -/
def firstFit (lo hi len : Nat) (used : List (Nat × Nat)) : Option Nat :=
  let up (x : Nat) : Nat := (x + 63) / 64 * 64
  match fitAmong lo hi len used (lo :: used.map (fun (a, n) => up (a + n))) with
  | some x => some x
  | none => fitAmong lo hi len used (used.map (fun (a, n) => a + n))

/-- Images that a cluster's program table holds. -/
def tableCount (cl : Nat) (s : State) : Nat := (s.tpr.images.filter (fun (_, m) => (tget m.place cl).isSome)).length

/-- The clusters of a mask. -/
def clustersOf (m : BitVec 16) : List Nat := (List.range 16).filter (fun c => bit c m)

/-- Where a load would lie in one cluster: code, instance area, data segment (the old one under INHERIT). -/
def placeIn (cl : Nat) (b : BitVec 512) (old : Option Image) (s : State) : Option (Nat × Nat × Nat) :=
  let used := usedAreas cl s
  let inst := lMaxInst b * lInstSize b
  let data := lDataSize b
  if 64 ≤ tableCount cl s then none
  else
    match firstFit 0x200000 0x2C0000 (lLen b - 64) used, old.bind (fun m => tget m.place cl) with
    | some code, some (_, _, ds) =>
      if lInherit b then (firstFit 0x2C0000 0x380000 inst used).map (fun ia => (code, ia, ds))
      else (firstFit 0x2C0000 0x380000 (data + inst) used).map (fun a => (code, a + data, a))
    | some code, none => (firstFit 0x2C0000 0x380000 (data + inst) used).map (fun a => (code, a + data, a))
    | none, _ => none

/-- Where a load would lie in every cluster named, if there is room in each. -/
def placeAll (b : BitVec 512) (old : Option Image) (s : State) : List Nat → Option (Tab (Nat × Nat × Nat))
  | [] => some []
  | c :: t =>
    match placeIn c b old s, placeAll b old s t with
    | some x, some r => some ((c, x) :: r)
    | _, _ => none

/-! ### TAPER_LOAD (R239, R240, R242, R265, R266) -/

/-- The program and image that a REPLACE names. -/
def oldImage (b : BitVec 512) (s : State) : Option Image :=
  if lReplace b then (getProg (lHandle b) s).bind (fun p => getImage p.image s) else none

/-- The outcome of the tests of R240 that need no image, in the table's order. The table excepts UNLOAD from none of its tests of the
block; the room that a load needs, UNLOAD does not need (DEDUCED). -/
def loadJudge (f : Nat) (b : BitVec 512) (s : State) : Option (BitVec 8) :=
  let h := getProg (lHandle b) s
  let named := lReplace b || lUnload b
  let old := oldImage b s
  if lb b 287 260 != 0 || lb b 255 0 != 0 then some St.malformed
  else if (lImage b).toNat % 64 != 0 then some St.misaligned
  else if !inWindow f (lImage b) (lLen b) s then some St.notPermitted
  else if (tget s.xlt.pds (lPd b).toNat).any (fun p => p.owner != f) then some St.notPermitted
  else if named && h.any (fun p => p.owner != f) then some St.notPermitted
  else if lReplace b && lUnload b then some St.invalidParam
  else if lClusters b == 0 || 512 < lMaxInst b || (lKind b && lMaxInst b == 0) || (tget s.xlt.pds (lPd b).toNat).isNone ||
      (lInherit b && !lReplace b) then some St.invalidParam
  else if named && !h.any (fun p => p.state == .live) then some St.invalidParam
  else if lReplace b && !h.any (fun p => p.collective == lKind b && p.clusters == lClusters b) then some St.invalidParam
  else if lInherit b && !old.any (fun m => m.dataSize == lDataSize b) then some St.invalidParam
  else if !lUnload b && ((!lReplace b && (tfree s.tpr.progs 1024 1 1023).isNone) ||
      (placeAll b old s (clustersOf (lClusters b))).isNone) then some St.noResource
  else none

/-- Clear a byte range of a cluster's memory. -/
def clearCsm (cl a n : Nat) (s : State) : State :=
  withTpr (fun t => { t with csm := t.csm.filter (fun (k, _) => !(csmKey cl a ≤ k && k < csmKey cl a + n)) }) s

/-- Copy an image into a cluster and clear its blocks (R242). -/
def installIn (b : BitVec 512) (bs : List Byte) (s : State) (cl : Nat) (pl : Nat × Nat × Nat) : State :=
  let (code, ia, ds) := pl
  let s := clearCsm cl ia (lMaxInst b * lInstSize b) s
  let s := if lInherit b then s else clearCsm cl ds (lDataSize b) s
  writeCsm cl code (bs.drop 64) s

/-- An image becomes LIVE in all its clusters at one moment (R242, R265). -/
def installImage (ref : EntryRef) (e b : BitVec 512) (bs : List Byte) (s : State) : State :=
  match placeAll b (oldImage b s) s (clustersOf (lClusters b)) with
  | none => finishEntry ref St.noResource 0 s
  | some place =>
    let id := s.tpr.nextId
    let m : Image :=
      { prog := 0, start := BitVec.ofNat 32 (imgField bs 12), event := BitVec.ofNat 32 (imgField bs 16)
        msge := BitVec.ofNat 32 (imgField bs 20), version := BitVec.ofNat 32 (imgField bs 24), codeLen := imgField bs 4
        roLen := imgField bs 8, maxInst := lMaxInst b, instSize := lInstSize b, dataSize := lDataSize b, place := place
        ownsData := true, withdrawn := [], owner := ref.fn, pd := lPd b }
    let s := place.foldl (fun s (cl, pl) => installIn b bs s cl pl) s
    if lReplace b then
      match getProg (lHandle b) s with
      | none => finishEntry ref St.invalidParam 0 s
      | some p =>
        let q : Prog := { p with image := id, old := p.old ++ [p.image], hkey := BitVec.ofNat 32 (lb b 415 384), pd := lPd b }
        let s := withTpr (fun t => { t with
          images := tset (tmod t.images p.image (fun o => { o with ownsData := o.ownsData && !lInherit b })) id
            { m with prog := lHandle b }
          progs := tset t.progs (lHandle b) q
          nextId := id + 1 }) s
        finishEntry ref St.success 0 (progDrain (lHandle b) s)
    else
      match tfree s.tpr.progs 1024 1 1023 with
      | none => finishEntry ref St.noResource 0 s
      | some h =>
        let q : Prog :=
          { owner := ref.fn, pd := lPd b, hkey := BitVec.ofNat 32 (lb b 415 384), collective := lKind b
            clusters := lClusters b, state := .live, image := id, old := [], unload := none }
        let s := withTpr (fun t => { t with
          images := tset t.images id { m with prog := h }, progs := tset t.progs h q, nextId := id + 1 }) s
        finishEntry ref St.success 0 (blkWrite ref e 46 2 h (showProg h s))

/-- The program that an UNLOAD names becomes UNLOADING (R266). -/
def unloadProg (ref : EntryRef) (h : Nat) (s : State) : State :=
  match getProg h s with
  | none => finishEntry ref St.invalidParam 0 s
  | some p =>
    let keep (r : Ready) : Bool :=
      match r with
      | .msg g _ _ => g != h
      | _ => true
    progDrain h (withTpr (fun t => { t with
      progs := tset t.progs h { p with state := .unloading, unload := some ref }
      ready := t.ready.map (fun (k, l) => (k, l.filter keep)) }) s)

/-- TAPER_LOAD once its block has been read; a load reads its image next. -/
def taperLoadGo : AdminGo := fun ref _ blk s =>
  let b : BitVec 512 := blk.extractLsb' 0 512
  match loadJudge ref.fn b s with
  | some st => finishEntry ref st 0 s
  | none =>
    if lUnload b then unloadProg ref (lHandle b) s
    else
      hostRead ref.fn (lImage b) (lLen b) (withTpr (fun t => { t with loads := tset t.loads ref.fn ⟨ref, b⟩ }) s)

/-- A TAPER_LOAD row: the admin ring's next entry, if its block has the row's flags and no image of the function is being
read. -/
def taperLoadRow (which : BitVec 512 → Bool) (f : Nat) (blk : BitVec 512) (s : State) : State :=
  if !which blk || (tget s.tpr.loads f).isSome then s else adminRun 0x29 f (.data (toBytes 64 blk)) taperLoadGo s

/-- TAPER_IMAGE_READ_COMPLETE: the image of a function's load has come. -/
def imageCome (f : Nat) (d : ReadResult) (s : State) : State :=
  match tget s.tpr.loads f with
  | none => s
  | some l =>
    let s := withTpr (fun t => { t with loads := tdel t.loads f }) s
    if !refLive l.ref s then s
    else
      match d with
      | .pcieError => finishEntry l.ref St.localPcie 0 s
      | .data raw =>
        let bs := fitBytes (lLen l.blk) raw
        if !imageShape (lLen l.blk) bs then finishEntry l.ref St.taperFault Tf.imageFormat s
        else if !imageCrcOk bs then finishEntry l.ref St.taperFault Tf.imageCrc s
        else if !imageVerifies (lKind l.blk) bs then finishEntry l.ref St.taperFault Tf.imageVerify s
        else
          match loadJudge f l.blk s with
          | some st => finishEntry l.ref st 0 s
          | none => installImage l.ref (refRaw l.ref s) l.blk bs s

/-! ### Invocations (R243, R244, R255, R261) -/

/-- Invocations in a cluster. -/
def clusterInvocs (cl : Nat) (s : State) : Nat := (s.tpr.invocs.filter (fun (_, v) => v.cluster == cl)).length

/-- Instance blocks of an image in use in a cluster: their slots. -/
def usedSlots (im cl : Nat) (s : State) : List Nat :=
  s.tpr.invocs.filterMap (fun (_, v) => if v.image == im && v.cluster == cl then some v.slot else none)

/-- The cluster with the most free instance blocks of a program, the lowest number on a tie (R244). -/
def invokeCluster (p : Prog) (m : Image) (s : State) : Option Nat :=
  let free (c : Nat) : Nat := m.maxInst - (usedSlots p.image c s).length
  ((clustersOf p.clusters).filter (fun c => free c != 0 && clusterInvocs c s < 512 && !s.snf.clusters.contains c)).foldl
    (fun b c =>
      match b with
      | none => some c
      | some d => if free d < free c then some c else some d) none

/-- The lowest free instance block. -/
def freeSlot (p : Prog) (m : Image) (cl : Nat) (s : State) : Nat :=
  ((List.range m.maxInst).find? (fun k => !(usedSlots p.image cl s).contains k)).getD 0

/-- Create an invocation and make its START activation ready; its number. -/
def newInvoc (ref : EntryRef) (e : BitVec 512) (h : Nat) (p : Prog) (m : Image) (cl inst : Nat) (desc : List Byte) (s : State) :
    Nat × State :=
  let id := s.tpr.nextId
  let v : Invoc :=
    { num := id, prog := h, image := p.image, cluster := cl, slot := freeSlot p m cl s, ref := ref, y64 := eY64 e, x64 := eX64 e
      descLen := desc.length, evq := EvQueue.empty
      obj := if desc.isEmpty then none else some { bytes := desc, cells := ceilDiv desc.length 256 }
      ops := 0, inst := inst, ended := false, busy := true, failed := none }
  let s := withTpr (fun t => { t with invocs := tset t.invocs id v, nextId := id + 1 }) s
  (id, showProg h (pushReady cl (.inv id true) s))

/-- TAPER_INVOKE with its descriptor read (R261). -/
def invokeGo (ref : EntryRef) (e : BitVec 512) (desc : List Byte) (s : State) : State :=
  let h := bits 15 0 (eX64 e)
  match getProg h s with
  | none => issueFinish ref St.invalidParam 0 s
  | some p =>
    if p.owner != ref.fn then issueFinish ref St.notPermitted 0 s
    else
      match getImage p.image s with
      | none => issueFinish ref St.invalidParam 0 s
      | some m =>
        if p.state != .live || p.collective || m.start == 0xFFFFFFFF then issueFinish ref St.invalidParam 0 s
        else
          match invokeCluster p m s with
          | none => issueFinish ref St.noResource 0 s
          | some cl => (newInvoc ref e h p m cl 0 desc (markIssued ref s)).2

/-- The access that reads a descriptor: it names no queue pair (R80). -/
def descAccess (ref : EntryRef) (e : BitVec 512) : Access :=
  { fn := ref.fn, dom := none, parts := [⟨eLkey e, eLaddr e, eLength e⟩], rights := 0b00001, rd := true, wr := false
    testsOnly := false, purpose := .entryTable ref }

/-- Are there cells for a descriptor (R255)? -/
def descRoom (e : BitVec 512) (s : State) : Bool := objCells s + ceilDiv (eLength e) 256 ≤ objLimit s

/-- TAPER_INVOKE at issue (R255, R261): it waits while there are too few cells for its descriptor. -/
def issueInvoke (f r : Nat) (s : State) : State :=
  match issueOf 0x28 f r s with
  | none => s
  | some (ref, e) =>
    if 65536 < eLength e || eLength e % 8 != 0 || bits 63 16 (eX64 e) != 0 then issueFinish ref St.malformed 0 s
    else if eLength e == 0 then invokeGo ref e [] s
    else if !descRoom e s then s
    else askEntry ref (descAccess ref e) s

/-! ### COL_START and COLL_ABORT (R192 to R196) -/

def hComm (e : BitVec 512) : BitVec 32 := (eX64 e).extractLsb' 32 32
def hSeq (e : BitVec 512) : BitVec 16 := (eX64 e).extractLsb' 16 16
def hProg (e : BitVec 512) : BitVec 16 := (eX64 e).extractLsb' 0 16

/-- The header keeps R193. -/
def colHeaderOk (h : BitVec 512) : Bool :=
  bits 255 224 h ≤ 2 ^ 28 && 1 ≤ bits 223 192 h && bits 223 192 h ≤ 131072 && bits 191 160 h < bits 223 192 h &&
  bits 159 142 h == 0 && bits 139 136 h == 0 && hResKind h != 3 && (hResKind h != 1 || (hRes h).toNat % 16 == 0) &&
  (hResKind h != 2 || (hRes h).toNat < 4096)

/-- The first condition of R194 that holds: STATUS and DETAIL. -/
def colJudge (f : Nat) (e h : BitVec 512) (s : State) : Option (BitVec 8 × BitVec 8) :=
  let hp := hostPort f
  let p := getProg (hProg e).toNat s
  let n := bits 11 0 (hRes h)
  if !colHeaderOk h then some (St.collError, Cd.badDescriptor)
  else if !pairOk (hOp h) (hType h) then some (St.collError, Cd.badOptype)
  else if !p.any (fun p => p.owner == f && p.collective && p.state == .live) then some (St.collError, Cd.noProgram)
  else if (findInst hp (hComm e) (hSeq e) s).isSome then some (St.collError, Cd.duplicate)
  else if ((getEarly hp (hComm e) (hSeq e) s).bind (·.tomb)).isSome then some (St.collError, Cd.aborted)
  else if hResKind h == 2 && !mbxOwned n f s then some (St.notPermitted, 0)
  else if hResKind h == 2 && (getMbx n s).state != .empty then some (St.collError, Cd.mailboxBusy)
  else if 4096 ≤ (s.col.insts.filter (fun (_, x) => x.active)).length then some (St.noResource, 0)
  else none

/-- COL_START with its descriptor read (R194): the instance becomes active, a mailbox ARMED, and the program starts. -/
def colStartGo (ref : EntryRef) (e : BitVec 512) (desc : List Byte) (s : State) : State :=
  let h : BitVec 512 := ofBytes 512 (desc.take 64)
  match colJudge ref.fn e h s with
  | some (st, dt) => issueFinish ref st dt s
  | none =>
    match getProg (hProg e).toNat s with
    | none => s
    | some p =>
      match (getImage p.image s).bind (fun m => (invokeCluster p m s).map (fun c => (m, c))) with
      | none => issueFinish ref St.noResource 0 s
      | some (m, cl) =>
        let i := s.col.nextInst
        let (id, s) := newInvoc ref e (hProg e).toNat p m cl i desc (markIssued ref s)
        let pd := ((getRing ref.fn ref.ring s).map (·.readPd)).getD 0
        let x : ColInst :=
          { hp := hostPort ref.fn, fn := ref.fn, comm := hComm e, seq := hSeq e, prog := hProg e, ref := ref, inv := id, head := h
            pd := pd, failed := none, finished := false, resultDone := false, met := [], ops := [], nextOp := 0, bufs := []
            credits := [], hostSeen := [] }
        let n := bits 11 0 (hRes h)
        let s := if hResKind h == 2 then putMbx n { getMbx n s with state := .armed, inst := i } s else s
        earlyGive i (withCol (fun c => { c with nextInst := i + 1 }) (putInst i x s))

/-- COL_START at issue; it waits while the COL or the MBX is fenced (R389). -/
def issueColStart (f r : Nat) (s : State) : State :=
  match issueOf 0x20 f r s with
  | none => s
  | some (ref, e) =>
    if eLength e < 64 || 65536 < eLength e || eLength e % 8 != 0 then issueFinish ref St.collError Cd.badDescriptor s
    else if !descRoom e s || unitFenced 117 s || unitFenced 137 s then s
    else askEntry ref (descAccess ref e) s

/-- COLL_ABORT (R196): an active instance aborts; otherwise a tombstone is left, for which it waits while the early table is
full. -/
def issueCollAbort (f r : Nat) (s : State) : State :=
  match issueOf 0x21 f r s with
  | none => s
  | some (ref, e) =>
    match findInst (hostPort f) (hComm e) (hSeq e) s with
    | some (i, _) => finishEntry ref St.success 0 (instAbort i Cd.aborted (markIssued ref s))
    | none =>
      match leaveTomb (hostPort f) (hComm e) (hSeq e) s with
      | some s => issueFinish ref St.success 0 s
      | none => s

/-- DESCRIPTOR_READ_COMPLETE: what an entry reads at issue has come: a fragment table, or the descriptor of COL_START or
TAPER_INVOKE. -/
def entryReadCome (f r : Nat) (d : ReadResult) (s : State) : State :=
  match readingEntry f r s with
  | none => s
  | some (ref, e, n) =>
    let s := setIssuing ref false none (drained n s)
    match d with
    | .pcieError =>
      if opNamesQp (eOpcode e) then failEntry ref (eQpn e) St.localPcie 0 s else issueFinish ref St.localPcie 0 s
    | .data bs =>
      if eOpcode e == 0x20 then colStartGo ref e (fitBytes (eLength e) bs) s
      else if eOpcode e == 0x28 then invokeGo ref e (fitBytes (eLength e) bs) s
      else fragmentsCome ref e bs s

/-! ### Taper messages received (R258, R259) -/

/-- Answer a Taper message: a cluster sends the TMSG_ACK. -/
def tmsgAnswer (cl : Nat) (p : Packet) (code : Nat) (s : State) : State :=
  tprSend (clusterAtt cl)
    { Packet.zero with
      op := 0x31, cls := 2, psn := p.psn, dstEp := p.srcEp, srcEp := p.dstEp, opx := BitVec.ofNat 64 (code * 2 ^ 56) } s

def tmRetry (s : State) : Nat := nz (rf Reg.TPR_CFG 39 32 s)

/-- Message activations queued in a cluster. -/
def msgQueue (cl : Nat) (s : State) : Nat :=
  (((tget s.tpr.ready cl).getD []).filter (fun r =>
    match r with
    | .msg _ _ _ => true
    | _ => false)).length

/-- The named cluster whose message queue is shortest, the lowest number on a tie (R244). -/
def msgCluster (p : Prog) (s : State) : Option Nat :=
  ((clustersOf p.clusters).filter (fun c => !s.snf.clusters.contains c)).foldl (fun b c =>
    match b with
    | none => some c
    | some d => if msgQueue c s < msgQueue d s then some c else some d) none

/-- A TMSG comes (R259). The cluster that would take the message answers; cluster 0 where there is none. -/
def tmsgCome (p : Packet) (s : State) : State :=
  let h := bits 15 0 p.addr
  let chip := p.srcEp.toNat / 4
  let prog := (getProg h s).bind (fun g =>
    if (g.state == .live || g.state == .frozen) && hostPort g.owner == epPort p.dstEp &&
        (getImage g.image s).any (fun m => m.msge != 0xFFFFFFFF) then some g else none)
  if e2eCrc p != p.crc then tprIgnored s
  else
    match prog with
    | none => tmsgAnswer 0 p 1 s
    | some g =>
      let by_ := (msgCluster g s).getD 0
      if g.hkey != p.key then tmsgAnswer by_ p 2 s
      else if g.state == .frozen || frozen g.owner s then tmsgAnswer by_ p 3 s
      else if s.tpr.accept.any (fun (c, n, _) => c == chip && n == p.psn) then tmsgAnswer by_ p 0 s
      else
        match msgCluster g s with
        | none => s
        | some cl =>
          if 8192 ≤ s.tpr.accept.length || 256 ≤ msgQueue cl s || objLimit s < objCells s + cellsOf p then s
          else
            let s := withTpr (fun t => { t with accept := t.accept ++ [(chip, p.psn, s.now + (tmRetry s + 2) * tmRto s)] }) s
            tmsgAnswer cl p 0 (pushReady cl (.msg h p (cellsOf p)) s)

/-- MSG_DONE of a message, or its outcome counted when its activation has ended (R245, R247). -/
def tmsgDone (m : TmsgTx) (code : Nat) (s : State) : State :=
  let s := withTpr (fun t => { t with tmsgs := t.tmsgs.filter (fun x => x.pkt.psn != m.pkt.psn) }) s
  if m.owner == .none then evcPulse 217 code s
  else ownerDone m.owner (eventWord 4 (BitVec.ofNat 8 code) 0 0 m.tag.toNat 0) s

/-- A TMSG_ACK comes (R258). -/
def tmsgAcked (p : Packet) (s : State) : State :=
  if e2eCrc p != p.crc then tprIgnored s
  else
    match s.tpr.tmsgs.find? (fun m => m.pkt.psn == p.psn) with
    | some m => tmsgDone m (bits 63 56 p.opx) s
    | none => s

/-- TM_RTO of a message (R258): sent again with RETX, or LOST. -/
def tmsgResend (psn : BitVec 32) (s : State) : State :=
  match s.tpr.tmsgs.find? (fun m => m.pkt.psn == psn) with
  | none => s
  | some m =>
    let s := advanceTo (m.sentAt + m.rto) s
    if tmRetry s ≤ m.tries then tmsgDone m 0x80 s
    else
      let upd (x : TmsgTx) : TmsgTx := if x.pkt.psn == psn then { x with tries := x.tries + 1, sentAt := s.now, rto := tmRto s } else x
      tprSend m.att { m.pkt with retx := true } (withTpr (fun t => { t with tmsgs := t.tmsgs.map upd }) s)

/-- An entry of the acceptance table expires (R259). -/
def acceptExpire (chip : Nat) (psn : BitVec 32) (s : State) : State :=
  match s.tpr.accept.find? (fun (c, n, _) => c == chip && n == psn) with
  | some (_, _, t) =>
    withTpr (fun t => { t with accept := t.accept.filter (fun (c, n, _) => !(c == chip && n == psn)) }) (advanceTo t s)
  | none => s

/-! ### A function's programs (R261, R268, R440, R483) -/

/-- TPR_UNFREEZE (R268). A program whose UNLOAD has not ended is UNLOADING again (DEDUCED, R266). -/
def progUnfreeze (h : Nat) (s : State) : State :=
  match getProg h s with
  | some p =>
    let back : ProgState := if p.unload.isSome then .unloading else .live
    if p.state == .frozen then showProg h (withTpr (fun t => { t with progs := tset t.progs h { p with state := back } }) s)
    else tprIgnored s
  | none => tprIgnored s

/-- The invocations and instances of a function end (R261, R440, R483): instances abort with ABORTED, invocations are gone. -/
def fnStopTaper (f : Nat) (s : State) : State :=
  let insts := s.col.insts.filterMap (fun (i, x) => if x.fn == f then some i else none)
  let s := insts.foldl (fun s i => instFail i St.collError Cd.aborted s) s
  let invs := s.tpr.invocs.filterMap (fun (i, v) => if v.ref.fn == f then some i else none)
  let s := invs.foldl (fun s i => dropInvoc i s) s
  insts.foldl (fun s i => dropInst i s) s

/-- The programs of a function are unloaded and their handles freed (R483): message activations of theirs are gone too. -/
def fnDropProgs (f : Nat) (s : State) : State :=
  let hs := s.tpr.progs.filterMap (fun (h, p) => if p.owner == f then some h else none)
  let keep (r : Ready) : Bool :=
    match r with
    | .msg g _ _ => !hs.contains g
    | _ => true
  let s := withTpr (fun t => { t with
    ready := t.ready.map (fun (k, l) => (k, l.filter keep)), loads := tdel t.loads f }) s
  let cores := s.tpr.cores.filterMap (fun (c, x) => x.act.bind (fun a => if hs.contains a.prog then some (c, a) else none))
  let s := cores.foldl (fun s (c, a) => endMsgAct c a s) s
  hs.foldl (fun s h => showProg h (withTpr (fun t => { t with
    progs := tdel t.progs h, images := t.images.filter (fun (_, m) => m.prog != h) }) s)) s

end Sys2Proof.Machine
end

