-- ==== Sys2Proof/Machine/Resume.lean ====
section
/-! DEFINITION. Accesses whose check has an outcome go on; the form of a meaning; the freezing rule (15: R439, R440) and the writes
of hosts and management (17: R473). -/

namespace Sys2Proof.Machine

/-! ### Copies of unexpected messages (R179) -/

/-- The unexpected message of a queue pair that is being copied to its receive. -/
def copying (q : Nat) (psn0 : BitVec 32) (s : State) : Option (Unexp × Recv) :=
  (s.mte.unexp.find? (fun u => u.qpn == q && u.psn0 == psn0 && u.complete && !u.announce)).bind
    (fun u => u.bound.map (fun r => (u, r)))

/-- UNEXPECTED_COPY_COMPLETE: the message's pool pieces have been read; the copy is checked. -/
def copyCome (q : Nat) (psn0 : BitVec 32) (d : ReadResult) (s : State) : State :=
  match copying q psn0 s with
  | none => s
  | some (u, r) =>
    let n := min u.msgLen r.len
    if s.xlt.waiting.any (fun w => match w.access.purpose with
      | .uxCopy k p _ => k == q && p == psn0
      | _ => false) then s
    else
      match d with
      | .pcieError => copyFailed u r St.localPcie 0 s
      | .data bs =>
        xltStart { fn := r.fn, dom := some r.pd, parts := sliceParts r.parts 0 n, rights := 0b00010, rd := false, wr := true,
                   testsOnly := false, purpose := .uxCopy q psn0 (fitBytes n bs) } s

/-- The check of a copy has an outcome: it is made and its receive finishes, or the receive fails. The message's entry is freed with its
pieces, once the copy has been made (DESIGN CHOICE: R179 says so of the pieces alone). While the function is frozen the message stays
as it is, and its receive waits for the flush (R524). -/
def uxCopyChecked (q : Nat) (psn0 : BitVec 32) (bs : List Byte) (c : Checked) (s : State) : State :=
  match c, copying q psn0 s with
  | .pass n _, none => drained n s
  | .fail _, none => s
  | .fail d, some (u, r) => if frozen r.fn s then s else copyFailed u r (faultStatus d) (BitVec.ofNat 8 d) s
  | .pass n segs, some (u, r) =>
    if frozen r.fn s then drained n s else
    let s := drained n (writeSegs (fnLink r.fn) r.fn false segs bs s)
    let s := withMte (fun m => { m with unexp := m.unexp.filter (fun v => !(v.qpn == q && v.psn0 == psn0)) }) s
    deliverNotice (onHalf1 q s) r.fn r.arv .recv (recvNotice r u.src u.immV u.imm bs.length (lenStatus u.msgLen r.len) 0 1)
      (some (u.boundRecv r)) false s

/-! ### The outcome of a check -/

/-- What an access goes on with once its check has an outcome, by its purpose. -/
def xltResume (acc : Access) (c : Checked) (s : State) : State :=
  match acc.purpose with
  | .entryTable ref => tableChecked ref c s
  | .sendTest ref => sendTested ref c s
  | .zeroCheck ref => zeroChecked ref c s
  | .postRecv ref => postRecvChecked ref acc.parts c s
  | .waitCtr ref r => waitCtrChecked ref r c s
  | .signal ref => signalChecked ref c s
  | .txData q psn => txDataChecked q psn c s
  | .rxKeyed p since => rxKeyed p since c s
  | .rxSend p recv since => rxSendChecked p recv since c s
  | .uxCopy q psn0 bs => uxCopyChecked q psn0 bs c s
  | .atomicRecord p => atomicRecordChecked p c s
  | .colRead i op r => colReadChecked i op r c s
  | .colWrite i op bs => colWriteChecked i op bs c s
  | .colPlace i p => colPlaceChecked i p c s
  | .colRecord i op st dt v => colRecordChecked i op st dt v c s
  | .cadd k => caddChecked k c s
  | .hxfer id => hxferChecked id c s
  | .lockPage _ => s
  | .mrRegister _ _ => s
  | .mrRevoke _ _ => s

/-- Does an access wait for nothing any more? -/
def waitOver (w : Waiting) : Bool :=
  match w.wait with
  | .ready => true
  | .failed _ => true
  | _ => false

/-- Is the unit to which the outcome of a check goes fenced? The outcome then waits at its crossing (R389, R407). -/
def takerFenced (p : Purpose) (s : State) : Bool :=
  match p with
  | .postRecv _ => unitFenced 133 s
  | .uxCopy _ _ _ => unitFenced 133 s
  | .colRead _ _ _ => unitFenced 117 s
  | .colWrite _ _ _ => unitFenced 117 s
  | .colPlace _ _ => unitFenced 117 s
  | .colRecord _ _ _ _ _ => unitFenced 117 s
  | .cadd _ => unitFenced 117 s
  | _ => false

/-- Take up the accesses that wait for nothing, oldest first, until none is left or the bound is reached. -/
def settleN : Nat → State → State
  | 0, s => s
  | n + 1, s =>
    match s.xlt.waiting.find? (fun w => waitOver w && !takerFenced w.access.purpose s) with
    | none => s
    | some w =>
      let s := { s with xlt := { s.xlt with waiting := s.xlt.waiting.filter (fun v => v.serial != w.serial) } }
      match w.wait with
      | .failed d => settleN n (xltResume w.access (.fail d) (drained w.serial (if w.access.testsOnly then s else countFault w.access.fn d s)))
      | _ =>
        let new := s.xlt.nextSerial
        match xltRun w.access w.leaves s with
        | (some (.pass k segs), s) => settleN n (xltResume w.access (.pass k segs) (renameDrained w.serial new s))
        | (some (.fail d), s) => settleN n (xltResume w.access (.fail d) (drained w.serial s))
        | (none, s) => settleN n (renameDrained w.serial new s)

/-- Take up every access that waits for nothing. Each round ends one and can start few, so the bound is not reached by an access
that the rules give (DESIGN CHOICE). While the XLT is fenced accesses wait at their crossings (R394). -/
def settle (s : State) : State := if unitFenced 125 s then s else settleN 4096 s

/-- The transitions of queue pairs whose condition holds finish (R119, R182, R523); a fenced QPC finishes none (R394). -/
def transAll (s : State) : State :=
  if unitFenced 126 s then s
  else s.qpc.qps.foldl (fun s (q, x) => if x.trans.isSome then transCheck q s else s) s

/-! ### The form of a meaning -/

/-- Whether the device acts at all: not while it is held in P3, after a thermal trip, by TEST_EN or by a brown-out. -/
def running (s : State) : Bool := !s.clk.off

/-- A command whose effect may ask for host-memory accesses or end what a transition waits for. -/
def act (f : State → State) (s : State) : Host.Outcome State Fault Refusal :=
  .next (if running s then transAll (settle (f s)) else s)

/-- A command whose effect asks for none. -/
def plain (f : State → State) (s : State) : Host.Outcome State Fault Refusal := .next (if running s then f s else s)

/-! ### Freezing (R439, R440) -/

/-- A function is frozen with a cause (R439, R440): its rings freeze, its instances abort and its invocations end. -/
def freeze (f cause : Nat) (s : State) : State :=
  if frozen f s then s else fnStopTaper f (freezeCore f cause s)

/-- An access breaks the freezing rule (R391, R439): the protection source occurs and the function is frozen. -/
def violation (src f cause : Nat) (s : State) : State :=
  freeze f cause (fcuOccurIn (if src == 162 then some (352 + f / 256) else srcIsland src) src s)

/-! ### Crossings into a block (R389, R407, R414) -/

/-- The power domains that hold the block of a fault source (R402). The registers of ports lie in the retention store and have none. -/
def blockDoms (src : Nat) : List Nat :=
  if src == 0 || src == 134 then (List.range 16).map (fun t => 129 + t)
  else if src == 48 then (List.range 16).map (fun c => 145 + c)
  else if 118 ≤ src && src ≤ 121 then [205 + (src - 118)]
  else if src == 123 || src == 125 || src == 126 then [209]
  else if src == 128 || src == 130 then [210]
  else if src == 117 || src == 133 then [211]
  else []

/-- Is the crossing into the block of a fault source shut: its unit is fenced, every domain that holds it is off, or its island is in its
snapshot's pause (R408, R451)? -/
def crossingShut (src : Nat) (s : State) : Bool :=
  (s.ltn.todo.head?.isSome && srcIsland src == s.ltn.todo.head?) || unitFenced src s || (!(blockDoms src).isEmpty && (blockDoms src).all (fun d => !domOn d s))

/-- A write reaches its block, or is held at the sending side while the crossing is shut (R389, R407). -/
def cross (src : Nat) (r : HeldReq) (k : State → State) (s : State) : State := if crossingShut src s then holdReq r s else k s

/-- A write of a register of management space by a master, as it is held: with the byte enables of the register's width. -/
def regReq (m : Master) (off : Nat) (v : BitVec 64) : HeldReq :=
  if off % 8 == 4 then .reg m (off - 4) 0xF0 (v <<< 32)
  else .reg m off (if (regFind false off).any (fun d => d.bytes == 8) then 0xFF else 0x0F) v

/-! ### Writes of hosts and management (R419, R440, R473, R488) -/

/-- HOST_READY (R486). -/
def hostReadyOn (s : State) : Bool := bit 7 (rdReg Reg.MGT_BOOT s)

/-- The lifecycle state in effect (R442): 0 BLANK, 1 PROVISIONED, 2 SEALED, 3 RMA. -/
def lifecycle (s : State) : Nat := rf Reg.SEC_STATE 33 32 s

/-- UID (R425, R437). -/
def uid (f : Fuses) : BitVec 64 :=
  BitVec.ofNat 64 (f.dieY.toNat * 2 ^ 53 + f.dieX.toNat * 2 ^ 45 + f.wafer.toNat * 2 ^ 40 + f.lot.toNat)

/-- SEC_ID0 (R434). -/
def secId0 (s : State) : BitVec 64 :=
  let u := s.sec.fuses
  BitVec.ofNat 64 (u.member.toNat * 2 ^ 56 + u.stepMaj.toNat * 2 ^ 52 + u.stepMin.toNat * 2 ^ 48 + lifecycle s * 2 ^ 46 +
    u.wafer.toNat * 2 ^ 40 + u.lot.toNat)

/-- The configuration fields of a function. -/
def fnCfg (f : Nat) (s : State) : FnCfg := (tget s.hif.cfg f).getD FnCfg.reset

/-- Does only PF0 enumerate (R464)? -/
def pf0Only (s : State) : Bool := lifecycle s == 0 || lifecycle s == 3

/-- Does a function exist for the host: its controller presents it, and a VF is enabled and within NumVFs (R462, R464)? -/
def presented (f : Nat) (s : State) : Bool :=
  let pf := f / 256 * 256
  let n := f % 256
  if pf0Only s && f != 0 then false
  else if n == 0 then true
  else n ≤ 252 && (fnCfg pf s).vfEnable && n ≤ (fnCfg pf s).numVfs.toNat

/-- Does an access of a function reach the device: the function exists (R462), and its controller is not fenced (R389, R394)? -/
def reaches (f : Nat) (s : State) : Bool := presented f s && !unitFenced (118 + f / 256) s

/-- A write to BAR0 by a host function, served by the block of fault source `src`: ignored and counted before HOST_READY (R488),
in P2 except where `inP2` (R419), and for a frozen function (R440). A function that does not exist writes nothing (R462). -/
def hostWr (f src : Nat) (inP2 : Bool) (k : State → State) (s : State) : State :=
  if !reaches f s then s
  else if !hostReadyOn s then ignored 118 s
  else if powerState s == 2 && !inP2 then ignored src s
  else if frozen f s then ignored src s
  else k s

/-- A write to a register of management space by a master (R473): the MGT, JTAG's DBG_WRITE at level INVASIVE, PF0 with privilege;
any other function leaves its window and is frozen with cause 0x06. A halted or fenced MGT writes nothing. -/
def mgtWr (m : Master) (k : State → State) (s : State) : State :=
  if m == 0x800 then (if unitFenced 141 s || s.sec.halts.contains none then s else k s)
  else if m == 0x801 then (if rf Reg.SEC_STATE 1 0 s == 2 then k s else s)
  else if m.toNat < 0x400 then
    hostWr m.toNat 118 false (fun s =>
      if m == 0 && rf Reg.HIF_MGTPRIV 0 0 s == 1 then k s else violation 162 m.toNat 6 s) s
  else s

/-- A write to a register of a block that P2 switches off: DBG_WRITE to it is ignored there (R432). -/
def mgtWrOff (m : Master) (k : State → State) (s : State) : State :=
  if m == 0x801 && powerState s == 2 then s else mgtWr m k s

end Sys2Proof.Machine
end

