-- ==== Sys2Proof/Machine/Commands.lean ====
section
/-! DEFINITION. The meanings of the CMP's commands (02): ring entries, admin entries, doorbells, fetches, mirrors and the admin
ring's registers. -/

namespace Sys2Proof.Machine

/-! ### Doorbells (R42 to R46, R64, R65) -/

/-- The tail or index that a doorbell write carries, if it has the form of R42. -/
def doorbellForm (off : BitVec 12) (bytes : BitVec 4) (v : BitVec 64) : Option (BitVec 32) :=
  if off == 0 && (bytes == 4 || (bytes == 8 && bits 63 32 v == 0)) then some (v.extractLsb' 0 32) else none

/-- A ring overrun (cause 0x01) or a bad doorbell (cause 0x02) is rejected (R44, R45). -/
def doorbellRejected (f page cause : Nat) (s : State) : State :=
  violation 124 f cause (setFf f Reg.CMR_STATUS 27 16 page (setFf f Reg.CMR_STATUS 2 2 1 s))

/-- A tail reaches a Command Ring (R43). -/
def ringTail (f page id : Nat) (t : BitVec 32) (s : State) : State :=
  match getRing f id s with
  | none => evcPulse 195 f s
  | some g =>
    if g.state == .stoppedDevice then ignored 123 s
    else if i32 (t - g.tail) ≤ 0 then evcPulse 195 f s
    else if 2 ^ g.log2size < (t - g.head).toNat then doorbellRejected f page 1 s
    else putRing f id { g with tail := t } s

/-- The queue pairs bound to an Arrival Ring. -/
def arvQps (f a : Nat) (s : State) : List Nat :=
  s.qpc.bound.filterMap (fun x => if x.2.fn == f && x.2.arvId.toNat == a then some x.1 else none)

/-- An inconsistent return fences an Arrival Ring (R65). A queue pair whose context is in memory enters ERROR when it is installed
(R127). -/
def arvFence (f a : Nat) (g : Arv) (s : State) : State :=
  let s := putArv f a { g with fenced := true } s
  let s := ((arvQps f a s).filter (fun q => (getQp q s).isSome)).foldl (fun s q => enterError q St.arrivalOverrun 0 s) s
  fcuOccur 124 (setFf f Reg.CMR_STATUS 3 3 1 s)

/-- A consumed index reaches an Arrival Ring (R64, R65). -/
def arvReturn (f a : Nat) (c : BitVec 32) (s : State) : State :=
  match getArv f a s with
  | none => evcPulse 195 f s
  | some g =>
    if g.fenced || c == g.consumed then s
    else if (c - g.consumed).toNat ≤ (g.produced - g.consumed).toNat then
      putArv f a { g.giveBack (c - g.consumed).toNat with consumed := c } s
    else arvFence f a g s

/-- A write to a doorbell page is evaluated (R43 to R46, R64). A page whose ring is gone, and page 0 without an admin ring, are judged
before the form of the write: R45 has a clause for either and does not say which comes first (DESIGN CHOICE). -/
def doorbell (f : Fn) (page : BitVec 12) (off : BitVec 12) (bytes : BitVec 4) (v : BitVec 64) (s : State) : State :=
  let fn := f.toNat
  let pg := page.toNat
  hostWr fn 123 false (fun s =>
    match tget s.cmp.pages (ringKey fn pg), doorbellForm off bytes v with
    | none, _ => if pg == 0 then evcPulse 195 fn s else doorbellRejected fn pg 2 s
    | some .gone, _ => evcPulse 195 fn s
    | some _, none => doorbellRejected fn pg 2 s
    | some (.ring id), some t => ringTail fn pg id t s
    | some (.arv a), some c => arvReturn fn a c s) s

/-! ### Fetches (R40, R48) -/

/-- The index of the entry that the CMP fetches next, if it fetches from the ring now. Entry i + 1 is fetched once entry i has been
issued. -/
def fetchIndex (f : Nat) (g : Ring) (s : State) : Option (BitVec 32) :=
  let i := g.head + BitVec.ofNat 32 g.entries.length
  if g.state == .running && !frozen f s && i != g.tail && g.entries.all (·.issued) then some i else none

/-- An entry that passes the ownership tests is taken: it is decoded (R31), and waits to be issued. -/
def takeEntry (f r : Nat) (g : Ring) (i : BitVec 32) (e : BitVec 512) (s : State) : State :=
  let s := putRing f r { g with entries := g.entries ++ [⟨e, false, none⟩] } s
  match decodeStatus (r == 0) e with
  | some st => issueFinish ⟨f, r, g.uid, i⟩ st 0 s
  | none => s

/-- The read of the next entry of a ring returns (R40, R48). -/
def entryCome (f r : Nat) (d : ReadResult) (s : State) : State :=
  match getRing f r s with
  | none => s
  | some g =>
    match fetchIndex f g s with
    | none => s
    | some i =>
      if g.waitOwn then s
      else
        let seen := readable f (entryAddr g i) 64 s
        let s := if seen then hostRead f (entryAddr g i) 64 s else s
        match (if seen then d else .pcieError) with
        | .pcieError => setRingState f r .stoppedFetch s
        | .data bs =>
          let e := ofBytes 512 (fitBytes 64 bs)
          if ownTest g.log2size i e then takeEntry f r g i e s else putRing f r { g with waitOwn := true } s

/-! ### Entries -/

/-- An entry of an opcode that does nothing but finish. -/
def issueFree (op f r : Nat) (s : State) : State :=
  match issueOf op f r s with
  | some (ref, _) => issueFinish ref St.success 0 s
  | none => s

/-- NOP (R30). -/
def execNop (f : Fn) (r : BitVec 12) (s : State) : Host.Outcome State Fault Refusal :=
  act (issueFree 0x00 f.toNat r.toNat) s

/-- SEND (R34, R35, R180). -/
def execSend (f : Fn) (r : BitVec 12) (s : State) : Host.Outcome State Fault Refusal :=
  act (issueQp 0x01 false issueSend f.toNat r.toNat) s

/-- WRITE (R34, R35, R135). -/
def execWrite (f : Fn) (r : BitVec 12) (s : State) : Host.Outcome State Fault Refusal :=
  act (issueQp 0x02 false issueWrite f.toNat r.toNat) s

/-- READ (R136). -/
def execRead (f : Fn) (r : BitVec 12) (s : State) : Host.Outcome State Fault Refusal :=
  act (issueQp 0x03 false issueRead f.toNat r.toNat) s

/-- ATOMIC (R375, R376). -/
def execAtomic (f : Fn) (r : BitVec 12) (s : State) : Host.Outcome State Fault Refusal :=
  act (issueQp 0x04 false issueAtomic f.toNat r.toNat) s

/-- COUNTER_ADD (R216). -/
def execCounterAdd (f : Fn) (r : BitVec 12) (s : State) : Host.Outcome State Fault Refusal :=
  act (issueQp 0x05 false issueCounterAdd f.toNat r.toNat) s

/-- POST_RECV (R61, R172). -/
def execPostRecv (f : Fn) (r : BitVec 12) (s : State) : Host.Outcome State Fault Refusal :=
  act (issueQp 0x06 true issuePostRecv f.toNat r.toNat) s

/-- FENCE (R36): it is issued once every earlier entry of its ring has finished. -/
def execFence (f : Fn) (r : BitVec 12) (s : State) : Host.Outcome State Fault Refusal :=
  act (issueFree 0x10 f.toNat r.toNat) s

/-- WAIT_CTR (R33): a look at its counter word. -/
def execWaitCtr (f : Fn) (r : BitVec 12) (idx : BitVec 32) (w : ReadResult) (s : State) : Host.Outcome State Fault Refusal :=
  act (waitCtrLook f.toNat r.toNat idx w) s

/-- SIGNAL (R33). -/
def execSignal (f : Fn) (r : BitVec 12) (s : State) : Host.Outcome State Fault Refusal :=
  act (issueSignal f.toNat r.toNat) s

/-- COL_START (R194). -/
def execColStart (f : Fn) (r : BitVec 12) (s : State) : Host.Outcome State Fault Refusal :=
  act (issueColStart f.toNat r.toNat) s

/-- COLL_ABORT (R196). -/
def execCollAbort (f : Fn) (r : BitVec 12) (s : State) : Host.Outcome State Fault Refusal :=
  act (issueCollAbort f.toNat r.toNat) s

/-- TAPER_INVOKE (R261). -/
def execTaperInvoke (f : Fn) (r : BitVec 12) (s : State) : Host.Outcome State Fault Refusal :=
  act (issueInvoke f.toNat r.toNat) s

/-! ### Admin entries -/

/-- TAPER_LOAD (R240): neither REPLACE nor UNLOAD, or both, which its judgement turns down. -/
def execTaperLoad (f : Fn) (blk : BitVec 512) (s : State) : Host.Outcome State Fault Refusal :=
  act (taperLoadRow (fun b => lReplace b == lUnload b) f.toNat blk) s

/-- TAPER_LOAD with REPLACE (R265). -/
def execTaperLoadReplace (f : Fn) (blk : BitVec 512) (s : State) : Host.Outcome State Fault Refusal :=
  act (taperLoadRow (fun b => lReplace b && !lUnload b) f.toNat blk) s

/-- TAPER_LOAD with UNLOAD (R266). -/
def execTaperLoadUnload (f : Fn) (blk : BitVec 512) (s : State) : Host.Outcome State Fault Refusal :=
  act (taperLoadRow (fun b => !lReplace b && lUnload b) f.toNat blk) s

/-- RING_CREATE (R56). -/
def execRingCreate (f : Fn) (blk : BitVec 256) (s : State) : Host.Outcome State Fault Refusal :=
  act (adminRun 0x30 f.toNat (.data (toBytes 32 blk)) ringCreateGo) s

/-- RING_DESTROY (R57). -/
def execRingDestroy (f : Fn) (s : State) : Host.Outcome State Fault Refusal :=
  act (adminRun 0x31 f.toNat (.data []) ringDestroyGo) s

/-- RING_RESUME (R57). -/
def execRingResume (f : Fn) (s : State) : Host.Outcome State Fault Refusal :=
  act (adminRun 0x32 f.toNat (.data []) ringResumeGo) s

/-- ARV_CREATE (R66). -/
def execArvCreate (f : Fn) (blk : BitVec 256) (s : State) : Host.Outcome State Fault Refusal :=
  act (adminRun 0x33 f.toNat (.data (toBytes 32 blk)) arvCreateGo) s

/-- ARV_DESTROY (R66). -/
def execArvDestroy (f : Fn) (s : State) : Host.Outcome State Fault Refusal :=
  act (adminRun 0x34 f.toNat (.data []) arvDestroyGo) s

/-- PD_ALLOC (R70). -/
def execPdAlloc (f : Fn) (blk : BitVec 128) (s : State) : Host.Outcome State Fault Refusal :=
  act (adminRun 0x38 f.toNat (.data (toBytes 16 blk)) pdAllocGo) s

/-- PD_FREE (R71). -/
def execPdFree (f : Fn) (s : State) : Host.Outcome State Fault Refusal :=
  act (adminRun 0x39 f.toNat (.data []) pdFreeGo) s

/-- MR_REGISTER (R77). -/
def execMrRegister (f : Fn) (blk : BitVec 256) (s : State) : Host.Outcome State Fault Refusal :=
  act (adminRun 0x3A f.toNat (.data (toBytes 32 blk)) mrRegisterGo) s

/-- MR_REVOKE (R104). -/
def execMrRevoke (f : Fn) (blk : BitVec 128) (s : State) : Host.Outcome State Fault Refusal :=
  act (adminRun 0x3B f.toNat (.data (toBytes 16 blk)) mrRevokeGo) s

/-- XLT_INVALIDATE (R96). -/
def execXltInvalidate (f : Fn) (blk : BitVec 256) (s : State) : Host.Outcome State Fault Refusal :=
  act (adminRun 0x3C f.toNat (.data (toBytes 32 blk)) xltInvalidateGo) s

/-- XLT_LOCK (R97). -/
def execXltLock (f : Fn) (blk : BitVec 128) (s : State) : Host.Outcome State Fault Refusal :=
  act (adminRun 0x3D f.toNat (.data (toBytes 16 blk)) xltLockGo) s

/-- XLT_UNLOCK (R97). -/
def execXltUnlock (f : Fn) (blk : BitVec 128) (s : State) : Host.Outcome State Fault Refusal :=
  act (adminRun 0x3E f.toNat (.data (toBytes 16 blk)) xltUnlockGo) s

/-- BTR_SET (R82). -/
def execBtrSet (f : Fn) (blk : BitVec 256) (s : State) : Host.Outcome State Fault Refusal :=
  act (adminRun 0x3F f.toNat (.data (toBytes 32 blk)) btrSetGo) s

/-- QP_CREATE (R117). -/
def execQpCreate (f : Fn) (blk : BitVec 128) (s : State) : Host.Outcome State Fault Refusal :=
  act (adminRun 0x40 f.toNat (.data (toBytes 16 blk)) qpCreateGo) s

/-- QP_MODIFY (R119). -/
def execQpModify (f : Fn) (blk : BitVec 256) (s : State) : Host.Outcome State Fault Refusal :=
  act (adminRun 0x41 f.toNat (.data (toBytes 32 blk)) qpModifyGo) s

/-- QP_QUERY (R120). -/
def execQpQuery (f : Fn) (blk : BitVec 2048) (s : State) : Host.Outcome State Fault Refusal :=
  act (adminRun 0x42 f.toNat (.data (toBytes 256 blk)) qpQueryGo) s

/-- QP_DESTROY (R121). -/
def execQpDestroy (f : Fn) (s : State) : Host.Outcome State Fault Refusal :=
  act (adminRun 0x43 f.toNat (.data []) qpDestroyGo) s

/-- What each admin opcode that takes a block performs once its block has been read (R522). -/
def blockOps : List (Nat × AdminGo) :=
  [ (0x29, taperLoadGo), (0x30, ringCreateGo), (0x33, arvCreateGo), (0x38, pdAllocGo), (0x3A, mrRegisterGo), (0x3B, mrRevokeGo),
    (0x3C, xltInvalidateGo), (0x3D, xltLockGo), (0x3E, xltUnlockGo), (0x3F, btrSetGo), (0x40, qpCreateGo), (0x41, qpModifyGo),
    (0x42, qpQueryGo) ]

/-- The read of the block of the admin ring's next entry returns (R522): its opcode is judged and performed. -/
def blockCome (f : Nat) (d : ReadResult) (s : State) : State :=
  match issuable f 0 s with
  | none => s
  | some (_, e) =>
    match blockOps.find? (fun x => x.1 == eOpcode e) with
    | some (op, go) => if op == 0x29 && (tget s.tpr.loads f).isSome then s else adminRun op f d go s
    | none => s

/-! ### Doorbells, fetches, mirrors and the admin ring -/

/-- COMMAND_RING_DOORBELL (R42 to R46). What the page is assigned to decides how the write is judged. -/
def execCommandRingDoorbell (f : Fn) (page : BitVec 12) (off : BitVec 12) (bytes : BitVec 4) (v : BitVec 64) (s : State) :
    Host.Outcome State Fault Refusal :=
  act (doorbell f page off bytes v) s

/-- ARRIVAL_RING_DOORBELL (R64, R65). What the page is assigned to decides how the write is judged. -/
def execArrivalRingDoorbell (f : Fn) (page : BitVec 12) (off : BitVec 12) (bytes : BitVec 4) (v : BitVec 64) (s : State) :
    Host.Outcome State Fault Refusal :=
  act (doorbell f page off bytes v) s

/-- ENTRY_FETCH (R40, R48). -/
def execEntryFetch (f : Fn) (r : BitVec 12) (d : ReadResult) (s : State) : Host.Outcome State Fault Refusal :=
  act (entryCome f.toNat r.toNat d) s

/-- OWNERSHIP_REREAD (R40): 128 ns have passed since an entry failed its ownership tests; it is read again, and counted. -/
def execOwnershipReread (f : Fn) (r : BitVec 12) (s : State) : Host.Outcome State Fault Refusal :=
  act (fun s =>
    match getRing f.toNat r.toNat s with
    | none => s
    | some g =>
      if g.waitOwn && g.state == .running && !frozen f.toNat s then
        evcPulse 194 f.toNat (putRing f.toNat r.toNat { g with waitOwn := false } s)
      else s) s

/-- HEAD_MIRROR_PUBLISH (R50): the mirror shows a head that has advanced. -/
def execHeadMirrorPublish (f : Fn) (r : BitVec 12) (s : State) : Host.Outcome State Fault Refusal :=
  act (fun s =>
    match getRing f.toNat r.toNat s with
    | none => s
    | some g => if g.head != g.published then publish f.toNat r.toNat s else s) s

/-- WAIT_CTR_TIMEOUT (R33): a WAIT_CTR with a timeout has not been satisfied in time. -/
def execWaitCtrTimeout (f : Fn) (r : BitVec 12) (idx : BitVec 32) (s : State) : Host.Outcome State Fault Refusal :=
  act (fun s =>
    match getRing f.toNat r.toNat s with
    | none => s
    | some g =>
      let ref : EntryRef := ⟨f.toNat, r.toNat, g.uid, idx⟩
      match refEntry ref s with
      | none => s
      | some (_, _, x) =>
        if x.issued && x.result.isNone && eOpcode x.raw == 0x11 && eLength x.raw != 0 then finishEntry ref St.waitTimeout 0 s
        else s) s

/-- ADMIN_RING_ENABLE (R54, R55). -/
def execAdminRingEnable (f : Fn) (start : BitVec 32) (s : State) : Host.Outcome State Fault Refusal :=
  act (hostWr f.toNat 123 false (cross 123 (.fn f.toNat Reg.CMR_ADMIN_CTRL 0xFF (start ++ (1 : BitVec 32))) (adminEnable f.toNat start))) s

/-- ADMIN_RING_DISABLE (R55). -/
def execAdminRingDisable (f : Fn) (s : State) : Host.Outcome State Fault Refusal :=
  act (hostWr f.toNat 123 false (cross 123 (.fn f.toNat Reg.CMR_ADMIN_CTRL 1 0) (adminDisable f.toNat))) s

/-- PARAM_BLOCK_READ_COMPLETE (R522). -/
def execParamBlockReadComplete (f : Fn) (d : ReadResult) (s : State) : Host.Outcome State Fault Refusal :=
  act (blockCome f.toNat d) s

end Sys2Proof.Machine
end

