-- ==== Sys2Proof/Machine/Tables.lean ====
section
/-! DEFINITION. The meanings of the commands that move the tables of a function: key table, walks and drains (03), context table and
contexts (04), unexpected pool (06: R188, R189). -/

namespace Sys2Proof.Machine

/-! ### The key table and the walks (03) -/

/-- KEYTAB_ENABLE (R74). -/
def execKeytabEnable (f : Fn) (s : State) : Host.Outcome State Fault Refusal :=
  act (hostWr f.toNat 125 false (cross 125 (.fn f.toNat Reg.XLT_KEYTAB_CTRL 1 1)
    (fun s => enableTable f.toNat Reg.XLT_KEYTAB_CTRL (keytabOk f.toNat s) s))) s

/-- KEYTAB_DISABLE (R74). -/
def execKeytabDisable (f : Fn) (s : State) : Host.Outcome State Fault Refusal :=
  act (hostWr f.toNat 125 false (cross 125 (.fn f.toNat Reg.XLT_KEYTAB_CTRL 1 0) (keytabOff f.toNat))) s

/-- KEYTAB_DESCRIPTOR_READ (R72, R80). -/
def execKeytabDescriptorRead (f : Fn) (index : BitVec 24) (d : ReadResult) (s : State) : Host.Outcome State Fault Refusal :=
  act (descCome f.toNat index.toNat d) s

/-- WALK_ENTRY_READ (R85 to R91). -/
def execWalkEntryRead (serial : BitVec 32) (d : ReadResult) (s : State) : Host.Outcome State Fault Refusal :=
  act (walkCome serial.toNat d) s

/-- FLUSHING_READ_COMPLETE (R105, R141). -/
def execFlushingReadComplete (link : BitVec 3) (d : ReadResult) (s : State) : Host.Outcome State Fault Refusal :=
  act (flushCome link.toNat d) s

/-! ### The context table (04) -/

/-- CTXTAB_ENABLE (R110). -/
def execCtxtabEnable (f : Fn) (s : State) : Host.Outcome State Fault Refusal :=
  act (hostWr f.toNat 126 false (cross 126 (.fn f.toNat Reg.QPC_CTXTAB_CTRL 1 1)
    (fun s => enableTable f.toNat Reg.QPC_CTXTAB_CTRL (ctxtabOk f.toNat s) s))) s

/-- CTXTAB_DISABLE (R110). -/
def execCtxtabDisable (f : Fn) (s : State) : Host.Outcome State Fault Refusal :=
  act (hostWr f.toNat 126 false (cross 126 (.fn f.toNat Reg.QPC_CTXTAB_CTRL 1 0) (fun s =>
    disableTable f.toNat Reg.QPC_CTXTAB_CTRL (s.qpc.bound.any (fun x => x.2.fn == f.toNat)) s))) s

/-- The QPNs of a QPC_RANGE value: first and number (R108). -/
def rangeOf (v : BitVec 64) : Nat × Nat := (bits 23 0 v, 2 ^ bits 28 24 v)

/-- Does a valid range of another function overlap a range? -/
def rangeTaken (f : Nat) (v : BitVec 64) (s : State) : Bool :=
  s.regs.any (fun (k, w) =>
    Reg.QPC_RANGE ≤ k && k < Reg.QPC_RANGE + 8 * 1024 && k != Reg.QPC_RANGE + 8 * f && bit 31 w &&
    overlaps (rangeOf v).1 (rangeOf v).2 (rangeOf w).1 (rangeOf w).2)

/-- A write of QPC_RANGE (R108): invalid, it is ignored and counted; while the context table is ACTIVE it is ignored. -/
def writeRange (f : Nat) (v : BitVec 64) (s : State) : State :=
  if 24 < bits 28 24 v || bits 23 0 v % 2 ^ bits 28 24 v != 0 || (bit 31 v && rangeTaken f v s) then evcPulse 204 0 s
  else if ctxtabActive f s then s
  else writeReg (Reg.QPC_RANGE + 8 * f) v s

/-- QPC_RANGE_WRITE (R108). -/
def execQpcRangeWrite (m : Master) (f : Fn) (v : BitVec 64) (s : State) : Host.Outcome State Fault Refusal :=
  act (mgtWrOff m (cross 126 (regReq m (Reg.QPC_RANGE + 8 * f.toNat) v) (writeRange f.toNat v))) s

/-- CONTEXT_FETCH_COMPLETE (R114, R124). -/
def execContextFetchComplete (q : Qpn) (d : ReadResult) (s : State) : Host.Outcome State Fault Refusal :=
  act (fetchCome q.toNat d) s

/-- CONTEXT_FETCH_RETRY (R126). -/
def execContextFetchRetry (q : Qpn) (s : State) : Host.Outcome State Fault Refusal := act (fetchRetry q.toNat) s

/-- CONTEXT_EVICTION (R123, R124). -/
def execContextEviction (s : State) : Host.Outcome State Fault Refusal := act eviction s

/-! ### The unexpected pool (06) -/

/-- UXPOOL_ENABLE (R189). -/
def execUxpoolEnable (f : Fn) (s : State) : Host.Outcome State Fault Refusal :=
  act (hostWr f.toNat 133 false (cross 133 (.fn f.toNat Reg.MTE_UXCTRL 1 1)
    (fun s => enableTable f.toNat Reg.MTE_UXCTRL (uxpoolOk f.toNat s) s))) s

/-- UXPOOL_DISABLE (R189). -/
def execUxpoolDisable (f : Fn) (s : State) : Host.Outcome State Fault Refusal :=
  act (hostWr f.toNat 133 false (cross 133 (.fn f.toNat Reg.MTE_UXCTRL 1 0)
    (fun s => disableTable f.toNat Reg.MTE_UXCTRL (!(usedPieces f.toNat s).isEmpty) s))) s

end Sys2Proof.Machine
end

