-- ==== Sys2Proof/Machine/Transport.lean ====
section
/-! DEFINITION. The meanings of the transport's and the matching engine's commands (05, 06) and of the atomic unit (12: R378 to
R381). -/

namespace Sys2Proof.Machine

/-! ### Packets that arrive -/

/-- Is an OP defined (R133)? -/
def opKnown (op : Nat) : Bool :=
  (1 ≤ op && op ≤ 7) || op == 0x10 || op == 0x11 || (0x20 ≤ op && op ≤ 0x25) || op == 0x30 || op == 0x31 || op == 0x40 || op == 0x41

/-- Is the RXE fenced, or the QPC without which it knows no queue pair? A packet that comes then is lost (R394). -/
def rxeDown (s : State) : Bool := unitFenced 130 s || unitFenced 126 s

/-- The RXE takes a packet that the switch core has delivered: its checks, and the check code over all of it, end when the packet has
come through the staging queue (R165, R166). -/
def rxTake (p : Packet) (s : State) : State := leaveHost .rxd (epPort p.dstEp) (fun e => e.pkt == p) s

/-- A packet of one OP arrives at the RXE. -/
def rxRow (op : BitVec 8) (p : Packet) (s : State) : Host.Outcome State Fault Refusal :=
  act (fun s =>
    if p.op != op then s
    else
      let s := rxTake p s
      if rxeDown s then s else rxArrive p s) s

/-- SEND_PACKET (R137, R174 to R181). -/
def execSendPacket (p : Packet) (s : State) : Host.Outcome State Fault Refusal := rxRow 0x01 p s

/-- WRITE_PACKET (R137 to R141). -/
def execWritePacket (p : Packet) (s : State) : Host.Outcome State Fault Refusal := rxRow 0x02 p s

/-- READ_REQ (R136, R183). -/
def execReadReq (p : Packet) (s : State) : Host.Outcome State Fault Refusal := rxRow 0x03 p s

/-- READ_RESP (R136, R140). -/
def execReadResp (p : Packet) (s : State) : Host.Outcome State Fault Refusal := rxRow 0x04 p s

/-- ATOMIC_REQ (R376 to R380). -/
def execAtomicReq (p : Packet) (s : State) : Host.Outcome State Fault Refusal := rxRow 0x05 p s

/-- ATOMIC_RESP (R377). -/
def execAtomicResp (p : Packet) (s : State) : Host.Outcome State Fault Refusal := rxRow 0x06 p s

/-- COUNTER_ADD (R216). -/
def execCounterAddPacket (p : Packet) (s : State) : Host.Outcome State Fault Refusal := rxRow 0x07 p s

/-- ACK (R148). -/
def execAck (p : Packet) (s : State) : Host.Outcome State Fault Refusal := rxRow 0x10 p s

/-- NAK (R147). -/
def execNak (p : Packet) (s : State) : Host.Outcome State Fault Refusal := rxRow 0x11 p s

/-- A packet whose OP is undefined is discarded at its destination and counted by the block that it reached (R133). -/
def undefinedOp (p : Packet) (s : State) : State :=
  let op := p.op.toNat
  if opKnown op then s
  else if 0x26 ≤ op && op ≤ 0x2F then ignored 117 s
  else if 0x32 ≤ op && op ≤ 0x37 then ignored 48 s
  else if 0x42 ≤ op && op ≤ 0x4F then xbrDrop s
  else if e2eCrc p != p.crc then evcPulse 208 (epPort p.dstEp) s
  else ignored 130 s

/-- PACKET_UNDEFINED_OP (R133). -/
def execPacketUndefinedOp (p : Packet) (s : State) : Host.Outcome State Fault Refusal := plain (fun s => undefinedOp p (rxTake p s)) s

/-! ### Timers and transmission -/

/-- Is the TXE fenced, or the QPC that holds its state (R394), or does it hold its packets because the chip ID is not set (R490)? It sends
nothing then, and its timers wait. -/
def txeDown (s : State) : Bool := unitFenced 128 s || unitFenced 126 s || !chipValid s

/-- ACK_DELAY_EXPIRY (R149). -/
def execAckDelayExpiry (q : Qpn) (s : State) : Host.Outcome State Fault Refusal :=
  act (fun s => if rxeDown s then s else ackExpire q.toNat s) s

/-- RETRANSMIT_TIMEOUT (R151). -/
def execRetransmitTimeout (q : Qpn) (s : State) : Host.Outcome State Fault Refusal :=
  act (fun s => if txeDown s then s else rtoExpire q.toNat s) s

/-- BUSY_BACKOFF_EXPIRY (R152). -/
def execBusyBackoffExpiry (q : Qpn) (s : State) : Host.Outcome State Fault Refusal :=
  act (fun s => if txeDown s then s else backoffEnd q.toNat s) s

/-- PACKET_TRANSMIT (R145, R153, R156). -/
def execPacketTransmit (q : Qpn) (s : State) : Host.Outcome State Fault Refusal :=
  act (fun s => if txeDown s then s else txNext q.toNat s) s

/-- Change a destination entry, if it exists. -/
def modDest (hp : Nat) (ep : Ep) (f : Dest → Dest) (s : State) : State :=
  match getDest hp ep s with
  | some d => putDest hp ep (f d) s
  | none => s

/-- What runs on a destination entry at intervals: when it is due, in units of `now`, and what it does then. -/
def destTimer (hp : Nat) (ep : Ep) (due : Dest → Nat) (f : Nat → Dest → Dest) (s : State) : State :=
  match getDest hp ep s with
  | none => s
  | some d =>
    let s := advanceTo (due d) s
    putDest hp ep (f s.now d) s

/-- RATE_UPDATE (R156): T_UPD after the last, `every_update`; an entry back at RATE_MAX
with nothing outstanding is freed (R153). -/
def execRateUpdate (hp : BitVec 2) (ep : Ep) (s : State) : Host.Outcome State Fault Refusal :=
  plain (fun s =>
    tidyDest hp.toNat ep
      (destTimer hp.toNat ep (fun d => d.updAt + updateTime s)
        (fun now d => { d.everyUpdate (haiRate s) (aiRate s) (rateMin s) (dTarget s) with updAt := now }) s)) s

/-- max(SRTT, T_UPD), the interval of `every_trip`, in units of `now` (R156). -/
def tripTime (d : Dest) (s : State) : Nat := max (nsPoint (d.srtt.getD 0)) (updateTime s)

/-- ROUND_TRIP_UPDATE (R156, R157): `every_trip`, once in max(SRTT, T_UPD). -/
def execRoundTripUpdate (hp : BitVec 2) (ep : Ep) (s : State) : Host.Outcome State Fault Refusal :=
  plain (fun s => destTimer hp.toNat ep (fun d => d.tripAt + tripTime d s) (fun now d => { d.everyTrip with tripAt := now }) s) s

/-- One of the two minima of base_rtt starts anew, in turn (R156). -/
def Dest.restartMin (d : Dest) : Dest :=
  if d.baseTurn then { d with base2 := bigRtt, baseTurn := false } else { d with base1 := bigRtt, baseTurn := true }

/-- BASE_RTT_WINDOW_RESTART (R156): a minimum restarts every 5 ms, as the two together cover the 10 ms of BASE_WIN. -/
def execBaseRttWindowRestart (hp : BitVec 2) (ep : Ep) (s : State) : Host.Outcome State Fault Refusal :=
  plain (fun s => destTimer hp.toNat ep (fun d => d.minAt + us 5000) (fun now d => { d.restartMin with minAt := now }) s) s

/-- PLACEMENT_COMPLETE (R140, R141). -/
def execPlacementComplete (q : Qpn) (psn : BitVec 32) (resp : Bool) (s : State) : Host.Outcome State Fault Refusal :=
  act (placementDone q.toNat psn resp) s

/-- HOST_DATA_READ_COMPLETE (R136, R166). -/
def execHostDataReadComplete (q : Qpn) (psn : BitVec 32) (resp : Bool) (d : ReadResult) (s : State) :
    Host.Outcome State Fault Refusal :=
  act (if resp then respDataCome q.toNat psn d else txDataCome q.toNat psn d) s

/-! ### Staging queues (R163, R167) -/

/-- The host attachment that a packet of a queue pair uses. -/
def attachmentOf (q : Nat) (psn : BitVec 32) (half1 : Bool) (s : State) : Nat :=
  hostAttachment (hostPort (qpFn q s)) psn half1 s

/-- Queue HTX: packets whose data has come and that have not begun are lost, and their data is read again. -/
def flushHtx (n : Nat) (s : State) : State :=
  { s with qpc := { s.qpc with qps := s.qpc.qps.map (fun ((q, x) : Nat × Qp) =>
      (q, if x.built.any (fun b => attachmentOf q b.1 x.builtHalf s == n) then { x with built := none } else x)) } }

/-- Queue RXP: placements of which writes remain are neither marked nor counted. -/
def flushRxp (n : Nat) (s : State) : State :=
  let (out, s) := stgEmpty .rxp n s
  let gone (p : Placing) : Bool := out.any (fun e => e.id == p.ser)
  let lost := s.rxe.placing.filter gone
  lost.foldl (fun s p => drained p.serial s) (withRxe (fun r => { r with placing := r.placing.filter (fun p => !gone p) }) s)

/-- A packet of queue RXD does not arrive; the notice of one that the RXE has not begun is withdrawn. -/
def rxdLost (n : Nat) (s : State) (e : StgPkt) : State := emit (.rxdLost (n / 2) e.pkt (decide (e.begins ≤ s.now))) s

/-- Queue RXD: its packets do not arrive. -/
def flushRxd (n : Nat) (s : State) : State :=
  let (out, s) := stgEmpty .rxd n s
  out.foldl (rxdLost n) s

/-- Packets of queue RXD that a test names, and that have not been read whole, are lost. -/
def loseRxd (n : Nat) (which : StgPkt → Bool) (s : State) : State :=
  let q := getStg .rxd n s
  let out := q.pkts.filter (fun e => which e && s.now < e.till)
  if out.isEmpty then s
  else out.foldl (rxdLost n) (putStg .rxd n { q with pkts := q.pkts.filter (fun e => !(which e && s.now < e.till)) } s)

/-- The frames of a port from a LSEQ on are lost before they are sent whole: one that had begun is aborted, and LSEQ and the credit go
back as if none had been sent, since the link's retry plays no part. Those behind it in the staging queue are lost with it (DESIGN
CHOICE). -/
def cutFrames (p seq : Nat) (s : State) : State :=
  let l := getLink p s
  let kept := l.held.takeWhile (fun h => h.seq != seq)
  let lost := l.held.dropWhile (fun h => h.seq != seq)
  if lost.isEmpty then s
  else
    let q := getStg .ltx p s
    let mine (e : StgPkt) : Bool := lost.any (fun h => h.seq == e.id)
    let s := (q.pkts.filter (fun e => mine e && e.begins ≤ s.now)).foldl (fun s e => emit (.frameAborted p e.id) s) s
    let s := putStg .ltx p { q with pkts := q.pkts.filter (fun e => !mine e) } s
    let sent := lost.foldl (fun t h =>
      tset t h.idx (((tget t h.idx).getD 0 + 65536 - frameCells h.idx h.pkt) % 65536)) l.sent
    lost.foldl (fun s h => creditBack h.src s) (putLink p { l with held := kept, txSeq := seq, sent := sent } s)

/-- Queue LTX: the frames of the port that are not sent whole are lost. -/
def flushLtx (p : Nat) (s : State) : State :=
  let (out, _) := stgEmpty .ltx p s
  match out with
  | e :: _ => (stgEmpty .ltx p (cutFrames p e.id s)).2
  | [] => (stgEmpty .ltx p s).2

/-- A packet that a flush takes while the switch core reads it is lost wherever it has come to: in its input VC, in an egress queue, or
in a frame that has begun, which is aborted, or in RXD on its way to the RXE. -/
def loseStaged (id : Nat) (s : State) : State :=
  let mine (i : InPkt) : Bool := i.ser == id
  match s.xbr.inq.find? mine, s.xbr.egq.find? (fun e => mine e.src) with
  | some i, _ => creditBack i (withXbr (fun x => { x with inq := x.inq.erase i }) s)
  | none, some e => creditBack e.src (withXbr (fun x => { x with egq := x.egq.erase e }) s)
  | none, none =>
    match s.links.findSome? (fun (l : Nat × Link) => (l.2.held.find? (fun h => mine h.src)).map (fun h => (l.1, h.seq))) with
    | some (p, seq) => cutFrames p seq s
    | none => (List.range 8).foldl (fun s n => loseRxd n (fun e => e.id == id) s) s

/-- Queue TXI or LRX: its packets are lost, and their cells are free. -/
def flushInput (k : StgKind) (n : Nat) (s : State) : State :=
  let (out, s) := stgEmpty k n s
  out.foldl (fun s e => loseStaged e.id s) s

/-- A staging queue is emptied (R167). -/
def flushStaging (k : StgKind) (n : Nat) (s : State) : State :=
  match k with
  | .htx => flushHtx n s
  | .txi => flushInput .txi n s
  | .rxd => flushRxd n s
  | .rxp => flushRxp n s
  | .lrx => flushInput .lrx n s
  | .ltx => flushLtx n s

/-- OCC of a staging queue (R164): the cells in it. -/
def stgOcc (k : StgKind) (n : Nat) (s : State) : Nat := if k == .htx then htxCells n true s else (stgNow k n s).occ s.now

/-- STAGING_FLUSH (R167). -/
def execStagingFlush (k : StgKind) (n : BitVec 7) (s : State) : Host.Outcome State Fault Refusal :=
  act (flushStaging k n.toNat) s

/-! ### Matching -/

/-- RNDV_PROBE_EXPIRY (R184): RNDV_PROBE after it last left, the announcement of a SEND that waits for its release is sent again. -/
def execRndvProbeExpiry (q : Qpn) (psn : BitVec 32) (s : State) : Host.Outcome State Fault Refusal :=
  act (fun s =>
    match getQp q.toNat s with
    | none => s
    | some x =>
      if txeDown s || frozen (qpFn q.toNat s) s then s
      else
        match (liveMsgs x s).find? (fun m => waitsRelease m && m.psn0 == psn) with
        | some m => probeAgain q.toNat x m (advanceTo (m.lastAt + us (nz (rf Reg.MTE_CFG 63 48 s))) s)
        | none => s) s

/-- UNEXPECTED_COPY_COMPLETE (R179). -/
def execUnexpectedCopyComplete (q : Qpn) (psn0 : BitVec 32) (d : ReadResult) (s : State) : Host.Outcome State Fault Refusal :=
  act (copyCome q.toNat psn0 d) s

/-! ### The atomic unit (R376 to R381) -/

/-- A COUNTER_ADD has been applied (R216): its PSN is marked received, its notice written and it is acknowledged. -/
def counterAdded (q : Nat) (p : Packet) (since : Nat) (s : State) : State :=
  match getQp q s with
  | none => s
  | some x =>
    if !accepting x then s
    else
      let s := modQp q (fun x => { x with recs := x.recs.filter (fun r => r.msn != p.msn) })
        (ageResults q p.psn (putQp q (markPsn p.psn x) s))
      let s := if p.notify then
          deliverNotice (onHalf1 q s) (qpFn q s) x.par.arvId.toNat .pool (writeNoticeOf q p 8 0) none false s
        else s
      ackCount q p since true (processAll q s)

/-- The word of a COUNTER_ADD cannot be read (R381): its pool slot is given back and it is refused. -/
def counterRefused (q : Nat) (p : Packet) (s : State) : State :=
  match getQp q s with
  | none => s
  | some x =>
    if !accepting x then s
    else
      let s := modQp q (fun x => { x with recs := x.recs.filter (fun r => r.msn != p.msn) }) s
      let s := if x.recs.any (fun r => r.msn == p.msn && r.slot) then arvGive (qpFn q s) x.par.arvId.toNat .pool s else s
      refuseRemote q p 0 s

/-- An ATOMIC_REQ has been performed (R376, R380): its PSN is received (R140), its result is kept and sent. -/
def atomicPerformed (q : Nat) (p : Packet) (old : BitVec 64) (s : State) : State :=
  match getQp q s with
  | none => s
  | some x =>
    if !accepting x then s
    else
      let s := ageResults q p.psn (putQp q (markPsn p.psn x) s)
      let s := withRxe (fun r => { r with results := r.results ++ [⟨q, x.par.incarn, p.psn, old, s.now⟩] }) s
      processAll q (transmit (epPort p.dstEp) { atomicAnswer p old with sentT := sentT s } s)

/-- The width in bytes of an update, and its new value from the old one (R375, R378): from the word that was read, or from the completion of an
AtomicOp, which returns the operand's bytes alone (R379). -/
def AtomJob.compute (j : AtomJob) (word : Nat) : Nat × Nat × Nat :=
  match j.kind with
  | .atomic _ p =>
    let w := atomicWidth p
    let old := if w == 4 then (if j.pcie then word else word / 2 ^ (8 * (j.bus.toNat % 8))) % 2 ^ 32 else word
    (w, old, atomicOp (atomicAop p) w old p.opx.toNat (leNat (p.payload.take 8)))
  | .counterAdd _ p _ => (8, word, (word + p.opx.toNat) % 2 ^ 64)
  | .signal _ a => (8, word, (word + a.toNat) % 2 ^ 64)
  | .cadd _ a => (8, word, (word + a.toNat) % 2 ^ 64)
  | .hxfer _ a => (8, word, (word + a.toNat) % 2 ^ 64)

/-- Does an update write its word: every one but FETCH and a CAS that changes nothing (R378)? -/
def AtomJob.writes (j : AtomJob) (old : Nat) : Bool :=
  match j.kind with
  | .atomic _ p =>
    let aop := atomicAop p
    aop != 0x0A && !(aop == 0x02 && old != leNat (p.payload.take 8) % 2 ^ (8 * atomicWidth p))
  | _ => true

/-- An update has been made: what it was made for goes on. -/
def atomDone (j : AtomJob) (old : Nat) (s : State) : State :=
  match j.kind with
  | .atomic q p => atomicPerformed q p (BitVec.ofNat 64 old) s
  | .counterAdd q p since => counterAdded q p since s
  | .signal ref _ => finishEntry ref St.success 0 s
  | .cadd c _ => combDone c s
  | .hxfer id _ => hxferDone id St.success 0 s

/-- An update's word could not be read (R251, R381, R522). -/
def atomFailed (j : AtomJob) (s : State) : State :=
  match j.kind with
  | .atomic q p => if (getQp q s).any accepting then refuseRemote q p 0 s else s
  | .counterAdd q p _ => counterRefused q p s
  | .signal ref _ => finishEntry ref St.localPcie 0 s
  | .cadd c _ => combRefuse c s
  | .hxfer id _ => hxferDone id St.localPcie 0 s

/-- The function of an update has been frozen before the write (R440): a packet's update is refused with CONTEXT_BUSY, a CADD's as R219 refuses
it, and of the others nothing is written. -/
def atomFrozen (j : AtomJob) (old : Nat) (s : State) : State :=
  match j.kind with
  | .atomic _ p => sendNak p nakContextBusy 0 s
  | .counterAdd q p _ =>
    match getQp q s with
    | none => s
    | some x =>
      let s := modQp q (fun x => { x with recs := x.recs.filter (fun r => r.msn != p.msn) }) s
      let s := if x.recs.any (fun r => r.msn == p.msn && r.slot) then arvGive (qpFn q s) x.par.arvId.toNat .pool s else s
      sendNak p nakContextBusy 0 s
  | .cadd c _ => combRefuse c s
  | _ => atomDone j old s

/-- The read of an update's word returns (R378): the word is written, and the next update of it begins. Under PCIE_AOP the AtomicOp's
completion returns, and the root complex has written the word (R379). -/
def atomCome (f : Nat) (addr : BitVec 64) (d : ReadResult) (s : State) : State :=
  let mine (j : AtomJob) : Bool := j.reading && j.fn == f && wordOf j.bus == wordOf addr
  match s.rxe.atoms.find? mine with
  | none => s
  | some j =>
    let s := withRxe (fun r => { r with atoms := dropFirst mine r.atoms }) s
    let s :=
      match (if j.barred then .pcieError else d) with
      | .pcieError => atomFailed j (drained j.serial s)
      | .data bs =>
        let (w, old, new) := j.compute (leNat (fitBytes 8 bs))
        if frozen f s && !j.pcie then atomFrozen j old (drained j.serial s)
        else
          let s := if j.writes old && !j.pcie then hostWrite f j.bus (leBytes w new) s else s
          atomDone j old (drained j.serial s)
    startAtoms s

/-- ATOMIC_UPDATE_READ_COMPLETE (R378). -/
def execAtomicUpdateReadComplete (f : Fn) (addr : BitVec 64) (d : ReadResult) (s : State) : Host.Outcome State Fault Refusal :=
  act (atomCome f.toNat addr d) s

/-- HOLD in units of `now` (R379). -/
def holdTime (s : State) : Nat := us (1000 * nz (rf Reg.RXE_ATOM 31 16 s))

/-- ATOMIC_RESULT_EXPIRY (R380): HOLD ms have passed since an operation. -/
def execAtomicResultExpiry (q : Qpn) (psn : BitVec 32) (s : State) : Host.Outcome State Fault Refusal :=
  plain (fun s =>
    let mine (e : AtomResult) : Bool := e.qpn == q.toNat && e.psn == psn
    match s.rxe.results.find? mine with
    | none => s
    | some e => withRxe (fun r => { r with results := r.results.filter (fun e => !mine e) }) (advanceTo (e.since + holdTime s) s)) s

end Sys2Proof.Machine
end

