-- ==== Sys2Proof/Machine/Collective.lean ====
section
/-! DEFINITION. The meanings of the collective engine's and the mailboxes' commands (07). -/

namespace Sys2Proof.Machine

/-! ### Operations (R197, R198) -/

/-- COP_CREDIT (R199). -/
def execCopCredit (i : InstId) (s : State) : Host.Outcome State Fault Refusal := act (copStep 1 i.toNat copCreditGo) s

/-- COP_SEND (R198 to R201). -/
def execCopSend (i : InstId) (d : ReadResult) (s : State) : Host.Outcome State Fault Refusal :=
  act (copStep 2 i.toNat (fun i x o s => dataStart i x o d s)) s

/-- COP_MCAST (R202 to R204). -/
def execCopMcast (i : InstId) (d : ReadResult) (s : State) : Host.Outcome State Fault Refusal :=
  act (copStep 3 i.toNat (copMcastGo d)) s

/-- COP_REDUCE (R211). -/
def execCopReduce (i : InstId) (s : State) : Host.Outcome State Fault Refusal := act (copStep 4 i.toNat reduceStart) s

/-- COP_PLACE (R198). -/
def execCopPlace (i : InstId) (d : ReadResult) (s : State) : Host.Outcome State Fault Refusal :=
  act (copStep 5 i.toNat (fun i x o s => dataStart i x o d s)) s

/-- COP_CADD (R217). -/
def execCopCadd (i : InstId) (s : State) : Host.Outcome State Fault Refusal := act (copStep 6 i.toNat copCaddGo) s

/-- COP_RESULT (R198, R220). -/
def execCopResult (i : InstId) (s : State) : Host.Outcome State Fault Refusal := act (copStep 7 i.toNat copResultGo) s

/-- COP_FREE (R198, R199). -/
def execCopFree (i : InstId) (s : State) : Host.Outcome State Fault Refusal := act (copStep 8 i.toNat copFreeGo) s

/-- COP_ABORT (R196, R198). -/
def execCopAbort (i : InstId) (s : State) : Host.Outcome State Fault Refusal := act (copStep 9 i.toNat copAbortGo) s

/-- COP_END (R195). -/
def execCopEnd (i : InstId) (s : State) : Host.Outcome State Fault Refusal := act (copStep 15 i.toNat copEndGo) s

/-- REDUCE_COMPLETE (R211 to R214). -/
def execReduceComplete (i : InstId) (op : BitVec 32) (d : ReadResult) (s : State) : Host.Outcome State Fault Refusal :=
  act (reduceDone i.toNat op.toNat d) s

/-! ### Packets (R199 to R204, R217, R218), which are lost while the COL is fenced (R394) -/

/-- COL_DATA (R199, R201, R204). -/
def execColData (p : Packet) (s : State) : Host.Outcome State Fault Refusal :=
  act (fun s => if p.op == 0x20 && !unitFenced 117 s then colDataCome p s else s) s

/-- COL_CREDIT (R199). -/
def execColCredit (p : Packet) (s : State) : Host.Outcome State Fault Refusal :=
  act (fun s => if p.op == 0x21 && !unitFenced 117 s then colCreditCome p s else s) s

/-- COL_ACK (R201). -/
def execColAck (p : Packet) (s : State) : Host.Outcome State Fault Refusal :=
  act (fun s => if p.op == 0x22 && !unitFenced 117 s then colAckCome p s else s) s

/-- COL_ABORT (R196). -/
def execColAbort (p : Packet) (s : State) : Host.Outcome State Fault Refusal :=
  act (fun s => if p.op == 0x23 && !unitFenced 117 s then colAbortCome p s else s) s

/-- A CADD on an input is taken by the COL, or waits there for a combining slot (R218). A SERVICE or UNUSED port brings none (R274); while
the chip ID is not set one that a port brings is discarded and counted, and one of an attachment waits (R276). -/
def caddArrive (inp : Nat) (p : Packet) (s : State) : State :=
  let i := newIn inp (if inp < 128 then hopIndex false p else injectIndex p) 0 p s
  if inp < 128 && (!chipValid s || portRole inp s == 0 || portRole inp s == 4) then xbrDrop s
  else if !chipValid s then joinInput i s
  else
    match caddCome inp p s with
    | (true, s) => s
    | (false, _) => joinInput i s

/-- CADD (R217 to R219), come to the COL on an input. -/
def execCadd (inp : Input) (p : Packet) (s : State) : Host.Outcome State Fault Refusal :=
  act (fun s => if p.op == 0x24 && !unitFenced 117 s then caddArrive inp.toNat p s else s) s

/-- CADD_ACK (R218). -/
def execCaddAck (inp : Input) (p : Packet) (s : State) : Host.Outcome State Fault Refusal :=
  act (fun s => if p.op == 0x25 && !unitFenced 117 s then caddAcked inp.toNat p s else s) s

/-! ### Timers -/

/-- COL_RTO_EXPIRY (R201). -/
def execColRtoExpiry (id : BitVec 32) (s : State) : Host.Outcome State Fault Refusal := act (colResend id.toNat) s

/-- CADD_HOP_TIMEOUT (R218). -/
def execCaddHopTimeout (c : BitVec 11) (s : State) : Host.Outcome State Fault Refusal := act (combResend c.toNat) s

/-- COMB_INT_EXPIRY (R217). -/
def execCombIntExpiry (c : BitVec 11) (s : State) : Host.Outcome State Fault Refusal := act (combClose c.toNat) s

/-- TOMB_TIME_EXPIRY (R196). -/
def execTombTimeExpiry (hp : BitVec 2) (comm : BitVec 32) (seq : BitVec 16) (s : State) : Host.Outcome State Fault Refusal :=
  plain (tombExpire hp.toNat comm seq) s

/-! ### Result mailboxes (R223 to R226) -/

/-- A write by function `f` to a mailbox's 16 bytes (R224 to R226). Whose mailbox it is is judged first (DEDUCED). -/
def mbxReleaseGo (f n : Nat) (off : BitVec 4) (bytes : BitVec 5) (v : BitVec 64) (s : State) : State :=
  if !mbxOwned n f s then violation 162 f 3 s
  else if off != 0 || bytes != 8 then ignored 137 s
  else
    let x := getMbx n s
    if x.state == .full && x.gen == v.extractLsb' 0 16 then putMbx n { x with state := .empty, gen := x.gen + 1 } s
    else ignored 137 s

/-- The write reaches the MBX, or is held while that is fenced (R389). -/
def mbxRelease (f n : Nat) (off : BitVec 4) (bytes : BitVec 5) (v : BitVec 64) (s : State) : State :=
  if unitFenced 137 s then holdReq (.mbxRel f n off.toNat bytes.toNat v) s else mbxReleaseGo f n off bytes v s

/-- MBX_RELEASE (R224 to R226), which is served in P2 too (R419). -/
def execMbxRelease (f : Fn) (n : BitVec 12) (off : BitVec 4) (bytes : BitVec 5) (v : BitVec 64) (s : State) :
    Host.Outcome State Fault Refusal :=
  act (hostWr f.toNat 137 true (mbxRelease f.toNat n.toNat off bytes v)) s

/-- A write of MBX_ALLOC (R223). -/
def writeMbxAlloc (n : Nat) (v : BitVec 64) (s : State) : State :=
  let off := Reg.MBX_ALLOC + 8 * n
  let x := getMbx n s
  if bits 12 0 v == rf off 12 0 s then s
  else if x.state != .empty then s
  else putMbx n { x with gen := x.gen + 1 } (writeReg off v s)

/-- MBX_ALLOC_WRITE (R223). -/
def execMbxAllocWrite (m : Master) (n : BitVec 12) (v : BitVec 64) (s : State) : Host.Outcome State Fault Refusal :=
  act (mgtWr m (cross 137 (regReq m (Reg.MBX_ALLOC + 8 * n.toNat) v) (writeMbxAlloc n.toNat v))) s

end Sys2Proof.Machine
end

