-- ==== Sys2Proof/Machine/Cores.lean ====
section
/-! DEFINITION. The meanings of the Taper instructions and of the other commands of the Taper clusters (08). -/

namespace Sys2Proof.Machine

/-! ### Arithmetic and logic (R236) -/

/-- ADD (R236): rd ← ra + rb. -/
def execTAdd (c : CoreId) (rd ra rb : WReg) (s : State) : Host.Outcome State Fault Refusal :=
  act (tprAlu c rd ra rb (fun x y => x + y)) s

/-- SUB (R236): rd ← ra − rb. -/
def execTSub (c : CoreId) (rd ra rb : WReg) (s : State) : Host.Outcome State Fault Refusal :=
  act (tprAlu c rd ra rb (fun x y => x - y)) s

/-- AND (R236): rd ← ra AND rb. -/
def execTAnd (c : CoreId) (rd ra rb : WReg) (s : State) : Host.Outcome State Fault Refusal :=
  act (tprAlu c rd ra rb (fun x y => x &&& y)) s

/-- OR (R236): rd ← ra OR rb. -/
def execTOr (c : CoreId) (rd ra rb : WReg) (s : State) : Host.Outcome State Fault Refusal :=
  act (tprAlu c rd ra rb (fun x y => x ||| y)) s

/-- XOR (R236): rd ← ra XOR rb. -/
def execTXor (c : CoreId) (rd ra rb : WReg) (s : State) : Host.Outcome State Fault Refusal :=
  act (tprAlu c rd ra rb (fun x y => x ^^^ y)) s

/-- SHL (R236): rd ← ra << rb[5:0]. -/
def execTShl (c : CoreId) (rd ra rb : WReg) (s : State) : Host.Outcome State Fault Refusal :=
  act (tprAlu c rd ra rb (fun x y => x <<< bits 5 0 y)) s

/-- SHR (R236): rd ← ra >> rb[5:0], logical. -/
def execTShr (c : CoreId) (rd ra rb : WReg) (s : State) : Host.Outcome State Fault Refusal :=
  act (tprAlu c rd ra rb (fun x y => x >>> bits 5 0 y)) s

/-- SAR (R236): rd ← ra >> rb[5:0], arithmetic. -/
def execTSar (c : CoreId) (rd ra rb : WReg) (s : State) : Host.Outcome State Fault Refusal :=
  act (tprAlu c rd ra rb (fun x y => x.sshiftRight (bits 5 0 y))) s

/-- MUL (R236): the low 64 bits of ra × rb. -/
def execTMul (c : CoreId) (rd ra rb : WReg) (s : State) : Host.Outcome State Fault Refusal :=
  act (tprAlu c rd ra rb (fun x y => x * y)) s

/-- MULHU (R236): the high 64 bits of ra × rb, unsigned. -/
def execTMulhu (c : CoreId) (rd ra rb : WReg) (s : State) : Host.Outcome State Fault Refusal :=
  act (tprAlu c rd ra rb (fun x y => BitVec.ofNat 64 (x.toNat * y.toNat / 2 ^ 64))) s

/-- SLT (R236): rd ← 1 if ra < rb signed, else 0. -/
def execTSlt (c : CoreId) (rd ra rb : WReg) (s : State) : Host.Outcome State Fault Refusal :=
  act (tprAlu c rd ra rb (fun x y => if x.toInt < y.toInt then 1 else 0)) s

/-- SLTU (R236): rd ← 1 if ra < rb unsigned, else 0. -/
def execTSltu (c : CoreId) (rd ra rb : WReg) (s : State) : Host.Outcome State Fault Refusal :=
  act (tprAlu c rd ra rb (fun x y => if x.toNat < y.toNat then 1 else 0)) s

/-- ADDI (R236): rd ← ra + sext(imm16). -/
def execTAddi (c : CoreId) (rd ra : WReg) (imm : BitVec 16) (s : State) : Host.Outcome State Fault Refusal :=
  act (tprImm c rd ra (fun x => x + sext imm)) s

/-- ANDI (R236): rd ← ra AND zext(imm16). -/
def execTAndi (c : CoreId) (rd ra : WReg) (imm : BitVec 16) (s : State) : Host.Outcome State Fault Refusal :=
  act (tprImm c rd ra (fun x => x &&& imm.setWidth 64)) s

/-- ORI (R236): rd ← ra OR zext(imm16). -/
def execTOri (c : CoreId) (rd ra : WReg) (imm : BitVec 16) (s : State) : Host.Outcome State Fault Refusal :=
  act (tprImm c rd ra (fun x => x ||| imm.setWidth 64)) s

/-- XORI (R236): rd ← ra XOR zext(imm16). -/
def execTXori (c : CoreId) (rd ra : WReg) (imm : BitVec 16) (s : State) : Host.Outcome State Fault Refusal :=
  act (tprImm c rd ra (fun x => x ^^^ imm.setWidth 64)) s

/-- SHLI (R236): rd ← ra << imm16[5:0]. -/
def execTShli (c : CoreId) (rd ra : WReg) (imm : BitVec 16) (s : State) : Host.Outcome State Fault Refusal :=
  act (tprShift c rd ra imm (fun x n => x <<< n)) s

/-- SHRI (R236): rd ← ra >> imm16[5:0], logical. -/
def execTShri (c : CoreId) (rd ra : WReg) (imm : BitVec 16) (s : State) : Host.Outcome State Fault Refusal :=
  act (tprShift c rd ra imm (fun x n => x >>> n)) s

/-- SARI (R236): rd ← ra >> imm16[5:0], arithmetic. -/
def execTSari (c : CoreId) (rd ra : WReg) (imm : BitVec 16) (s : State) : Host.Outcome State Fault Refusal :=
  act (tprShift c rd ra imm (fun x n => x.sshiftRight n)) s

/-- SLTI (R236): rd ← 1 if ra < sext(imm16) signed, else 0. -/
def execTSlti (c : CoreId) (rd ra : WReg) (imm : BitVec 16) (s : State) : Host.Outcome State Fault Refusal :=
  act (tprImm c rd ra (fun x => if x.toInt < (sext imm).toInt then 1 else 0)) s

/-- SLTIU (R236): rd ← 1 if ra < sext(imm16) unsigned, else 0. -/
def execTSltiu (c : CoreId) (rd ra : WReg) (imm : BitVec 16) (s : State) : Host.Outcome State Fault Refusal :=
  act (tprImm c rd ra (fun x => if x.toNat < (sext imm).toNat then 1 else 0)) s

/-- MOVZ (R236): rd ← imm16 << 16 × lane. -/
def execTMovz (c : CoreId) (rd : WReg) (lane : BitVec 2) (imm : BitVec 16) (s : State) : Host.Outcome State Fault Refusal :=
  act (tprRun c.toNat (fun a s =>
    writeW c.toNat a rd.toNat (imm.setWidth 64 <<< (16 * lane.toNat)) s)) s

/-- MOVK (R236): 16 bits of rd are replaced, the others kept. -/
def execTMovk (c : CoreId) (rd : WReg) (lane : BitVec 2) (imm : BitVec 16) (s : State) : Host.Outcome State Fault Refusal :=
  act (tprRun c.toNat (fun a s =>
    writeW c.toNat a rd.toNat
      (setBits (16 * lane.toNat + 15) (16 * lane.toNat) imm.toNat (a.getW rd.toNat)) s)) s

/-! ### Loads, stores and atomics (R231, R232, R236) -/

/-- LD (R236): rd ← 8 bytes at ra + sext(imm16), zero-extended. -/
def execTLd (c : CoreId) (rd ra : WReg) (imm : BitVec 16) (s : State) : Host.Outcome State Fault Refusal :=
  act (tprLoad c rd ra imm 8) s

/-- LW (R236): rd ← 4 bytes at ra + sext(imm16), zero-extended. -/
def execTLw (c : CoreId) (rd ra : WReg) (imm : BitVec 16) (s : State) : Host.Outcome State Fault Refusal :=
  act (tprLoad c rd ra imm 4) s

/-- LH (R236): rd ← 2 bytes at ra + sext(imm16), zero-extended. -/
def execTLh (c : CoreId) (rd ra : WReg) (imm : BitVec 16) (s : State) : Host.Outcome State Fault Refusal :=
  act (tprLoad c rd ra imm 2) s

/-- LB (R236): rd ← 1 byte at ra + sext(imm16), zero-extended. -/
def execTLb (c : CoreId) (rd ra : WReg) (imm : BitVec 16) (s : State) : Host.Outcome State Fault Refusal :=
  act (tprLoad c rd ra imm 1) s

/-- ST (R236): 8 bytes at ra + sext(imm16) ← rd. -/
def execTSt (c : CoreId) (rd ra : WReg) (imm : BitVec 16) (s : State) : Host.Outcome State Fault Refusal :=
  act (tprStore c rd ra imm 8) s

/-- SW (R236): 4 bytes at ra + sext(imm16) ← rd. -/
def execTSw (c : CoreId) (rd ra : WReg) (imm : BitVec 16) (s : State) : Host.Outcome State Fault Refusal :=
  act (tprStore c rd ra imm 4) s

/-- SH (R236): 2 bytes at ra + sext(imm16) ← rd. -/
def execTSh (c : CoreId) (rd ra : WReg) (imm : BitVec 16) (s : State) : Host.Outcome State Fault Refusal :=
  act (tprStore c rd ra imm 2) s

/-- SB (R236): 1 byte at ra + sext(imm16) ← rd. -/
def execTSb (c : CoreId) (rd ra : WReg) (imm : BitVec 16) (s : State) : Host.Outcome State Fault Refusal :=
  act (tprStore c rd ra imm 1) s

/-- AADD (R232, R236): rd ← old; memory ← old + rb. -/
def execTAadd (c : CoreId) (rd ra rb : WReg) (s : State) : Host.Outcome State Fault Refusal :=
  act (tprAtomic c rd ra (fun a old => old + a.getW rb.toNat)) s

/-- ASWP (R232, R236): rd ← old; memory ← rb. -/
def execTAswp (c : CoreId) (rd ra rb : WReg) (s : State) : Host.Outcome State Fault Refusal :=
  act (tprAtomic c rd ra (fun a _ => a.getW rb.toNat)) s

/-- ACAS (R232, R236): rd ← old; memory ← rb if it equals rd. -/
def execTAcas (c : CoreId) (rd ra rb : WReg) (s : State) : Host.Outcome State Fault Refusal :=
  act (tprAtomic c rd ra (fun a old => if old == a.getW rd.toNat then a.getW rb.toNat else old)) s

/-! ### Vectors (R236) -/

/-- VLD (R236): vd ← 64 bytes at ra + sext(imm12). -/
def execTVld (c : CoreId) (vd : VReg) (ra : WReg) (imm : BitVec 12) (s : State) : Host.Outcome State Fault Refusal :=
  act (tprRun c.toNat (fun a s =>
    tAccess c.toNat a (a.getW ra.toNat + sext imm) 64 false false (fun t s =>
      writeV c.toNat a vd.toNat (ofBytes 512 (tRead c.toNat t 64 s)) s) s)) s

/-- VST (R236): 64 bytes at ra + sext(imm12) ← vb. -/
def execTVst (c : CoreId) (vb : VReg) (ra : WReg) (imm : BitVec 12) (s : State) : Host.Outcome State Fault Refusal :=
  act (tprRun c.toNat (fun a s =>
    tAccess c.toNat a (a.getW ra.toNat + sext imm) 64 true false (fun t s =>
      setAct c.toNat a.next (tWrite c.toNat t (toBytes 64 (a.getV vb.toNat)) s)) s)) s

/-- VINS (R236): a lane of vd ← ra. -/
def execTVins (c : CoreId) (vd : VReg) (ra : WReg) (lane : BitVec 3) (s : State) : Host.Outcome State Fault Refusal :=
  act (tprRun c.toNat (fun a s =>
    writeV c.toNat a vd.toNat
      (setBits (64 * lane.toNat + 63) (64 * lane.toNat) (a.getW ra.toNat).toNat (a.getV vd.toNat)) s)) s

/-- VEXT (R236): rb ← a lane of vb. -/
def execTVext (c : CoreId) (rb : WReg) (vb : VReg) (lane : BitVec 3) (s : State) : Host.Outcome State Fault Refusal :=
  act (tprRun c.toNat (fun a s =>
    writeW c.toNat a rb.toNat ((a.getV vb.toNat).extractLsb' (64 * lane.toNat) 64) s)) s

/-- VMOV (R236): vd ← vb. -/
def execTVmov (c : CoreId) (vd vb : VReg) (s : State) : Host.Outcome State Fault Refusal :=
  act (tprRun c.toNat (fun a s => writeV c.toNat a vd.toNat (a.getV vb.toNat) s)) s

/-- VZERO (R236): vd ← 0. -/
def execTVzero (c : CoreId) (vd : VReg) (s : State) : Host.Outcome State Fault Refusal :=
  act (tprRun c.toNat (fun a s => writeV c.toNat a vd.toNat 0 s)) s

/-! ### Control flow (R236, R245) -/

/-- BEQ (R236): branch if ra = rb. -/
def execTBeq (c : CoreId) (ra rb : WReg) (off : BitVec 16) (s : State) : Host.Outcome State Fault Refusal :=
  act (tprBranch c ra rb off (fun x y => x == y)) s

/-- BNE (R236): branch if ra ≠ rb. -/
def execTBne (c : CoreId) (ra rb : WReg) (off : BitVec 16) (s : State) : Host.Outcome State Fault Refusal :=
  act (tprBranch c ra rb off (fun x y => x != y)) s

/-- BLT (R236): branch if ra < rb signed. -/
def execTBlt (c : CoreId) (ra rb : WReg) (off : BitVec 16) (s : State) : Host.Outcome State Fault Refusal :=
  act (tprBranch c ra rb off (fun x y => x.toInt < y.toInt)) s

/-- BGE (R236): branch if ra ≥ rb signed. -/
def execTBge (c : CoreId) (ra rb : WReg) (off : BitVec 16) (s : State) : Host.Outcome State Fault Refusal :=
  act (tprBranch c ra rb off (fun x y => y.toInt ≤ x.toInt)) s

/-- BLTU (R236): branch if ra < rb unsigned. -/
def execTBltu (c : CoreId) (ra rb : WReg) (off : BitVec 16) (s : State) : Host.Outcome State Fault Refusal :=
  act (tprBranch c ra rb off (fun x y => x.toNat < y.toNat)) s

/-- BGEU (R236): branch if ra ≥ rb unsigned. -/
def execTBgeu (c : CoreId) (ra rb : WReg) (off : BitVec 16) (s : State) : Host.Outcome State Fault Refusal :=
  act (tprBranch c ra rb off (fun x y => y.toNat ≤ x.toNat)) s

/-- JMP (R236). -/
def execTJmp (c : CoreId) (off : BitVec 24) (s : State) : Host.Outcome State Fault Refusal :=
  act (tprRun c.toNat (fun a s => tprJump c.toNat a (a.pc + 4 * sext off) s)) s

/-- CALL (R236): w15 ← PC + 4, and a jump. -/
def execTCall (c : CoreId) (off : BitVec 24) (s : State) : Host.Outcome State Fault Refusal :=
  act (tprRun c.toNat (fun a s => tprJump c.toNat (a.setW 15 (a.pc + 4)) (a.pc + 4 * sext off) s)) s

/-- JR (R236). -/
def execTJr (c : CoreId) (ra : WReg) (s : State) : Host.Outcome State Fault Refusal :=
  act (tprRun c.toNat (fun a s => tprJump c.toNat a (a.getW ra.toNat) s)) s

/-- RET (R245). -/
def execTRet (c : CoreId) (s : State) : Host.Outcome State Fault Refusal :=
  act (tprRun c.toNat (tprRet c.toNat)) s

/-- END (R245). -/
def execTEnd (c : CoreId) (s : State) : Host.Outcome State Fault Refusal :=
  act (tprRun c.toNat (tprEnd c.toNat endDesc)) s

/-- BRK (R236): TRAP, with imm16 on the event of R443. -/
def execTBrk (c : CoreId) (imm : BitVec 16) (s : State) : Host.Outcome State Fault Refusal :=
  act (tprRun c.toNat (fun a s => tprExc c.toNat a Tf.trap (evcPulse 216 (bits 11 0 imm) s))) s

/-! ### Events, time and system values (R237, R247, R248) -/

/-- WAITEV (R247). -/
def execTWaitev (c : CoreId) (rd : WReg) (imm : BitVec 16) (s : State) : Host.Outcome State Fault Refusal :=
  act (tprRun c.toNat (tprWaitev c.toNat rd.toNat imm)) s

/-- POLLEV (R247). -/
def execTPollev (c : CoreId) (rd : WReg) (imm : BitVec 16) (s : State) : Host.Outcome State Fault Refusal :=
  act (tprRun c.toNat (tprPollev c.toNat rd.toNat imm)) s

/-- TIMER (R247). -/
def execTTimer (c : CoreId) (ra : WReg) (s : State) : Host.Outcome State Fault Refusal :=
  act (tprRun c.toNat (fun a s => tprTimer c.toNat (a.getW ra.toNat) a s)) s

/-- RDTIME (R236): rd ← GTIME. -/
def execTRdtime (c : CoreId) (rd : WReg) (s : State) : Host.Outcome State Fault Refusal :=
  act (tprRun c.toNat (fun a s => writeW c.toNat a rd.toNat s.gtime s)) s

/-- SYS (R237). -/
def execTSys (c : CoreId) (rd : WReg) (imm : BitVec 16) (s : State) : Host.Outcome State Fault Refusal :=
  act (tprRun c.toNat (fun a s =>
    match sysValue c.toNat a imm.toNat s with
    | some v => writeW c.toNat a rd.toNat v s
    | none => tprExc c.toNat a Tf.illegal s)) s

/-! ### Objects (R254) -/

/-- CRD (R254). imm12 is not sign-extended (DEDUCED: R236 writes sext where it extends). -/
def execTCrd (c : CoreId) (vd : VReg) (ra : WReg) (imm : BitVec 12) (s : State) : Host.Outcome State Fault Refusal :=
  act (tprRun c.toNat (fun a s => tprCrd c.toNat vd.toNat (a.getW ra.toNat + imm.setWidth 64) a s)) s

/-- CWR (R254). -/
def execTCwr (c : CoreId) (vb : VReg) (ra : WReg) (imm : BitVec 12) (s : State) : Host.Outcome State Fault Refusal :=
  act (tprRun c.toNat (fun a s =>
    tprCwr c.toNat (a.getV vb.toNat) (a.getW ra.toNat + imm.setWidth 64) a s)) s

/-- CCPY (R254). -/
def execTCcpy (c : CoreId) (rd ra rb : WReg) (s : State) : Host.Outcome State Fault Refusal :=
  act (tprRun c.toNat (fun a s =>
    tprCcpy c.toNat (a.getW rd.toNat) (a.getW ra.toNat) (a.getW rb.toNat) a s)) s

/-- CFREE (R254, R255). -/
def execTCfree (c : CoreId) (s : State) : Host.Outcome State Fault Refusal :=
  act (tprRun c.toNat (tprCfree c.toNat)) s

/-! ### Operations on the device (R249 to R260) -/

/-- COLOP (R249, R250). -/
def execTColop (c : CoreId) (vb : VReg) (s : State) : Host.Outcome State Fault Refusal :=
  act (tprRun c.toNat (fun a s => tprColop c.toNat (a.getV vb.toNat) a s)) s

/-- MSG (R257, R258). -/
def execTMsg (c : CoreId) (vb : VReg) (s : State) : Host.Outcome State Fault Refusal :=
  act (tprRun c.toNat (fun a s => tprMsg c.toNat (a.getV vb.toNat) a s)) s

/-- HXFER (R251). -/
def execTHxfer (c : CoreId) (vb : VReg) (s : State) : Host.Outcome State Fault Refusal :=
  act (tprRun c.toNat (fun a s => tprHxfer c.toNat (a.getV vb.toNat) a s)) s

/-- MBXPUT (R252). -/
def execTMbxput (c : CoreId) (rd ra rb : WReg) (s : State) : Host.Outcome State Fault Refusal :=
  act (tprRun c.toNat (fun a s =>
    tprMbxput c.toNat rd.toNat (a.getW ra.toNat) (a.getW rb.toNat) a s)) s

/-- SEMACQ (R253, R373). -/
def execTSemacq (c : CoreId) (rd ra : WReg) (s : State) : Host.Outcome State Fault Refusal :=
  act (tprRun c.toNat (fun a s => tprSemacq c.toNat rd.toNat (a.getW ra.toNat) a s)) s

/-- SEMREL (R253, R370). -/
def execTSemrel (c : CoreId) (ra : WReg) (s : State) : Host.Outcome State Fault Refusal :=
  act (tprRun c.toNat (fun a s => tprSemrel c.toNat (a.getW ra.toNat) a s)) s

/-- NOTE (R256). -/
def execTNote (c : CoreId) (vb : VReg) (rb : WReg) (s : State) : Host.Outcome State Fault Refusal :=
  act (tprRun c.toNat (fun a s => tprNote c.toNat rb.toNat (a.getV vb.toNat) a s)) s

/-- A word that is no instruction raises ILLEGAL (R236); a word that is one has its own command. -/
def execIllegalOpcode (c : CoreId) (word : BitVec 32) (s : State) : Host.Outcome State Fault Refusal :=
  act (fun s =>
    if (taperDecode c word).isSome then s else tprRun c.toNat (fun a s => tprExc c.toNat a Tf.illegal s) s) s

/-! ### What comes to the clusters (R244 to R247, R251, R257 to R259, R268) -/

/-- HXFER_COMPLETE (R251). -/
def execHxferComplete (id : BitVec 32) (d : ReadResult) (s : State) : Host.Outcome State Fault Refusal :=
  act (hxferData id.toNat d) s

/-- TMSG (R258, R259). -/
def execTmsg (p : Packet) (s : State) : Host.Outcome State Fault Refusal :=
  act (fun s => if p.op == 0x30 then tmsgCome p s else s) s

/-- TMSG_ACK (R258). -/
def execTmsgAck (p : Packet) (s : State) : Host.Outcome State Fault Refusal :=
  act (fun s => if p.op == 0x31 then tmsgAcked p s else s) s

/-- TM_RTO_EXPIRY (R258). -/
def execTmRtoExpiry (psn : BitVec 32) (s : State) : Host.Outcome State Fault Refusal :=
  act (tmsgResend psn) s

/-- ACCEPTANCE_ENTRY_EXPIRY (R259). -/
def execAcceptanceEntryExpiry (chip : BitVec 15) (psn : BitVec 32) (s : State) : Host.Outcome State Fault Refusal :=
  act (acceptExpire chip.toNat psn) s

/-- TIMER_EXPIRY (R247). -/
def execTimerExpiry (c : CoreId) (inv : BitVec 32) (s : State) : Host.Outcome State Fault Refusal :=
  act (timerExpire c.toNat inv.toNat) s

/-- WATCHDOG_EXPIRY (R246). -/
def execWatchdogExpiry (c : CoreId) (s : State) : Host.Outcome State Fault Refusal :=
  act (tprWatchdog c.toNat) s

/-- ACTIVATION_DISPATCH (R243, R244). -/
def execActivationDispatch (cluster : BitVec 4) (s : State) : Host.Outcome State Fault Refusal :=
  act (dispatch cluster.toNat) s

/-- TPR_UNFREEZE (R268). -/
def execTprUnfreeze (m : Master) (v : BitVec 32) (s : State) : Host.Outcome State Fault Refusal :=
  act (mgtWrOff m (cross 48 (regReq m Reg.TPR_UNFREEZE (v.setWidth 64)) (progUnfreeze (bits 9 0 v)))) s

end Sys2Proof.Machine
end

