-- ==== Sys2Proof/Machine/Routes.lean ====
section
/-! DEFINITION. The meanings of the switch core's commands (09): route decisions, XBR_CHIP, the routing tables, management packets. -/

namespace Sys2Proof.Machine

/-! ### Route decisions (R281 to R288, R295) -/

/-- The packet at the head of an input VC. -/
def inputHead (inp idx : Nat) (s : State) : Option InPkt := s.xbr.inq.find? (fun i => i.inp == inp && i.idx == idx)

/-- The packet that is decided next for an input VC: one in the acknowledgement lane of a COL VC comes before the VC's queue (R294). -/
def nextIn (inp idx : Nat) (s : State) : Option InPkt :=
  if 18 ≤ idx && idx < 24 then (inputHead inp (idx + 8) s).orElse (fun _ => inputHead inp idx s) else inputHead inp idx s

/-- RATE_MAX of a destination is the rate of the port by which its packets' first hop leaves (R156): that of the packet that has
just joined an egress queue, beyond the `n` there before. -/
def noteRate (n : Nat) (i : InPkt) (s : State) : State :=
  match (s.xbr.egq.drop n).getLast? with
  | some e =>
    if 128 ≤ i.inp && i.inp < 136 && i.pkt.op.toNat ≤ 7 && i.pkt.cls.toNat ≤ 1 then
      let r : Rat := 800 / (max 1 (portScale e.port s) : Nat)
      modDest ((i.inp - 128) / 2) i.pkt.dstEp (fun d => { d with rateMax := r, rate := min d.rate r }) s
    else s
  | none => s

/-- The switch core begins a packet of an input: its staging queue now gives it, and says until when (R165). -/
def begun (i : InPkt) (s : State) : InPkt × State :=
  let (k, n) : StgKind × Nat := if i.inp < 128 then (.lrx, i.inp) else (.txi, i.inp - 128)
  let q := stgNow k n s
  match q.pkts.find? (fun e => i.ser != 0 && e.id == i.ser) with
  | some e => ({ i with since := e.begins, till := e.till }, putStg k n q s)
  | none => (i, s)

/-- The decision for the head of an input VC, when the switch core has begun it (R165). An attachment's packets wait while the chip ID is
not set (R276) or there is no cell for them (R15), and so do those of the device's own units, whose port is chosen. A CADD that finds no combining slot waits (R218), and a CADD_ACK, which makes one
hop, has come to its device. -/
def routeHead (inp idx : Nat) (s : State) : State :=
  match nextIn inp idx s with
  | none => s
  | some i =>
    if ingressWaits i s then s
    else
      let (i', s) := begun i s
      let s := advanceTo i'.since s
      let t := withXbr (fun x => { x with inq := x.inq.erase i }) s
      let i := i'
      if let some out := i.out then ownOut out i t
      else if i.pkt.op == 0x24 then
        match caddCome inp i.pkt t with
        | (true, t) => creditBack i t
        | (false, _) => s
      else if i.pkt.op == 0x25 then deliver i t
      else noteRate t.xbr.egq.length i (routePacket i t)

/-- ROUTE_DECISION (R282). -/
def execRouteDecision (inp : Input) (idx : BitVec 5) (s : State) : Host.Outcome State Fault Refusal :=
  act (routeHead inp.toNat idx.toNat) s

/-! ### XBR_CHIP (R276) -/

/-- Every queued packet but MGT_LOCAL is discarded and counted. -/
def discardQueued (s : State) : State :=
  let stays (p : Packet) : Bool := p.op == 0x40
  let ins := s.xbr.inq.filter (fun i => !stays i.pkt)
  let outs := s.xbr.egq.filter (fun e => !stays e.pkt)
  let s := withXbr (fun x => { x with
    inq := x.inq.filter (fun i => stays i.pkt), egq := x.egq.filter (fun e => stays e.pkt) }) s
  (ins ++ outs.map (·.src)).foldl (fun s i => creditBack i (xbrDrop s)) s

/-- A write of XBR_CHIP: GROUP, ROW and COL stay while VALID is 1. The timers of the TXE run again from the moment it is set (R490). -/
def writeChip (v : BitVec 64) (s : State) : State :=
  if chipValid s then
    if bit 31 v then s else discardQueued (setRf Reg.XBR_CHIP 31 31 0 s)
  else writeReg Reg.XBR_CHIP v (if bit 31 v then withXbr (fun x => { x with since := s.now }) s else s)

/-- XBR_CHIP_WRITE (R276). -/
def execXbrChipWrite (m : Master) (v : BitVec 32) (s : State) : Host.Outcome State Fault Refusal :=
  act (mgtWrOff m (cross 0 (regReq m Reg.XBR_CHIP (v.setWidth 64)) (writeChip (v.setWidth 64)))) s

/-! ### Routing tables (R273, R277 to R279, R289, R293, R295, R302) -/

/-- Is a write of XBR_PORT[p] rejected (R302)? -/
def portRejected (p : Nat) (v : BitVec 64) (s : State) : Bool :=
  let role := bits 10 8 v
  let peer := bits 6 0 v
  if 124 ≤ p then
    5 ≤ role || (role == 1 && (15 < peer || peer == chipCol s)) || (role == 2 && (15 < peer || peer == chipRow s)) ||
      (role == 3 && peer == chipGroup s)
  else
    role != portRole p s ||
      (if portRole p s == 3 then peer == chipGroup s else peer != portPeer p s)

/-- A write of XBR_PORT[p] that is not rejected; packets queued for a port that is no longer usable are decided again (R299). -/
def writePort (p : Nat) (v : BitVec 64) (s : State) : State :=
  let off := Reg.XBR_PORT + 8 * p
  let s' := setRf off 16 16 (bits 16 16 v) s
  let s' := if 124 ≤ p then setRf off 10 8 (bits 10 8 v) s' else s'
  let s' := if 124 ≤ p || portRole p s == 3 then setRf off 6 0 (bits 6 0 v) s' else s'
  if portUsable p s && !portUsable p s' then redecide p s' else s'

/-- A rejected write (R302). -/
def xbrReject (off : Nat) (s : State) : State :=
  evcPulse 220 0 (setRf Reg.XBR_STATUS 31 16 off (setRf Reg.XBR_STATUS 0 0 1 s))

/-- A write of a register of the switch core other than XBR_CHIP. -/
def writeXbr (off : Nat) (v : BitVec 64) (s : State) : State :=
  match regFind false off with
  | none => s
  | some d =>
    let n := d.index off
    if d.base == Reg.XBR_PORT then if portRejected n v s then xbrReject off s else writePort n v s
    else if d.base == Reg.XBR_SCH then
      let role := portRole (bits 6 0 v) s
      if bit 7 v && (role == 0 || role == 4) then xbrReject off s else writeReg off v s
    else if d.base == Reg.XBR_GW then if n / 4 == chipGroup s && v != 0 then xbrReject off s else writeReg off v s
    else if d.base == Reg.XBR_VCMIN then if chipValid s then s else writeReg off v s
    else if d.base == Reg.XBR_ROUTE || d.base == Reg.XBR_STATUS || d.base == Reg.XBR_GRPVALID || d.base == Reg.XBR_NBR_ROW ||
      d.base == Reg.XBR_NBR_COL then writeReg off v s
    else s

/-- XBR_CONFIG_WRITE (R302). -/
def execXbrConfigWrite (m : Master) (off : BitVec 28) (v : BitVec 64) (s : State) : Host.Outcome State Fault Refusal :=
  act (mgtWrOff m (cross 0 (regReq m off.toNat v) (writeXbr off.toNat v))) s

/-! ### Management packets (R296) -/

/-- A management packet has come to the MGT: a damaged one is discarded and counted. -/
def mgtTake (inp : Nat) (p : Packet) (s : State) : State :=
  if e2eCrc p != p.crc then ignored 141 s else emit (.mgtPacket inp p) s

/-- MGT_LOCAL (R296). -/
def execMgtLocal (p : Port) (pkt : Packet) (s : State) : Host.Outcome State Fault Refusal :=
  act (fun s => if pkt.op == 0x40 && portUp p.toNat s then mgtTake p.toNat pkt s else s) s

/-- The device's own MGT sends a MGT_LOCAL packet: one hop on the port that it names, whatever EN, ROLE and XBR_CHIP.VALID hold. It
names the port in VIA_GROUP, which is zero on the wire (DESIGN CHOICE); on a port that is not up the packet is discarded and counted. -/
def mgtSend (p : Packet) (s : State) : State :=
  let out := p.viaGroup.toNat
  let q := sealCrc { p with viaGroup := 0, nonmin := false, hops := 1, cls := 5 }
  if portUp out s then sendOwn 2 0 q out s else xbrDrop s

/-- A management packet for a device comes on an input (R276, R288, R296): handed over at its chip, and sent on by the fixed route
elsewhere. While the chip ID is not set, one that a port brings is discarded and one from an attachment waits, as it does for a cell; and a SERVICE or UNUSED
port brings none (R274). -/
def mgtRoute (inp : Nat) (pkt : Packet) (s : State) : State :=
  if inp < 128 && (portRole inp s == 0 || portRole inp s == 4) then xbrDrop s
  else if inp < 128 && !chipValid s then xbrDrop s
  else
    let i := newIn inp 25 0 pkt s
    enter i (fun s => if pkt.dstEp.toNat / 4 == chipId s then mgtTake inp pkt s else routePacket i s) s

/-- MGT_ROUTED (R288, R296), and what the device's own MGT sends (input 184), a MGT_LOCAL packet among it. -/
def execMgtRouted (inp : Input) (pkt : Packet) (s : State) : Host.Outcome State Fault Refusal :=
  act (fun s =>
    if pkt.op == 0x41 then mgtRoute inp.toNat pkt s
    else if pkt.op == 0x40 && inp == 184 then mgtSend pkt s
    else s) s

/-- MGT_WAIT_EXPIRY (R296): the MGT packet of a port that has waited longest for credit is discarded. -/
def execMgtWaitExpiry (p : Port) (s : State) : Host.Outcome State Fault Refusal :=
  act (fun s =>
    match s.xbr.egq.find? (fun e => e.port == p.toNat && e.pkt.cls == 5) with
    | none => s
    | some e =>
      let s := advanceTo (e.since + us (nz (rf Reg.XBR_ROUTE 63 48 s))) s
      creditBack e.src (xbrDrop (withXbr (fun x => { x with egq := x.egq.erase e }) s))) s

end Sys2Proof.Machine
end

