-- ==== Sys2Proof/Machine/Links.lean ====
section
/-! DEFINITION. The meanings of Itzor Link's commands (10) and of the egress selection (11: R342). -/

namespace Sys2Proof.Machine

/-! ### Bring-up (R305 to R308) -/

/-- SIGNAL_DETECT (R308): any lane's signal starts the negotiation. -/
def execSignalDetect (p : Port) (_lane : BitVec 2) (s : State) : Host.Outcome State Fault Refusal :=
  act (fun s => tryStart p.toNat (modLink p.toNat (fun l => { l with signal := true }) s)) s

/-- CAPABILITY_PAGE (R306, R307). -/
def execCapabilityPage (p : Port) (lane : BitVec 2) (raw : BitVec 64) (s : State) : Host.Outcome State Fault Refusal :=
  act (pageCome p.toNat lane.toNat raw) s

/-- PAGE_SEND_TIMER (R305): a page goes out on every allowed lane. -/
def execPageSendTimer (p : Port) (s : State) : Host.Outcome State Fault Refusal :=
  act (fun s =>
    if lstate p.toNat s != 1 then s
    else (lanesOf (adv p.toNat 3 0 s)).foldl (fun s i => emit (.page p.toNat i (ownPage p.toNat i s)) s) s) s

/-- A step of bring-up has exceeded its limit (R308): time has gone on to that limit. In PAGES the lanes that are not connected
fail. -/
def bringupLate (p lanes : Nat) (s : State) : State :=
  let s := match (getLink p s).stepDue with
    | some t => if 1 ≤ lstate p s && lstate p s ≤ 4 then advanceTo t s else s
    | none => s
  match lstate p s with
  | 1 =>
    if (getLink p s).pages.isEmpty then s
    else attemptFails p 4 (Nat.land (adv p 3 0 s) (15 - connectedMask (getLink p s))) s
  | 2 => attemptFails p 5 lanes s
  | 3 => attemptFails p 6 lanes s
  | 4 => attemptFails p 7 0 s
  | _ => s

/-- BRINGUP_TIMEOUT (R308). -/
def execBringupTimeout (p : Port) (lanes : BitVec 4) (s : State) : Host.Outcome State Fault Refusal :=
  act (bringupLate p.toNat lanes.toNat) s

/-- TRAINING_COMPLETE (R304, R308): `lanes` have trained; `low` says that every lane's error ratio allows LL. A lane in use that has
not trained fails the attempt. -/
def execTrainingComplete (p : Port) (lanes : BitVec 4) (low : Bool) (s : State) : Host.Outcome State Fault Refusal :=
  act (fun s =>
    if lstate p.toNat s != 2 then s
    else
      let used := lstat p.toNat 39 36 s
      let left := used - Nat.land used lanes.toNat
      if left != 0 then attemptFails p.toNat 5 left s
      else stepLimit p.toNat 1000 (setLstate p.toNat 3 (modLink p.toNat (fun l => { l with llOk := low }) s))) s

/-- ALIGNMENT_COMPLETE (R308). -/
def execAlignmentComplete (p : Port) (s : State) : Host.Outcome State Fault Refusal :=
  act (fun s => if lstate p.toNat s == 3 then linkInit p.toNat s else s) s

/-- HOLD or DOWN_HOLD is over: negotiation starts again while ADMIN_UP is set. -/
def holdOver (p : Nat) (down : Bool) (s : State) : State :=
  let l := getLink p s
  if lstate p s == 7 && l.downHold == down then
    tryStart p (setLstate p 0 (modLink p (fun l => { l with downHold := false }) (advanceTo l.holdDue s)))
  else s

/-- HOLD_EXPIRY (R308). -/
def execHoldExpiry (p : Port) (s : State) : Host.Outcome State Fault Refusal := act (holdOver p.toNat false) s

/-- DOWN_HOLD_EXPIRY (R315). -/
def execDownHoldExpiry (p : Port) (s : State) : Host.Outcome State Fault Refusal := act (holdOver p.toNat true) s

/-! ### Frames (R309 to R315) -/

/-- DATA_FRAME (R311, R315). -/
def execDataFrame (p : Port) (fr : DataFrame) (s : State) : Host.Outcome State Fault Refusal := act (frameCome p.toNat fr) s

/-- A control frame of a type comes; its body goes to `k` if it is valid. -/
def controlRow (p : Port) (ct : Nat) (raw : BitVec 256) (bad : Bool) (k : Nat → Nat → State → State) (s : State) :
    Host.Outcome State Fault Refusal :=
  act (fun s =>
    match controlCome p.toNat ct raw bad s with
    | (some body, s) => k p.toNat body s
    | (none, s) => s) s

/-- IDLE (R310). -/
def execIdle (p : Port) (raw : BitVec 256) (bad : Bool) (s : State) : Host.Outcome State Fault Refusal :=
  controlRow p 0 raw bad (fun _ _ s => s) s

/-- CREDIT (R312). -/
def execCredit (p : Port) (raw : BitVec 256) (bad : Bool) (s : State) : Host.Outcome State Fault Refusal :=
  controlRow p 1 raw bad creditCome s

/-- RETRY_REQ (R314, R315). -/
def execRetryReq (p : Port) (raw : BitVec 256) (bad : Bool) (s : State) : Host.Outcome State Fault Refusal :=
  controlRow p 2 raw bad (fun p _ s => replayFrom p (bits 247 236 raw % seqMod p s) s) s

/-- TS_REQ (R319). -/
def execTsReq (p : Port) (raw : BitVec 256) (bad : Bool) (s : State) : Host.Outcome State Fault Refusal :=
  controlRow p 3 raw bad tsAnswer s

/-- TS_RESP (R320, R321). -/
def execTsResp (p : Port) (raw : BitVec 256) (bad : Bool) (s : State) : Host.Outcome State Fault Refusal :=
  controlRow p 4 raw bad tsCome s

/-- RECONFIG (R316, R317). -/
def execReconfig (p : Port) (raw : BitVec 256) (bad : Bool) (s : State) : Host.Outcome State Fault Refusal :=
  controlRow p 5 raw bad answerReconf s

/-- RECONFIG_ACK (R317). -/
def execReconfigAck (p : Port) (raw : BitVec 256) (bad : Bool) (s : State) : Host.Outcome State Fault Refusal :=
  controlRow p 6 raw bad reconfAcked s

/-- CONTROL_FRAME_TIMER (R311): a control frame at least every microsecond; IDLE. -/
def execControlFrameTimer (p : Port) (s : State) : Host.Outcome State Fault Refusal :=
  act (fun s => if linkLive p.toNat s then sendControl p.toNat 0 0 s else s) s

/-- CREDIT_REFRESH (R313): the next six indices that the port uses, in rotation. -/
def execCreditRefresh (p : Port) (s : State) : Host.Outcome State Fault Refusal :=
  act (fun s =>
    if !linkLive p.toNat s then s
    else
      let is := usedIdx p.toNat s
      let r := (getLink p.toNat s).rot % max 1 is.length
      sendCredit p.toNat ((is.drop r ++ is.take r).take 6) (modLink p.toNat (fun l => { l with rot := r + 6 }) s)) s

/-- RETRY_TO_EXPIRY (R315): the RETRY_REQ is repeated while its replay has not come. -/
def execRetryToExpiry (p : Port) (s : State) : Host.Outcome State Fault Refusal :=
  act (fun s =>
    let l := getLink p.toNat s
    if linkLive p.toNat s && l.rxWait then askReplay p.toNat (advanceTo l.retryDue s) else s) s

/-- LINK_TO_EXPIRY (R315): no valid control frame for LINK_TO. -/
def execLinkToExpiry (p : Port) (s : State) : Host.Outcome State Fault Refusal :=
  act (fun s =>
    if linkLive p.toNat s then
      linkDown p.toNat (advanceTo ((getLink p.toNat s).lastCtl + us (nz (rf Reg.LNK_CFG 39 32 s))) s)
    else s) s

/-- EGRESS_SELECT (R341, R342). -/
def execEgressSelect (p : Port) (s : State) : Host.Outcome State Fault Refusal := act (egressSelect p.toNat) s

/-! ### Lanes in service (R316 to R318, R323) -/

/-- LANE_LOCK_LOSS (R316). -/
def execLaneLockLoss (p : Port) (lane : BitVec 2) (s : State) : Host.Outcome State Fault Refusal :=
  act (laneFails p.toNat lane.toNat) s

/-- LANE_ERROR_THRESHOLD (R316): a lane that corrects more than LANE_ERR_MAX symbols in a ms leaves service. -/
def execLaneErrorThreshold (p : Port) (lane : LaneCount) (s : State) : Host.Outcome State Fault Refusal :=
  act (fun s => if nz (rf Reg.LNK_CFG2 31 16 s) < lane.count.toNat then laneFails p.toNat lane.lane.toNat s else s) s

/-- LL_UNCORR_THRESHOLD (R316): a port that sees more than LL_UNCORR_MAX uncorrectable codewords in a second leaves LL. -/
def execLlUncorrThreshold (p : PortCount) (s : State) : Host.Outcome State Fault Refusal :=
  act (fun s =>
    if lstat p.port.toNat 23 23 s == 1 && nz (rf Reg.LNK_CFG2 15 8 s) < p.count.toNat then startReconf p.port.toNat false s else s) s

/-- RECONFIG_RESEND (R316): 100 ns after the last. -/
def execReconfigResend (p : Port) (s : State) : Host.Outcome State Fault Refusal :=
  act (fun s =>
    match (getLink p.toNat s).rc with
    | some r => sendReconf p.toNat (advanceTo (r.sentAt + 1600) s)
    | none => s) s

/-- RECONFIG_TIMEOUT (R317): no RECONFIG_ACK within 50 µs. -/
def execReconfigTimeout (p : Port) (s : State) : Host.Outcome State Fault Refusal :=
  act (fun s =>
    match (getLink p.toNat s).rc with
    | some r => linkDown p.toNat (advanceTo (r.since + us 50) s)
    | none => s) s

/-- Lanes out of service that may be retrained. -/
def spareLanes (p : Nat) (s : State) : Nat := adv p 3 0 s - Nat.land (adv p 3 0 s) (lstat p 39 36 s)

/-- Background training of the lanes out of service begins, under IZL-3 (R318). -/
def startRetrain (p : Nat) (s : State) : State :=
  if linkLive p s && izl3 p s && spareLanes p s != 0 then
    modLink p (fun l => { l with retrain := BitVec.ofNat 4 (spareLanes p s) }) s
  else s

/-- LANE_RETRAIN (R318). An attempt that management has started, and that has not ended, ends with it (R325). -/
def execLaneRetrain (p : Port) (s : State) : Host.Outcome State Fault Refusal :=
  act (fun s => startRetrain p.toNat (setRf (Reg.LNK_CTRL + 8 * p.toNat) 2 2 0 s)) s

/-- A retrained lane is fit again (R316, R318): it counts as healthy, and if a wider set results that is proposed. The attempt of
LNK_CTRL.RESTORE ends when no lane is in training any more (R325). -/
def laneFit (p lane : Nat) (s : State) : State :=
  let l := getLink p s
  if !bit lane l.retrain then s
  else
    let l := { l with
      healthy := setBits lane lane 1 l.healthy, usable := setBits lane lane 1 l.usable, retrain := setBits lane lane 0 l.retrain }
    let s := putLink p l s
    let s := if l.retrain == 0 then setRf (Reg.LNK_CTRL + 8 * p) 2 2 0 s else s
    if widestLanes p l.usable.toNat s == lstat p 39 36 s then s else startReconf p (lstat p 23 23 s == 1) s

/-- LANE_RESTORE_QUALIFIED (R318): the lane has run 100 ms with fewer than LANE_ERR_MAX / 10 corrected symbols in each. -/
def execLaneRestoreQualified (p : Port) (lane : LaneCount) (s : State) : Host.Outcome State Fault Refusal :=
  act (fun s => if 10 * lane.count.toNat < nz (rf Reg.LNK_CFG2 31 16 s) then laneFit p.toNat lane.lane.toNat s else s) s

/-! ### Timestamps and commands of management (R319, R325) -/

/-- TS_INTERVAL_EXPIRY (R319), in LINKINIT too, where a lost exchange is started again. An exchange that has not ended is given up. -/
def execTsIntervalExpiry (p : Port) (s : State) : Host.Outcome State Fault Refusal :=
  act (fun s =>
    if linkLive p.toNat s && lstat p.toNat 21 20 s != 0 then startTs p.toNat (advanceTo (getLink p.toNat s).tsDue s) else s) s

/-- LINK_RESTORE (R318, R325). -/
def execLinkRestore (m : Master) (p : Port) (s : State) : Host.Outcome State Fault Refusal :=
  act (mgtWrOff m (fun s =>
    if linkLive p.toNat s && izl3 p.toNat s && spareLanes p.toNat s != 0 then
      startRetrain p.toNat (setRf (Reg.LNK_CTRL + 8 * p.toNat) 2 2 1 s)
    else s)) s

/-- The link is taken down and negotiates again (R325): RENEG reads 1 until step 1 begins. -/
def reneg (p : Nat) (s : State) : State :=
  let s := setRf (Reg.LNK_CTRL + 8 * p) 1 1 1 s
  if lstate p s == 0 || lstate p s == 7 then s else linkDown p s

/-- LINK_RENEG (R325). -/
def execLinkReneg (m : Master) (p : Port) (s : State) : Host.Outcome State Fault Refusal := act (mgtWrOff m (reneg p.toNat)) s

/-- ADMIN_UP_SET (R325). -/
def execAdminUpSet (m : Master) (p : Port) (s : State) : Host.Outcome State Fault Refusal :=
  act (mgtWrOff m (fun s => tryStart p.toNat (setRf (Reg.LNK_CTRL + 8 * p.toNat) 0 0 1 s))) s

/-- ADMIN_UP is cleared: the port goes down and sends nothing (R325). A RENEG that waits still reads 1. -/
def adminDown (p : Nat) (s : State) : State :=
  let s := setRf (Reg.LNK_CTRL + 8 * p) 2 2 0 (setRf (Reg.LNK_CTRL + 8 * p) 0 0 0 s)
  modLink p (fun l => { l with tries := 0, downHold := false }) (setLstate p 0 (linkDown p s))

/-- ADMIN_UP_CLEAR (R325). -/
def execAdminUpClear (m : Master) (p : Port) (s : State) : Host.Outcome State Fault Refusal := act (mgtWrOff m (adminDown p.toNat)) s

end Sys2Proof.Machine
end

