-- ==== Sys2Proof/Machine/Times.lean ====
section
/-! DEFINITION. The meanings of the time unit's and the Lamplighter's commands (11): the servo, loads, gate lists, demotions and
histograms. -/

namespace Sys2Proof.Machine

def withTmu (f : Tmu → Tmu) (s : State) : State := { s with tmu := f s.tmu }

/-- Counted on IGNORED of the TMU, and of the LLT. -/
def tmuIgnored (s : State) : State := ignored 135 s
def lltIgnored (s : State) : State := ignored 134 s

/-! ### STATE and the servo (R334 to R337) -/

def tmuState (s : State) : Nat := rf Reg.TMU_STAT 1 0 s
def tmuMode (s : State) : Nat := rf Reg.TMU_CTRL 1 0 s
def everLocked (s : State) : Bool := rf Reg.TMU_STAT 7 7 s == 1

/-- TMU_STAT.STATE takes a value: a change is counted (R337), HOLDOVER notes when it began, and a device that leaves LOCKED for
another state than HOLDOVER leaves its ports unscheduled at once (R354, R355). -/
def setTmuState (x : Nat) (s : State) : State :=
  if tmuState s == x then s
  else
    let s := evcPulse 230 0 (setRf Reg.TMU_STAT 1 0 x s)
    demoteUnscheduled (withTmu (fun t => { t with holdSince := if x == 3 then some s.now else none }) s)

/-- Expired entries of the gate lists lose VALID (R351). -/
def clearExpired (s : State) : State :=
  let ep := (epochAt s.gtime.toNat s).map (·.1)
  { s with regs := s.regs.map (fun (kv : Nat × BitVec 64) =>
      if Reg.LLT_GCL ≤ kv.1 && kv.1 < Reg.LLT_GCL + 4096 * 128 && kv.1 % 16 == 0 && bit 63 kv.2 &&
          gclCond kv.2 ep == .expired
      then (kv.1, setBits 63 63 0 kv.2) else kv) }

/-- GTIME steps by `e` units (R331); entries whose range the step passes expire. -/
def gtimeStep (e : Int) (s : State) : State :=
  clearExpired { s with gtime := BitVec.ofInt 64 (s.gtime.toNat + e), tmu := { s.tmu with slewLeft := 0 } }

/-- T of R336, in ns. -/
def servoT (s : State) : Nat := if tmuMode s == 1 then 1000 * nz (rf Reg.TMU_CFG 63 48 s) else 1000000000

/-- The slew limit of one run: 200 ppm (R336). -/
def servoLim (t : Nat) : Int := 200 * t * 16 / 1000000

/-- A correction is clamped and spread evenly over the next run, which takes no fraction over from the run before (R336). -/
def slewEvenly (d : Int) (s : State) : State :=
  let t := servoT s
  let lim := servoLim t
  withTmu (fun u => { u with slew := max (-lim) (min lim d), slewT := t, slewAcc := 0, slewLeft := 16 * t }) s

/-- A run with no sample (R337). -/
def noSample (s : State) : State :=
  let s := slewEvenly s.tmu.integ s
  if tmuState s == 2 then setTmuState 3 s else s

/-- A quotient of the C code of R336: truncated toward zero. -/
def cDiv (a b : Int) : Int := Int.tdiv a b

/-- The last part of a run: STATE by the size of the offset (R336). -/
def servoJudge (e : Int) (s : State) : State :=
  let a := e.natAbs
  let unlock := nz (rf Reg.TMU_CFG 31 16 s)
  let s :=
    if a ≤ nz (rf Reg.TMU_CFG 47 40 s) then
      let g := s.tmu.good + 1
      let s := withTmu (fun t => { t with bad := 0, good := g }) s
      if 16 ≤ g then setRf Reg.TMU_STAT 7 7 1 (setTmuState 2 s) else s
    else if unlock < a then
      let b := s.tmu.bad + 1
      let s := withTmu (fun t => { t with good := 0, bad := b }) s
      if 4 ≤ b && tmuState s == 2 then setTmuState 1 s else s
    else withTmu (fun t => { t with good := 0, bad := 0 }) s
  if tmuState s == 3 then setTmuState (if a ≤ unlock then 2 else 1) s else s

/-- A run of the servo with an offset (R336). -/
def servoRunWith (e : Int) (s : State) : State :=
  if !everLocked s && 1024 * nz (rf Reg.TMU_CFG 7 0 s) < e.natAbs then
    setTmuState 1 (withTmu (fun t => { t with integ := 0, good := 0 }) (gtimeStep e s))
  else
    let integ := s.tmu.integ + cDiv e 64
    let s := slewEvenly (cDiv e 8 + integ) (withTmu (fun t => { t with integ := integ }) s)
    setRf Reg.TMU_STAT 63 32 (e % 2 ^ 32).toNat (servoJudge e s)

/-- Is a port a time port (R335)? -/
def timePort (p : Nat) (s : State) : Bool :=
  portUp p s && lstat p 21 20 s != 0 && bit (p % 64) (rdReg (Reg.TMU_PORTMASK + 8 * (p / 64)) s)

/-- Insert into a rising list. -/
def insertRat (x : Rat) : List Rat → List Rat
  | [] => [x]
  | y :: t => if x ≤ y then x :: y :: t else y :: insertRat x t

/-- Median of port means; of an even number of them, the mean of the middle two. -/
def median (xs : List Rat) : Rat :=
  let ys := xs.foldr insertRat []
  let n := ys.length
  if n % 2 == 1 then (ys[n / 2]?).getD 0 else ((ys[n / 2 - 1]?).getD 0 + (ys[n / 2]?).getD 0) / 2

/-- The sample of a FOLLOW run (R335): the trimmed mean of θ and the number of ports kept. -/
def followSample (s : State) : Option (Int × Nat) :=
  let means := s.tmu.kept.filterMap (fun (p, sum, n) =>
    if timePort p s && n != 0 then some (mkRat sum n) else none)
  if means.isEmpty then none
  else
    let m := median means
    let out : Rat := (nz (rf Reg.TMU_CFG 39 32 s) : Nat)
    let kept := means.filter (fun x => x - m ≤ out && m - x ≤ out)
    if kept.isEmpty then none
    else
      let e := kept.foldl (· + ·) (0 : Rat) / (kept.length : Nat)
      some (cDiv e.num e.den, kept.length)

/-- PPS_DELAY: D of R334. -/
def ppsDelay (s : State) : Int := ((rdReg Reg.TMU_REF s).extractLsb' 16 16).toInt

/-- e = N − (C − D), with N the nearest multiple of one second (R334). -/
def refOffset (c : BitVec 64) (s : State) : Int :=
  let sec : Int := 16000000000
  let x : Int := c.toNat - ppsDelay s
  (x + sec / 2) / sec * sec - x

/-- SERVO_RUN (R336). In REF mode a run belongs to an edge that has been captured. -/
def execServoRun (s : State) : Host.Outcome State Fault Refusal :=
  plain (fun s =>
    if tmuMode s == 1 then
      let r := followSample s
      let s := setRf Reg.TMU_STAT 23 16 ((r.map (·.2)).getD 0) (withTmu (fun t => { t with kept := [] }) s)
      match r with
      | none => noSample s
      | some (e, _) => servoRunWith e s
    else if tmuMode s == 3 then
      match s.tmu.pps with
      | none => s
      | some c => servoRunWith (refOffset c s) (withTmu (fun t => { t with pps := none }) s)
    else s) s

/-! ### References and loads (R331 to R334, R360, R361) -/

/-- A LOAD that waits takes effect at an edge, corrected by PPS_DELAY (R360). It is turned down and counted if STATE is FREE no more, as
GTIME then only slews (R331), or if what it would load is negative or not below 2^62 (R361). -/
def loadAtEdge (s : State) : State :=
  if s.tmu.loadWaits then
    let v : Int := (rdReg Reg.TMU_SET s).toNat
    let x := v + ppsDelay s
    let t := setRf Reg.TMU_CTRL 2 2 0 (withTmu (fun t => { t with loadWaits := false }) s)
    if tmuState s != 0 || 2 ^ 62 ≤ v || x < 0 || 2 ^ 62 ≤ x then tmuIgnored t
    else clearExpired { t with gtime := BitVec.ofInt 64 x }
  else s

/-- PPS_EDGE (R334): an active edge is captured; in REF mode, once STATE has been LOCKED, one more than 0.5 ms from its second is
discarded and counted. -/
def execPpsEdge (fall : Bool) (s : State) : Host.Outcome State Fault Refusal :=
  plain (fun s =>
    let ref := rdReg Reg.TMU_REF s
    if !bit 0 ref || bit 3 ref != fall then s
    else
      let s := loadAtEdge s
      if tmuMode s == 3 && everLocked s && 8000000 < (refOffset s.gtime s).natAbs then tmuIgnored s
      else
        setRf Reg.TMU_STAT 6 6 1
          (withTmu (fun t => { t with lastEdge := some s.now, pps := if tmuMode s == 3 then some s.gtime else none }) s)) s

/-- PPS_LOSS (R337): 1.5 s without an edge, of a REF device since the last edge, since the last loss or since it became one. -/
def execPpsLoss (s : State) : Host.Outcome State Fault Refusal :=
  plain (fun s =>
    match s.tmu.lastEdge with
    | none => s
    | some t =>
      let s := setRf Reg.TMU_STAT 6 6 0 (advanceTo (t + us 1500000) s)
      if tmuMode s == 3 then noSample (withTmu (fun t => { t with lastEdge := some s.now }) s)
      else withTmu (fun t => { t with lastEdge := none }) s) s

/-- HOLD_MAX_EXPIRY (R354): HOLDOVER has lasted longer than HOLD_MAX. -/
def execHoldMaxExpiry (s : State) : Host.Outcome State Fault Refusal :=
  plain (fun s =>
    if tmuState s != 3 then s
    else
      match s.tmu.holdSince with
      | some t => demoteUnscheduled (advanceTo (t + 1000 * us (nz (rf Reg.TMU_CFG 15 8 s)) + 1) s)
      | none => s) s

/-- A LOAD (R332, R360, R361). -/
def gtimeLoadGo (s : State) : State :=
  let v := rdReg Reg.TMU_SET s
  if tmuState s != 0 || 2 ^ 62 ≤ v.toNat then tmuIgnored s
  else if s.tmu.loadWaits then s
  else if rf Reg.TMU_REF 0 0 s == 1 && rf Reg.TMU_STAT 6 6 s == 1 then
    setRf Reg.TMU_CTRL 2 2 1 (withTmu (fun t => { t with loadWaits := true }) s)
  else clearExpired { s with gtime := v }

/-- GTIME_LOAD (R360). -/
def execGtimeLoad (m : Master) (s : State) : Host.Outcome State Fault Refusal := plain (mgtWr m gtimeLoadGo) s

/-- From when a lost edge is told in a mode: from the last edge seen, and of a device that becomes REF without one from now (R337). -/
def watchEdge (mode : Nat) (s : State) : State :=
  let last := if rf Reg.TMU_STAT 6 6 s == 1 then s.tmu.lastEdge else none
  withTmu (fun t => { t with lastEdge := if mode == 3 then some (last.getD s.now) else last }) s

/-- A write of MODE (R334, R360). One of MODE 3 to a device that is REF already begins no new watch. -/
def writeMode (mode : Nat) (s : State) : State :=
  let s := setRf Reg.TMU_CTRL 1 0 mode (if mode == 3 && tmuMode s == 3 then s else watchEdge mode s)
  if mode == 0 then
    setTmuState 0 (setRf Reg.TMU_STAT 7 7 0 (withTmu (fun t => { t with slewLeft := 0, pps := none }) s))
  else if mode == 2 then
    setTmuState 2 (setRf Reg.TMU_STAT 7 7 1 (withTmu (fun t => { t with slewLeft := 0, pps := none }) s))
  else s

/-- TMU_MODE_WRITE (R360). -/
def execTmuModeWrite (m : Master) (mode : BitVec 2) (s : State) : Host.Outcome State Fault Refusal :=
  plain (mgtWr m (writeMode mode.toNat)) s

/-- GTIME_LO_READ (R333), of 32 or of 64 bits: the read latches the reading function's TMU_GTIME_HI. A read before HOST_READY returns zero
(R488). -/
def execGtimeLoRead (f : FnRead) (s : State) : Host.Outcome State Fault Refusal :=
  plain (fun s =>
    if !reaches f.fn.toNat s then s
    else if hostReadyOn s then
      emit (.bar0Read f.fn.toNat Reg.TMU_GTIME_LO (if f.wide then s.gtime else BitVec.ofNat 64 (bits 31 0 s.gtime)))
        (setFf f.fn.toNat Reg.TMU_GTIME_HI 31 0 (bits 63 32 s.gtime) s)
    else emit (.bar0Read f.fn.toNat Reg.TMU_GTIME_LO 0) s) s

/-- REF_LOCK_CHANGE (R334, R365). -/
def execRefLockChange (locked : Bool) (s : State) : Host.Outcome State Fault Refusal :=
  plain (setRf Reg.TMU_STAT 5 5 (if locked && rf Reg.TMU_REF 1 1 s == 1 then 1 else 0)) s

/-! ### Gate lists (R345 to R355) -/

/-- EPOCH_START (R351). -/
def execEpochStart (s : State) : Host.Outcome State Fault Refusal := plain clearExpired s

/-- GUARD_BAND_START (R355): the guard band before a closing of Q1 has begun. -/
def execGuardBandStart (p : Port) (s : State) : Host.Outcome State Fault Refusal :=
  plain (fun s =>
    if gated p.toNat 1 s && scheduled s && closingSoon p.toNat 1 s.gtime.toNat s then
      demoteQ1 p.toNat (fun _ => true) s
    else s) s

/-- EARLY_EXPIRY (R355): packets that have waited EARLY for Q1 to open. -/
def execEarlyExpiry (p : Port) (s : State) : Host.Outcome State Fault Refusal :=
  plain (fun s =>
    match s.xbr.egq.find? (fun e => e.port == p.toNat && e.q == 1) with
    | none => s
    | some e =>
      let wait := 16 * rf Reg.LLT_SCHED 31 16 s
      let s := advanceTo (e.since + wait) s
      if gated p.toNat 1 s && !gateOpen p.toNat 1 s.gtime.toNat s then
        demoteQ1 p.toNat (fun x => x.since + wait ≤ s.now) s
      else s) s

/-- Is a write of word 0 with VALID set turned down (R350)? -/
def gclRejected (w0 w1 : BitVec 64) (s : State) : Bool :=
  let o := bits 31 0 w1
  let c := bits 63 32 w1
  c ≤ o || schedPeriod s < c || 32767 < bits 31 16 w0 || bit 32 w0 || bit 34 w0 || bit 35 w0

/-- A write of word 0 (R350, R351): an entry written once its range has passed is late, cleared and counted. -/
def gclWrite0 (p e : Nat) (v : BitVec 64) (s : State) : State :=
  let off := gclOff p e 0
  let v := setBits 62 48 0 v
  if !bit 63 v then wrReg off v s
  else if gclRejected v (rdReg (gclOff p e 1) s) s then lltIgnored s
  else if gclCond v ((epochAt s.gtime.toNat s).map (·.1)) == .expired then
    lltIgnored (wrReg off (setBits 63 63 0 v) s)
  else wrReg off v s

/-- GCL_WORD0_WRITE (R350). -/
def execGclWord0Write (m : Master) (p : Port) (e : BitVec 8) (v : BitVec 64) (s : State) : Host.Outcome State Fault Refusal :=
  plain (mgtWrOff m (cross 134 (regReq m (gclOff p.toNat e.toNat 0) v) (gclWrite0 p.toNat e.toNat v))) s

/-- A write of word 1 of a gate list entry (R350). -/
def gclWrite1 (p e : Nat) (v : BitVec 64) (s : State) : State :=
  if bit 63 (rdReg (gclOff p e 0) s) then lltIgnored s else wrReg (gclOff p e 1) v s

/-- GCL_WORD1_WRITE (R350). -/
def execGclWord1Write (m : Master) (p : Port) (e : BitVec 8) (v : BitVec 64) (s : State) : Host.Outcome State Fault Refusal :=
  plain (mgtWrOff m (cross 134 (regReq m (gclOff p.toNat e.toNat 1) v) (gclWrite1 p.toNat e.toNat v))) s

/-- Does any gate list entry of any port hold VALID (R347)? -/
def anyGcl (s : State) : Bool :=
  s.regs.any (fun kv => Reg.LLT_GCL ≤ kv.1 && kv.1 < Reg.LLT_GCL + 4096 * 128 && kv.1 % 16 == 0 && bit 63 kv.2)

/-- A write of a register of the Lamplighter that has no row of its own, with the bytes that it writes (R343, R347): one that writes
PERIOD while an entry is valid is counted, and of it only EARLY is taken. -/
def writeLlt (off : Nat) (be : BitVec 8) (v : BitVec 64) (s : State) : State :=
  if off == Reg.LLT_QMAP then
    if (List.range 4).any (fun k => bits (4 * k + 3) (4 * k) v < 4) then lltIgnored s else writeReg off v s
  else if off == Reg.LLT_SCHED then
    if anyGcl s && be &&& 0xF0 != 0 then lltIgnored (setRf off 31 16 (bits 31 16 v) s) else writeReg off v s
  else if off == Reg.LLT_SCHED_BASE then if anyGcl s then lltIgnored s else writeReg off v s
  else writeReg off v s

/-! ### Histograms (R357 to R359) -/

/-- Place of a bin among all bins (R359). -/
def histKey (p h q b : Nat) : Nat := ((p * 2 + h) * 16 + q) * 16 + b

/-- The depth bin of a number of cells (R357). -/
def depthBin (n : Nat) : Nat := if n == 0 then 0 else min 15 (Nat.log2 n + 1)

/-- The delay bin of a delay in ns (R357). -/
def delayBin (d : Nat) : Nat := if d < 16 then 1 else min 15 (Nat.log2 (d / 16) + 2)

/-- One more sample in a bin; bins saturate (R357). -/
def histAdd (k : Nat) (t : Tab Nat) : Tab Nat := tset t k (min (2 ^ 32 - 1) ((tget t k).getD 0 + 1))

/-- One queue of a port is sampled. Its oldest packet is the first that entered it. -/
def histQueue (p q : Nat) (s : State) : State :=
  let db := depthBin (queueDepth p q s)
  let wb := match s.xbr.egq.find? (fun e => e.port == p && e.q == q) with
    | some e => delayBin ((s.now - e.since) / 16)
    | none => 0
  withLlt (fun l => { l with hist := histAdd (histKey p 1 q wb) (histAdd (histKey p 0 q db) l.hist) }) s

/-- The next multiple of 8 × INTERVAL ns of GTIME that has not been sampled (R357, R358). -/
def nextSample (s : State) : Nat :=
  let per := 128 * nz (rf Reg.LLT_HIST_CFG 31 16 s)
  let at_ := (s.gtime.toNat + per - 1) / per * per
  if s.llt.sampled == some at_ then at_ + per else at_

/-- HIST_SAMPLE (R357): every queue of every fabric port, at the next instant of sampling. -/
def execHistSample (s : State) : Host.Outcome State Fault Refusal :=
  plain (fun s =>
    if rf Reg.LLT_HIST_CFG 1 1 s == 0 then s
    else
      let g := nextSample s
      let s := withLlt (fun l => { l with sampled := some g }) (reachGtime g s)
      (List.range 2048).foldl (fun s k => histQueue (k / 16) (k % 16) s) s) s

/-- HIST_CLEAR (R358). -/
def execHistClear (m : Master) (s : State) : Host.Outcome State Fault Refusal :=
  plain (mgtWrOff m (fun s => cross 134 (regReq m Reg.LLT_HIST_CFG (setBits 0 0 1 (rdReg Reg.LLT_HIST_CFG s)))
    (withLlt (fun l => { l with hist := [] })) s)) s

end Sys2Proof.Machine
end

