-- ==== Sys2Proof/Machine/Locks.lean ====
section
/-! DEFINITION. The meanings of the lock unit's commands (12: R366 to R372). -/

namespace Sys2Proof.Machine

/-- A release by a host function (R370, R371). -/
def semReleaseBy (n f : Nat) (s : State) : State :=
  match semRelKind n (BitVec.ofNat 12 f) s with
  | .own => semFree n false s
  | .excused => lckIgnored s
  | .foreign => violation 161 f 5 (evcPulse 228 n s)

/-- A write of function `f` to semaphore `n` at the LCK (R367 to R370): of kind 0 LCK_ACQ, 1 LCK_REL, 2 LCK_CANCEL, and 3 what is no
register for writes. Whether the function may use the semaphore is judged before the form of the access (DEDUCED). -/
def semWriteGo (f kind n bytes : Nat) (s : State) : State :=
  let m := BitVec.ofNat 12 f
  if !semAllowed n f s then violation 161 f 4 s
  else if bytes != 8 || 3 ≤ kind then lckIgnored s
  else if kind == 0 then semAcquire n m (semNoExcuse n m s)
  else if kind == 1 then semReleaseBy n f s
  else semCancel n m (semNoExcuse n m s)

/-- A write of a host function to a semaphore, held at the crossing while the LCK is fenced (R389). The lock window operates in P2
(R419). -/
def semWrite (f : Fn) (kind : Nat) (n : BitVec 10) (bytes : Nat) (s : State) : State :=
  hostWr f.toNat 136 true (fun s =>
    if unitFenced 136 s then holdReq (.lck f.toNat kind n.toNat bytes) s else semWriteGo f.toNat kind n.toNat bytes s) s

/-- LCK_ACQ (R369). -/
def execLckAcq (f : Fn) (n : BitVec 10) (bytes : BitVec 4) (s : State) : Host.Outcome State Fault Refusal :=
  act (semWrite f 0 n bytes.toNat) s

/-- LCK_REL (R370, R371). -/
def execLckRel (f : Fn) (n : BitVec 10) (bytes : BitVec 4) (s : State) : Host.Outcome State Fault Refusal :=
  act (semWrite f 1 n bytes.toNat) s

/-- LCK_CANCEL (R370). -/
def execLckCancel (f : Fn) (n : BitVec 10) (bytes : BitVec 4) (s : State) : Host.Outcome State Fault Refusal :=
  act (semWrite f 2 n bytes.toNat) s

/-- Offset in BAR0 of a byte of semaphore n (R367). -/
def lckOff (n off : Nat) : Nat := 0x03000000 + 64 * n + off

/-- A read in semaphore n's 64 bytes at the LCK (R367, R368): LCK_STAT, or zero; zero and a freeze where the function may not use the
semaphore; and one of a wrong width, or where nothing stands, is counted. -/
def semStatGo (f n off bytes : Nat) (s : State) : State :=
  let m := BitVec.ofNat 12 f
  let zero := emit (.bar0Read f (lckOff n off) 0) s
  if !semAllowed n f s then violation 161 f 4 zero
  else if bytes != 8 || 0x20 ≤ off || off % 8 != 0 then lckIgnored zero
  else if off != 0x18 then zero
  else semRead n m (emit (.bar0Read f (lckOff n off) (semStat n m s)) s)

/-- A read of a host function in the lock window: zero before HOST_READY (R488), and held while the LCK is fenced (R389). -/
def semStatRead (f n off bytes : Nat) (s : State) : State :=
  if !reaches f s then s
  else if !hostReadyOn s then emit (.bar0Read f (lckOff n off) 0) s
  else if unitFenced 136 s then holdReq (.stat f n off bytes) s
  else semStatGo f n off bytes s

/-- LCK_STAT_READ (R367). -/
def execLckStatRead (f : Fn) (n : BitVec 10) (bytes : SemRead) (s : State) : Host.Outcome State Fault Refusal :=
  act (semStatRead f.toNat n.toNat bytes.off.toNat bytes.width.toNat) s

/-- A forced release (R372). -/
def semForce (v : BitVec 32) (s : State) : State :=
  let n := bits 9 0 v
  let s := setRf Reg.LCK_FORCE 9 0 n s
  if !bit 10 v then s
  else
    match (getSem n s).holder with
    | none => lckIgnored s
    | some m => semAbandon n m s

/-- LCK_FORCE (R372). -/
def execLckForce (m : Master) (v : BitVec 32) (s : State) : Host.Outcome State Fault Refusal :=
  plain (mgtWr m (cross 136 (regReq m Reg.LCK_FORCE (v.setWidth 64)) (semForce v))) s

/-- A write of LCK_ALLOC (R366): ignored and counted while the semaphore is held or has waiters. -/
def writeLckAlloc (n : Nat) (v : BitVec 64) (s : State) : State :=
  let x := getSem n s
  if x.holder.isSome || !x.queue.isEmpty then lckIgnored s else writeReg (Reg.LCK_ALLOC + 8 * n) v s

/-- LCK_ALLOC_WRITE (R366). -/
def execLckAllocWrite (m : Master) (n : BitVec 10) (v : BitVec 64) (s : State) : Host.Outcome State Fault Refusal :=
  plain (mgtWr m (cross 136 (regReq m (Reg.LCK_ALLOC + 8 * n.toNat) v) (writeLckAlloc n.toNat v))) s

end Sys2Proof.Machine
end

