-- ==== Sys2Proof/Machine/Resets.lean ====
section
/-! DEFINITION. The resets as operations (18: R482 to R484, R497): a function's, a controller's, the MGT's, WARM and COLD; and what
R403 leaves of the registers of a domain that has been switched off. -/

namespace Sys2Proof.Machine

/-! ### Function-level reset (R483) -/

/-- The functions that a reset covers: resetting a PF clears its VF Enable, and with it resets its VFs (R464, R480). -/
def flrScope (p : Nat → Bool) (s : State) (f : Nat) : Bool :=
  let pf := f / 256 * 256
  p f || (p pf && ((tget s.hif.cfg pf).getD FnCfg.reset).vfEnable)

/-- The functions of a reset as a list. -/
def flrList (p : Nat → Bool) : List Nat := (List.range 1024).filter p

/-- The queue pairs of functions. -/
def qpsOf (p : Nat → Bool) (s : State) : List Nat :=
  s.qpc.bound.filterMap (fun (x : Nat × Bound) => if p x.2.fn then some x.1 else none)

/-- The serial of an operation's reads, if it has them in flight. -/
def opSerial (o : ColOp) : Option Nat :=
  match o.phase with
  | .reducing _ n => n
  | _ => none

/-- The admitted accesses that functions have in flight: their requests and completions are discarded (R483 step 1). -/
def flrSerials (p : Nat → Bool) (qs : List Nat) (s : State) : List Nat :=
  s.cmp.rings.filterMap (fun (x : Nat × Ring) => if p (x.1 / 4096) then x.2.reading else none) ++
  s.rxe.placing.filterMap (fun x => if qs.contains x.qpn then some x.serial else none) ++
  s.rxe.resps.filterMap (fun x => if qs.contains x.qpn then some x.serial else none) ++
  s.rxe.atoms.filterMap (fun x => if p x.fn then some x.serial else none) ++
  s.qpc.qps.filterMap (fun (x : Nat × Qp) => if qs.contains x.1 then x.2.building.map (·.2) else none) ++
  s.tpr.hxfers.filterMap (fun (x : Nat × Hxfer) => if p x.2.fn then x.2.serial else none) ++
  s.col.insts.flatMap (fun (x : Nat × ColInst) => if p x.2.fn then x.2.ops.filterMap opSerial else [])

/-- Step 2: rings, Arrival Rings and doorbell pages cease to exist, and nothing is written for them. -/
def flrRings (p : Nat → Bool) (s : State) : State :=
  { s with cmp := { s.cmp with
      rings := s.cmp.rings.filter (fun (x : Nat × Ring) => !p (x.1 / 4096))
      pages := s.cmp.pages.filter (fun (x : Nat × PageUse) => !p (x.1 / 4096))
      arvs := s.cmp.arvs.filter (fun (x : Nat × Arv) => !p (x.1 / 4096)) } }

/-- The admin entry that a drain, or a flushing read, belongs to. -/
def flushFn : FlushFor → Nat
  | .drain ref => ref.fn
  | .notice f _ _ _ _ _ => f

/-- Step 3 in the XLT: domains, cached translations, locked entries, regions, BTRs, and what waits. -/
def flrXlt (p : Nat → Bool) (s : State) : State :=
  let gone := s.xlt.pds.filterMap (fun (x : Nat × Pd) => if p x.2.owner then some x.1 else none)
  let owned (n : Nat) : Bool :=
    let v := rdReg (Reg.XLT_BTR_ALLOC + 8 * n) s
    bit 12 v && p (bits 11 0 v)
  { s with xlt := { s.xlt with
      pds := s.xlt.pds.filter (fun (x : Nat × Pd) => !p x.2.owner)
      xtc := s.xlt.xtc.filter (fun l => !gone.contains l.dom.toNat)
      walks := s.xlt.walks.filter (fun w => !gone.contains w.dom.toNat)
      locked := s.xlt.locked.filter (fun (x : Nat × Locked) => !p x.2.owner && !gone.contains x.2.leaf.dom.toNat)
      descs := s.xlt.descs.filter (fun (x : Nat × Desc) => !p (x.1 / 2 ^ 24))
      regions := s.xlt.regions.filter (fun (x : Nat × Region) => !p (x.1 / 2 ^ 24))
      btrs := s.xlt.btrs.filter (fun (x : Nat × Btr) => !owned x.1)
      waiting := s.xlt.waiting.filter (fun w => !p w.access.fn)
      drains := s.xlt.drains.filter (fun d => !p d.ref.fn)
      flushes := s.xlt.flushes.filter (fun x => !p (flushFn x.2)) } }

/-- Step 3 in the QPC, RXE and MTE: queue pairs leave without a write-back, charges are released, packets in the miss buffer are
refused as for FREE, receives and unexpected messages are discarded. -/
def flrQps (p : Nat → Bool) (s : State) : State :=
  let qs := qpsOf p s
  let inFn (k : Packet) : Bool := (qpRange k.dstQpn.toNat s).any (fun r => p r.1)
  let missed := s.qpc.missBuf.filter (fun k => inFn k.1)
  let s := s.qpc.qps.foldl (fun s (x : Nat × Qp) =>
    if qs.contains x.1 then
      x.2.msgs.foldl (fun s m => uncharge (hostPort (qpFn x.1 s)) x.2.par.peerEp (msgCharge m) s) s
    else s) s
  let s := { s with qpc := { s.qpc with
      qps := s.qpc.qps.filter (fun (x : Nat × Qp) => !qs.contains x.1)
      fetches := s.qpc.fetches.filter (fun (x : Nat × Fetch) => !(qpRange x.1 s).any (fun r => p r.1))
      missBuf := s.qpc.missBuf.filter (fun k => !inFn k.1)
      bound := s.qpc.bound.filter (fun (x : Nat × Bound) => !p x.2.fn)
      noticed := s.qpc.noticed.filter (fun x => !qs.contains x.1)
      half1 := s.qpc.half1.filter (fun q => !qs.contains q)
      dueErr := s.qpc.dueErr.filter (fun x => !qs.contains x.1) } }
  let s := withRxe (fun r => { r with
      placing := r.placing.filter (fun x => !qs.contains x.qpn)
      resps := r.resps.filter (fun x => !qs.contains x.qpn)
      atoms := r.atoms.filter (fun x => !p x.fn)
      results := r.results.filter (fun x => !qs.contains x.qpn) }) s
  let s := withMte (fun m => { m with
      posted := m.posted.filter (fun r => !p r.fn)
      bound := m.bound.filter (fun b => !p b.recv.fn)
      unexp := m.unexp.filter (fun u => !p u.fn) }) s
  issueWaiting (missed.foldl (fun s k => sendNak k.1 0x0F 0 s) s)

/-- Step 4: Taper and collectives. -/
def flrTaper (p : Nat → Bool) (s : State) : State :=
  let s := (flrList p).foldl (fun s f => fnDropProgs f (fnStopTaper f s)) s
  withTpr (fun t => { t with hxfers := t.hxfers.filter (fun (x : Nat × Hxfer) => !p x.2.fn) }) s

/-- The mailboxes allocated to functions. -/
def mbxOf (p : Nat → Bool) (s : State) : List Nat :=
  s.regs.filterMap (fun (x : Nat × BitVec 64) =>
    if Reg.MBX_ALLOC ≤ x.1 && x.1 < Reg.MBX_ALLOC + 8 * 4096 && bit 12 x.2 && p (bits 11 0 x.2)
    then some ((x.1 - Reg.MBX_ALLOC) / 8) else none)

/-- Step 5: semaphores are abandoned (R371) and mailboxes become EMPTY with GEN advanced. -/
def flrLocks (p : Nat → Bool) (s : State) : State :=
  let s := (flrList p).foldl (fun s f => semReset (BitVec.ofNat 12 f) s) s
  (mbxOf p s).foldl (fun s n => putMbx n { Mbx.empty with gen := (getMbx n s).gen + 1 } s) s

/-- CMR_STATUS of a frozen function shows FROZEN, whatever has reset its registers (R440). -/
def showFrozen (s : State) : State :=
  (List.range 1024).foldl (fun s f => if frozen f s then setFf f Reg.CMR_STATUS 0 0 1 s else s) s

/-- Step 6: the registers of the functions' own range. A freeze stays. -/
def flrRegs (p : Nat → Bool) (s : State) : State :=
  showFrozen { s with fregs := s.fregs.filter (fun (x : Nat × BitVec 64) => !p (x.1 / 0x100000)) }

/-- The selected islands in ascending order (R454). -/
def selected (s : State) : List Nat :=
  (List.range 371).filter (fun i => bit (i % 64) (rdReg (Reg.LTN_SEL + 8 * (i / 64)) s))

/-- The LTN writes GAP records for islands, each counted (R443, R453). -/
def ltnGap (islands : List Nat) (s : State) : State :=
  if islands.isEmpty then s
  else islands.foldl (fun s i => evcPulse 231 i s) (setRf Reg.LTN_STAT 1 1 1 (ltnPut (islands.map .gap) s))

/-- The LTN is back from a restart: GAP for every selected island of the recording, of which nothing more is recorded until its next
START (R394, R453). -/
def ltnBack (s : State) : State :=
  if rf Reg.LTN_CTRL 6 6 s == 1 then ltnGap (selected s) { s with ltn := { s.ltn with live := [] } } else s

/-- PF0 loses the memory of the ring during SPILL: GAP for every selected island, recording stops, and nothing more is
written (16). -/
def ltnSpillLost (s : State) : State :=
  if rf Reg.LTN_CTRL 6 6 s == 1 && rf Reg.LTN_CTRL 1 0 s == 2 then
    let s := ltnGap (selected s) s
    setRf Reg.LTN_CTRL 2 2 0 (setRf Reg.LTN_CTRL 6 6 0 { s with ltn := { s.ltn with
      todo := [], live := [], post := none, late := [], recs := [], frame := [] } })
  else s

/-- The steps of R483, without the configuration space. -/
def flrSteps (p : Nat → Bool) (s : State) : State :=
  let p := flrScope p s
  let qs := qpsOf p s
  let ns := flrSerials p qs s
  let s := flrTaper p (flrRings p s)
  let s := ns.foldl (fun s n => drained n s) (flrQps p (flrXlt p s))
  let s := flrRegs p (flrLocks p (drainsOn s))
  if p 0 then ltnSpillLost s else s

/-- A function-level reset of functions (R483): their configuration fields take their reset values too, but for the link's
enables and Max_Payload_Size (PRESUMED, PCI Express). -/
def flrSet (p : Nat → Bool) (s : State) : State :=
  let q := flrScope p s
  let s := flrSteps p s
  let keep (c : FnCfg) : FnCfg := { FnCfg.reset with l1Enable := c.l1Enable, l0pEnable := c.l0pEnable, maxPayload := c.maxPayload }
  { s with hif := { s.hif with cfg := s.hif.cfg.map (fun (x : Nat × FnCfg) => if q x.1 then (x.1, keep x.2) else x) } }

/-- Does a function belong to a controller? -/
def ofController (j f : Nat) : Bool := f / 256 == j

/-- The functions of a controller are reset (R394, R464). -/
def flrController (j : Nat) (s : State) : State := flrSet (ofController j) s

/-- A link of HIF_LINK is down: everything but AUX and BIF reads zero (R476). -/
def linkRegDown (l : Nat) (s : State) : State := setRf (Reg.HIF_LINK + 8 * l) 15 4 0 s

/-- Half 1 of a controller is down: AUX j is reset with its link (R459, R476). -/
def halfDown (j : Nat) (s : State) : State :=
  let s := linkRegDown (2 * j + 1) s
  { s with hif := { s.hif with aux := tdel s.hif.aux j, lanes := tdel s.hif.lanes (2 * j + 1) } }

/-- A CONTROLLER reset (R482): the links, the configuration space and every function of controller `j`. -/
def controllerDown (j : Nat) (s : State) : State :=
  let s := flrController j (halfDown j (linkRegDown (2 * j) s))
  { s with hif := { s.hif with
      half := tdel s.hif.half j, lanes := tdel s.hif.lanes (2 * j)
      cfg := s.hif.cfg.filter (fun (x : Nat × FnCfg) => x.1 / 256 != j) } }

/-! ### Registers that the retention store keeps (R403) -/

/-- What a register holds when its block's domain comes on again: RW, W1S and WO fields as they were, the rest at reset. -/
def retained (perFn : Bool) (off : Nat) (v : BitVec 64) : BitVec 64 :=
  match regFind perFn off with
  | some d =>
    let keep := accMask [.rw, .w1s, .wo] d.fields
    (v &&& keep) ||| (regReset perFn off &&& ~~~keep)
  | none => v

/-- The registers of management space at offsets that a test selects lose what is not retained. -/
def loseRegs (hit : Nat → Bool) (s : State) : State :=
  { s with regs := s.regs.map (fun (x : Nat × BitVec 64) => if hit x.1 then (x.1, retained false x.1 x.2) else x) }

/-- The functions' registers at offsets that a test selects. -/
def loseFregs (hit : Nat → Bool) (s : State) : State :=
  { s with fregs := s.fregs.map (fun (x : Nat × BitVec 64) =>
      if hit (x.1 % 0x100000) then (x.1, retained true (x.1 % 0x100000) x.2) else x) }

/-! ### The MGT's reset (R482, R487) -/

/-- The xSPI balls, which RECOVERY has let go, are driven again (R495, R513). -/
def driveFlash (s : State) : State := if recovering s then emit (.xspiFloats false) s else s

/-- The MGT starts again through image selection with a CAUSE. The xSPI operation in progress completes; what would have
followed it does not (R496). -/
def mgtReset (cause : Nat) (s : State) : State :=
  let s := driveFlash s
  let s := setRf Reg.MGT_RESET 1 1 0 (setRf Reg.MGT_BOOT 11 8 cause (setRf Reg.MGT_BOOT 3 0 0 s))
  { s with mgt := { s.mgt with boot := some (.try_ 0), restart := none, sector := none, log := [], xops := s.mgt.xops.take 1 } }

/-! ### COLD and WARM (R482, R484, R497) -/

/-- The lifecycle state by the fuses (R421). -/
def lifecycleOf (f : Fuses) : Nat := if f.rma.vote then 3 else if f.seal_.vote then 2 else if f.prov.vote then 1 else 0

/-- LC_FUSE (R442). -/
def lcFuse (f : Fuses) : Nat := (if f.rma.vote then 4 else 0) + (if f.seal_.vote then 2 else 0) + (if f.prov.vote then 1 else 0)

/-- Do the copies of every lifecycle bit agree (R421)? -/
def Fuses.agree (f : Fuses) : Bool := f.prov.agrees && f.seal_.agrees && f.rma.agrees

/-- Has the identity key passed R424? -/
def idkOk (f : Fuses) : Bool :=
  match f.seed with
  | some k => identityDigest k == f.idkd
  | none => false

/-- SEC_STATE at a cold reset (R429, R442). -/
def secStateCold (f : Fuses) : BitVec 64 :=
  BitVec.ofNat 64 (f.svn * 2 ^ 48 + lcFuse f * 2 ^ 40 + lifecycleOf f * 2 ^ 32 + (if idkOk f then 2 ^ 11 else 0) +
    (if lifecycleOf f == 0 then 2 else 0))

/-- A fresh nonce (R425). -/
def newNonce (s : State) : State :=
  let (n, s) := fresh s
  let v := Config.random n
  wrReg (Reg.SEC_NONCE + 8) (v.extractLsb' 64 64) (wrReg Reg.SEC_NONCE (v.extractLsb' 0 64) s)

/-- The straps in MGT_STRAP, HIF_MGTPRIV and HIF_LINK (R458, R474, R476, R485). -/
def setStraps (straps : Nat) (s : State) : State :=
  let s := wrReg Reg.MGT_STRAP (BitVec.ofNat 64 (straps % 512 - (straps / 16 % 2) * 16)) s
  let s := wrReg Reg.HIF_MGTPRIV (BitVec.ofNat 64 (straps / 32 % 2)) s
  (List.range 4).foldl (fun s j =>
    if straps / 2 ^ j % 2 == 1 then
      wrReg (Reg.HIF_LINK + 8 * (2 * j + 1)) 12 (wrReg (Reg.HIF_LINK + 8 * (2 * j)) 4 s)
    else s) s

def withMgt (f : Mgt → Mgt) (s : State) : State := { s with mgt := f s.mgt }

/-- What an operation leaves in the flash; a failed one leaves free values (R493). -/
def opLeaves (ok : Bool) (op : XOp) (s : State) : State :=
  match op with
  | .erase a =>
    let s' := withMgt (fun m => { m with flash := m.flash.filter (fun c => c.1 < a || a + 65536 ≤ c.1) }) s
    if ok then s'
    else
      let (n, s') := fresh s'
      withMgt (fun m => { m with flash := memWrite 0xFF m.flash a (fitBytes 65536 (Config.undefBytes n 65536)) }) s'
  | .program a b =>
    if ok then withMgt (fun m => { m with flash := memWrite 0xFF m.flash a b }) s
    else
      let (n, s) := fresh s
      withMgt (fun m => { m with flash := memWrite 0xFF m.flash a (fitBytes b.length (Config.undefBytes n b.length)) }) s

/-- An operation of the flash that is cut off leaves free values where it was at work (R493, R495). -/
def opCut (s : State) : State :=
  match s.mgt.xops with
  | [] => s
  | op :: _ => opLeaves false op s

/-- The State of a COLD reset with straps (R482, R497): the fuses, the flash, the pins, the record of outputs, the free values taken
and the waiting commands stay. -/
def coldState (straps : Nat) (s : State) : State :=
  let s := driveFlash (opCut s)
  let c : State := { State.reset with
    sec := { State.reset.sec with fuses := s.sec.fuses }
    mgt := { State.reset.mgt with flash := s.mgt.flash, perst := s.mgt.perst.map (fun (x : Nat × Nat) => (x.1, 0)) }
    out := s.out
    free := s.free
    pending := s.pending }
  newNonce (setStraps straps (wrReg Reg.SEC_STATE (secStateCold s.sec.fuses) c))

/-- The straps as MGT_STRAP holds them. -/
def strapBits (s : State) : Nat := bits 8 0 (rdReg Reg.MGT_STRAP s)

/-- The COLD reset that ends when RESET_N rises, or a brown-out is over. Copies of a fuse that disagree and a destroyed identity seed
raise source 183 (R421, R424); in BLANK there is no identity to check (DEDUCED). -/
def coldReset (straps : Nat) (s : State) : State :=
  let s := emit (.pstateOut 0) (coldState straps s)
  let s := if s.sec.fuses.agree then s else fcuOccur 183 s
  if lifecycleOf s.sec.fuses != 0 && !idkOk s.sec.fuses then fcuOccur 183 s else s

/-- Is a register outside the scope of WARM: SEC, TMU, the PCIe links, the straps (R482)? -/
def warmKeeps (off : Nat) : Bool :=
  (0x08120000 ≤ off && off < 0x08129000) || (0x080D0000 ≤ off && off < 0x080D0038) ||
  (Reg.HIF_LINK ≤ off && off < Reg.HIF_LINK + 64) || off == Reg.MGT_STRAP

/-- The State of a WARM reset (R482, R497): every block but the SEC, the TMU and the PCIe links and configuration. -/
def warmState (s : State) : State :=
  let s := driveFlash s
  let c : State := { State.reset with
    regs := s.regs.filter (fun (x : Nat × BitVec 64) => warmKeeps x.1)
    now := s.now
    gtime := s.gtime
    tmu := s.tmu
    sec := s.sec
    jtag := s.jtag
    hif := s.hif
    clk := { State.reset.clk with trip := s.clk.trip }
    xlt := { State.reset.xlt with dirty := s.xlt.dirty, nextSerial := s.xlt.nextSerial }
    mgt := { State.reset.mgt with
      flash := s.mgt.flash, perst := s.mgt.perst, expired := s.mgt.expired, xops := s.mgt.xops.take 1 }
    out := s.out
    free := s.free
    pending := s.pending }
  let c := wrReg Reg.HIF_MGTPRIV (BitVec.ofNat 64 (strapBits s / 32 % 2)) c
  showFrozen (setRf Reg.MGT_BOOT 11 8 1 (resetCores (List.range 128) ((List.range 8).foldl (fun s l => wakeLink l s) c)))

/-- A device held in reset in P3, after a thermal trip or by TEST_EN (R415, R504, R516). -/
def heldOff (s : State) : State := { coldState (strapBits s) s with clk := { State.reset.clk with off := true } }

end Sys2Proof.Machine
end

