-- ==== Sys2Proof/Machine/Units.lean ====
section
/-! DEFINITION. Units, their sources, islands and domains (13: R382, R392; 14: R401, R402; 16: R450), what fencing a unit does to
work in flight (R389, R394), and how a unit comes back (R388, R393). -/

namespace Sys2Proof.Machine

/-! ### Sources and units (R382) -/

/-- Is a fault source that of a RESTART unit of its own (R382)? 182 restarts a HIF controller. -/
def restartSource (n : Nat) : Bool :=
  (116 ≤ n && n ≤ 121) || n == 123 || (125 ≤ n && n ≤ 128) || n == 130 || n == 133 || n == 134 || (136 ≤ n && n ≤ 141)

/-- Sources at which nothing is fenced: staging queues, VOTE and EVENT sources (R382). The protection sources occur with the access
that breaks their rule, and with nothing else. -/
def captureSource (n : Nat) : Bool :=
  n == 122 || n == 129 || n == 131 || n == 132 || n == 135 || (142 ≤ n && n ≤ 144) || n == 164 || n == 165 || (183 ≤ n && n ≤ 187)

/-- The logical cores that a core site can serve (R392, R393): those of its cluster, or of a spare's two clusters. -/
def coreReach (site : Nat) : List Nat :=
  if site < 128 then (List.range 8).map (fun k => 8 * (site / 8) + k) else (List.range 16).map (fun k => 16 * (site - 128) + k)

/-- The logical RDUs that an RDU site can serve. -/
def rduReach (site : Nat) : List Nat :=
  if site < 32 then [2 * (site / 2), 2 * (site / 2) + 1] else (List.range 8).map (fun k => 8 * (site - 32) + k)

def mapCore (l : Nat) (s : State) : BitVec 64 := rdReg (Reg.SNF_MAP_CORE + 8 * l) s
def mapRdu (l : Nat) (s : State) : BitVec 64 := rdReg (Reg.SNF_MAP_RDU + 8 * l) s

/-- The logical core that a site serves now. -/
def coreServes (site : Nat) (s : State) : Option Nat :=
  (coreReach site).find? (fun l => !bit 8 (mapCore l s) && bits 7 0 (mapCore l s) == site)

/-- The logical RDU that a site serves now. -/
def rduServes (site : Nat) (s : State) : Option Nat :=
  (rduReach site).find? (fun l => !bit 8 (mapRdu l s) && bits 7 0 (mapRdu l s) == site)

/-- Is a unit one that a source covers (R382)? -/
def covers (src : Nat) (u : SUnit) (s : State) : Bool :=
  match u with
  | .tile t => src == t.toNat
  | .bank g => src == 16 + g.toNat / 16 || src == 145 + g.toNat / 16
  | .port p => src == 32 + p.toNat / 8 || src == 166 + p.toNat / 8
  | .cluster c => src == 48 + c.toNat
  | .core site =>
    if site.toNat < 128 then src == 64 + site.toNat / 8
    else site.toNat < 136 && (coreServes site.toNat s).any (fun l => src == 64 + l / 8)
  | .rdu site => site.toNat < 36 && src == 80 + site.toNat
  | .restart n => restartSource n.toNat && (src == n.toNat || (src == 182 && 118 ≤ n.toNat && n.toNat ≤ 121))

/-- Where the FENCED bit of a unit stands (R392); a cluster memory has none. -/
def fencedBit : SUnit → Option (Nat × Nat)
  | .core x => some (Reg.SNF_FENCED_CORE + 8 * (x.toNat / 64), x.toNat % 64)
  | .rdu x => some (Reg.SNF_FENCED_RDU, x.toNat)
  | .port p => some (Reg.SNF_FENCED_PORT + 8 * (p.toNat / 64), p.toNat % 64)
  | .bank g => some (Reg.SNF_FENCED_BANKGRP + 8 * (g.toNat / 64), g.toNat % 64)
  | .tile t => some (Reg.SNF_FENCED_TILE, t.toNat)
  | .cluster _ => none
  | .restart n => some (Reg.SNF_FENCED_UNIT, n.toNat - 116)

/-- Is a unit fenced, or a RESTART unit held fenced? -/
def isFenced (u : SUnit) (s : State) : Bool :=
  match fencedBit u with
  | some (off, b) => bit b (rdReg off s)
  | none =>
    match u with
    | .cluster c => s.snf.clusters.contains c.toNat
    | _ => false

/-- Show a unit fenced or not. -/
def markFenced (u : SUnit) (on : Bool) (s : State) : State :=
  match fencedBit u with
  | some (off, b) => setRf off b b (if on then 1 else 0) s
  | none =>
    match u with
    | .cluster c =>
      let rest := s.snf.clusters.filter (· != c.toNat)
      { s with snf := { s.snf with clusters := if on then c.toNat :: rest else rest } }
    | _ => s

/-- The power domain of a unit (R402). -/
def unitDomain : SUnit → Nat
  | .core x => if x.toNat < 128 then 145 + x.toNat / 8 else 161 + (x.toNat - 128)
  | .rdu x => 169 + x.toNat
  | .port p => 1 + p.toNat
  | .bank g => 129 + g.toNat / 16
  | .tile t => 129 + t.toNat
  | .cluster c => 145 + c.toNat
  | .restart n =>
    let n := n.toNat
    if 118 ≤ n && n ≤ 121 then 205 + (n - 118)
    else if n == 123 || (125 ≤ n && n ≤ 127) then 209
    else if n == 128 || n == 130 then 210
    else if n == 116 || n == 117 || n == 133 then 211
    else if n == 134 then 129
    else 0

/-- The islands that a unit's fence stops (R389, R401, R450). -/
def unitIslands : SUnit → List Nat
  | .core x => if x.toNat < 128 then [] else [304 + (x.toNat - 128)]
  | .rdu x => [312 + x.toNat]
  | .port p => [32 + p.toNat, 160 + p.toNat]
  | .bank _ => []
  | .tile t => [t.toNat, 16 + t.toNat]
  | .cluster c => [288 + c.toNat]
  | .restart n =>
    let n := n.toNat
    if 118 ≤ n && n ≤ 121 then [348 + (n - 118), 352 + (n - 118)]
    else if n == 123 then [356]
    else if 125 ≤ n && n ≤ 127 then [357 + (n - 125)]
    else if n == 128 then [360, 361, 362, 363]
    else if n == 130 then [364, 365, 366, 367]
    else if n == 133 then [368]
    else if n == 117 then [369]
    else if n == 116 then [370]
    else []

/-- The START record of an island: of a snapshot, or of its reset state (R453). -/
def startRec (i : Nat) (reset : Bool) (s : State) : LtnRec := .start i (uid s.sec.fuses) (secId0 s) s.gtime reset

/-- The next snapshot begins with its START record; after the last one START reads 0 (R451, R454). -/
def snapStart (s : State) : State :=
  match s.ltn.todo with
  | i :: _ => ltnPut [startRec i false s] s
  | [] => setRf Reg.LTN_CTRL 2 2 0 s

/-- The pause of the first island to be snapshotted ends with these SNAP records, and what was raised in it meanwhile is marked (R451, 16). -/
def snapDone (parts : List LtnRec) (s : State) : State :=
  match s.ltn.todo with
  | [] => s
  | i :: rest =>
    let s := ltnPut parts { s with ltn := { s.ltn with prev := tset s.ltn.prev i s.now } }
    let marks := s.ltn.late
    let s := snapStart { s with ltn := { s.ltn with todo := rest, live := s.ltn.live ++ [i], late := [] } }
    marks.foldl (fun s x => lanternMark x.2 (some x.1) s) s

/-- The record of an island ends with STOP (R451, 16), one in its snapshot's pause too. -/
def islandStop (s : State) (i : Nat) : State :=
  let s := if s.ltn.todo.head? == some i then snapDone [] s else s
  if s.ltn.live.contains i then
    let s := ltnPut [.stop i] s
    { s with ltn := { s.ltn with live := s.ltn.live.filter (· != i) } }
  else { s with ltn := { s.ltn with todo := s.ltn.todo.filter (· != i) } }

/-- The record of a selected island begins with a START of its reset state (R451, 16). -/
def islandStart (s : State) (i : Nat) : State :=
  if rf Reg.LTN_CTRL 6 6 s == 1 && bit (i % 64) (rdReg (Reg.LTN_SEL + 8 * (i / 64)) s) && !s.ltn.live.contains i && i < 371 then
    let s := ltnPut [startRec i true s] s
    { s with ltn := { s.ltn with live := s.ltn.live ++ [i] } }
  else s

/-! ### Cores and RDUs (R392, R394) -/

/-- Is a core site free to serve: not fenced, serving nothing, and not taken already? -/
def coreSiteFree (site : Nat) (s : State) : Bool :=
  !isFenced (.core (BitVec.ofNat 8 site)) s && (coreServes site s).isNone &&
  !s.snf.spares.any (fun x => x.1 == .core (BitVec.ofNat 8 site)) && s.snf.restore != some (.core (BitVec.ofNat 8 site))

/-- Is an RDU site free to serve? -/
def rduSiteFree (site : Nat) (s : State) : Bool :=
  !isFenced (.rdu (BitVec.ofNat 6 site)) s && (rduServes site s).isNone &&
  !s.snf.spares.any (fun x => x.1 == .rdu (BitVec.ofNat 6 site)) && s.snf.restore != some (.rdu (BitVec.ofNat 6 site))

/-- The spare that takes a logical core's number: the lowest free site in reach. -/
def spareCore (l : Nat) (s : State) : Option Nat :=
  ((List.range 8).map (fun k => 8 * (l / 8) + k) ++ [128 + l / 16]).find? (fun x => coreSiteFree x s)

/-- The spare that takes a logical RDU's number. -/
def spareRdu (l : Nat) (s : State) : Option Nat := [2 * (l / 2), 2 * (l / 2) + 1, 32 + l / 8].find? (fun x => rduSiteFree x s)

def addSpare (u : SUnit) (l : Nat) (s : State) : State :=
  let time := match u with
    | .rdu _ => us 2
    | _ => us 1
  { s with snf := { s.snf with spares := s.snf.spares ++ [(u, l, s.now + time)] } }

/-- A spare core in its substitution takes the place of the site that failed; one that fails itself gives its place up. -/
def dropSpare (u : SUnit) (s : State) : State := { s with snf := { s.snf with spares := s.snf.spares.filter (fun x => x.1 != u) } }

/-- A logical core is without a site: its activation ends with CORE_FENCED, and a spare is taken if one is in reach (R394). The number
is ABSENT until the spare serves (DEDUCED). -/
def coreLost (l : Nat) (s : State) : State :=
  let s := setRf (Reg.SNF_MAP_CORE + 8 * l) 8 8 1 s
  let s := match (getCore l s).act with
    | some a => tprExc l a Tf.coreFenced s
    | none => s
  match spareCore l s with
  | some x => addSpare (.core (BitVec.ofNat 8 x)) l s
  | none => s

/-- The operations that a logical RDU works on. -/
def reducesOn (l : Nat) (s : State) : List (Nat × Nat) :=
  s.col.insts.flatMap (fun (x : Nat × ColInst) => x.2.ops.filterMap (fun o =>
    match o.phase with
    | .reducing r _ => if r == l then some (x.1, o.id) else none
    | _ => none))

/-- A logical RDU is without a site: its REDUCE is run again on a spare, or fails with UNIT_FENCED (R211, R392). -/
def rduLost (l : Nat) (s : State) : State :=
  let s := setRf (Reg.SNF_MAP_RDU + 8 * l) 8 8 1 s
  match spareRdu l s with
  | some x => addSpare (.rdu (BitVec.ofNat 6 x)) l s
  | none => (reducesOn l s).foldl (fun s x => opFail x.1 x.2 St.collError Cd.unitFenced s) s

/-- The spare of a substitution that is in progress has itself failed: another is sought. -/
def spareFails (u : SUnit) (s : State) : State :=
  match s.snf.spares.find? (fun x => x.1 == u) with
  | some (.core _, l, _) => coreLost l (dropSpare u s)
  | some (.rdu _, l, _) => rduLost l (dropSpare u s)
  | _ => s

/-- A core site is fenced. -/
def fenceCore (site : Nat) (s : State) : State :=
  let u : SUnit := .core (BitVec.ofNat 8 site)
  let l := coreServes site s
  let s := markFenced u true s
  match l with
  | some l => coreLost l s
  | none => spareFails u s

/-- An RDU site is fenced. -/
def fenceRdu (site : Nat) (s : State) : State :=
  let u : SUnit := .rdu (BitVec.ofNat 6 site)
  let l := rduServes site s
  let s := markFenced u true s
  match l with
  | some l => rduLost l s
  | none => spareFails u s

/-! ### Ports, banks, clusters, tiles (R394) -/

/-- A port is fenced: its staging queues are flushed (R167, R389), it is down, and it negotiates no more. -/
def fencePort (p : Nat) (s : State) : State :=
  setLstate p 0 (linkDown p (flushStaging .ltx p (flushStaging .lrx p (markFenced (.port (BitVec.ofNat 7 p)) true s))))

/-- Does a free value say that a queued packet is lost? -/
def lostNow (s : State) : Bool × State :=
  let (n, s) := fresh s
  (Config.cellLost n, s)

/-- Packets of an egress queue that are lost: their cells are free. -/
def loseEgress : List EgPkt → State → State
  | [], s => s
  | e :: t, s =>
    let (gone, s) := lostNow s
    loseEgress t (if gone then creditBack e.src (withXbr (fun x => { x with egq := x.egq.erase e }) s) else s)

/-- Packets of an input queue that are lost. -/
def loseInput : List InPkt → State → State
  | [], s => s
  | i :: t, s =>
    let (gone, s) := lostNow s
    loseInput t (if gone then creditBack i (withXbr (fun x => { x with inq := x.inq.erase i }) s) else s)

/-- Packets with a cell in a failed bank group are lost; which have one is a free value. -/
def losePackets (s : State) : State := loseInput s.xbr.inq (loseEgress s.xbr.egq s)

/-- One packet with a failed word is lost, if there is a packet: the first for which a free value says so. -/
def loseOne (s : State) : State :=
  let (n, s) := fresh s
  let k := Config.victim n % (s.xbr.egq.length + s.xbr.inq.length + 1)
  match s.xbr.egq[k]?, s.xbr.inq[k - s.xbr.egq.length]? with
  | some e, _ => creditBack e.src (withXbr (fun x => { x with egq := x.egq.erase e }) s)
  | none, some i => creditBack i (withXbr (fun x => { x with inq := x.inq.erase i }) s)
  | none, none => s

/-- A cluster's memory is out of service: its invocations and queued message activations fail as for UNCORRECTABLE and its cores are
idle. -/
def fenceCluster (c : Nat) (s : State) : State :=
  let s := markFenced (.cluster (BitVec.ofNat 4 c)) true s
  let invs := s.tpr.invocs.filterMap (fun (x : Nat × Invoc) => if x.2.cluster == c && x.2.failed.isNone then some x.1 else none)
  let s := invs.foldl (fun s i => conclude i (invFail i St.taperFault Tf.uncorrectable s)) s
  let s := (List.range 8).foldl (fun s k =>
    match (getCore (8 * c + k) s).act with
    | some a => tprExc (8 * c + k) a Tf.uncorrectable s
    | none => s) s
  let queued := ((tget s.tpr.ready c).getD []).length
  evcPulses 215 Tf.uncorrectable.toNat queued (withTpr (fun t => { t with ready := tdel t.ready c }) s)

/-- The units that a tile takes with it (R394). -/
def tileUnits (t : Nat) : List SUnit :=
  (List.range 8).map (fun e => .port (BitVec.ofNat 7 (8 * t + e))) ++
    [.rdu (BitVec.ofNat 6 (2 * t)), .rdu (BitVec.ofNat 6 (2 * t + 1)), .cluster (BitVec.ofNat 4 t)]

/-- A tile is fenced with its ports, RDU sites, cluster and host attachment, whose islands stop (R389). -/
def fenceTile (t : Nat) (s : State) : State :=
  let s := markFenced (.tile (BitVec.ofNat 4 t)) true s
  let s := (List.range 8).foldl (fun s e => fencePort (8 * t + e) s) s
  let s := fenceRdu (2 * t + 1) (fenceRdu (2 * t) s)
  let s := fenceCluster t s
  let s := (tileUnits t).foldl (fun s u => (unitIslands u).foldl islandStop s) s
  if t % 2 == 0 then flushStaging .rxd (t / 2) (flushStaging .txi (t / 2) s) else s

/-! ### RESTART units (R388, R394) -/

/-- An issued entry finishes where it stands: its ownership word is written and the head does not move (R48). -/
def frozenInPlace (f r k : Nat) (s : State) : State :=
  match getRing f r s with
  | some g =>
    match g.entries[k]? with
    | some e =>
      if e.result.isSome then s
      else
        let i := g.head + BitVec.ofNat 32 k
        putRing f r { g with entries := setAt g.entries k { e with result := some (St.frozen, 0) } }
          (ringWrite f (entryAddr g i) (leBytes 8 (finishedWord g.log2size i e.raw St.frozen 0)) s)
    | none => s
  | none => s

/-- The CMP is fenced: rings enter STOPPED_DEVICE, issued entries finish FROZEN and the head stays (R48). A ring that is frozen
already stays so (DEDUCED). -/
def ringDeviceStop (s : State) (key : Nat) : State :=
  let f := key / 4096
  let r := key % 4096
  match getRing f r s with
  | none => s
  | some g =>
    if g.state == .frozen then s
    else
      let n := (g.entries.filter (·.issued)).length
      let s := putRing f r { g with
        entries := g.entries.take n, waitOwn := false, issuing := false, reading := none, state := .stoppedDevice } s
      let s := match g.reading with
        | some k => drained k s
        | none => s
      publish f r ((List.range n).foldl (fun s k => frozenInPlace f r k s) s)

/-- The CMP is back: the head passes the finished entries, the accepted tail is the head, and the mirror shows RUNNING (R394). -/
def ringDeviceBack (s : State) (key : Nat) : State :=
  let f := key / 4096
  let r := key % 4096
  match getRing f r s with
  | none => s
  | some g =>
    if g.state != .stoppedDevice then s
    else
      let g := advanceHead g
      publish f r (putRing f r { g with tail := g.head, state := .running } s)

/-- The TXE forgets what it is building, and its staging queues are flushed (R167); the packets are built again. -/
def txeForget (s : State) : State :=
  let ns := s.qpc.qps.filterMap (fun (x : Nat × Qp) => x.2.building.map (·.2))
  let clear (x : Nat × Qp) : Nat × Qp := (x.1, { x.2 with building := none, built := none })
  let s := { s with
    qpc := { s.qpc with qps := s.qpc.qps.map clear }
    xlt := { s.xlt with waiting := s.xlt.waiting.filter (fun w =>
      match w.access.purpose with
      | .txData _ _ => false
      | _ => true) } }
  let s := (List.range 8).foldl (fun s h => flushStaging .txi h (flushStaging .htx h s)) s
  drainsOn (ns.foldl (fun s n => drained n s) s)

/-- Does an atomic update come from a packet, which its sender repeats? -/
def fromPacket : AtomKind → Bool
  | .atomic _ _ => true
  | .counterAdd _ _ _ => true
  | _ => false

/-- The RXE loses its packets and its result table; updates made for this device's own units begin again on its return (DEDUCED). An AtomicOp
that has been issued stays, and its completion still answers its packet: no atomic is performed twice (R380). -/
def rxeForget (s : State) : State :=
  let keep (a : AtomJob) : Option AtomJob :=
    if a.reading && a.pcie && !a.barred then some a
    else if fromPacket a.kind then none
    else some { a with reading := false, barred := false }
  let ns := s.rxe.placing.map (·.serial) ++ s.rxe.resps.map (·.serial) ++
    (s.rxe.atoms.filter (fun a => (keep a).isNone)).map (·.serial)
  let s := { s with
    rxe := { s.rxe with placing := [], resps := [], results := [], atoms := s.rxe.atoms.filterMap keep }
    xlt := { s.xlt with waiting := s.xlt.waiting.filter (fun w =>
      match w.access.purpose with
      | .rxKeyed _ _ => false
      | .rxSend _ _ _ => false
      | _ => true) } }
  let s := drainsOn (ns.foldl (fun s n => drained n s) s)
  (List.range 8).foldl (fun s h => flushStaging .rxp h (flushStaging .rxd h s)) s

/-- The XLT's caches are empty, its locked entries are filled again by walks, and accesses under check begin afresh (R99, R394). -/
def xltForget (s : State) : State :=
  let again (w : Waiting) : Waiting :=
    match w.access.purpose with
    | .lockPage _ => w
    | .mrRegister _ _ => w
    | .mrRevoke _ _ => w
    | _ => { w with leaves := [], wait := .ready }
  { s with xlt := { s.xlt with
      xtc := [], walks := [], descs := []
      locked := s.xlt.locked.map (fun (x : Nat × Locked) => (x.1, { x.2 with stale := true }))
      waiting := s.xlt.waiting.map again } }

/-- The command that the SEC runs fails with its restart (R394): with which RESULT, is a free value. -/
def secFails (s : State) : State :=
  match s.sec.job with
  | none => s
  | some _ =>
    let (n, s) := fresh s
    setRf Reg.SEC_CMD 39 32 (2 + Config.victim n % 4) (setRf Reg.SEC_CMD 16 16 0 { s with sec := { s.sec with job := none } })

/-- What the fence of a RESTART unit does at once. -/
def restartDown (n : Nat) (s : State) : State :=
  let s := (unitIslands (.restart (BitVec.ofNat 8 n))).foldl islandStop s
  if 118 ≤ n && n ≤ 121 then
    [2 * (n - 118), 2 * (n - 118) + 1].foldl (fun s h => flushStaging .rxp h (flushStaging .htx h s)) (flrController (n - 118) s)
  else if n == 123 then (s.cmp.rings.map (fun (x : Nat × Ring) => x.1)).foldl ringDeviceStop s
  else if n == 125 then xltForget s
  else if n == 127 then
    s.qpc.missBuf.foldl (fun s k => sendNak k.1 nakContextBusy 0 s) { s with qpc := { s.qpc with missBuf := [] } }
  else if n == 128 then txeForget s
  else if n == 130 then rxeForget s
  else if n == 134 then (List.range 128).foldl (fun s p => demoteQ1 p (fun _ => true) s) s
  else if n == 140 then secFails s
  else s

/-- Every counter's OVF is set (R394). -/
def overflowAll (s : State) : State := (List.range 1536).foldl (fun s n => setRf (Reg.EVC_CNT + 8 * n) 48 48 1 s) s

/-- A mailbox that was FULL becomes EMPTY with GEN advanced (R394). -/
def mbxLost (x : Nat × Mbx) : Nat × Mbx :=
  (x.1, if x.2.state == .full then { Mbx.empty with gen := x.2.gen + 1 } else x.2)

/-- What the return of a RESTART unit does. -/
def restartBack (n : Nat) (s : State) : State :=
  let s := (unitIslands (.restart (BitVec.ofNat 8 n))).foldl islandStart s
  if n == 123 then (s.cmp.rings.map (fun (x : Nat × Ring) => x.1)).foldl ringDeviceBack s
  else if n == 126 then
    let held := s.qpc.missBuf
    let s := { s with qpc := { s.qpc with missBuf := [] } }
    let s := (s.qpc.qps.map (fun (x : Nat × Qp) => x.1)).foldl (fun s q => enterError q 0x83 0 s) s
    let s := s.qpc.fetches.foldl (fun s (x : Nat × Fetch) => if x.2.waitSlot then s else issueFetch x.1 x.2 s) s
    held.foldl (fun s k => sendNak k.1 nakContextBusy 0 s) s
  else if n == 130 then startAtoms s
  else if n == 133 then (s.qpc.qps.map (fun (x : Nat × Qp) => x.1)).foldl (fun s q => processAll q s) s
  else if n == 136 then semLose s
  else if n == 137 then { s with mbx := s.mbx.map mbxLost }
  else if n == 138 then overflowAll { s with clk := { s.clk with held := [] } }
  else if n == 139 then ltnBack s
  else if n == 141 then mgtReset 3 s
  else s

/-- A RESTART unit is fenced and reset in place; a further strike begins the restart again. -/
def restartUnit (n : Nat) (s : State) : State :=
  let again := s.snf.restarting.contains n
  let s := if again then s else { s with snf := { s.snf with restarting := s.snf.restarting ++ [n] } }
  restartDown n s

/-! ### Any unit -/

/-- The Snuffer fences a unit (R389, R394). -/
def fenceUnit (u : SUnit) (s : State) : State :=
  let s := (unitIslands u).foldl islandStop s
  match u with
  | .core x => fenceCore x.toNat s
  | .rdu x => fenceRdu x.toNat s
  | .port p => fencePort p.toNat s
  | .bank _ => losePackets (markFenced u true s)
  | .tile t => fenceTile t.toNat s
  | .cluster c => fenceCluster c.toNat s
  | .restart n =>
    let s := markFenced u true { s with snf := { s.snf with restarting := s.snf.restarting.filter (· != n.toNat) } }
    restartDown n.toNat s

/-- A native core or RDU site comes back (R393): it takes its number if that is ABSENT and no spare is about to serve it; else it is an
idle spare. -/
def siteBack (map site : Nat) (s : State) : State :=
  if bit 8 (rdReg (map + 8 * site) s) && !s.snf.spares.any (fun x =>
      match x.1 with
      | .core _ => map == Reg.SNF_MAP_CORE && x.2.1 == site
      | .rdu _ => map == Reg.SNF_MAP_RDU && x.2.1 == site
      | _ => false)
  then setRf (map + 8 * site) 8 0 site s else s

/-- A unit's strikes are forgotten (R393). -/
def clearStrikes (u : SUnit) (s : State) : State :=
  { s with snf := { s.snf with strikes := s.snf.strikes.filter (fun x => x.1 != u) } }

/-- A unit returns to service (R393). -/
def unitBack (u : SUnit) (s : State) : State :=
  let s := markFenced u false (clearStrikes u s)
  let s := (unitIslands u).foldl islandStart s
  match u with
  | .core x => if x.toNat < 128 then siteBack Reg.SNF_MAP_CORE x.toNat s else s
  | .rdu x => if x.toNat < 32 then siteBack Reg.SNF_MAP_RDU x.toNat s else s
  | .port p => tryStart p.toNat s
  | .bank _ => s
  | .cluster _ => s
  | .tile t =>
    let t := t.toNat
    let s := (tileUnits t).foldl (fun s u => (unitIslands u).foldl islandStart s) s
    let s := (List.range 8).foldl (fun s e =>
      tryStart (8 * t + e) (markFenced (.port (BitVec.ofNat 7 (8 * t + e))) false s)) s
    let s := [2 * t, 2 * t + 1].foldl (fun s r =>
      siteBack Reg.SNF_MAP_RDU r (markFenced (.rdu (BitVec.ofNat 6 r)) false s)) s
    markFenced (.cluster (BitVec.ofNat 4 t)) false s
  | .restart n => restartBack n.toNat s

end Sys2Proof.Machine
end

