-- ==== Sys2Proof/Machine/Faults.lean ====
section
/-! DEFINITION. The meanings of the commands of fault containment (13: R383 to R399). -/

namespace Sys2Proof.Machine

/-! ### Occurrences and strikes (R383, R384, R387) -/

/-- An hour in 1/16 ns. -/
def hours (h : Nat) : Nat := h * (3600 * 16000000000)

/-- The times at which a unit was struck. -/
def strikesOf (u : SUnit) (s : State) : List Nat := ((s.snf.strikes.find? (fun x => x.1 == u)).map (·.2)).getD []

/-- A strike against a unit (R387). -/
def strike (src : Nat) (s : State) (u : SUnit) : State :=
  let cfg := rdReg (Reg.FCU_CFG + 8 * src) s
  let ts := s.now :: strikesOf u s
  let n := (ts.filter (fun t => s.now ≤ t + hours (nz (bits 23 16 cfg)))).length
  let k := bits 11 8 cfg
  let s := { s with snf := { s.snf with strikes := (u, ts) :: s.snf.strikes.filter (fun x => x.1 != u) } }
  if k != 0 && k ≤ n then fenceUnit u s
  else
    match u with
    | .restart r => restartUnit r.toNat s
    | _ => s

/-- The units that an occurrence strikes: a die interface is its tile's 16 bank groups (R382). -/
def struckUnits (src : Nat) (u : SUnit) (s : State) : List SUnit :=
  match u with
  | .bank g =>
    if 145 ≤ src then
      ((List.range 16).map (fun k => SUnit.bank (BitVec.ofNat 8 (16 * (g.toNat / 16) + k)))).filter (fun u => !isFenced u s)
    else [u]
  | _ => [u]

/-- The state of one semaphore is lost (R374). -/
def semLostOne (n : Nat) (s : State) : State :=
  let x := getSem n s
  x.queue.foldl (fun s m => if isCore m then semReturn m n 3 s else s)
    (putSem n { x with holder := none, queue := [], abandoned := true, excused := none } s)

/-- One packet of the miss buffer is refused (R394, R396). -/
def missLost (k : Nat) (s : State) : State :=
  match s.qpc.missBuf[k]? with
  | some p => sendNak p.1 nakContextBusy 0 { s with qpc := { s.qpc with missBuf := s.qpc.missBuf.eraseIdx k } }
  | none => s

/-- An activation of a cluster meets an uncorrectable word (R233). -/
def clusterLost (c k : Nat) (s : State) : State :=
  match (getCore (8 * c + k) s).act with
  | some a => tprExc (8 * c + k) a Tf.uncorrectable s
  | none => s

/-- One of a list, as a free value says; none is as likely as any. -/
def victimOf {α : Type} (v : Nat) (l : List α) : Option α := l[v % (l.length + 1)]?

/-- The CMP's copy of an entry not yet issued is lost: its ring stops at the entry (R48). -/
def entryLost (key : Nat) (s : State) : State :=
  let f := key / 4096
  let r := key % 4096
  let s := dropIssue f r s
  match getRing f r s with
  | some g => setRingState f r .stoppedFetch (putRing f r { g with entries := g.entries.filter (·.issued), waitOwn := false } s)
  | none => s

/-- The rings with a fetched entry that waits to be issued. -/
def ringsFetched (s : State) : List Nat :=
  s.cmp.rings.filterMap (fun (k, g) => if g.state == .running && g.entries.any (fun e => !e.issued) then some k else none)

/-- A word of the XLT is lost (R99): a cache's entry goes and the next lookup misses; a locked entry, both copies of which are lost, is
filled again by a walk. -/
def xltWordLost (v : Nat) (s : State) : State :=
  let x := s.xlt
  let w := v / 4
  if v % 4 == 0 then { s with xlt := { x with xtc := x.xtc.eraseIdx (w % (x.xtc.length + 1)) } }
  else if v % 4 == 1 then { s with xlt := { x with walks := x.walks.eraseIdx (w % (x.walks.length + 1)) } }
  else if v % 4 == 2 then { s with xlt := { x with descs := x.descs.eraseIdx (w % (x.descs.length + 1)) } }
  else
    match victimOf w x.locked with
    | some (k, l) => { s with xlt := { x with locked := tset x.locked k { l with stale := true } } }
    | none => s

/-- An uncorrectable instruction fetch of an activation (R233): its program's image is withdrawn in the cluster as well. -/
def fetchLost (c k : Nat) (s : State) : State :=
  match (getCore (8 * c + k) s).act with
  | some a =>
    clusterLost c k (withTpr (fun t => { t with
      images := tmod t.images a.image (fun m => { m with withdrawn := if m.withdrawn.contains c then m.withdrawn else m.withdrawn ++ [c] }) }) s)
  | none => s

/-- The local data of an HXFER in a cluster is lost (R251): HOST_DONE tells it. -/
def hxferLost (c v : Nat) (s : State) : State :=
  match victimOf v (s.tpr.hxfers.filter (fun (_, h) => h.core / 8 == c && h.dir != 2)) with
  | some (id, h) =>
    hxferDone id St.uncorrectable 0 (match h.serial with
      | some n => drained n s
      | none => s)
  | none => s

/-- A word of a cluster's memory is lost (R233): data or an instruction of one of its activations, or data of an HXFER. -/
def memoryLost (c v : Nat) (s : State) : State :=
  if v % 3 == 0 then clusterLost c (v / 3 % 8) s
  else if v % 3 == 1 then fetchLost c (v / 3 % 8) s
  else hxferLost c (v / 3) s

/-- Data of a message that the TXE works on is lost (R67). -/
def txWordLost (v : Nat) (s : State) : State :=
  match victimOf v (s.qpc.qps.flatMap (fun (q, x) => x.msgs.map (fun m => (q, m)))) with
  | some (q, m) => failMsg q m St.uncorrectable 0 s
  | none => s

/-- A word of the RXE is lost: an entry of the atomic result table goes (R381), or a packet that is being placed, which is neither
marked nor counted (R396). -/
def rxWordLost (v : Nat) (s : State) : State :=
  if v % 2 == 0 then withRxe (fun r => { r with results := r.results.eraseIdx (v / 2 % (r.results.length + 1)) }) s
  else
    match victimOf (v / 2) s.rxe.placing with
    | some p => drained p.serial (withRxe (fun r => { r with placing := r.placing.filter (fun x => x.ser != p.ser) }) s)
    | none => s

/-- A word of the matching stores is lost. What becomes of it the spec does not say: a posted receive finishes with UNCORRECTABLE, and
its queue pair, or that of an unexpected message, enters ERROR with it (DESIGN CHOICE; R67). -/
def matchWordLost (v : Nat) (s : State) : State :=
  if v % 2 == 0 then
    match victimOf (v / 2) s.mte.posted with
    | some r =>
      let s := withMte (fun m => { m with posted := m.posted.filter (fun x => x.id != r.id) }) s
      enterError r.qpn St.uncorrectable 0 (writeNotice r.fn r.arv .recv (recvNotice r 0 false 0 0 St.uncorrectable 0 4) s)
    | none => s
  else
    match victimOf (v / 2) s.mte.unexp with
    | some u => enterError u.qpn St.uncorrectable 0 s
    | none => s

/-- What becomes of the data of an uncorrectable word (R396): which word it is, is a free value. An RDU's REDUCE, an MCAST, and what the
COL's pipeline holds are done again, bit-identical (R394), and of the other blocks' words only the sticky bit tells. -/
def dataLoss (src : Nat) (u : SUnit) (s : State) : State :=
  if src < 48 || (145 ≤ src && src < 161) then loseOne s
  else
    let (n, s) := fresh s
    let v := Config.victim n
    if 48 ≤ src && src < 64 then memoryLost (src - 48) v s
    else if 64 ≤ src && src < 80 then
      match u with
      | .core site =>
        match coreServes site.toNat s with
        | some l => clusterLost (l / 8) (l % 8) s
        | none => s
      | _ => s
    else if src == 123 then
      match victimOf v (ringsFetched s) with
      | some k => entryLost k s
      | none => s
    else if src == 125 then xltWordLost v s
    else if src == 126 then
      match victimOf v s.qpc.qps with
      | some x => enterError x.1 0x83 0 s
      | none => s
    else if src == 127 then missLost (v % (s.qpc.missBuf.length + 1)) s
    else if src == 128 then txWordLost v s
    else if src == 130 then rxWordLost v s
    else if src == 133 then matchWordLost v s
    else if src == 136 then semLostOne (v % 1024) s
    else if src == 137 then
      match victimOf v s.mbx with
      | some x => putMbx x.1 (mbxLost x).2 s
      | none => s
    else if src == 138 then setRf (Reg.EVC_CNT + 8 * (v % 1536)) 48 48 1 s
    else s

/-- The staging queue that an occurrence of a source strikes (R168): which one it is, is a free value. -/
def stagingStruck (src v : Nat) : StgKind × Nat :=
  if src == 122 then (if v % 16 < 8 then .htx else .rxp, v % 8)
  else if src == 129 then (.txi, v % 8)
  else if src == 131 then (.rxd, v % 8)
  else (if v % 256 < 128 then .lrx else .ltx, v % 128)

/-- The two copies of a staging queue's pointers are compared (R168): if they disagree it is flushed, PTR_ERR is set, and the queue
restarts with both copies at zero. -/
def stagingCompare (k : StgKind) (i : Nat) (s : State) : State :=
  if (getStg k i s).agrees s.now then s else setRf (stgReg k + 8 * i) 1 1 1 (stgRestart k i (flushStaging k i s))

/-- The island of a staging queue (R450): the core side of the HIF controller, the TXE's or RXE's of the host port, or a side of the port's
link. -/
def stagingIsland (k : StgKind) (i : Nat) : Nat :=
  match k with
  | .htx => 352 + i / 2
  | .rxp => 352 + i / 2
  | .txi => 360 + i / 2
  | .rxd => 364 + i / 2
  | .lrx => 32 + i
  | .ltx => 160 + i

/-- An occurrence at a staging queue: one copy of its pointers is struck, by how much is a free value, and the compare finds it (R168). -/
def stagingFault (src : Nat) (s : State) : State :=
  let (n, s) := fresh s
  let (m, s) := fresh s
  let (k, i) := stagingStruck src (Config.victim n)
  stagingCompare k i (stgStrike k i (Config.victim m) (fcuOccurIn (some (stagingIsland k i)) src s))

/-- The island of the unit in which an occurrence is raised (R450); `v` chooses among the islands of one unit. -/
def unitIsland (src v : Nat) (u : SUnit) : Option Nat :=
  match u with
  | .core x => some (if x.toNat < 128 then 288 + x.toNat / 8 else 304 + (x.toNat - 128))
  | .rdu x => some (312 + x.toNat)
  | .port p => some ((if v % 2 == 0 then 32 else 160) + p.toNat)
  | .bank g => some (16 + g.toNat / 16)
  | .tile t => some t.toNat
  | .cluster c => some (288 + c.toNat)
  | .restart n =>
    if src == 128 then some (360 + v % 4)
    else if src == 130 then some (364 + v % 4)
    else if src == 134 then some (v % 16)
    else if 118 ≤ src && src ≤ 121 then some ((if v % 2 == 0 then 348 else 352) + (src - 118))
    else srcIsland n.toNat

/-- An occurrence in a unit as the FCU captures it (R383): in which island of a unit of several it is raised, is a free value. -/
def fcuOccurAt (src : Nat) (u : SUnit) (s : State) : State :=
  if captureSource src then fcuOccur src s
  else
    let (n, s) := fresh s
    fcuOccurIn (unitIsland src (Config.victim n) u) src s

/-- The units that an occurrence strikes are struck (R387). -/
def strikeUnits (src : Nat) (u : SUnit) (s : State) : State := (struckUnits src u s).foldl (strike src) s

/-- Has a source a duplicated compare or a vote (R382)? -/
def hasCompare (src : Nat) : Bool :=
  src < 16 || (32 ≤ src && src < 48) || (64 ≤ src && src < 80) || (116 ≤ src && src ≤ 123) ||
  src == 125 || src == 126 || (128 ≤ src && src ≤ 135) || src == 140 || (142 ≤ src && src ≤ 144)

/-- Has the checker of an occurrence found a word that cannot be corrected, and not a difference of duplicated state? Where a source has both
kinds of checker, which it was is a free value. -/
def wordWrong (src : Nat) (s : State) : Bool × State :=
  if hasCompare src then
    let (n, s) := fresh s
    (Config.wordFault n, s)
  else (true, s)

/-- The reactions to an occurrence in a unit: the data of a wrong word is discarded whatever the strike does (R387, R396). The activation of a
core that the strike fences ends with CORE_FENCED and meets the word no more (R394). -/
def reactions (src : Nat) (u : SUnit) (word strikes : Bool) (s : State) : State :=
  let cut (s : State) : State := if word then dataLoss src u s else s
  let hit (s : State) : State := if strikes then strikeUnits src u s else s
  if 64 ≤ src && src < 80 then
    let s := hit s
    if isFenced u s then s else cut s
  else hit (cut s)

/-- The two GTIME counters differ (R390): the larger value is kept, and the TMU enters ACQUIRE. What the wrong one holds is a free value. -/
def gtimeDiffers (s : State) : State :=
  let (n, s) := fresh s
  let other : BitVec 64 := Config.gtimeOther n
  setTmuState 1 (fcuOccur 135 { s with gtime := if s.gtime.toNat < other.toNat then other else s.gtime })

/-- An occurrence with every reaction (R383, R384, R387, R388, R390). -/
def occurFull (src : Nat) (u : SUnit) (s : State) : State :=
  if src == 122 || src == 129 || src == 131 || src == 132 then stagingFault src s
  else if src == 135 then gtimeDiffers s
  else if captureSource src then fcuOccur src s
  else
    let (w, s) := wordWrong src s
    reactions src u w true (fcuOccurAt src u s)

/-- The source that covers a clock island, with the unit (R382, R401, R450). An interface of the buffer is that between the dies, and the
island of a cluster its memory's (DEDUCED). A spare core has the source of the cluster that it serves. -/
def islandUnit (i : Nat) (s : State) : Option (Nat × SUnit) :=
  if i < 16 then some (i, .tile (BitVec.ofNat 4 i))
  else if i < 32 then some (145 + (i - 16), .bank (BitVec.ofNat 8 (16 * (i - 16))))
  else if i < 288 then some (32 + (i - 32) % 128 / 8, .port (BitVec.ofNat 7 ((i - 32) % 128)))
  else if i < 304 then some (48 + (i - 288), .cluster (BitVec.ofNat 4 (i - 288)))
  else if i < 312 then (coreServes (128 + (i - 304)) s).map (fun l => (64 + l / 8, .core (BitVec.ofNat 8 (128 + (i - 304)))))
  else if i < 348 then some (80 + (i - 312), .rdu (BitVec.ofNat 6 (i - 312)))
  else
    let src :=
      if i < 356 then 118 + (i - 348) % 4
      else if i == 356 then 123
      else if i < 360 then 125 + (i - 357)
      else if i < 364 then 128
      else if i < 368 then 130
      else if i == 368 then 133
      else if i == 369 then 117
      else if i == 370 then 116
      else if i < 374 then 144
      else if i < 377 then 143
      else if i < 380 then 142
      else if i < 382 then 135
      else if i < 386 then 136 + (i - 382)
      else if i == 386 then 141
      else 140
    some (src, .restart (BitVec.ofNat 8 src))

/-- Is a unit stopped by the Snuffer? -/
def unitStopped (src : Nat) (u : SUnit) (s : State) : Bool :=
  match u with
  | .restart n => unitFenced n.toNat s
  | _ => (struckUnits src u s).all (fun u => isFenced u s)

/-- The unit that owns an island raises its own source for the island's clock (R413). No word is lost with it. -/
def clockLost (i : Nat) (s : State) : State :=
  match islandUnit i s with
  | none => s
  | some (src, u) => if captureSource src then occurFull src u s else strikeUnits src u (fcuOccurIn (some i) src s)

/-- Can an occurrence of a source arise in a unit now? A unit that is fenced or without power checks nothing. -/
def canOccur (src : Nat) (u : SUnit) (s : State) : Bool :=
  if captureSource src then true else covers src u s && !isFenced u s && domOn (unitDomain u) s

/-- One of the armed checks has been affected (R398). -/
def injectCount (s : State) : State :=
  let c := rf Reg.FCU_INJECT 47 40 s - 1
  let s := setRf Reg.FCU_INJECT 47 40 c s
  if c == 0 then setRf Reg.FCU_INJECT 31 31 0 s else s

/-- An injected occurrence (R398, R399): a TWO_SYMBOL check loses its word, and what FULL withholds is the strike alone. -/
def injected (src : Nat) (u : SUnit) (s : State) : State :=
  let v := rdReg Reg.FCU_INJECT s
  if !bit 31 v || bits 7 0 v != src then s
  else
    let s := injectCount s
    let mode := bits 33 32 v
    if mode == 1 then evcPulse 192 src s
    else if src == 135 then setTmuState 1 (fcuOccur src s)
    else if captureSource src then occurFull src u s
    else reactions src u (mode == 2) (bit 34 v) (fcuOccurAt src u s)

/-- Does an occurrence arise in an island that is replayed (R457)? Among the islands of one unit, the first. -/
def inReplay (src : Nat) (u : SUnit) (s : State) : Bool :=
  s.ltn.replaying && !captureSource src && (unitIsland src 0 u).any s.ltn.replayed.contains

/-- FAULT_OCCURRENCE (R383, R384, R387 to R390, R399). Sources 188 to 191 never occur; a protection source occurs with the access
that breaks its rule and not by itself. A checker of a replayed island reports to LTN_RSTAT alone (R457). -/
def execFaultOccurrence (src : BitVec 8) (u : SUnit) (inj : Bool) (s : State) : Host.Outcome State Fault Refusal :=
  act (fun s =>
    let n := src.toNat
    if 188 ≤ n || n == 124 || (161 ≤ n && n ≤ 163) || !canOccur n u s then s
    else if inReplay n u s then
      let (k, s) := fresh s
      if Config.markRecorded k then s else setRf Reg.LTN_RSTAT 1 0 2 s
    else if inj then injected n u s
    else occurFull n u s) s

/-! ### Spares and restarts (R388, R389, R392) -/

/-- A spare serves the logical unit from now on. -/
def spareServes (u : SUnit) (l : Nat) (s : State) : State :=
  let s := (unitIslands u).foldl islandStart (dropSpare u s)
  match u with
  | .core x => resetCores [l] (setRf (Reg.SNF_MAP_CORE + 8 * l) 8 0 x.toNat s)
  | .rdu x => setRf (Reg.SNF_MAP_RDU + 8 * l) 8 0 x.toNat s
  | _ => s

/-- SPARE_IN_SERVICE (R389, R392): 1 µs after the fence for a core, 2 µs for an RDU, and not before its domain is on. -/
def execSpareInService (u : SUnit) (s : State) : Host.Outcome State Fault Refusal :=
  act (fun s =>
    match s.snf.spares.find? (fun x => x.1 == u) with
    | some x => if domOn (unitDomain u) s then spareServes u x.2.1 (advanceTo x.2.2 s) else s
    | none => s) s

/-! ### Restoring a unit (R393) -/

/-- The unit that CLASS and INDEX of SNF_CTRL name, if there is one. -/
def ctrlUnit (v : BitVec 64) : Option SUnit :=
  let c := bits 26 24 v
  let i := bits 15 0 v
  if c == 0 && i < 136 then some (.core (BitVec.ofNat 8 i))
  else if c == 1 && i < 36 then some (.rdu (BitVec.ofNat 6 i))
  else if c == 2 && i < 128 then some (.port (BitVec.ofNat 7 i))
  else if c == 3 && i < 256 then some (.bank (BitVec.ofNat 8 i))
  else if c == 4 && i < 16 then some (.tile (BitVec.ofNat 4 i))
  else if c == 5 && i < 26 then some (.restart (BitVec.ofNat 8 (116 + i)))
  else none

/-- The domains that a power state has on, apart from what else R402 asks (R415). -/
def stateKeeps (st d : Nat) (s : State) : Bool :=
  if d == 0 then true
  else if st == 0 then true
  else if st == 1 then
    if 1 ≤ d && d ≤ 128 then bit ((d - 1) % 64) (rdReg (Reg.CLK_P1_KEEP + 8 * ((d - 1) / 64)) s) else true
  else if st == 2 then 205 ≤ d && d ≤ 208
  else false

/-- The end of a restore with its RESULT. -/
def restoreEnd (result : Nat) (s : State) : State :=
  setRf Reg.SNF_CTRL 33 32 result (setRf Reg.SNF_CTRL 31 31 0 { s with snf := { s.snf with restore := none } })

/-- A GO of SNF_CTRL: refused if the unit is not fenced, held until P0 if its domain is off by the power state, else started. -/
def restoreGo (s : State) : State :=
  match ctrlUnit (rdReg Reg.SNF_CTRL s) with
  | none => restoreEnd 3 s
  | some u =>
    if !isFenced u s then restoreEnd 3 s
    else if !stateKeeps (effState s) (unitDomain u) s then { s with clk := { s.clk with restoreWaits := true } }
    else { s with snf := { s.snf with restore := some u } }

/-- UNIT_RESTORE (R393). A write while a restore runs is ignored and counted (DESIGN CHOICE). -/
def execUnitRestore (m : Master) (v : BitVec 64) (s : State) : Host.Outcome State Fault Refusal :=
  act (mgtWr m (fun s =>
    if rf Reg.SNF_CTRL 31 31 s == 1 then ignored 143 s
    else
      let s := setRf Reg.SNF_CTRL 15 0 (bits 15 0 v) (setRf Reg.SNF_CTRL 26 24 (bits 26 24 v) s)
      if bit 31 v then restoreGo (setRf Reg.SNF_CTRL 33 32 0 (setRf Reg.SNF_CTRL 31 31 1 s)) else s)) s

/-! ### Injection (R398, R431, R432) -/

/-- FREEZE, EVENT and reserved sources (R382). -/
def noInjection (src : Nat) : Bool :=
  src == 124 || (161 ≤ src && src ≤ 165) || 183 ≤ src

/-- The domains of the units of a source. -/
def sourceDomains (src : Nat) : List Nat :=
  if src < 16 then [129 + src]
  else if src < 32 then [129 + (src - 16)]
  else if src < 48 then (List.range 8).map (fun k => 1 + 8 * (src - 32) + k)
  else if src < 64 then [145 + (src - 48)]
  else if src < 80 then [145 + (src - 64)]
  else if src < 116 then [169 + (src - 80)]
  else if src == 116 || src == 117 || src == 133 then [211]
  else if src < 122 then [205 + (src - 118)]
  else if src == 122 || src == 182 then [205, 206, 207, 208]
  else if src == 123 || (125 ≤ src && src ≤ 127) then [209]
  else if 128 ≤ src && src ≤ 131 then [210]
  else if src == 132 then (List.range 128).map (fun k => 1 + k)
  else if src == 134 then (List.range 16).map (fun k => 129 + k)
  else if 145 ≤ src && src < 161 then [129 + (src - 145)]
  else if 166 ≤ src && src < 182 then [129 + (src - 166)]
  else [0]

/-- Does the security state permit injection for a source (R431, R432)? -/
def injectPermitted (src : Nat) (full : Bool) (s : State) : Bool :=
  let level := rf Reg.SEC_STATE 1 0 s
  (level == 2 || (level == 1 && !full)) &&
    (powerState s != 2 || (sourceDomains src).any (fun d => stateKeeps 2 d s))

/-- Is a write that would arm injection refused (R398)? -/
def injectRefused (v : BitVec 64) (s : State) : Bool :=
  let src := bits 7 0 v
  let mode := bits 33 32 v
  !injectPermitted src (bit 34 v) s || noInjection src || mode == 0 || (mode == 3 && !hasCompare src)

/-- A write of FCU_INJECT. A refused write leaves the fields and disarms (DEDUCED). -/
def injectWrite (v : BitVec 64) (s : State) : State :=
  let s := if bit 30 v then setRf Reg.FCU_INJECT 30 30 0 s else s
  if bits 47 40 v != 0 && injectRefused v s then setRf Reg.FCU_INJECT 30 30 1 (setRf Reg.FCU_INJECT 31 31 0 s)
  else
    let s := setRf Reg.FCU_INJECT 7 0 (bits 7 0 v) (setRf Reg.FCU_INJECT 34 32 (bits 34 32 v)
      (setRf Reg.FCU_INJECT 47 40 (bits 47 40 v) s))
    setRf Reg.FCU_INJECT 31 31 (if bits 47 40 v == 0 then 0 else 1) s

/-- FCU_INJECT_WRITE (R398). -/
def execFcuInjectWrite (m : Master) (v : BitVec 64) (s : State) : Host.Outcome State Fault Refusal :=
  plain (mgtWr m (injectWrite v)) s

/-- A change of the security or power state withdraws the permission of the armed injection (R398, R433). -/
def injectRecheck (s : State) : State :=
  let v := rdReg Reg.FCU_INJECT s
  if bit 31 v && !injectPermitted (bits 7 0 v) (bit 34 v) s then setRf Reg.FCU_INJECT 31 31 0 s else s

/-- Entering P1 or P2 disarms an injection whose source lies in a domain switched off (R433). -/
def injectDisarm (st : Nat) (s : State) : State :=
  let v := rdReg Reg.FCU_INJECT s
  if bit 31 v && (sourceDomains (bits 7 0 v)).all (fun d => !stateKeeps st d s) then setRf Reg.FCU_INJECT 31 31 0 s else s

/-! ### Sticky bits, scrubbing, sensors (R385, R386, R397, R508, R515) -/

/-- STICKY_CLEAR (R385, R386): the command's occurrence, if one meets it in its cycle, comes after it and is first. -/
def execStickyClear (m : Master) (merged : Bool) (w : BitVec 2) (v : BitVec 64) (s : State) : Host.Outcome State Fault Refusal :=
  plain (mgtWr m (fun s =>
    if w == 3 then ignored 144 s
    else writeReg ((if merged then Reg.FCU_MERGED else Reg.FCU_STICKY) + 8 * w.toNat) v s)) s

/-- SCRUB (R396, R397): `n` corrected symbols of a source's words, in words that a scrub pass reads, or that are read otherwise while EN is 0;
`hour` of them in one RAM instance within an hour. -/
def execScrub (src : BitVec 8) (n hour : BitVec 32) (s : State) : Host.Outcome State Fault Refusal :=
  plain (fun s =>
    let c := rdReg Reg.SNF_SCRUB s
    if 192 ≤ src.toNat then s
    else
      let s := evcPulses 192 src.toNat n.toNat s
      if nz (bits 31 16 c) < hour.toNat then fcuOccur 187 s else s) s

/-- THERMAL_WARNING (R515). -/
def execThermalWarning (s : State) : Host.Outcome State Fault Refusal := plain (fcuOccur 164) s

/-- SUPPLY_OUT_OF_RANGE (R508). -/
def execSupplyOutOfRange (s : State) : Host.Outcome State Fault Refusal := plain (fcuOccur 165) s

end Sys2Proof.Machine
end

