-- ==== Sys2Proof/Machine/Power.lean ====
section
/-! DEFINITION. The meanings of the commands of clocks and power (14: R402 to R420; 19: R508, R514, R516). -/

namespace Sys2Proof.Machine

/-! ### Domains (R402, R403, R414) -/

/-- Should a domain be on (R402)? A restore powers its unit's domain (R393). -/
def domWanted (d : Nat) (s : State) : Bool :=
  if d == 0 then true
  else if s.clk.trip.isSome || 212 ≤ d then false
  else
    let kept := stateKeeps (effState s) d s
    let restoring := s.snf.restore.any (fun u => unitDomain u == d)
    if d ≤ 128 then (portServes (d - 1) s && adminUp (d - 1) s) || (kept && restoring)
    else if d ≤ 144 then kept && (restoring || !isFenced (.tile (BitVec.ofNat 4 (d - 129))) s)
    else if d ≤ 160 then kept && (restoring || !isFenced (.cluster (BitVec.ofNat 4 (d - 145))) s)
    else if d ≤ 168 then
      let site := 128 + (d - 161)
      kept && (restoring || (coreServes site s).isSome || s.snf.spares.any (fun x => x.1 == .core (BitVec.ofNat 8 site)))
    else if d ≤ 204 then
      let site := d - 169
      let u : SUnit := .rdu (BitVec.ofNat 6 site)
      kept && (restoring || (!isFenced u s && ((rduServes site s).isSome || s.snf.spares.any (fun x => x.1 == u))))
    else kept

/-- The islands of a domain (R401, R450); those of domain 0 cannot be recorded. -/
def domIslands (d : Nat) : List Nat :=
  if d == 0 then []
  else if d ≤ 128 then [32 + (d - 1), 160 + (d - 1)]
  else if d ≤ 144 then [d - 129, 16 + (d - 129)]
  else if d ≤ 160 then [288 + (d - 145)]
  else if d ≤ 168 then [304 + (d - 161)]
  else if d ≤ 204 then [312 + (d - 169)]
  else if d ≤ 208 then [348 + (d - 205), 352 + (d - 205)]
  else if d == 209 then [356, 357, 358, 359]
  else if d == 210 then [360, 361, 362, 363, 364, 365, 366, 367]
  else [368, 369, 370]

/-- A test for offsets between two bounds. -/
def between (lo hi : Nat) (off : Nat) : Bool := lo ≤ off && off < hi

/-- The registers that belong to one port. -/
def portReg (p off : Nat) : Bool :=
  [Reg.LNK_STG_RX, Reg.LNK_STG_TX, Reg.LNK_ADV, Reg.LNK_STAT, Reg.LNK_CTRL, Reg.LNK_ASYM, Reg.LNK_TS].any
    (fun b => off == b + 8 * p)

/-- A port goes down for its supply: nothing of its state is kept but the retained registers. -/
def portOff (p : Nat) (s : State) : State :=
  let s := flushStaging .ltx p (flushStaging .lrx p s)
  loseRegs (portReg p) { setLstate p 0 (linkDown p s) with links := tdel (linkDown p s).links p }

/-- Are all domains of a range off? -/
def allOff (lo n : Nat) (s : State) : Bool := (List.range n).all (fun k => !domOn (lo + k) s)

/-- The state that the switch core and the Lamplighter lose when the last tile is off. -/
def latticeOff (s : State) : State :=
  loseRegs (fun o => between 0x080B0000 0x080B2C00 o || between 0x080C0000 0x080C2800 o || between 0x08800000 0x088C0000 o)
    { s with xbr := State.reset.xbr, llt := State.reset.llt, stg := { s.stg with queues := [] } }

/-- Packets leave the switch core with the tile that held them: their cells are free. -/
def dropPackets (ins : List InPkt) (outs : List EgPkt) (s : State) : State :=
  let s := withXbr (fun x => { x with inq := x.inq.filter (fun i => !ins.contains i), egq := x.egq.filter (fun e => !outs.contains e) }) s
  (ins ++ outs.map (·.src)).foldl (fun s i => creditBack i s) s

/-- What a tile loses that goes off while others stay on (R402, R403): the input queues, egress queues, turns, deficits and histograms of
its eight ports. -/
def tileOff (t : Nat) (s : State) : State :=
  let mine (p : Nat) : Bool := p < 128 && p / 8 == t
  let s := dropPackets (s.xbr.inq.filter (fun i => mine i.inp)) (s.xbr.egq.filter (fun e => mine e.port)) s
  let s := loseRegs (between (Reg.XBR_PORT + 64 * t) (Reg.XBR_PORT + 64 * t + 64)) s
  let s := withXbr (fun x => { x with ptr := x.ptr.filter (fun k => !mine k.1) }) s
  withLlt (fun l => { l with
    cur := l.cur.filter (fun k => !mine k.1), deficit := l.deficit.filter (fun k => !mine (k.1 / 16)),
    rr := l.rr.filter (fun k => !mine (k.1 / 16)), granted := l.granted.filter (fun k => !mine (k / 16)),
    hist := l.hist.filter (fun k => !mine (k.1 / 512)) }) s

/-- The memories of a cluster lose their contents: no image of it can be dispatched until it is installed again (DEDUCED, R233). -/
def clusterOff (c : Nat) (s : State) : State :=
  let s := withTpr (fun t => { t with
    ldm := t.ldm.filter (fun x => x.1 / 0x8000 / 8 != c)
    csm := t.csm.filter (fun x => x.1 / 2 ^ 22 != c)
    images := t.images.map (fun (x : Nat × Image) => (x.1, { x.2 with withdrawn := x.2.withdrawn ++ [c] })) }) s
  if allOff 145 16 s then loseRegs (between 0x080A0000 0x080A3000) { s with tpr := State.reset.tpr } else s

/-- What the blocks of a domain lose (R403). -/
def domainLoses (d : Nat) (s : State) : State :=
  if d == 0 then s
  else if d ≤ 128 then portOff (d - 1) s
  else if d ≤ 144 then (if allOff 129 16 s then latticeOff s else tileOff (d - 129) s)
  else if d ≤ 160 then clusterOff (d - 145) s
  else if d ≤ 168 then s
  else if d ≤ 204 then { s with col := { s.col with lacs := s.col.lacs.filter (fun x => x.1 / 4 != d - 169) } }
  else if d ≤ 208 then
    linkRegDown (2 * (d - 205) + 1) (linkRegDown (2 * (d - 205)) s)
  else if d == 209 then
    showFrozen (loseFregs (between 0x10000 0x40000) (loseRegs (between 0x08020000 0x08032000)
      { s with cmp := State.reset.cmp, qpc := State.reset.qpc,
               xlt := { State.reset.xlt with dirty := s.xlt.dirty, nextSerial := s.xlt.nextSerial } }))
  else if d == 210 then
    loseRegs (between 0x08040000 0x08052004) { s with txe := State.reset.txe, rxe := State.reset.rxe }
  else if d == 211 then
    loseFregs (between 0x40000 0x50000) (loseRegs (between 0x08080000 0x08090008)
      { s with mte := State.reset.mte, col := State.reset.col })
  else s

/-- Show a domain on or off. -/
def markDom (d : Nat) (on : Bool) (s : State) : State := setRf (Reg.CLK_DOM_STAT + 8 * (d / 64)) (d % 64) (d % 64) (if on then 1 else 0) s

/-- A domain is switched off (R414 steps 1 to 3). -/
def domainOff (d : Nat) (s : State) : State := domainLoses d (markDom d false ((domIslands d).foldl islandStop s))

/-- A domain is on again (R414 steps 5 and 6): its islands begin from reset, and a port begins negotiation. -/
def domainOn (d : Nat) (s : State) : State :=
  let s := (domIslands d).foldl islandStart (markDom d true s)
  let s := if 145 ≤ d && d ≤ 160 then resetCores ((List.range 8).map (fun k => 8 * (d - 145) + k)) s else s
  if 1 ≤ d && d ≤ 128 then tryStart (d - 1) s else s

/-- A domain no longer ramps. -/
def unramp (d : Nat) (s : State) : State := { s with clk := { s.clk with ramping := s.clk.ramping.filter (· != d) } }

/-- The order in which domains come on after P2 (R418). -/
def domRank (d : Nat) : Nat := if 205 ≤ d then 0 else if d ≤ 128 then 3 else if d ≤ 144 then 1 else 2

/-- After P2, does a domain have to wait for one of an earlier kind (R418)? -/
def mustWait (d : Nat) (s : State) : Bool :=
  powerState s == 2 &&
    (List.range 212).any (fun e => domRank e < domRank d && domWanted e s && !domOn e s && !s.clk.ramping.contains e)

/-- DOMAIN_SWITCH_OFF (R402, R414). -/
def execDomainSwitchOff (d : BitVec 8) (s : State) : Host.Outcome State Fault Refusal :=
  act (fun s => if domOn d.toNat s && !domWanted d.toNat s then domainOff d.toNat s else s) s

/-- DOMAIN_SWITCH_ON (R402, R414): at most four domains ramp at once. -/
def execDomainSwitchOn (d : BitVec 8) (s : State) : Host.Outcome State Fault Refusal :=
  act (fun s =>
    let n := d.toNat
    if domWanted n s && !domOn n s && !s.clk.ramping.contains n && s.clk.ramping.length < 4 && !mustWait n s then
      { s with clk := { s.clk with ramping := s.clk.ramping ++ [n] } }
    else s) s

/-- Does a clock island run: its domain is on and the Snuffer has not stopped it (R389, R413)? -/
def islandRuns (i : Nat) (s : State) : Bool :=
  i < 388 && (371 ≤ i || (List.range 212).any (fun d => (domIslands d).contains i && domOn d s)) &&
    !(16 ≤ i && i < 32 && isFenced (.tile (BitVec.ofNat 4 (i - 16))) s) &&
    match islandUnit i s with
    | some (src, u) => !unitStopped src u s
    | none => !isFenced (.core (BitVec.ofNat 8 (128 + (i - 304)))) s

/-- CLOCK_MONITOR_WINDOW (R413): a bad clock of a running island raises source 186 and the source of the unit that owns it. -/
def execClockMonitorWindow (island : BitVec 9) (bad : Bool) (s : State) : Host.Outcome State Fault Refusal :=
  act (fun s => if bad && islandRuns island.toNat s then clockLost island.toNat (fcuOccur 186 s) else s) s

/-! ### Power states (R415 to R419) -/

/-- Ports that the power state no longer keeps go down (R417, R418). -/
def portsFollow (s : State) : State :=
  (List.range 128).foldl (fun s p => if !portServes p s && lstate p s != 0 then setLstate p 0 (linkDown p s) else s) s

/-- The quiet condition (R419). -/
def quiet (s : State) : Bool :=
  (List.range 1024).all (fun f =>
    ff f Reg.CMR_ADMIN_CTRL 1 1 s == 0 && ff f Reg.XLT_KEYTAB_CTRL 1 1 s == 0 && ff f Reg.QPC_CTXTAB_CTRL 1 1 s == 0 &&
    ff f Reg.MTE_UXCTRL 1 1 s == 0) &&
  s.cmp.rings.isEmpty && s.cmp.arvs.isEmpty && s.tpr.progs.isEmpty

/-- What begins when a state of the path is taken up. -/
def enterPhase (s : State) : State :=
  match effState s with
  | 1 => injectDisarm 1 (portsFollow s)
  | 2 => injectDisarm 2 (portsFollow s)
  | 3 => portsFollow s
  | _ => s

/-- A GO with a TARGET (R416, R418, R419, R433). -/
def pstateGo (target : Nat) (s : State) : State :=
  if rf Reg.CLK_PSTATE 9 9 s == 1 then ignored 142 s
  else
    let cur := powerState s
    let s := setRf Reg.CLK_PSTATE 11 10 0 (setRf Reg.CLK_PSTATE 1 0 target s)
    let halted := rf Reg.SEC_STATE 9 9 s == 1 || rf Reg.SEC_CMD 16 16 s == 1
    if target == cur then setRf Reg.CLK_PSTATE 11 10 1 s
    else if (target == 1 || target == 2) && halted then setRf Reg.CLK_PSTATE 11 10 2 s
    else if target == 2 && !quiet s then setRf Reg.CLK_PSTATE 11 10 2 s
    else
      let path := if cur == 2 && target == 1 then [0, 1] else [target]
      enterPhase { setRf Reg.CLK_PSTATE 9 8 3 s with clk := { s.clk with trans := some ⟨target, path⟩ } }

/-- PSTATE_TO_P0 (R418). -/
def execPstateToP0 (m : Master) (s : State) : Host.Outcome State Fault Refusal := act (mgtWr m (pstateGo 0)) s

/-- PSTATE_TO_P1 (R418). -/
def execPstateToP1 (m : Master) (s : State) : Host.Outcome State Fault Refusal := act (mgtWr m (pstateGo 1)) s

/-- PSTATE_TO_P2 (R418, R419). -/
def execPstateToP2 (m : Master) (s : State) : Host.Outcome State Fault Refusal := act (mgtWr m (pstateGo 2)) s

/-- PSTATE_TO_P3 (R418). -/
def execPstateToP3 (m : Master) (s : State) : Host.Outcome State Fault Refusal := act (mgtWr m (pstateGo 3)) s

/-- Every domain that is no longer to be on is switched off, and does not ramp (R402, R418). -/
def domainsFollow (s : State) : State :=
  let s := (List.range 212).foldl (fun s d => if domOn d s && !domWanted d s then domainOff d s else s) s
  { s with clk := { s.clk with ramping := s.clk.ramping.filter (fun d => domWanted d s) } }

/-- Are all domains on that are to be on? They come on four at a time, by DOMAIN_SWITCH_ON and DOMAIN_RAMP_COMPLETE (R414). -/
def domainsReady (s : State) : Bool := (List.range 212).all (fun d => domOn d s || !domWanted d s)

/-- PSTATE_OUT shows a power state; after a thermal trip it stays as the trip has driven it (R514, R516). A link
is in L1 in P2 alone (R481). -/
def showPstate (v : Nat) (s : State) : State :=
  let s := if v == 2 then s else (List.range 8).foldl (fun s l => wakeLink l s) s
  if s.clk.trip.isSome then s else emit (.pstateOut v) s

/-- A GO of SNF_CTRL that waited for P0 runs (14). -/
def restoreWake (s : State) : State :=
  if powerState s == 0 && s.clk.restoreWaits then restoreGo { s with clk := { s.clk with restoreWaits := false } } else s

/-- The next state of the path is reached. -/
def phaseDone (t : PTrans) (s : State) : State :=
  match t.path with
  | [] => s
  | st :: rest =>
    let s := setRf Reg.CLK_PSTATE 5 4 st (domainsFollow s)
    let s := mgtLog 0x13 (leBytes 4 st) (showPstate st s)
    if rest.isEmpty then
      restoreWake (setRf Reg.CLK_PSTATE 11 10 1 (setRf Reg.CLK_PSTATE 9 8 0 { s with clk := { s.clk with trans := none } }))
    else enterPhase { s with clk := { s.clk with trans := some { t with path := rest } } }

/-- PSTATE_TRANSITION_COMPLETE (R418, R514). P3 waits for the record in progress and for a command of the SEC (R433), and the device is then held until a COLD reset; another
state waits for every domain that comes on. -/
def execPstateTransitionComplete (s : State) : Host.Outcome State Fault Refusal :=
  act (fun s =>
    match s.clk.trans with
    | none => s
    | some t =>
      if t.path.head? == some 3 then
        if s.mgt.xops.isEmpty && s.sec.job.isNone then emit (.pstateOut 3) (setRf Reg.CLK_PSTATE 5 4 3 (heldOff s)) else s
      else if domainsReady s then phaseDone t s
      else s) s

/-- Is a port's bit of CLK_P1_KEEP set (R417)? -/
def kept (p : Nat) (s : State) : Bool := bit (p % 64) (rdReg (Reg.CLK_P1_KEEP + 8 * (p / 64)) s)

/-- A write of CLK_P1_KEEP (R417): ports newly cleared go down, and one newly set whose domain has not gone off yet negotiates again. -/
def writeKeep (off : Nat) (v : BitVec 64) (s : State) : State :=
  let fresh := (List.range 128).filter (fun p => !kept p s && kept p (writeReg off v s))
  fresh.foldl (fun s p => tryStart p s) (portsFollow (writeReg off v s))

/-- CLK_P1_KEEP_WRITE (R417). -/
def execClkP1KeepWrite (m : Master) (w : BitVec 1) (v : BitVec 64) (s : State) : Host.Outcome State Fault Refusal :=
  act (mgtWr m (writeKeep (Reg.CLK_P1_KEEP + 8 * w.toNat) v)) s

/-! ### Supplies and the thermal trip (R508, R516) -/

/-- The links of a controller are lost with the PCIe supply. -/
def pcieSupplyLost (s : State) : State := (List.range 4).foldl (fun s j => controllerDown j s) s

/-- PSTATE_OUT of a device in COLD reset: 0b00 as soon as VDD_AON is in range (R506), 0b11 under TEST_EN (R504). -/
def resetPins (test : Bool) (s : State) : State :=
  if s.clk.brown.contains 5 then s else emit (.pstateOut (if test then 3 else 0)) s

/-- BROWN_OUT (R508). -/
def execBrownOut (rail : BitVec 3) (s : State) : Host.Outcome State Fault Refusal :=
  let n := rail.toNat
  if n == 0 || n == 1 || n == 5 then
    let brown := if s.clk.brown.contains n then s.clk.brown else s.clk.brown ++ [n]
    let c := heldOff s
    .next (resetPins s.clk.testEn { c with clk := { c.clk with brown := brown, testEn := s.clk.testEn } })
  else if n == 2 || n == 3 then act (fun s => (List.range 128).foldl (fun s p => linkDown p s) s) s
  else if n == 4 then act pcieSupplyLost s
  else .next s

/-- The pins and the moment of a thermal trip (R516). -/
def tripPins (s : State) : State :=
  emit (.pstateOut 3) (emit .thermTrip { s with clk := { s.clk with trip := some s.now, trans := none } })

/-- THERMAL_TRIP (R516): every domain but 0 goes off. In P3 only the pin is asserted (R415); what is asserted already stays so. -/
def execThermalTrip (s : State) : Host.Outcome State Fault Refusal :=
  if s.clk.trip.isSome then .next s
  else if s.clk.off && !s.clk.testEn && s.clk.brown.isEmpty then
    .next (emit .thermTrip { s with clk := { s.clk with trip := some s.now } })
  else act (fun s => domainsFollow (portsFollow (tripPins s))) s

end Sys2Proof.Machine
end

