-- ==== Sys2Proof/Machine/Counters.lean ====
section
/-! DEFINITION. The meanings of the commands of the counters and the Lantern (16: R443 to R457). -/

namespace Sys2Proof.Machine

/-! ### Counters (R443 to R448) -/

/-- The number of instances of an event (R443); 0 for a reserved event. -/
def evInstances (ev : Nat) : Nat :=
  if ev < 192 then 1
  else if ev == 192 || ev == 193 then 192
  else if (194 ≤ ev && ev ≤ 198) || ev == 201 || ev == 228 then 1024
  else if ev == 205 || ev == 206 || ev == 208 || ev == 209 then 4
  else if ev == 214 || ev == 218 || ev == 219 then 16
  else if ev == 215 || ev == 217 then 256
  else if ev == 216 then 4096
  else if ev == 222 then 2048
  else if 223 ≤ ev && ev ≤ 227 then 128
  else if ev == 231 then 371
  else if ev ≤ 231 then 1
  else 0

/-- The enabled counters, but for one, that select an event. -/
def evUsers (n ev : Nat) (s : State) : Nat :=
  (s.regs.filter (fun (x : Nat × BitVec 64) =>
    Reg.EVC_CTL ≤ x.1 && x.1 < Reg.EVC_CTL + 8 * 1536 && x.1 != Reg.EVC_CTL + 8 * n && bit 63 x.2 && bits 8 0 x.2 == ev)).length

/-- Is a write of EVC_CTL refused (R445)? -/
def evcRefused (n : Nat) (v : BitVec 64) (s : State) : Bool :=
  let ev := bits 8 0 v
  bit 63 v && (evInstances ev ≤ bits 27 16 v || (!evLevel ev && bits 51 32 v != 0) || (evLevel ev && 4 ≤ evUsers n ev s))

/-- A write to an EVC register array past its end. -/
def evcNone (n count : Nat) (k : State → State) (s : State) : State := if count ≤ n then ignored 138 s else k s

/-- A write of EVC_CTL (R445). -/
def writeEvcCtl (n : Nat) (v : BitVec 64) (s : State) : State :=
  if evcRefused n v s then setRf Reg.EVC_GLOBAL 0 0 1 s else writeReg (Reg.EVC_CTL + 8 * n) v s

/-- EVC_CTL_WRITE (R445). -/
def execEvcCtlWrite (m : Master) (n : BitVec 11) (v : BitVec 64) (s : State) : Host.Outcome State Fault Refusal :=
  plain (mgtWr m (evcNone n.toNat 1536 (cross 138 (regReq m (Reg.EVC_CTL + 8 * n.toNat) v) (writeEvcCtl n.toNat v)))) s

/-- EVC_CNT_WRITE (R446). -/
def execEvcCntWrite (m : Master) (n : BitVec 11) (v : BitVec 64) (inc : BitVec 16) (s : State) : Host.Outcome State Fault Refusal :=
  plain (mgtWr m (evcNone n.toNat 1536 (cross 138 (regReq m (Reg.EVC_CNT + 8 * n.toNat) v)
    (fun s => evcMeet n.toNat inc.toNat (writeReg (Reg.EVC_CNT + 8 * n.toNat) v s))))) s

/-- EN, COUNT and OVF of a page's counters are cleared (R448). -/
def pageClear (b : Nat) (s : State) : State :=
  (List.range 64).foldl (fun s k =>
    setRf (Reg.EVC_CTL + 8 * (64 * b + k)) 63 63 0 (setRf (Reg.EVC_CNT + 8 * (64 * b + k)) 48 0 0 s)) s

/-- A write of EVC_PAGE_EN (R448). -/
def writePageEn (b : Nat) (v : BitVec 64) (s : State) : State :=
  let off := Reg.EVC_PAGE_EN + 8 * b
  if 0x3FF < bits 11 0 v then setRf Reg.EVC_GLOBAL 0 0 1 s
  else if bits 12 0 v == rf off 12 0 s then s
  else writeReg off v (pageClear b s)

/-- EVC_PAGE_EN_WRITE (R448). -/
def execEvcPageEnWrite (m : Master) (b : BitVec 5) (v : BitVec 64) (s : State) : Host.Outcome State Fault Refusal :=
  plain (mgtWr m (evcNone b.toNat 24 (cross 138 (regReq m (Reg.EVC_PAGE_EN + 8 * b.toNat) v) (writePageEn b.toNat v)))) s

/-- EVC_FREEZE (R447). -/
def execEvcFreeze (m : Master) (on : Bool) (s : State) : Host.Outcome State Fault Refusal :=
  plain (mgtWr m (cross 138 (regReq m Reg.EVC_GLOBAL (if on then 2 else 0)) (setRf Reg.EVC_GLOBAL 1 1 (if on then 1 else 0)))) s

/-! ### Recording (R451 to R455) -/

/-- Is the domain of an island on? -/
def islandOn (i : Nat) (s : State) : Bool := (List.range 212).any (fun d => (domIslands d).contains i && domOn d s)

/-- The frames that a mode has room for, if START may use it (R455). -/
def ltnRoom (s : State) : Option Nat :=
  match rf Reg.LTN_CTRL 1 0 s with
  | 1 => some 64
  | 2 =>
    let v := rdReg Reg.LTN_SPILL s
    let n := bits 4 0 v
    if 4 ≤ n && n ≤ 16 && inWindow 0 (BitVec.ofNat 64 (bits 63 16 v * 65536)) (65536 * 2 ^ n) s then some (2 ^ n) else none
  | _ => none

/-- The words that the records of a frame may take (R452). -/
abbrev frameWords : Nat := 8184

/-- The sizes in words of the records of a snapshot: START and SNAPs of at most 511 words of payload (R453). -/
def snapshotSizes (i : Nat) : List Nat :=
  let n := Config.snapshotLength i
  5 :: (List.range ((n + 510) / 511)).map (fun k => 1 + min 511 (n - 511 * k))

/-- The frames that records of these sizes take, each within one frame (R453). -/
def framesFor (sizes : List Nat) : Nat :=
  (sizes.foldl (fun (x : Nat × Nat) z => if x.1 == 0 || frameWords < x.2 + z then (x.1 + 1, z) else (x.1, x.2 + z)) (0, 0)).1

/-- Is a START refused (R455)? -/
def startRefused (s : State) : Bool :=
  match ltnRoom s with
  | some room => room < framesFor (((selected s).filter (fun i => islandOn i s)).flatMap snapshotSizes) + 16
  | none => true

/-! ### Frames (R452, R455) -/

/-- A frame from byte 8 on, with a CRC (R452). -/
def LtnFrame.tail (f : LtnFrame) (crc : Nat) : List Byte :=
  toBytes 8 f.gtime ++ leBytes 4 (8 * f.words.length) ++ leBytes 4 crc ++ List.replicate 40 0 ++ f.words.flatMap (toBytes 8) ++
    List.replicate (8 * (frameWords - f.words.length)) 0

/-- A frame from byte 8 on, with its CRC: over bytes 8 to 65,535 with the CRC's own taken as zero. -/
def LtnFrame.body (f : LtnFrame) : List Byte := f.tail (crc32c (f.tail 0)).toNat

/-- Bytes 0 to 7 of a frame. -/
def LtnFrame.head (f : LtnFrame) : List Byte := leBytes 8 (0x4C54 * 2 ^ 48 + f.seq)

/-- The place of a frame in a buffer of `room` frames (R455): those from START through the last SNAP are pinned, and the rest are reused in
turn. -/
def frameSlot (room : Nat) (s : State) : Nat :=
  if s.ltn.frames < s.ltn.pinned || room ≤ s.ltn.pinned then s.ltn.frames % room
  else s.ltn.pinned + (s.ltn.frames - s.ltn.pinned) % (room - s.ltn.pinned)

/-- A complete frame goes out: to the buffer in RING, to the ring in host memory in SPILL, as PF0 and its bytes 0 to 7 last (R452, R455, R466). -/
def frameOut (f : LtnFrame) (s : State) : State :=
  match s.ltn.ring with
  | some (base, log2) =>
    let a := BitVec.ofNat 64 (base + 65536 * frameSlot (2 ^ log2) s)
    hostWrite 0 a f.head (hostWrite 0 (a + 8) f.body s)
  | none =>
    let k := frameSlot 64 s
    { s with ltn := { s.ltn with buf := tset s.ltn.buf k f, patch := s.ltn.patch.filter (fun (x : Nat × BitVec 64) => x.1 / 8192 != k) } }

/-- The frame being filled is complete: it goes out and FSEQ advances, and after a trigger the POST frames run down (R452, R454). -/
def frameDone (s : State) : State :=
  let q := rf Reg.LTN_STAT 63 16 s
  let s := frameOut ⟨q, s.ltn.frameTime, s.ltn.frame⟩ s
  let s := setRf Reg.LTN_STAT 63 16 (q + 1) { s with ltn := { s.ltn with frames := s.ltn.frames + 1, frame := [] } }
  match s.ltn.post with
  | none => s
  | some k => if k ≤ 1 then ltnEnd s else { s with ltn := { s.ltn with post := some (k - 1) } }

/-- A record goes into the frame being filled, or begins the next one (R453). -/
def ltnPack (s : State) (r : LtnOut) : State :=
  let s := if s.ltn.frame.length + r.words.length ≤ frameWords then s else frameDone s
  { s with ltn := { s.ltn with
    frameTime := if s.ltn.frame.isEmpty then r.gtime else s.ltn.frameTime
    frame := s.ltn.frame ++ r.words
    pinned := if r.pin then s.ltn.frames + 1 else s.ltn.pinned } }

/-- Every record that waits goes into frames. -/
def ltnDrain (s : State) : State := s.ltn.recs.foldl ltnPack { s with ltn := { s.ltn with recs := [] } }

/-- After the end of a recording the last frame goes out as far as it is filled. -/
def ltnFlush (s : State) : State :=
  if rf Reg.LTN_CTRL 6 6 s == 0 && !s.ltn.frame.isEmpty && s.ltn.recs.isEmpty then frameDone s else s

/-- The 8-byte word of the Lantern buffer (R455): as it was written by DBG_WRITE, that of a frame, or what the buffer held before. -/
def lanternWord (k : Nat) (s : State) : BitVec 64 :=
  match tget s.ltn.patch k with
  | some v => v
  | none =>
    match tget s.ltn.buf (k / 8192) with
    | some f => ofBytes 64 (((f.head ++ f.body).drop (8 * (k % 8192))).take 8)
    | none => Config.lanternPower k

/-- A word of the Lantern buffer is written (R430). -/
def lanternSet (k : Nat) (v : BitVec 64) (s : State) : State := { s with ltn := { s.ltn with patch := tset s.ltn.patch k v } }

/-- LTN_CTRL.START (R451, R455). A START during a recording is ignored and counted (DESIGN CHOICE). -/
def ltnBegin (s : State) : State :=
  if rf Reg.LTN_CTRL 6 6 s == 1 then ignored 139 s
  else if startRefused s then setRf Reg.LTN_STAT 0 0 1 s
  else
    let todo := (selected s).filter (fun i => islandOn i s)
    let v := rdReg Reg.LTN_SPILL s
    let s := ltnFlush (ltnDrain s)
    let s := { s with ltn := { s.ltn with
      todo := todo, live := [], prev := [], post := none, late := [], frames := 0, pinned := 0
      ring := if rf Reg.LTN_CTRL 1 0 s == 2 then some (bits 63 16 v * 65536, bits 4 0 v) else none } }
    snapStart (setRf Reg.LTN_CTRL 2 2 1 (setRf Reg.LTN_CTRL 7 6 1 s))

/-- A write of one field of LTN_CTRL that leaves the others as they are, as it is held. -/
def ltnReq (m : Master) (hi lo x : Nat) (s : State) : HeldReq :=
  regReq m Reg.LTN_CTRL (setBits hi lo x (setBits 2 2 0 (setBits 5 5 0 (rdReg Reg.LTN_CTRL s))))

/-- LTN_START (R451, R455). -/
def execLtnStart (m : Master) (s : State) : Host.Outcome State Fault Refusal :=
  plain (mgtWr m (fun s => cross 139 (ltnReq m 2 2 1 s) ltnBegin s)) s

/-- The SNAP records of the island in its pause (R451, R453): its state, which is a free value. -/
def snapRecs (s : State) : List LtnRec × State :=
  match s.ltn.todo with
  | [] => ([], s)
  | i :: _ =>
    let (m, s) := fresh s
    let n := Config.snapshotLength i
    ((List.range ((n + 510) / 511)).map (fun k =>
      .snap i ((List.range (min 511 (n - 511 * k))).map (fun j => Config.snapshotWord m (511 * k + j)))), s)

/-- LTN_TRIGGER (R454). -/
def execLtnTrigger (m : Master) (s : State) : Host.Outcome State Fault Refusal := 
  plain (mgtWr m (fun s => cross 139 (ltnReq m 5 5 1 s) (ltnTrig 1) s)) s

/-- LTN_TIME_TRIGGER (R454). -/
def execLtnTimeTrigger (s : State) : Host.Outcome State Fault Refusal :=
  plain (fun s =>
    if rf Reg.LTN_CTRL 4 4 s == 1 && rf Reg.LTN_CTRL 6 6 s == 1 then
      ltnTrig 2 (reachGtime (rdReg Reg.LTN_TRIG_TIME s).toNat s)
    else s) s

/-- A write of LTN_CTRL.MODE (R454). -/
def writeLtnMode (mode : Nat) (s : State) : State :=
  if rf Reg.LTN_CTRL 6 6 s == 0 then setRf Reg.LTN_CTRL 1 0 mode s
  else if mode == 0 && rf Reg.LTN_CTRL 7 7 s == 0 then ltnEnd (setRf Reg.LTN_CTRL 1 0 0 s)
  else ignored 139 s

/-- LTN_MODE_WRITE (R454). -/
def execLtnModeWrite (m : Master) (mode : BitVec 2) (s : State) : Host.Outcome State Fault Refusal :=
  plain (mgtWr m (fun s => cross 139 (ltnReq m 1 0 mode.toNat s) (writeLtnMode mode.toNat) s)) s

/-- What the recorded islands take in a tick is recorded (R450). An island whose input could not be stored gets a GAP, and nothing more until its
next START (R453). A full count of cycles without a record is a TICK. -/
def ltnInputs (s : State) : State :=
  let (n, s) := fresh s
  let takes := (Config.islandInputs n).filter (fun x => s.ltn.live.contains x.1 && x.2.2.2.length ≤ 511)
  let s := ltnPut (takes.map (fun x => if x.2.1 then .fifo x.1 x.2.2.1 x.2.2.2 else .take x.1 x.2.2.1 x.2.2.2)) s
  let lost := s.ltn.live.filter (Config.inputLost n)
  let s := ltnGap lost { s with ltn := { s.ltn with live := s.ltn.live.filter (fun i => !Config.inputLost n i) } }
  let due := s.ltn.live.filter (fun i => 0xFFFFFFFF ≤ (s.now - (tget s.ltn.prev i).getD s.now) / islandCycle i)
  due.foldl (fun s i => { s with ltn := { s.ltn with
    recs := s.ltn.recs ++ [⟨LtnRec.words (.tick i) 0xFFFFFFFF, s.gtime, false⟩]
    prev := tset s.ltn.prev i ((tget s.ltn.prev i).getD s.now + 0xFFFFFFFF * islandCycle i) } }) s

/-- Time passes for the LTN: inputs are recorded, and records go into frames (R450 to R454). -/
def ltnTick (s : State) : State :=
  if unitFenced 139 s then s
  else
    let s := if rf Reg.LTN_CTRL 6 6 s == 1 then ltnInputs s else s
    ltnFlush (ltnDrain s)

/-! ### Replay (R456, R457) -/

/-- REPLAY_STOP (R457): a stop by STOP_EN holds every replayed island, ISLAND at STOP_CYCLE; without STOP_EN the replay has come to its end. -/
def execReplayStop (mark : Option (Bool × BitVec 8 × BitVec 48)) (s : State) : Host.Outcome State Fault Refusal :=
  plain (fun s =>
    if !s.ltn.replaying then s
    else
      let ended := rf Reg.LTN_RCTRL 0 0 s == 0
      let v := rdReg Reg.LTN_RCTRL s
      let s := { s with ltn := { s.ltn with
        replaying := !ended, heldAt := if ended then none else some (bits 15 7 v, bits 63 16 v) } }
      match mark with
      | none => if ended then setRf Reg.LTN_RSTAT 1 0 3 s else s
      | some (matched, src, cycle) =>
        setRf Reg.LTN_RSTAT 63 16 cycle.toNat (setRf Reg.LTN_RSTAT 15 8 src.toNat
          (setRf Reg.LTN_RSTAT 1 0 (if matched then 1 else 2) s))) s

end Sys2Proof.Machine
end

