-- ==== Sys2Proof/Machine/Security.lean ====
section
/-! DEFINITION. The security controller: its commands (15: R421 to R429), the debug level (R429 to R433), the end of a freeze (R441),
and the meanings of those commands and of the JTAG instructions that read and write nothing of management space (R430). -/

namespace Sys2Proof.Machine

def withSec (f : Sec → Sec) (s : State) : State := { s with sec := f s.sec }

/-- The debug level (R429): 0 NONE, 1 OBSERVE, 2 INVASIVE. -/
def debugLevel (s : State) : Nat := rf Reg.SEC_STATE 1 0 s

/-! ### SEC_BUF and the authorisation block (R425) -/

/-- The first `n` bytes of SEC_BUF. -/
def secBuf (n : Nat) (s : State) : List Byte :=
  ((List.range ((n + 7) / 8)).flatMap (fun k => toBytes 8 (rdReg (Reg.SEC_BUF + 8 * k) s))).take n

/-- SEC_BUF with bytes from its start. -/
def putSecBuf (bs : List Byte) (s : State) : State :=
  (List.range ((bs.length + 7) / 8)).foldl (fun s k =>
    wrReg (Reg.SEC_BUF + 8 * k) (ofBytes 64 (((bs.drop (8 * k)).take 8) ++ (secBuf (8 * k + 8) s).drop (8 * k + ((bs.drop (8 * k)).take 8).length))) s) s

/-- Bytes `lo` to `hi - 1` of a block. -/
def part (lo hi : Nat) (b : List Byte) : List Byte := (b.drop lo).take (hi - lo)

/-- The command arguments (R425). -/
def secArg (lo hi : Nat) (s : State) : List Byte := part (32 + lo) (32 + hi) (secBuf 328 s)

/-- SEC_NONCE as 16 bytes. -/
def nonceBytes (s : State) : List Byte := toBytes 8 (rdReg Reg.SEC_NONCE s) ++ toBytes 8 (rdReg (Reg.SEC_NONCE + 8) s)

/-- Is the block's public key one of some digests? -/
def keyAmong (ds : List (Option (List Byte))) (b : List Byte) : Bool := ds.contains (some (sha384 (part 128 225 b)))

/-- The digests of the unrevoked owner keys, but for one slot. -/
def ownerKeys (but : Nat) (s : State) : List (Option (List Byte)) :=
  (List.range 4).filterMap (fun i =>
    if i != but && !bit i s.sec.fuses.orev then (s.sec.fuses.own.toList[i]?).map id else none) |>.filter (·.isSome)

/-- The debug key of a lifecycle state (R429). -/
def debugKeys (s : State) : List (Option (List Byte)) :=
  match lifecycle s with
  | 0 => [some Config.digestKM]
  | 3 => [some Config.digestKR]
  | _ => [s.sec.fuses.odbg].filter (·.isSome)

/-- Who signs a command (R426); `none` where no signature is asked. -/
def signers (op : Nat) (s : State) : Option (List (Option (List Byte))) :=
  if op == 2 || op == 4 || op == 5 || op == 6 then some (ownerKeys 4 s)
  else if op == 3 then some (ownerKeys (leNat (secArg 0 1 s)) s)
  else if op == 7 then some (debugKeys s)
  else none

/-- Is the block in SEC_BUF good for a command (R423, R425)? -/
def authOk (op : Nat) (s : State) : Bool :=
  match signers op s with
  | none => true
  | some ks =>
    let b := secBuf 328 s
    leNat (part 0 1 b) == op && part 8 24 b == nonceBytes s && part 24 32 b == toBytes 8 (uid s.sec.fuses) && keyAmong ks b &&
      ecdsaVerify (part 128 225 b) (sha384 (part 0 128 b)) (part 232 328 b)

/-- Is a command permitted now (R422, R426, R428, R429)? -/
def secPermitted (op : Nat) (s : State) : Bool :=
  let lc := lifecycle s
  let byState :=
    match op with
    | 1 => lc == 0
    | 2 => lc == 1
    | 3 => lc == 1 || lc == 2
    | 4 => lc == 1
    | 5 => lc == 1 || lc == 2
    | 6 => lc == 1 || lc == 2
    | 7 => !(lc == 2 && leNat (part 1 2 (secBuf 2 s)) == 2)
    | 8 => true
    | 9 => (lc == 1 || lc == 2) && debugLevel s != 2
    | 10 => true
    | _ => false
  byState && (powerState s == 0 || 7 ≤ op) && rf Reg.CLK_PSTATE 9 9 s == 0

/-- The owner slots that are written and not revoked, but for one. -/
def otherOwners (i : Nat) (s : State) : Nat := (ownerKeys i s).length

/-- Are a command's arguments bad (R426)? A LEVEL that does not raise the level is one (DEDUCED). -/
def secBad (op : Nat) (s : State) : Bool :=
  let a := leNat (secArg 0 1 s)
  let written (i : Nat) : Bool := ((s.sec.fuses.own.toList[i]?).getD none).isSome
  match op with
  | 1 => written 0
  | 2 => a == 0 || 3 < a || written a
  | 3 => 3 < a || !written a || otherOwners a s == 0
  | 6 => a ≤ s.sec.fuses.svn || 64 < a
  | 7 =>
    let l := leNat (part 1 2 (secBuf 2 s))
    l == 0 || 2 < l || l ≤ debugLevel s
  | 8 => debugLevel s ≤ a
  | _ => false

/-! ### What the commands do -/

/-- The fused values in SEC_STATE (R442). -/
def showFuses (s : State) : State :=
  setRf Reg.SEC_STATE 42 40 (lcFuse s.sec.fuses) (setRf Reg.SEC_STATE 55 48 s.sec.fuses.svn s)

/-- Fuses are blown. -/
def blow (f : Fuses → Fuses) (s : State) : State := showFuses (withSec (fun c => { c with fuses := f c.fuses }) s)

/-- Every halt is released (R430). -/
def releaseHalts (s : State) : State := setRf Reg.SEC_STATE 9 9 0 (withSec (fun c => { c with halts := [] }) s)

/-- The debug level changes (R429, R433). -/
def setLevel (x : Nat) (s : State) : State :=
  let old := debugLevel s
  let s := setRf Reg.SEC_STATE 1 0 x s
  let s := if old < x then setRf Reg.SEC_STATE 10 10 1 s else s
  let s := if old == 2 && x < 2 then releaseHalts { s with ltn := { s.ltn with replaying := false, replayed := [], heldAt := none } } else s
  injectRecheck s

/-- PROVISION (R422, R423): the owner's digests, a random seed and its identity digest. -/
def secProvision (s : State) : State :=
  let own := secArg 0 48 s
  let dbg := secArg 48 96 s
  let (n, s) := fresh s
  let seed := Config.random n
  setRf Reg.SEC_STATE 43 43 1 (blow (fun f =>
    { f with prov := .all true, own := f.own.setIfInBounds 0 (some own), odbg := some dbg, seed := some seed,
             idkd := identityDigest seed }) s)

/-- The report of ATTEST (R428), signed with a per-message secret number from `k`; its layout in SEC_BUF is a DESIGN CHOICE. -/
def secReport (k : Nat) (s : State) : List Byte :=
  match s.sec.fuses.seed with
  | none => []
  | some seed =>
    let body := toBytes 8 (uid s.sec.fuses) ++ leBytes 1 (lifecycle s) ++ leBytes 1 (debugLevel s) ++
      leBytes 1 (rf Reg.SEC_STATE 10 10 s) ++ leBytes 1 s.sec.fuses.svn ++
      (List.range 6).flatMap (fun i => toBytes 8 (rdReg (Reg.SEC_MEAS + 8 * i) s)) ++ secArg 0 48 s ++ identityKey seed
    body ++ ecdsaSign (identityPrivate seed) (1 + Config.signSecret k % (n384 - 1)) (sha384 body)

/-- The effect of a command that is permitted, authorised and well formed, its fuses blowing as they should. -/
def secEffect (op : Nat) (s : State) : State :=
  let a := leNat (secArg 0 1 s)
  match op with
  | 1 => secProvision s
  | 2 => let d := secArg 8 56 s
         blow (fun f => { f with own := f.own.setIfInBounds a (some d) }) s
  | 3 => blow (fun f => { f with orev := setBits a a 1 f.orev }) s
  | 4 => setRf Reg.SEC_STATE 43 43 1 (blow (fun f => { f with seal_ := .all true }) s)
  | 5 => setRf Reg.SEC_STATE 11 11 0 (setRf Reg.SEC_STATE 43 43 1 (blow (fun f => { f with rma := .all true, seed := none }) s))
  | 6 => blow (fun f => { f with svn := a }) s
  | 7 => setLevel (leNat (part 1 2 (secBuf 2 s))) s
  | 8 => setLevel a s
  | 9 => let (n, s) := fresh s
         putSecBuf (secReport n s) s
  | _ => s

/-- A command has had its effect and runs on: GO reads 1 and RESULT is PENDING until it ends (R426). How long it takes is a free value of at
most 2 ms (R433). -/
def secRuns (op result : Nat) (s : State) : State :=
  let (n, s) := fresh s
  withSec (fun c => { c with job := some ⟨op, result, s.now + min (Config.secTime n) (us 2000)⟩ })
    (setRf Reg.SEC_CMD 39 32 0 (setRf Reg.SEC_CMD 16 16 1 s))

/-- A command ends with a RESULT; SEC_NONCE is replaced (R425). A change of the lifecycle is recorded in the log (R492), and FUSE_FAIL raises
source 183. -/
def secEnd (op result : Nat) (s : State) : State :=
  let s := if op == 1 || op == 4 || op == 5 then mgtLog 0x12 [BitVec.ofNat 8 op, BitVec.ofNat 8 result] s else s
  let s := newNonce (setRf Reg.SEC_CMD 39 32 result (setRf Reg.SEC_CMD 16 16 0 (withSec (fun c => { c with job := none }) s)))
  if result == 5 then fcuOccur 183 s else s

/-- The SEC in a tick: the command that runs ends when its time has come (R426). -/
def secTick (s : State) : State :=
  match s.sec.job with
  | some j => if j.due ≤ s.now then secEnd j.op j.result s else s
  | none => s

/-- Bits of a fused value some of which were to be blown: those that a free value names are. -/
def cutBits {n : Nat} (old new free : BitVec n) : BitVec n := old ||| (new &&& free)

/-- The copies of a bit that was to be blown: those that a free value names are. -/
def FuseBit.cut (f new : FuseBit) (v : Nat) : FuseBit :=
  ⟨f.a || (new.a && v.testBit 0), f.b || (new.b && v.testBit 1), f.c || (new.c && v.testBit 2)⟩

/-- A digest that was to be blown: none of it, or the bits that a free value names. -/
def cutDigest (old new : Option (List Byte)) (v : Nat) : Option (List Byte) :=
  match old, new with
  | none, some d => if v.testBit 0 then some (toBytes d.length (cutBits 0 (ofBytes 384 d) (BitVec.ofNat 384 (v / 2)))) else none
  | _, _ => old

/-- The identity seed: written in part by PROVISION, or blown to ones in part by RMA. -/
def cutSeed (old new : Option (BitVec 256)) (v : Nat) : Option (BitVec 256) :=
  match old, new with
  | none, some k => if v.testBit 0 then some (cutBits 0 k (BitVec.ofNat 256 (v / 2))) else none
  | some k, none => if v.testBit 0 then some (k ||| BitVec.ofNat 256 (v / 2)) else none
  | _, _ => old

/-- What is blown of the fuses when the supply is missing or lost in the middle (R509): which bits are, is a free value. -/
def Fuses.cut (f new : Fuses) (v : Nat → Nat) : Fuses :=
  { f with
    prov := f.prov.cut new.prov (v 0)
    seal_ := f.seal_.cut new.seal_ (v 1)
    rma := f.rma.cut new.rma (v 2)
    own := Vector.ofFn (fun i => cutDigest f.own[i] new.own[i] (v (3 + i.val)))
    orev := cutBits f.orev new.orev (BitVec.ofNat 4 (v 7))
    odbg := cutDigest f.odbg new.odbg (v 8)
    seed := cutSeed f.seed new.seed (v 9)
    idkd := if f.idkd == new.idkd then f.idkd else toBytes new.idkd.length (cutBits 0 (ofBytes 384 new.idkd) (BitVec.ofNat 384 (v 10)))
    svn := f.svn + v 11 % (new.svn - f.svn + 1) }

/-- The fuses that an effect would blow are blown in part, and nothing else of the effect happens but what the fuses say at once: a seed
that has changed attests no more, and a vote that has changed awaits the cold reset (R422, R424, R509). -/
def secCut (op : Nat) (s : State) : State :=
  let (n, s) := fresh s
  let t := secEffect op s
  let s := blow (fun f => f.cut t.sec.fuses (Config.fuseCut n)) { s with free := t.free }
  let s := if s.sec.fuses.seed.isSome && lifecycle s != 0 && idkOk s.sec.fuses then s
    else setRf Reg.SEC_STATE 11 11 0 s
  if lifecycleOf s.sec.fuses == lifecycle s then s else setRf Reg.SEC_STATE 43 43 1 s

/-- A command runs (R426); `vqps`: the fuses read back blown (R509). One whose fuses do not ends with FUSE_FAIL and source 183. A GO while
another runs is ignored and counted. -/
def secRun (op : Nat) (vqps : Bool) (s : State) : State :=
  if rf Reg.SEC_CMD 16 16 s == 1 then ignored 140 s
  else
    let s := setRf Reg.SEC_CMD 7 0 op s
    if !secPermitted op s then secRuns op 2 s
    else if secBad op s then secRuns op 4 s
    else if !authOk op s || (op == 9 && rf Reg.SEC_STATE 11 11 s == 0) then secRuns op 3 s
    else if op ≤ 6 && !vqps then secRuns op 5 (secCut op s)
    else secRuns op 1 (secEffect op s)

/-- A write of a function to a SEC register is ignored and counted, whatever it holds (15; R462, R488). -/
def secIgnored (f : Nat) (s : State) : State := hostWr f 140 false (ignored 140) s

/-- A write to a SEC register by a master (R442, 15): a host function's is ignored and counted and freezes nothing; while the SEC is fenced
it is held (R389). -/
def secWr (m : Master) (r : HeldReq) (k : State → State) (s : State) : State :=
  if m.toNat < 0x400 then secIgnored m.toNat s else mgtWr m (cross 140 r k) s

/-- A command given through SEC_CMD. -/
def secCommand (op : Nat) (m : Master) (vqps : Bool) (s : State) : Host.Outcome State Fault Refusal :=
  plain (secWr m (.sec op vqps) (secRun op vqps)) s

/-- PROVISION (R422, R423, R426). -/
def execProvision (m : Master) (vqps : Bool) (s : State) : Host.Outcome State Fault Refusal := secCommand 1 m vqps s

/-- ADD_OWNER_KEY (R426). -/
def execAddOwnerKey (m : Master) (vqps : Bool) (s : State) : Host.Outcome State Fault Refusal := secCommand 2 m vqps s

/-- REVOKE_OWNER_KEY (R426). -/
def execRevokeOwnerKey (m : Master) (vqps : Bool) (s : State) : Host.Outcome State Fault Refusal := secCommand 3 m vqps s

/-- SEAL (R422, R426). -/
def execSeal (m : Master) (vqps : Bool) (s : State) : Host.Outcome State Fault Refusal := secCommand 4 m vqps s

/-- RMA (R422, R424, R426). -/
def execRma (m : Master) (vqps : Bool) (s : State) : Host.Outcome State Fault Refusal := secCommand 5 m vqps s

/-- SVN_ADVANCE (R426, R427). -/
def execSvnAdvance (m : Master) (vqps : Bool) (s : State) : Host.Outcome State Fault Refusal := secCommand 6 m vqps s

/-- DEBUG_UNLOCK (R429). -/
def execDebugUnlock (m : Master) (s : State) : Host.Outcome State Fault Refusal := secCommand 7 m true s

/-- DEBUG_LOWER (R429). -/
def execDebugLower (m : Master) (s : State) : Host.Outcome State Fault Refusal := secCommand 8 m true s

/-- ATTEST (R428). -/
def execAttest (m : Master) (s : State) : Host.Outcome State Fault Refusal := secCommand 9 m true s

/-- NONCE (R425). -/
def execNonce (m : Master) (s : State) : Host.Outcome State Fault Refusal := secCommand 10 m true s

/-! ### JTAG (R430, R432, R504) -/

/-- Does an instruction drive the pins from the boundary register? -/
def drives : JtagIr → Bool
  | .extest => true
  | .clamp => true
  | _ => false

/-- A new JTAG instruction takes hold: what the former one did to the pins ends. -/
def loadIr (x : JtagIr) (s : State) : State :=
  let s := if drives s.jtag.ir || s.jtag.ir == .highz then emit (.pins false []) s else s
  { s with jtag := { s.jtag with ir := x } }

/-- Any other instruction: nothing of it lasts. -/
def jtagOther (s : State) : State := loadIr .idcode s

/-- BYPASS and IDCODE operate under TEST_EN too (R504). -/
def jtagShift (f : State → State) (s : State) : Host.Outcome State Fault Refusal :=
  .next (if running s || s.clk.testEn then f s else s)

/-- BYPASS (R430). -/
def execBypass (s : State) : Host.Outcome State Fault Refusal := jtagShift (fun s => emit (.tdo []) (loadIr .bypass s)) s

/-- IDCODE (R430). -/
def execIdcode (s : State) : Host.Outcome State Fault Refusal :=
  jtagShift (fun s => emit (.tdo (toBytes 4 Config.idcode)) (loadIr .idcode s)) s

/-- SEC_NONCE (R425, R430). -/
def execSecNonce (s : State) : Host.Outcome State Fault Refusal :=
  plain (fun s => emit (.tdo (nonceBytes s)) (jtagOther s)) s

/-- A block shifted in by SEC_TOKEN goes to SEC_BUF and its command runs (R425); while another runs it is ignored and counted, SEC_BUF with it. -/
def tokenRun (blk : List Byte) (vqps : Bool) (s : State) : State :=
  if unitFenced 140 s then s
  else if rf Reg.SEC_CMD 16 16 s == 1 then ignored 140 s
  else
    let b := fitBytes 328 blk
    secRun (leNat (b.take 1)) vqps (putSecBuf b s)

/-- SEC_TOKEN (R425, R430). -/
def execSecToken (blk : List Byte) (vqps : Bool) (s : State) : Host.Outcome State Fault Refusal :=
  act (fun s => tokenRun blk vqps (jtagOther s)) s

/-- SAMPLE/PRELOAD (R430): the boundary cells are loaded; the pins keep their functions. -/
def execSamplePreload (v : List Bool) (s : State) : Host.Outcome State Fault Refusal :=
  plain (fun s =>
    let s := loadIr .samplePreload s
    { s with jtag := { s.jtag with boundary := v } }) s

/-- EXTEST (R430): the boundary cells drive the pins. -/
def execExtest (s : State) : Host.Outcome State Fault Refusal :=
  plain (fun s => emit (.pins true s.jtag.boundary) (loadIr .extest s)) s

/-- CLAMP (R430): the boundary cells hold the pins. -/
def execClamp (s : State) : Host.Outcome State Fault Refusal :=
  plain (fun s => emit (.pins true s.jtag.boundary) (loadIr .clamp s)) s

/-- HIGHZ (R430): the pins are released. -/
def execHighz (s : State) : Host.Outcome State Fault Refusal :=
  plain (fun s => emit (.pins false []) (loadIr .highz s)) s

/-- A debug instruction (R430 to R432): refused, it shifts out ones and does nothing. -/
def debugDo (bytes : Nat) (permitted : State → Bool) (f : State → State) (s : State) : Host.Outcome State Fault Refusal :=
  act (fun s =>
    let s := jtagOther s
    if permitted s then f s else emit (.tdo (List.replicate bytes 0xFF)) s) s

/-- HALT of the MGT or of a core, or its release (R430, R432). The release of the MGT releases every halt. -/
def haltDo (core : Option Nat) (on : Bool) (s : State) : State :=
  if on then
    let h := if s.sec.halts.contains core then s.sec.halts else s.sec.halts ++ [core]
    setRf Reg.SEC_STATE 9 9 1 (withSec (fun c => { c with halts := h }) s)
  else if core.isNone then releaseHalts s
  else
    let h := s.sec.halts.filter (· != core)
    setRf Reg.SEC_STATE 9 9 (if h.isEmpty then 0 else 1) (withSec (fun c => { c with halts := h }) s)

/-- Bytes that HALT writes to a core's memories (R231), or to the MGT's, whose layout the spec does not give. -/
def haltWrite (core : Option Nat) (a : Nat) (bs : List Byte) (s : State) : State :=
  if !s.sec.halts.contains core then s
  else
    match core with
    | none => withMgt (fun m => { m with mem := memWrite 0 m.mem a bs }) s
    | some c =>
      if a + bs.length ≤ 0x8000 then writeLdm c a bs s
      else if 0x200000 ≤ a && a + bs.length ≤ 0x400000 then writeCsm (clusterOf c) a bs s
      else s

/-- HALT (R430). -/
def execHalt (core : Option CoreId) (on : Bool) (addr : BitVec 22) (bytes : List Byte) (s : State) :
    Host.Outcome State Fault Refusal :=
  let c := core.map BitVec.toNat
  debugDo 8 (fun s => debugLevel s == 2 && (powerState s != 2 || c.isNone))
    (fun s => haltDo c on (haltWrite c addr.toNat bytes (if on then haltDo c true s else s))) s

/-- REPLAY begins if the START record is of this MEMBER, STEP_MAJ and STEP_MIN, and else it is refused; the record lies in host memory, and so is
a free value. REPLAY goes on where a stop has held the islands (R430, R456, R457). -/
def replayBegin (s : State) : State :=
  if s.ltn.replaying then setRf Reg.LTN_RSTAT 1 0 0 { s with ltn := { s.ltn with heldAt := none } }
  else
    let (n, s) := fresh s
    if bits 63 48 (Config.replayId n) == bits 63 48 (secId0 s) then
      setRf Reg.LTN_RSTAT 1 0 0 { s with ltn := { s.ltn with
        replaying := true, replayed := (List.range 371).filter (Config.replayHas n), heldAt := none } }
    else emit (.tdo (List.replicate 8 0xFF)) s

/-- REPLAY (R456, R457). -/
def execReplay (s : State) : Host.Outcome State Fault Refusal :=
  debugDo 8 (fun s =>
      debugLevel s == 2 && powerState s == 0 && rf Reg.CLK_PSTATE 9 9 s == 0 && quiet s &&
        (List.range 128).all (fun p => !adminUp p s)) replayBegin s

/-! ### The end of a freeze (R441) -/

/-- The pending messages of a function are sent as far as nothing masks them (R480). -/
def msixResend (f : Nat) (s : State) : State :=
  let c := (tget s.hif.cfg f).getD FnCfg.reset
  if !c.msixEnable || c.msixMask || frozen f s then s
  else
    (List.range 512).foldl (fun s v =>
      if bit (v % 64) (rdFn f (0x82000 + 8 * (v / 64)) s) && !vecMasked f v s then
        msixSend f v (setFf f (0x82000 + 8 * (v / 64)) (v % 64) (v % 64) 0 s)
      else s) s

/-- A function is frozen no more (R46, R440, R441). -/
def unfreeze (f : Nat) (s : State) : State :=
  let s := setRf (Reg.SEC_FROZEN + 8 * (f / 64)) (f % 64) (f % 64) 0 (setRf (Reg.SEC_FREEZE_CAUSE + 8 * f) 7 0 0 s)
  let s := setFf f Reg.CMR_STATUS 0 0 0 s
  let s := match getRing f 0 s with
    | some g => if g.state == .frozen then publish f 0 (putRing f 0 { g with state := .running } s) else s
    | none => s
  msixResend f s

/-- A write of SEC_UNFREEZE. -/
def unfreezeWrite (v : BitVec 64) (s : State) : State :=
  let f := bits 11 0 v
  if 0x3FF < f || !frozen f s then ignored 140 s else unfreeze f s

/-- SEC_UNFREEZE (R441). -/
def execSecUnfreeze (m : Master) (v : BitVec 32) (s : State) : Host.Outcome State Fault Refusal :=
  act (secWr m (regReq m Reg.SEC_UNFREEZE (v.setWidth 64)) (unfreezeWrite (v.setWidth 64))) s

end Sys2Proof.Machine
end

