-- ==== Sys2Proof/Machine/Hosts.lean ====
section
/-! DEFINITION. The meanings of the commands of the host interface (17: R458 to R481; 18: R483, R488), but for reads and writes of
registers at large. -/

namespace Sys2Proof.Machine

/-! ### Function resets and lost links (R464, R482, R483) -/

/-- FLR (R483). -/
def execFlr (f : Fn) (s : State) : Host.Outcome State Fault Refusal := act (flrSet (fun g => g == f.toNat)) s

/-- CONTROLLER_RESET (R482). -/
def execControllerReset (j : BitVec 2) (s : State) : Host.Outcome State Fault Refusal := act (controllerDown j.toNat) s

/-- The flushing reads in flight on a link complete as PCIe errors. -/
def flushesFail (link : Nat) (s : State) : State :=
  (s.xlt.flushes.filter (fun x => x.1 == link)).foldl (fun s _ => flushCome link .pcieError s) s

/-- The data reads of the TXE in flight on half 1 of a controller complete as PCIe errors (R460; 17). -/
def halfReadsFail (link : Nat) (s : State) : State :=
  let mine (x : Nat × Qp) : Option (Nat × BitVec 32) :=
    match x.2.building with
    | some (psn, n) => if n != 0 && x.2.builtHalf && fnLink (qpFn x.1 s) + 1 == link then some (x.1, psn) else none
    | none => none
  (s.qpc.qps.filterMap mine).foldl (fun s x => txDataCome x.1 x.2 .pcieError s) s

/-- PCIE_LINK_LOSS (R464, R467, R482): the loss of link 2j resets controller j; the loss of link 2j + 1 changes no function, and the reads in
flight on it complete as PCIe errors. -/
def execPcieLinkLoss (l : BitVec 3) (s : State) : Host.Outcome State Fault Refusal :=
  act (fun s =>
    let n := l.toNat
    if n % 2 == 0 then controllerDown (n / 2) s else halfReadsFail n (flushesFail n (halfDown (n / 2) s))) s

/-- D3HOT_TO_D0 (R464): only a function in D3hot returns from it. -/
def execD3hotToD0 (f : Fn) (s : State) : Host.Outcome State Fault Refusal :=
  act (fun s => if ((tget s.hif.cfg f.toNat).getD FnCfg.reset).d3hot then flrSet (fun g => g == f.toNat) s else s) s

def setCfg (f : Nat) (c : FnCfg) (s : State) : State := { s with hif := { s.hif with cfg := tset s.hif.cfg f c } }

/-- VF Enable of a PF is cleared: every VF of it is reset (R464). -/
def vfClear (j : Nat) (s : State) : State :=
  let pf := 256 * j
  let s := flrSet (fun g => g / 256 == j && g != pf) s
  setCfg pf { fnCfg pf s with vfEnable := false } s

/-- VF_ENABLE_CLEAR (R464). -/
def execVfEnableClear (j : BitVec 2) (s : State) : Host.Outcome State Fault Refusal := act (vfClear j.toNat) s

/-! ### Requests toward host memory (R465, R468) -/

/-- A read that timed out completes to its block as a PCIe error (R465). -/
def timedOut (r : HostReq) (s : State) : State :=
  match r with
  | .entryFetch f r => entryCome f.toNat r.toNat .pcieError s
  | .paramBlock f => blockCome f.toNat .pcieError s
  | .descriptor f i => descCome f.toNat i.toNat .pcieError s
  | .walk n => walkCome n.toNat .pcieError s
  | .flush l => flushCome l.toNat .pcieError s
  | .context q => fetchCome q.toNat .pcieError s
  | .hostData q psn resp => if resp then respDataCome q.toNat psn .pcieError s else txDataCome q.toNat psn .pcieError s
  | .fragments f r => entryReadCome f.toNat r.toNat .pcieError s
  | .image f => imageCome f.toNat .pcieError s
  | .atomicWord f a => atomCome f.toNat a .pcieError s
  | .hxfer i => hxferData i.toNat .pcieError s
  | .reduce i op => reduceDone i.toNat op.toNat .pcieError s
  | .copy q p => copyCome q.toNat p .pcieError s

/-- The completion timeout of a function's controller (R465): PF j's value governs every request of controller j (R463). -/
def cplTimeout (f : Nat) (s : State) : Nat :=
  match (fnCfg (f / 256 * 256) s).cplTimeout.toNat with
  | 1 => us 100
  | 2 => us 10000
  | 5 => us 55000
  | 6 => us 210000
  | _ => us 40000

/-- The function whose read a request is, if it is in flight. -/
def readFor (r : HostReq) (s : State) : Option Nat :=
  match r with
  | .entryFetch f r =>
    if (getRing f.toNat r.toNat s).any (fun g => (fetchIndex f.toNat g s).isSome && !g.waitOwn) then some f.toNat else none
  | .paramBlock f => if (issuable f.toNat 0 s).any (fun x => blockOps.any (fun o => o.1 == eOpcode x.2)) then some f.toNat else none
  | .descriptor f i => if s.xlt.waiting.any (fun w => w.access.fn == f.toNat && w.wait == .desc i.toNat) then some f.toNat else none
  | .walk n => (s.xlt.waiting.find? (fun w => w.serial == n.toNat && match w.wait with
    | .walk _ => true
    | _ => false)).map (·.access.fn)
  | .flush l => if s.xlt.flushes.any (fun x => x.1 == l.toNat) then some (256 * (l.toNat / 2)) else none
  | .context q => if (tget s.qpc.fetches q.toNat).any (fun x => !x.waitSlot && !x.waitRetry) then some (qpFn q.toNat s) else none
  | .hostData q psn resp =>
    let there := if resp then s.rxe.resps.any (fun r => r.qpn == q.toNat && r.resp.psn == psn)
      else (getQp q.toNat s).any (fun x => x.building.any (fun b => b.1 == psn && b.2 != 0))
    if there then some (qpFn q.toNat s) else none
  | .fragments f r => (readingEntry f.toNat r.toNat s).map (fun _ => f.toNat)
  | .image f => (tget s.tpr.loads f.toNat).map (fun _ => f.toNat)
  | .atomicWord f a => if s.rxe.atoms.any (fun j => j.reading && j.fn == f.toNat && wordOf j.bus == wordOf a) then some f.toNat else none
  | .hxfer i => (tget s.tpr.hxfers i.toNat).bind (fun h => h.serial.map (fun _ => h.fn))
  | .reduce i op => (getInst i.toNat s).bind (fun x => (x.ops.find? (fun o => o.id == op.toNat && (opSerial o).isSome)).map (fun _ => x.fn))
  | .copy q p => (copying q.toNat p s).map (fun x => x.2.fn)

/-- The rest of a period passes whose beginning the State does not date: how much of it, is a free value. -/
def partPass (period : Nat) (s : State) : State :=
  let (n, s) := fresh s
  timePass (Config.timeoutLeft n % (period + 1)) s

/-- What is left of a request's timeout passes. -/
def timeoutPass (f : Nat) (s : State) : State := partPass (cplTimeout f s) s

/-- COMPLETION_TIMEOUT (R465). -/
def execCompletionTimeout (r : HostReq) (s : State) : Host.Outcome State Fault Refusal :=
  act (fun s =>
    match readFor r s with
    | none => s
    | some f => timedOut r (timeoutPass f s)) s

/-- DESCRIPTOR_READ_COMPLETE: what an entry reads at issue has come. -/
def execDescriptorReadComplete (f : Fn) (r : BitVec 12) (d : ReadResult) (s : State) : Host.Outcome State Fault Refusal :=
  act (entryReadCome f.toNat r.toNat d) s

/-- TAPER_IMAGE_READ_COMPLETE (R240). -/
def execTaperImageReadComplete (f : Fn) (d : ReadResult) (s : State) : Host.Outcome State Fault Refusal :=
  act (imageCome f.toNat d) s

/-- Is a range of a permitted host window invalid (R468)? -/
def winBad (v : BitVec 64) : Bool :=
  let n := bits 5 0 v
  bit 6 v && (n < 12 || (bits 63 12 v * 4096) % 2 ^ n != 0)

/-- A write of HIF_WIN. -/
def writeWin (f k : Nat) (v : BitVec 64) (s : State) : State :=
  if winBad v then ignored 118 s else writeReg (Reg.HIF_WIN + 32 * f + 8 * k) v s

/-- HIF_WIN_WRITE (R468). -/
def execHifWinWrite (m : Master) (f : Fn) (k : BitVec 2) (v : BitVec 64) (s : State) : Host.Outcome State Fault Refusal :=
  plain (mgtWr m (cross (118 + f.toNat / 256) (regReq m (Reg.HIF_WIN + 32 * f.toNat + 8 * k.toNat) v) (writeWin f.toNat k.toNat v))) s

/-- A write of HIF_MGTPRIV by a master (R474): only the MGT may set GRANT. -/
def writePriv (m : Master) (v : BitVec 64) (s : State) : State :=
  if !bit 0 v then setRf Reg.HIF_MGTPRIV 0 0 0 s
  else if m == 0x800 then setRf Reg.HIF_MGTPRIV 0 0 1 s
  else if rf Reg.HIF_MGTPRIV 0 0 s == 1 then s
  else ignored 118 s

/-- HIF_MGTPRIV_WRITE (R474). -/
def execHifMgtprivWrite (m : Master) (v : BitVec 32) (s : State) : Host.Outcome State Fault Refusal :=
  plain (mgtWr m (cross 118 (regReq m Reg.HIF_MGTPRIV (v.setWidth 64)) (writePriv m (v.setWidth 64)))) s

/-! ### MSI-X (R478 to R480) -/

/-- The mask bit of a vector of a function is cleared. -/
def vecUnmask (f v : Nat) (s : State) : State := msixResend f (setFf f (0x80000 + 16 * v + 8) 32 32 0 s)

/-- The Function Mask is cleared. -/
def fnUnmask (f : Nat) (s : State) : State := msixResend f (setCfg f { fnCfg f s with msixMask := false } s)

/-- MSIX_UNMASK (R480). The mask bit of a vector lies in BAR0, the Function Mask in configuration space. -/
def execMsixUnmask (f : Fn) (vec : Option (BitVec 9)) (s : State) : Host.Outcome State Fault Refusal :=
  act (fun s =>
    match vec with
    | some v => hostWr f.toNat 118 false (vecUnmask f.toNat v.toNat) s
    | none => if reaches f.toNat s then fnUnmask f.toNat s else s) s

/-! ### Configuration space (R462 to R464, R488) -/

/-- Are configuration requests answered yet (R488)? -/
def enumerates (j : Nat) (s : State) : Bool := hostReadyOn s || s.mgt.expired.contains j

/-- A BAR of 2^n bytes after a write: the size's bits read zero, and the low ones a 64-bit, non-prefetchable BAR (R470). -/
def barValue (n : Nat) (v : BitVec 64) : BitVec 64 := BitVec.ofNat 64 (v.toNat / 2 ^ n * 2 ^ n + 4)

/-- What a configuration request changes. SR-IOV fields are a PF's; with TotalVFs 0 no VF can be enabled (R464). NumVFs is fixed while
VF Enable is set (PRESUMED, PCI Express). -/
def cfgApply (f : Nat) (r : CfgReq) (s : State) : State :=
  let c := fnCfg f s
  let isPf := f % 256 == 0
  match r with
  | .read => s
  | .msix e k => msixResend f (setCfg f { c with msixEnable := e, msixMask := k } s)
  | .relaxedOrdering on => setCfg f { c with relaxed := on } s
  | .d3hot => setCfg f { c with d3hot := true } s
  | .vfEnable => if isPf && !pf0Only s then setCfg f { c with vfEnable := true } s else s
  | .numVfs n => if isPf && !c.vfEnable && n.toNat ≤ 252 && !pf0Only s then setCfg f { c with numVfs := n } s else s
  | .completionTimeout v => if isPf then setCfg f { c with cplTimeout := v } s else s
  | .l1Enable on => if isPf then setCfg f { c with l1Enable := on } s else s
  | .l0pEnable on => if isPf then setCfg f { c with l0pEnable := on } s else s
  | .maxPayload v => if isPf then setCfg f { c with maxPayload := v } s else s
  | .maxRead v => if isPf then setCfg f { c with maxRead := v } s else s
  | .bar0 v => if isPf then setCfg f { c with bar0 := barValue 28 v } s else s
  | .vfBar0 v => if isPf then setCfg f { c with vfBar0 := barValue 27 v } s else s

/-- The capabilities of every PF, VF and AUX function (R461). -/
def commonCaps : List Cap := [.pciExpress, .powerManagement, .aer, .acs]

/-- What a function says of itself (R461, R463, R464, R470): a PF and a VF differ in the Device ID, and a PF offers VFs unless only PF0
enumerates. -/
def cfgIdent (f : Nat) (s : State) : CfgIdent :=
  let c := fnCfg f s
  if f % 256 == 0 then
    { vendor := Config.vendorId, device := 0x9740, cls := 0x028000, totalVfs := if pf0Only s then 0 else 252, vfOffset := 1, vfStride := 1
      caps := commonCaps ++ [.msix, .sriov, .ari, .laneMargining, .atomicRequester, .functionLevelReset], vectors := 512
      bar0 := c.bar0, vfBar0 := c.vfBar0 }
  else
    { vendor := Config.vendorId, device := 0x9741, cls := 0x028000, totalVfs := 0, vfOffset := 0, vfStride := 0
      caps := commonCaps ++ [.msix, .ari, .atomicRequester, .functionLevelReset], vectors := 512, bar0 := 0, vfBar0 := 0 }

/-- What AUX j says of itself: no BAR, no SR-IOV and no MSI-X (R459, R463). The spec gives its class code nowhere: a PF's. -/
def auxIdent : CfgIdent :=
  { vendor := Config.vendorId, device := 0x9742, cls := 0x028000, totalVfs := 0, vfOffset := 0, vfStride := 0
    caps := commonCaps ++ [.laneMargining], vectors := 0, bar0 := 0, vfBar0 := 0 }

/-- Is AUX j there: its link presents it (R459, R464)? -/
def auxPresent (j : Nat) (s : State) : Bool := bit 3 (rdReg (Reg.HIF_LINK + 8 * (2 * j + 1)) s) && (!pf0Only s || j == 0)

/-- What a configuration request changes in AUX j. -/
def auxApply (j : Nat) (r : CfgReq) (s : State) : State :=
  let c := (tget s.hif.aux j).getD FnCfg.reset
  let put (c : FnCfg) : State := { s with hif := { s.hif with aux := tset s.hif.aux j c } }
  match r with
  | .relaxedOrdering on => put { c with relaxed := on }
  | .d3hot => put { c with d3hot := true }
  | .l1Enable on => put { c with l1Enable := on }
  | .l0pEnable on => put { c with l0pEnable := on }
  | .maxPayload v => put { c with maxPayload := v }
  | .maxRead v => put { c with maxRead := v }
  | _ => s

/-- CONFIG_REQUEST (R488): Request Retry Status until the host is released or 1 s has passed; a function that does not exist does not
answer. -/
def execConfigRequest (t : CfgTarget) (r : CfgReq) (s : State) : Host.Outcome State Fault Refusal :=
  act (fun s =>
    match t with
    | .fn f =>
      let n := f.toNat
      if !presented n s then s
      else if enumerates (n / 256) s then cfgApply n r (emit (.config t (some (cfgIdent n s))) s)
      else emit (.config t none) s
    | .aux j =>
      if !auxPresent j.toNat s then s
      else if enumerates j.toNat s then auxApply j.toNat r (emit (.config t (some auxIdent)) s)
      else emit (.config t none) s) s

/-- One second in 1/16 ns. -/
def second : Nat := 16000000000

/-- ENUMERATION_TIMEOUT (R488): 1 s after PERST_N rose. -/
def execEnumerationTimeout (j : BitVec 2) (s : State) : Host.Outcome State Fault Refusal :=
  act (fun s =>
    match tget s.mgt.perst j.toNat with
    | none => s
    | some t =>
      let s := advanceTo (t + second) s
      if s.mgt.expired.contains j.toNat then s
      else { s with mgt := { s.mgt with expired := s.mgt.expired ++ [j.toNat] } }) s

/-- PERST_N_RELEASE (R488). -/
def execPerstNRelease (j : BitVec 2) (s : State) : Host.Outcome State Fault Refusal :=
  act (fun s =>
    { s with mgt := { s.mgt with
        perst := tset s.mgt.perst j.toNat s.now, expired := s.mgt.expired.filter (· != j.toNat) } }) s

/-! ### Links (R458, R464, R476, R481) -/

/-- May a link train: its controller does, and half 1 exists (R458, R464)? -/
def linkTrains (l : Nat) (s : State) : Bool :=
  domOn (205 + l / 2) s && (!pf0Only s || l / 2 == 0) && (l % 2 == 0 || bit 2 (rdReg (Reg.HIF_LINK + 8 * l) s))

/-- Does a PCIe link take a width by L0p: up in FLIT mode at this rate, enabled, and with at least 4 lanes of an x16 or 2 of an x8, and at most
those that training found (R481)? -/
def l0pFits (n rate width : Nat) (s : State) : Bool :=
  let off := Reg.HIF_LINK + 8 * n
  rf off 15 14 s == 3 && rf off 13 11 s == rate && (linkCfg n (256 * (n / 2)) s).l0pEnable &&
    (if bit 2 (rdReg off s) then 2 else 4) ≤ width && width ≤ (tget s.hif.lanes n).getD 0

/-- PCIE_LINK_UP (R461, R476): FLIT mode at 64 GT/s (DEDUCED). A link that is up in FLIT mode takes another width without training, by L0p, where
the host enables it (R481). -/
def execPcieLinkUp (l : BitVec 3) (rate : BitVec 3) (width : BitVec 5) (s : State) : Host.Outcome State Fault Refusal :=
  act (fun s =>
    let n := l.toNat
    let off := Reg.HIF_LINK + 8 * n
    let split := bit 2 (rdReg off s)
    if !linkTrains n s || rate == 0 || rate == 7 || width == 0 || (if split then 8 else 16) < width.toNat then s
    else if l0pFits n rate.toNat width.toNat s then
      setRf off 10 6 width.toNat (setRf off 5 5 (if width.toNat < (tget s.hif.lanes n).getD 0 then 1 else 0) s)
    else
      let s := { s with hif := { s.hif with lanes := tset s.hif.lanes n width.toNat } }
      setRf off 15 15 1 (setRf off 14 14 (if rate == 6 then 1 else 0) (setRf off 13 11 rate.toNat (setRf off 10 4 (width.toNat * 64) s)))) s

/-- ASPM_L1_ENTRY (R481): asked for in P2 only, where the host enables it, after 10 µs with no request; how many of them are left is a free
value. The host grants it, and the link is in L1 until the next request on it, or until P2 is left. -/
def execAspmL1Entry (l : BitVec 3) (s : State) : Host.Outcome State Fault Refusal :=
  act (fun s =>
    let n := l.toNat
    let off := Reg.HIF_LINK + 8 * n
    if powerState s == 2 && rf off 15 15 s == 1 && (linkCfg n (256 * (n / 2)) s).l1Enable && s.xlt.flushes.all (·.1 != n) then
      setRf off 15 15 0 (setRf off 4 4 1 (emit (.l1Request n) (partPass (us 10) s)))
    else s) s

end Sys2Proof.Machine
end

