-- ==== Sys2Proof/Machine/Startup.lean ====
section
/-! DEFINITION. Start-up and the persistent store (18: R482 to R497): resets, the boot ROM, the event log, and the tick of an idle
block. -/

namespace Sys2Proof.Machine

/-! ### Records of the flash (R491 to R494) -/

/-- Bytes of the flash. -/
def flashRead (a n : Nat) (s : State) : List Byte := memRead 0xFF s.mgt.flash a n

/-- A record from MAGIC through CRC (R492). -/
def recordBytes (typ seq : Nat) (body : List Byte) : List Byte :=
  let b := leBytes 2 0x5243 ++ leBytes 2 typ ++ leBytes 4 body.length ++ leBytes 8 seq ++ body
  b ++ toBytes 4 (crc32c b)

/-- The bytes that a record occupies, padded to 16 (R492). -/
def recordSize (len : Nat) : Nat := 16 * ((24 + len + 15) / 16)

/-- The operations that write a record at an address: MAGIC through CRC, and then COMMIT (R493). -/
def recordOps (a typ seq : Nat) (body : List Byte) : List XOp :=
  let b := recordBytes typ seq body
  [.program a b, .program (a + b.length) [0, 0, 0, 0]]

/-- A valid record at an address: TYPE, SEQ and BODY (R493). -/
def readRecord (a : Nat) (s : State) : Option (Nat × Nat × List Byte) :=
  let h := flashRead a 16 s
  let len := leNat (part 4 8 h)
  if leNat (part 0 2 h) != 0x5243 || 4064 < len || 65536 < a % 65536 + 24 + len then none
  else
    let b := flashRead a (16 + len) s
    if flashRead (a + 16 + len) 4 s == toBytes 4 (crc32c b) && flashRead (a + 20 + len) 4 s == [0, 0, 0, 0] then
      some (leNat (part 2 4 h), leNat (part 8 16 h), b.drop 16)
    else none

/-! ### The header (R494) -/

/-- The header of a copy, with its SEQ. -/
def headerCopy (a : Nat) (s : State) : Option (Nat × Header) :=
  match readRecord a s with
  | some (1, q, b) =>
    if b.length != 16 then none
    else
      let n (i : Nat) : Nat := leNat (part i (i + 1) b)
      some (q, ⟨n 0 % 2, n 1, n 2, ofBytes 32 (part 4 8 b), ofBytes 32 (part 8 12 b)⟩)
  | _ => none

/-- The header in force, the copy that is written next, and the SEQ of that writing. With no valid copy the lengths are free values, and
copy A is written with SEQ 0 (DESIGN CHOICE). -/
def headerNow (s : State) : Header × Nat × Nat :=
  match headerCopy 0 s, headerCopy 0x10000 s with
  | some (q, h), some (r, g) => if q < r then (g, 0, r + 1) else (h, 0x10000, q + 1)
  | some (q, h), none => (h, 0x10000, q + 1)
  | none, some (r, g) => (g, 0, r + 1)
  | none, none => (⟨0, 3, 3, BitVec.ofNat 32 (Config.bareLength 0), BitVec.ofNat 32 (Config.bareLength 1)⟩, 0, 0)

/-- The body of a HEADER record. -/
def headerBody (h : Header) : List Byte :=
  leBytes 1 h.primary ++ leBytes 1 h.state0 ++ leBytes 1 h.state1 ++ [0] ++ toBytes 4 h.len0 ++ toBytes 4 h.len1 ++ leBytes 4 0

def Header.state (h : Header) (slot : Nat) : Nat := if slot == 0 then h.state0 else h.state1
def Header.len (h : Header) (slot : Nat) : Nat := (if slot == 0 then h.len0 else h.len1).toNat
def Header.setState (h : Header) (slot x : Nat) : Header := if slot == 0 then { h with state0 := x } else { h with state1 := x }

/-! ### xSPI operations (R491, R493) -/

/-- The operation at the front is started, in the protocol that STRAP_FLASH has chosen (R484). -/
def startOp (s : State) : State :=
  match s.mgt.xops with
  | [] => s
  | .erase a :: _ => emit (.xspi (rf Reg.MGT_STRAP 8 7 s == 1) true a 65536) s
  | .program a b :: _ => emit (.xspi (rf Reg.MGT_STRAP 8 7 s == 1) false a b.length) s

/-- Operations are queued on an idle flash. -/
def beginOps (ops : List XOp) (s : State) : State := startOp (withMgt (fun m => { m with xops := ops }) s)

/-- The header with a slot's STATE is written to the copy not in force (R494). -/
def writeHeader (slot x : Nat) (s : State) : State :=
  let (h, a, q) := headerNow s
  beginOps (.erase a :: recordOps a 1 q (headerBody (h.setState slot x))) s

/-- A record that a thermal trip has left no time for is cut off, and is left uncommitted (R493, R516). -/
def tripCut (s : State) : State :=
  if s.clk.trip.any (fun t => t + us 1000 < s.now) && !s.mgt.xops.isEmpty then
    let s := opCut s
    withMgt (fun m => { m with xops := [], restart := none }) s
  else s

/-- An operation has ended (R487, R493): a waiting restart follows, else the next operation. A failed one raises source 184 and ends its
record uncommitted; the log sector is given up. After a thermal trip it may have been cut off (R516). -/
def opDone (ok : Bool) (s : State) : State :=
  let s := tripCut s
  match s.mgt.xops with
  | [] => s
  | op :: rest =>
    let s := opLeaves ok op s
    let s := if ok then withMgt (fun m => { m with xops := rest }) s
      else fcuOccur 184 (withMgt (fun m => { m with xops := [], sector := none }) s)
    match s.mgt.restart with
    | some c => mgtReset c (withMgt (fun m => { m with xops := [] }) s)
    | none => startOp s

/-- XSPI_OPERATION_COMPLETE (R487, R493). -/
def execXspiOperationComplete (ok : Bool) (s : State) : Host.Outcome State Fault Refusal := act (opDone ok) s

/-! ### The boot ROM (R427, R495) -/

/-- First byte of an image slot (R491). -/
def slotBase (slot : Nat) : Nat := 0x20000 + slot * 0x2000000

/-- Does the SEC accept an image (R427)? -/
def imageOk (img : List Byte) (s : State) : Bool :=
  let n := img.length - 512
  let b := img.drop n
  let pub := part 160 257 b
  let slot := leNat (part 4 5 b)
  let key := some (sha384 pub)
  512 ≤ img.length && leNat (part 0 4 b) == 0x48545541 && part 5 6 b == [0] && leNat (part 8 16 b) == n &&
    (part 257 512 b).all (· == 0) && s.sec.fuses.svn ≤ leNat (part 6 8 b) && part 16 64 b == sha384 (img.take n) &&
    ecdsaVerify pub (sha384 (part 0 64 b)) (part 64 160 b) &&
    (match lifecycle s with
     | 0 => slot == 0 && key == some Config.digestKM
     | 3 => slot == 1 && key == some Config.digestKR
     | _ => 2 ≤ slot && slot ≤ 5 && !bit (slot - 2) s.sec.fuses.orev && (s.sec.fuses.own.toList[slot - 2]?).getD none == key)

/-- SEC_MEAS takes the digest of the whole image (R427). -/
def measure (img : List Byte) (s : State) : State :=
  let d := sha384 img
  (List.range 6).foldl (fun s k => wrReg (Reg.SEC_MEAS + 8 * k) (ofBytes 64 (part (8 * k) (8 * k + 8) d)) s) s

def setBoot (b : Option BootAt) (s : State) : State := withMgt (fun m => { m with boot := b }) s

/-- RECOVERY (R495): the xSPI balls are let go, and 10 s later the selection is made again. -/
def recovery (s : State) : State :=
  setRf Reg.MGT_BOOT 3 2 2 (emit (.xspiFloats true) (withMgt (fun m => { m with boot := none, again := s.now + us 10000000 }) s))

/-- Firmware runs from a slot, and records the reset (R492). Ports that RECOVERY has kept down negotiate now (R495). -/
def runSlot (slot : Nat) (s : State) : State :=
  let s := setRf Reg.MGT_BOOT 3 2 1 (setRf Reg.MGT_BOOT 0 0 slot (setBoot none s))
  let s := (List.range 128).foldl (fun s p => tryStart p s) s
  mgtLog 0x10 (leBytes 4 (rf Reg.MGT_BOOT 11 8 s) ++ toBytes 8 s.gtime) s

/-- The image of a slot is judged (R427, R495). Whether its read from the flash fails is a free value. -/
def bootAuth (n slot : Nat) (s : State) : State :=
  let (k, s) := fresh s
  if Config.flashReadFails k then setBoot (some (.try_ (n + 1))) (fcuOccur 184 s)
  else
    let img := flashRead (slotBase slot) ((headerNow s).1.len slot) s
    if imageOk img s then runSlot slot (measure img s)
    else setBoot (some (.try_ (n + 1))) (writeHeader slot 4 s)

/-- The slot that a pass tries. -/
def passSlot (n : Nat) (s : State) : Nat :=
  let p := (headerNow s).1.primary
  if n == 0 then p else 1 - p

/-- One step of the selection (R495). -/
def bootStep (b : BootAt) (s : State) : State :=
  match b with
  | .auth n => bootAuth n (passSlot n s) s
  | .try_ n =>
    if 2 ≤ n || rf Reg.MGT_STRAP 6 6 s == 1 then recovery s
    else
      let slot := passSlot n s
      match (headerNow s).1.state slot with
      | 1 => setBoot (some (.auth n)) (writeHeader slot 2 s)
      | 2 => setBoot (some (.try_ (n + 1))) (writeHeader slot 4 s)
      | 3 => bootAuth n slot s
      | _ => setBoot (some (.try_ (n + 1))) s

/-- RECOVERY_RESELECT (R495), 10 s after RECOVERY began. STATE shows ROM while the selection runs (DEDUCED). -/
def execRecoveryReselect (s : State) : Host.Outcome State Fault Refusal :=
  act (fun s =>
    if rf Reg.MGT_BOOT 3 2 s == 2 && rf Reg.MGT_STRAP 6 6 s == 0 then
      setBoot (some (.try_ 0)) (setRf Reg.MGT_BOOT 3 2 0 (emit (.xspiFloats false) (advanceTo s.mgt.again s)))
    else s) s

/-! ### The event log (R492, R496) -/

/-- Address of a log sector, and how many there are in 128 MiB (R491). -/
def logSector (i : Nat) : Nat := 0x4020000 + i * 0x10000
def logSectors : Nat := 1022

/-- The greatest SEQ of the valid records from an address up to the first that is not valid. -/
def scanRecords (s : State) : Nat → Nat → Option Nat → Option Nat
  | 0, _, best => best
  | k + 1, a, best =>
    match readRecord a s with
    | none => best
    | some (_, q, b) =>
      let best := some (match best with
        | some x => max x q
        | none => q)
      let next := a + recordSize b.length
      if next / 65536 == a / 65536 then scanRecords s k next best else best

/-- The SEQ of a sector of the log: that of its SECTOR record (R496). -/
def sectorSeq (i : Nat) (s : State) : Option Nat :=
  match readRecord (logSector i) s with
  | some (2, q, _) => some q
  | _ => none

/-- The SEQ that the next record takes: one more than the last valid one; 0 in an empty log (DESIGN CHOICE). -/
def nextSeq (s : State) : Nat :=
  (List.range logSectors).foldl (fun n i =>
    match sectorSeq i s with
    | none => n
    | some _ =>
      match scanRecords s 4096 (logSector i) none with
      | some q => max n (q + 1)
      | none => n) 0

/-- The sector that is opened next: the first not in use, else the one with the least SEQ (R496). -/
def freeSector (s : State) : Nat :=
  match (List.range logSectors).find? (fun i => (sectorSeq i s).isNone) with
  | some i => i
  | none =>
    ((List.range logSectors).foldl (fun (b : Nat × Nat) i =>
      match sectorSeq i s with
      | some q => if q < b.2 then (i, q) else b
      | none => b) (0, 2 ^ 64)).1

/-- The next record of the log is begun, after a sector has been opened for it if need be. -/
def logNext (s : State) : State :=
  match s.mgt.log with
  | [] => s
  | (typ, body) :: rest =>
    let size := recordSize body.length
    match s.mgt.sector with
    | some (i, off) =>
      if off + size ≤ 65536 then
        beginOps (recordOps (logSector i + off) typ (nextSeq s) body)
          (withMgt (fun m => { m with log := rest, sector := some (i, off + size) }) s)
      else withMgt (fun m => { m with sector := none }) s
    | none =>
      let i := freeSector s
      beginOps (.erase (logSector i) :: recordOps (logSector i) 2 (nextSeq s) [])
        (withMgt (fun m => { m with sector := some (i, recordSize 0) }) s)

/-- May the MGT take its next step: no operation of the flash runs, it is neither fenced nor halted nor within a WARM reset (R487), and
the device is not on its way to P3 or tripped, where no new record is begun (R418, R516)? -/
def mgtSteps (s : State) : Bool :=
  s.mgt.xops.isEmpty && !unitFenced 141 s && !s.sec.halts.contains none && s.mgt.warm ≤ s.now && effState s != 3 && s.clk.trip.isNone

/-- The MGT goes on: the boot ROM's selection, or the log. -/
def mgtTick (s : State) : State :=
  let s := tripCut s
  if !mgtSteps s then s
  else
    match s.mgt.boot with
    | some b => bootStep b s
    | none => if rf Reg.MGT_BOOT 3 2 s == 1 then logNext s else s

/-! ### Resets (R482 to R489) -/

/-- A write to a register of the MGT (18): of masters 0x800 and PF0 with privilege; JTAG's is ignored and counted. One that meets a fenced MGT
is held (R389). -/
def mgtReg (m : Master) (r : HeldReq) (k : State → State) (s : State) : State :=
  if m == 0x801 then ignored 141 s else mgtWr m (cross 141 r k) s

/-- COLD_RESET (R482, R484, R504). With TEST_EN every block is held in reset; with a rail still out the device stays in reset. -/
def execColdReset (straps : BitVec 10) (s : State) : Host.Outcome State Fault Refusal :=
  let st := straps.toNat % 512
  let test := bit 9 straps
  if !s.clk.brown.isEmpty then
    let c := coldState st s
    .next (resetPins test { c with clk := { c.clk with off := true, testEn := test, brown := s.clk.brown } })
  else if test then
    let c := emit (.pstateOut 3) (coldState st s)
    .next { c with clk := { c.clk with off := true, testEn := true } }
  else .next (coldReset st s)

/-- SUPPLY_RETURN (R508). -/
def execSupplyReturn (s : State) : Host.Outcome State Fault Refusal :=
  if s.clk.brown.isEmpty then .next s
  else if s.clk.testEn then .next (emit (.pstateOut 3) { s with clk := { s.clk with brown := [] } })
  else .next (coldReset (strapBits s) s)

/-- A WARM reset; PSTATE_OUT follows CURRENT. It lasts for a free time of at most 20 ms (R487), and does not end a thermal trip (R516). -/
def warmReset (s : State) : State :=
  let was := powerState s
  let (n, s) := fresh (warmState s)
  let s := withMgt (fun m => { m with warm := s.now + Config.warmTime n % (us 20000 + 1) }) s
  if s.clk.trip.isSome then domainsFollow s else if was == 0 then s else showPstate 0 s

/-- WARM_RESET (R482, R487). -/
def execWarmReset (m : Master) (s : State) : Host.Outcome State Fault Refusal := 
  act (mgtReg m (regReq m Reg.MGT_RESET 1) warmReset) s

/-- MGT_RESET.MGT_RESTART is written (R482, R487): the restart waits for the operation in progress, and the bit reads 1 until then. -/
def restartMgt (s : State) : State :=
  if s.mgt.xops.isEmpty then mgtReset 2 s else setRf Reg.MGT_RESET 1 1 1 (withMgt (fun m => { m with restart := some 2 }) s)

/-- MGT_RESTART (R482, R487). -/
def execMgtRestart (m : Master) (s : State) : Host.Outcome State Fault Refusal := 
  act (mgtReg m (regReq m Reg.MGT_RESET 2) restartMgt) s

/-- HOST_READY is written by a master: only the MGT may set it (R486), and not in RECOVERY (R495). -/
def readyWrite (m : Master) (s : State) : State :=
  if m == 0x800 then (if recovering s then s else setRf Reg.MGT_BOOT 7 7 1 s) else ignored 141 s

/-- HOST_READY (R486). -/
def execHostReady (m : Master) (s : State) : Host.Outcome State Fault Refusal := 
  act (mgtReg m (regReq m Reg.MGT_BOOT 0x80) (readyWrite m)) s

/-- The fault source of a unit (R382). -/
def unitSource : SUnit → Nat
  | .tile t => t.toNat
  | .bank g => 16 + g.toNat / 16
  | .port p => 32 + p.toNat / 8
  | .cluster c => 48 + c.toNat
  | .core x => if x.toNat < 128 then 64 + x.toNat / 8 else 64 + 2 * ((x.toNat - 128) % 8)
  | .rdu x => 80 + x.toNat
  | .restart n => n.toNat

/-- SELF_TEST_COMPLETE (R489): a unit that fails starts fenced. -/
def execSelfTestComplete (u : SUnit) (pass : Bool) (s : State) : Host.Outcome State Fault Refusal :=
  act (fun s =>
    if !s.snf.tests.contains u then s
    else
      let s := { s with snf := { s.snf with tests := s.snf.tests.filter (· != u) } }
      if pass then s else fcuOccur (unitSource u) (fenceUnit u s)) s

end Sys2Proof.Machine
end

