-- ==== Sys2Proof/Machine/Access.lean ====
section
/-! DEFINITION. Reads and writes of registers at large (17: R470 to R477), and the commands that are made of them: REGISTER_WRITE,
DBG_READ, DBG_WRITE (15: R430, R432), and accesses that leave a function's window (R438, R439). -/

namespace Sys2Proof.Machine

/-! ### Blocks and their offsets (R477) -/

/-- The lowest fault source of the block that an offset of BAR0 belongs to; the HIF's where none does. -/
def blockSrc (off : Nat) : Nat :=
  let m := off / 0x10000
  if m == 1 then 123
  else if m == 2 then 125
  else if m == 3 then 126
  else if m == 4 then 133
  else if m == 5 then 135
  else if m == 6 then 140
  else if 0x100 ≤ m && m < 0x200 then 123
  else if m == 0x200 then 137
  else if m == 0x300 then 136
  else if 0x400 ≤ m && m < 0x480 then 138
  else if m == 0x802 then 125
  else if m == 0x803 then 126
  else if m == 0x804 then 128
  else if m == 0x805 then 130
  else if m == 0x806 then 32
  else if m == 0x808 then 133
  else if m == 0x809 then (if off < 0x08098000 then 117 else 137)
  else if m == 0x80A then 48
  else if m == 0x80B then 0
  else if m == 0x80C || (0x880 ≤ m && m < 0x88C) then 134
  else if m == 0x80D then 135
  else if m == 0x80E then 136
  else if m == 0x80F then 144
  else if m == 0x810 then 143
  else if m == 0x811 then 142
  else if m == 0x812 then 140
  else if m == 0x813 then 138
  else if m == 0x814 || (0x840 ≤ m && m < 0x880) then 139
  else if m == 0x816 then 141
  else 118

/-- Is the block at an offset of management space switched off by P2 (R415, R432)? -/
def blockOff (off : Nat) (s : State) : Bool :=
  powerState s == 2 && [0, 32, 48, 117, 123, 125, 126, 128, 130, 133, 134].contains (blockSrc off)

/-- Does an offset read zero for want of power: in P2 the blocks that are off, in P1 the ports that are off (R432)? -/
def readsOff (off : Nat) (s : State) : Bool :=
  blockOff off s ||
    (powerState s == 1 && blockSrc off == 32 &&
      ((List.range 128).find? (fun p => portReg p off)).any (fun p => !domOn (1 + p) s))

/-! ### Reads of management space (R471) -/

/-- The staging queue whose control register has a base. -/
def stgOfReg (base : Nat) : Option StgKind := [StgKind.htx, .txi, .rxd, .rxp, .lrx, .ltx].find? (fun k => stgReg k == base)

/-- What a register of management space reads as. OCC of a staging queue is the cells in it now (R164). WO fields read zero. -/
def regRead (off : Nat) (s : State) : BitVec 64 :=
  match regFind false off with
  | none => 0
  | some d =>
    let n := d.index off
    if d.base == Reg.LLT_HIST then BitVec.ofNat 64 ((tget s.llt.hist n).getD 0)
    else if d.base == Reg.XBR_PORT then setBits 6 0 (portPeer n s) (rdReg off s)
    else
      match stgOfReg d.base with
      | some k => setBits 31 16 (stgOcc k n s) (rdReg off s)
      | none => rdReg off s &&& ~~~accMask [.wo] d.fields

/-- An aligned 8-byte read of management space: a 32-bit register and the 4 bytes above it. -/
def mgmtRead (off : Nat) (s : State) : BitVec 64 × State :=
  let o := off / 8 * 8
  if readsOff o s then (0, s)
  else if 0x08400000 ≤ o && o < 0x08800000 then (lanternWord ((o - 0x08400000) / 8) s, s)
  else
    match regFind false o with
    | some d => if d.bytes == 4 then (BitVec.ofNat 64 (bits 31 0 (regRead o s) + bits 31 0 (regRead (o + 4) s) * 2 ^ 32), s) else (regRead o s, s)
    | none => (0, s)

/-! ### What an aligned 8-byte read of BAR0 returns (R471)

The operation table has rows for the reads that change something (LCK_STAT_READ, GTIME_LO_READ, BAR0_WINDOW_VIOLATION). The others
are these views of the State. -/

/-- SEC_ID1 (R435). -/
def secId1 (s : State) : BitVec 64 := BitVec.ofNat 64 (s.sec.fuses.dieX.toNat * 256 + s.sec.fuses.dieY.toNat)

/-- SEC_IDKEY[k] (R436): zero in BLANK. -/
def secIdKey (k : Nat) (s : State) : BitVec 64 :=
  if lifecycle s == 0 then 0 else ofBytes 64 ((s.sec.fuses.idkd.drop (8 * k)).take 8)

/-- HIF_FUNC of a function (R472). -/
def hifFunc (f : Nat) (s : State) : BitVec 64 :=
  BitVec.ofNat 64 ((if f == 0 then rf Reg.HIF_MGTPRIV 0 0 s else 0) * 2 ^ 15 + (if f % 256 == 0 then 0 else 1) * 2 ^ 14 +
    f / 256 * 2 ^ 12 + f)

/-- One register of a function's device control and status range. -/
def fnRegRead (f off : Nat) (s : State) : BitVec 64 :=
  if off == Reg.HIF_FUNC then hifFunc f s
  else if Reg.HIF_WINRD ≤ off && off < Reg.HIF_WINRD + 32 then rdReg (Reg.HIF_WIN + 32 * f + (off - Reg.HIF_WINRD)) s
  else if off == Reg.TMU_GTIME_LO then BitVec.ofNat 64 (bits 31 0 s.gtime)
  else if off == Reg.SEC_ID0 then secId0 s
  else if off == Reg.SEC_ID1 then secId1 s
  else if Reg.SEC_IDKEY ≤ off && off < Reg.SEC_IDKEY + 48 then secIdKey ((off - Reg.SEC_IDKEY) / 8) s
  else rdFn f off s

/-- A read of a function's device control and status range: a 32-bit register and the 4 bytes above it, or a 64-bit one; zero where
there is none (R471). A 64-bit read of GTIME is from one instant (R333). -/
def fnRead (f off : Nat) (s : State) : BitVec 64 :=
  let o := off / 8 * 8
  if o == Reg.TMU_GTIME_LO then s.gtime
  else
    match regFind true o with
    | some d =>
      if d.bytes == 4 then BitVec.ofNat 64 (bits 31 0 (fnRegRead f o s) + bits 31 0 (fnRegRead f (o + 4) s) * 2 ^ 32)
      else fnRegRead f o s
    | none => 0

/-- MBX_STAT of a mailbox (R224). -/
def mbxStat (n : Nat) (s : State) : BitVec 64 :=
  let x := getMbx n s
  let full := x.state == .full
  BitVec.ofNat 64 (b2n full * 2 ^ 63 + x.gen.toNat * 2 ^ 32 + (if full then x.status.toNat * 2 ^ 24 + x.detail.toNat * 2 ^ 16 else 0) +
    b2n (x.state == .armed) * 2)

/-- Counter `n` as its page shows it (R449). -/
def evcShown (n : Nat) (s : State) : BitVec 64 :=
  setBits 63 63 (rf (Reg.EVC_CTL + 8 * n) 63 63 s) (BitVec.ofNat 64 (rf (Reg.EVC_CNT + 8 * n) 48 0 s))

/-- A 32-bit read of a function's device control and status range: TMU_GTIME_HI returns what the function has latched (R333). -/
def fnRead32 (f off : Nat) (s : State) : BitVec 32 :=
  let o := off / 4 * 4
  match regFind true o with
  | some _ => (fnRegRead f o s).setWidth 32
  | none => ((fnRead f o s) >>> (8 * (o % 8))).setWidth 32

/-! ### Writes of management space (R471, R473) -/

/-- The value that a write with byte enables brings to a register: RW fields keep the bytes not enabled, every other field of those
bytes is written 0. -/
def merged (d : RegDef) (be : BitVec 8) (old v : BitVec 64) : BitVec 64 :=
  (v &&& beMask be) ||| (old &&& ~~~beMask be &&& accMask [.rw] d.fields)

/-- A write of a staging queue's register (R163, R167): FLUSH acts at once and reads 0 again. -/
def writeStg (k : StgKind) (n off : Nat) (v : BitVec 64) (s : State) : State :=
  let s := setRf off 0 0 0 (writeReg off v s)
  if bit 0 v then flushStaging k n s else s

/-- A write of LNK_CTRL (R325). -/
def writeLnkCtrl (p : Nat) (v : BitVec 64) (s : State) : State :=
  let s := if bit 0 v && !adminUp p s then tryStart p (setRf (Reg.LNK_CTRL + 8 * p) 0 0 1 s)
    else if !bit 0 v && adminUp p s then adminDown p s else s
  let s := if bit 1 v then reneg p s else s
  if bit 2 v && linkLive p s && izl3 p s && spareLanes p s != 0 then
    startRetrain p (setRf (Reg.LNK_CTRL + 8 * p) 2 2 1 s)
  else s

/-- A write of TMU_CTRL (R360). -/
def writeTmuCtrl (v : BitVec 64) (s : State) : State :=
  let s := if bits 1 0 v == rf Reg.TMU_CTRL 1 0 s then s else writeMode (bits 1 0 v) s
  if bit 2 v then gtimeLoadGo s else s

/-- A write of LLT_HIST_CFG (R358): CLEAR acts at once. -/
def writeHistCfg (v : BitVec 64) (s : State) : State :=
  let s := setRf Reg.LLT_HIST_CFG 0 0 0 (writeReg Reg.LLT_HIST_CFG v s)
  if bit 0 v then withLlt (fun l => { l with hist := [] }) s else s

/-- A write of FCU_CFG (R386): STRIKES is RO for FREEZE, VOTE, EVENT and staging-queue sources. -/
def writeFcuCfg (n : Nat) (v : BitVec 64) (s : State) : State :=
  let off := Reg.FCU_CFG + 8 * n
  if captureSource n || n == 124 || (161 ≤ n && n ≤ 163) || 188 ≤ n then writeReg off (setBits 11 8 (rf off 11 8 s) v) s
  else writeReg off v s

/-- A write of SNF_CTRL (R393). -/
def writeSnfCtrl (v : BitVec 64) (s : State) : State :=
  if rf Reg.SNF_CTRL 31 31 s == 1 then ignored 143 s
  else
    let s := setRf Reg.SNF_CTRL 15 0 (bits 15 0 v) (setRf Reg.SNF_CTRL 26 24 (bits 26 24 v) s)
    if bit 31 v then restoreGo (setRf Reg.SNF_CTRL 33 32 0 (setRf Reg.SNF_CTRL 31 31 1 s)) else s

/-- A write of CLK_PSTATE (R416): TARGET is written whatever BUSY holds, and only a GO is ignored during a transition. -/
def writePstate (v : BitVec 64) (s : State) : State :=
  let s := setRf Reg.CLK_PSTATE 1 0 (bits 1 0 v) s
  if bit 8 v then pstateGo (bits 1 0 v) s else s

/-- A write of SEC_CMD (R426). Whether the fuse supply is in range is a free value here: the write does not tell. -/
def writeSecCmd (v : BitVec 64) (s : State) : State :=
  if bit 16 v then
    let (n, s) := fresh s
    secRun (bits 7 0 v) (bit 0 (Config.undef64 n)) s
  else setRf Reg.SEC_CMD 7 0 (bits 7 0 v) s

/-- A write of LTN_CTRL (R454). -/
def writeLtnCtrl (v : BitVec 64) (s : State) : State :=
  let s := setRf Reg.LTN_CTRL 63 48 (bits 63 48 v) (setRf Reg.LTN_CTRL 4 3 (bits 4 3 v) s)
  let s := if bits 1 0 v == rf Reg.LTN_CTRL 1 0 s then s else writeLtnMode (bits 1 0 v) s
  let s := if bit 2 v then ltnBegin s else s
  if bit 5 v then ltnTrig 1 s else s

/-- A write of MGT_BOOT or MGT_RESET by a master (R486, R487). -/
def writeMgt (m : Master) (base : Nat) (v : BitVec 64) (s : State) : State :=
  if m == 0x801 then ignored 141 s
  else if base == Reg.MGT_BOOT then (if bit 7 v then readyWrite m s else s)
  else if base == Reg.MGT_RESET then
    if bit 0 v then warmReset s else if bit 1 v then restartMgt s else s
  else s

/-- A write of a register of management space by a master that may make it: `d` is the register's array, `off` its offset, `be` the bytes
written, and `v` the whole value that results. -/
def writeOne (m : Master) (d : RegDef) (off : Nat) (be : BitVec 8) (v : BitVec 64) (s : State) : State :=
  let n := d.index off
  let b := d.base
  if b == Reg.XLT_BTR_ALLOC then
    let old := rdReg off s
    if (tget s.xlt.btrs n).isSome && (bits 11 0 v != bits 11 0 old || !bit 12 v) then s else writeReg off v s
  else if b == Reg.QPC_RANGE then writeRange n v s
  else if (stgOfReg b).isSome then writeStg ((stgOfReg b).getD .htx) n off v s
  else if b == Reg.LNK_ADV then (if bit 8 v then writeReg off v s else lnkIgnored s)
  else if b == Reg.LNK_CTRL then writeLnkCtrl n v s
  else if b == Reg.HIF_WIN then writeWin (n / 4) (n % 4) v s
  else if b == Reg.HIF_MGTPRIV then writePriv m v s
  else if b == Reg.MBX_ALLOC then writeMbxAlloc n v s
  else if b == Reg.TPR_UNFREEZE then progUnfreeze (bits 9 0 v) s
  else if b == Reg.XBR_CHIP then writeChip v s
  else if off / 0x10000 == 0x80B then writeXbr off v s
  else if b == Reg.LLT_GCL then (if n % 2 == 0 then gclWrite0 (n / 512) (n % 512 / 2) v s else gclWrite1 (n / 512) (n % 512 / 2) v s)
  else if b == Reg.LLT_HIST_CFG then writeHistCfg v s
  else if off / 0x10000 == 0x80C then writeLlt off be v s
  else if b == Reg.TMU_CTRL then writeTmuCtrl v s
  else if b == Reg.LCK_ALLOC then writeLckAlloc n v s
  else if b == Reg.LCK_FORCE then semForce (v.setWidth 32) s
  else if b == Reg.FCU_INJECT then injectWrite v s
  else if b == Reg.FCU_CFG then writeFcuCfg n v s
  else if b == Reg.SNF_CTRL then writeSnfCtrl v s
  else if b == Reg.CLK_PSTATE then writePstate v s
  else if b == Reg.CLK_P1_KEEP then writeKeep off v s
  else if b == Reg.SEC_CMD then writeSecCmd v s
  else if b == Reg.SEC_UNFREEZE then unfreezeWrite v s
  else if b == Reg.EVC_CTL then writeEvcCtl n v s
  else if b == Reg.EVC_PAGE_EN then writePageEn n v s
  else if b == Reg.LTN_CTRL then writeLtnCtrl v s
  else if b == Reg.LTN_SEL || b == Reg.LTN_SPILL then
    if rf Reg.LTN_CTRL 6 6 s == 1 then ignored 139 s
    else if off == Reg.LTN_SEL + 40 then writeReg off (setBits 63 51 0 v) s
    else if off == Reg.LTN_SEL + 48 then s
    else writeReg off v s
  else if off / 0x10000 == 0x816 then writeMgt m b v s
  else writeReg off v s

/-- A write of one register of management space. An offset without a register ignores it and counts it
(R471), but for JTAG's write of the Lantern buffer (R430). -/
def mgmtReg (m : Master) (o : Nat) (be : BitVec 8) (v : BitVec 64) (s : State) : State :=
  if be == 0 then s
  else
    match regFind false o with
    | none =>
      let k := (o - 0x08400000) / 8
      if m == 0x801 && 0x08400000 ≤ o && o < 0x08800000 then
        lanternSet k ((v &&& beMask be) ||| (lanternWord k s &&& ~~~beMask be)) s
      else ignored (blockSrc o) s
    | some d => writeOne m d o be (merged d be (regRead o s) v) s

/-- A write to management space as its block takes it: an 8-byte register, or a 32-bit one and then the 4 bytes above it (R471). -/
def mgmtGo (m : Master) (off : Nat) (be : BitVec 8) (v : BitVec 64) (s : State) : State :=
  let o := off / 8 * 8
  if (regFind false o).any (fun d => d.bytes == 4) then
    mgmtReg m (o + 4) (be >>> 4) (v >>> 32) (mgmtReg m o (be &&& 0x0F) v s)
  else mgmtReg m o be v s

/-- The fault source of the unit that a register of management space belongs to: the registers of the HIF lie in its controllers. -/
def regUnit (off : Nat) : Nat :=
  if Reg.HIF_WIN ≤ off && off < Reg.HIF_WIN + 32 * 1024 then 118 + (off - Reg.HIF_WIN) / 32 / 256
  else if Reg.HIF_LINK ≤ off && off < Reg.HIF_LINK + 64 then 118 + (off - Reg.HIF_LINK) / 16
  else blockSrc off

/-- A write to management space by a master that may make it, in aligned 8-byte parts (R471); it is held while the crossing into its block is
shut (R389, R407). -/
def mgmtWrite (m : Master) (off : Nat) (be : BitVec 8) (v : BitVec 64) (s : State) : State :=
  cross (regUnit off) (.reg m (off / 8 * 8) be v) (mgmtGo m off be v) s

/-! ### Writes of a function's own range (R477) -/

/-- A plain write of a register of a function. -/
def writeFnReg (f : Nat) (d : RegDef) (off : Nat) (be : BitVec 8) (v : BitVec 64) (s : State) : State :=
  wrFn f off (applyWrite d be (rdFn f off s) v) s

/-- A write of a table's control register: CFG_ERR is W1C, and ENABLE acts (R74, R110, R189). -/
def writeCtl (f off : Nat) (v : BitVec 64) (on offF : State → State) (s : State) : State :=
  let s := if bit 2 v then setFf f off 2 2 0 s else s
  if bit 0 v then on s else offF s

/-- A write of CMR_ADMIN_CTRL (R54, R55): START is fixed while ACTIVE is 1. -/
def writeAdminCtl (f : Nat) (v : BitVec 64) (s : State) : State :=
  if bit 0 v then adminEnable f (v.extractLsb' 32 32) s
  else
    let s := if bit 1 (rdFn f Reg.CMR_ADMIN_CTRL s) then s else setFf f Reg.CMR_ADMIN_CTRL 63 32 (bits 63 32 v) s
    adminDisable f s

/-- The effect of a write of a register of a function's own range. -/
def writeFnOne (f : Nat) (d : RegDef) (off : Nat) (be : BitVec 8) (v : BitVec 64) (s : State) : State :=
  let b := d.base
  let w := merged d be (rdFn f off s) v
  if b == Reg.CMR_ADMIN_RING || b == Reg.CMR_ADMIN_MIRROR then
    if bit 1 (rdFn f Reg.CMR_ADMIN_CTRL s) then s else writeFnReg f d off be v s
  else if b == Reg.CMR_ADMIN_CTRL then writeAdminCtl f w s
  else if b == Reg.XLT_KEYTAB then (if bit 1 (rdFn f Reg.XLT_KEYTAB_CTRL s) then s else writeFnReg f d off be v s)
  else if b == Reg.XLT_KEYTAB_CTRL then
    writeCtl f b w (fun s => enableTable f Reg.XLT_KEYTAB_CTRL (keytabOk f s) s) (keytabOff f) s
  else if b == Reg.QPC_CTXTAB then (if bit 1 (rdFn f Reg.QPC_CTXTAB_CTRL s) then s else writeFnReg f d off be v s)
  else if b == Reg.QPC_CTXTAB_CTRL then
    writeCtl f b w (fun s => enableTable f Reg.QPC_CTXTAB_CTRL (ctxtabOk f s) s)
      (fun s => disableTable f Reg.QPC_CTXTAB_CTRL (s.qpc.bound.any (fun x => x.2.fn == f)) s) s
  else if b == Reg.MTE_UXPOOL then (if bit 1 (rdFn f Reg.MTE_UXCTRL s) then s else writeFnReg f d off be v s)
  else if b == Reg.MTE_UXCTRL then
    writeCtl f b w (fun s => enableTable f Reg.MTE_UXCTRL (uxpoolOk f s) s)
      (fun s => disableTable f Reg.MTE_UXCTRL (!(usedPieces f s).isEmpty) s) s
  else if b == Reg.MSIX_TABLE then msixResend f (writeFnReg f d off be v s)
  else writeFnReg f d off be v s

/-- A write of a function to its device control and status range as the block takes it (R471). -/
def fnGo (f off : Nat) (be : BitVec 8) (v : BitVec 64) (s : State) : State :=
  let o := off / 8 * 8
  match regFind true o with
  | none => if be == 0 then s else ignored (blockSrc o) s
  | some d =>
    let low := if d.bytes == 4 then be &&& 0x0F else be
    let s := if low == 0 then s else writeFnOne f d o low v s
    if d.bytes == 4 && be &&& 0xF0 != 0 && (regFind true (o + 4)).isNone then ignored (blockSrc o) s else s

/-- The fault source of the unit that an offset of a function's own range belongs to. -/
def fnUnit (f off : Nat) : Nat := if blockSrc off == 118 then 118 + f / 256 else blockSrc off

/-- A write by a function to its device control and status range (R477); it is held while the crossing into its block is shut (R389). -/
def fnWrite (f off : Nat) (be : BitVec 8) (v : BitVec 64) (s : State) : State :=
  let o := off / 8 * 8
  hostWr f (blockSrc o) false (cross (fnUnit f o) (.fn f o be v) (fnGo f o be v)) s

/-! ### Writes elsewhere in BAR0 (R470, R438, R439) -/

/-- Where byte enables begin, how many bytes they span, and the value moved down to them. Byte enables with a gap make no access of a
register's width, and 3 stands for it. -/
def accessForm (be : BitVec 8) (v : BitVec 64) : Nat × Nat × BitVec 64 :=
  let on := (List.range 8).filter (fun k => bit k be)
  let first := (on.head?).getD 0
  let last := (on.getLast?).getD 0
  (first, if on.isEmpty then 0 else if on.length == last + 1 - first then on.length else 3, v >>> (8 * first))

/-- Is a counter page enabled for a function (R448)? -/
def pageMine (b f : Nat) (s : State) : Bool := b < 24 && evcOwner (64 * b) s == some f

/-- A write of a function to the lock window (R367). -/
def lockWrite (f : Fn) (off bytes : Nat) (s : State) : State :=
  let o := off % 64
  semWrite f (if o % 8 == 0 then min 3 (o / 8) else 3) (BitVec.ofNat 10 (off % 0x10000 / 64)) bytes s

/-- A write by a function to BAR0 below management space. -/
def barWrite (f : Fn) (off : Nat) (be : BitVec 8) (v : BitVec 64) (s : State) : State :=
  let (first, bytes, w) := accessForm be v
  let a := off / 8 * 8 + first
  let seg := off / 0x10000
  if off < 0x100000 then fnWrite f.toNat off be v s
  else if bytes == 0 then s
  else if 0x100 ≤ seg && seg < 0x200 then
    doorbell f (BitVec.ofNat 12 (a % 0x1000000 / 4096)) (BitVec.ofNat 12 (a % 4096)) (BitVec.ofNat 4 bytes) w s
  else if seg == 0x200 then
    hostWr f.toNat 137 true (mbxRelease f.toNat (a % 0x10000 / 16) (BitVec.ofNat 4 (a % 16)) (BitVec.ofNat 5 bytes) w) s
  else if seg == 0x300 then lockWrite f a bytes s
  else if 0x400 ≤ seg && seg < 0x480 then
    hostWr f.toNat 138 false (fun s =>
      if pageMine (a % 0x800000 / 4096) f.toNat s then ignored 138 s else violation 162 f.toNat 7 s) s
  else hostWr f.toNat 118 false (violation 162 f.toNat 8) s

/-- Is an offset one of the SEC's registers (R442)? -/
def secReg (off : Nat) : Bool := 0x08120000 ≤ off && off < 0x08129000

/-- A write to BAR0 with poisoned data: discarded, counted and reported through AER (R471). -/
def poisonedWrite (f : Nat) (s : State) : State := if reaches f s then emit (.aer f) (ignored 118 s) else s

/-- REGISTER_WRITE (R470, R471, R473, R477): SEC registers ignore every function and freeze none (15). -/
def execRegisterWrite (m : Master) (off : BitVec 28) (be : BitVec 8) (w : WriteData) (s : State) : Host.Outcome State Fault Refusal :=
  act (fun s =>
    match w with
    | .poisoned => if m.toNat < 0x400 then poisonedWrite m.toNat s else s
    | .data v =>
    let o := off.toNat
    if o < 0x08000000 then (if m.toNat < 0x400 then barWrite (m.setWidth 10) o be v s else s)
    else if m.toNat < 0x400 && secReg o then secIgnored m.toNat s
    else if m == 0x801 && blockOff (o / 8 * 8) s then s
    else mgtWr m (mgmtWrite m o be v) s) s

/-! ### JTAG (R430, R432) -/

/-- DBG_READ (R430, R432). Offsets outside management space read zero. -/
def execDbgRead (off : BitVec 28) (s : State) : Host.Outcome State Fault Refusal :=
  debugDo 8 (fun s => 1 ≤ debugLevel s)
    (fun s =>
      let (v, s) := if off.toNat < 0x08000000 then (0, s) else mgmtRead off.toNat s
      emit (.tdo (toBytes 8 v)) s) s

/-- DBG_WRITE (R430, R432). -/
def execDbgWrite (off : BitVec 28) (be : BitVec 8) (v : BitVec 64) (s : State) : Host.Outcome State Fault Refusal :=
  debugDo 8 (fun s => debugLevel s == 2)
    (fun s =>
      let o := off.toNat
      if o < 0x08000000 || blockOff (o / 8 * 8) s then s else mgmtWrite 0x801 o be v s) s

/-! ### Accesses outside the window (R438, R439) -/

/-- The source and cause with which an access to BAR0 leaves the window; `none` if it does not. -/
def windowCause (f off : Nat) (wr : Bool) (s : State) : Option (Nat × Nat) :=
  let seg := off / 0x10000
  if off < 0x100000 then none
  else if 0x100 ≤ seg && seg < 0x200 then
    let pg := off % 0x1000000 / 4096
    if wr && pg != 0 && (tget s.cmp.pages (ringKey f pg)).isNone then some (124, 2) else none
  else if seg == 0x200 then (if mbxOwned (off % 0x10000 / 16) f s then none else some (162, 3))
  else if seg == 0x300 then (if semAllowed (off % 0x10000 / 64) f s then none else some (161, 4))
  else if 0x400 ≤ seg && seg < 0x480 then (if pageMine (off % 0x800000 / 4096) f s then none else some (162, 7))
  else if 0x08000000 ≤ off then (if f == 0 && rf Reg.HIF_MGTPRIV 0 0 s == 1 then none else some (162, 6))
  else some (162, 8)

/-- Is a read of a counter page that the function owns one that no counter answers (R449)? -/
def pageMisread (f off : Nat) (s : State) : Bool :=
  0x400 ≤ off / 0x10000 && off / 0x10000 < 0x480 && pageMine (off % 0x800000 / 4096) f s && (512 ≤ off % 4096 || off % 8 != 0)

/-- Does a read of BAR0 return what a register holds: the function exists and its controller is in service, no WARM reset lasts (R487), before
HOST_READY the offset names the device (R488), in P2 it stays in use (R419), and it lies in the window (R438)? -/
def readServed (f off : Nat) (s : State) : Bool :=
  let seg := off / 0x10000
  let ident := off < 0x100000 &&
    (off / 8 * 8 == Reg.HIF_FUNC || off / 8 * 8 == Reg.SEC_ID0 || off / 8 * 8 == Reg.SEC_ID1 ||
      (Reg.SEC_IDKEY ≤ off && off < Reg.SEC_IDKEY + 48))
  reaches f s && s.mgt.warm ≤ s.now &&
  (if !hostReadyOn s then ident
   else if powerState s == 2 then seg == 0x200 || seg == 0x300 || off / 8 * 8 == Reg.TMU_GTIME_LO
   else true) &&
  (windowCause f off false s).isNone

/-- What an aligned 8-byte read of BAR0 by a function returns. Doorbell pages, offsets without a register, a counter page beyond its
counters, and every read that is not served return zero (R449, R471). -/
def barRead (f off : Nat) (s : State) : BitVec 64 :=
  let seg := off / 0x10000
  if !readServed f off s then 0
  else if off < 0x100000 then fnRead f off s
  else if seg == 0x200 then
    (if off % 16 < 8 then mbxStat (off % 0x10000 / 16) s else (getMbx (off % 0x10000 / 16) s).value)
  else if seg == 0x300 then (if off % 64 / 8 == 3 then semStat (off % 0x10000 / 64) (BitVec.ofNat 12 f) s else 0)
  else if 0x400 ≤ seg && seg < 0x480 then
    (if off % 4096 < 512 then evcShown (64 * (off % 0x800000 / 4096) + off % 4096 / 8) s else 0)
  else if 0x08000000 ≤ off then (mgmtRead off s).1
  else 0

/-- What a 32-bit read of the device control and status range returns: TMU_GTIME_HI as latched (R333). -/
def barRead32 (f off : Nat) (s : State) : BitVec 32 := if readServed f off s then fnRead32 f off s else 0

/-- What an aligned 16-byte read of a mailbox returns: both words of one moment (R224, R471). -/
def mbxRead (f n : Nat) (s : State) : BitVec 128 :=
  barRead f (0x02000000 + 16 * n + 8) s ++ barRead f (0x02000000 + 16 * n) s

/-- An access that leaves the window has its consequence (R439, R441); in P2 only the lock window and the mailboxes freeze (R419), and
before HOST_READY nothing does (R488). A write to a SEC register freezes nothing (15), and a read of an own counter page that no counter
answers is counted (R449). -/
def windowBroken (f : Fn) (off : Nat) (wr : Bool) (s : State) : State :=
  if !reaches f.toNat s then s
  else if wr && secReg off then secIgnored f.toNat s
  else if !wr && pageMisread f.toNat off s then
    let s := emit (.bar0Read f.toNat off 0) s
    if hostReadyOn s && powerState s != 2 then ignored 138 s else s
  else
  match windowCause f.toNat off wr s with
  | none => s
  | some (src, cause) =>
    let s := if wr then s else emit (.bar0Read f.toNat off 0) s
    if !hostReadyOn s then (if wr then ignored 118 s else s)
    else if powerState s == 2 && cause != 3 && cause != 4 then (if wr then ignored (blockSrc off) s else s)
    else if frozen f.toNat s then (if wr then ignored (blockSrc off) s else s)
    else if cause == 2 then doorbellRejected f.toNat (off % 0x1000000 / 4096) 2 s
    else violation src f.toNat cause s

/-- BAR0_WINDOW_VIOLATION (R438, R439). -/
def execBar0WindowViolation (f : Fn) (off : BitVec 28) (wr : Bool) (s : State) : Host.Outcome State Fault Refusal :=
  act (windowBroken f off.toNat wr) s

end Sys2Proof.Machine
end

