-- ==== Sys2Proof/Machine/Crossings.lean ====
section
/-! DEFINITION. The crossings that open again (13: R388, R389, R393; 14: R407, R414): what was held at them completes in its order, when a
unit is back from its reset in place, when its restore has passed, and when its domain is on. -/

namespace Sys2Proof.Machine

/-- An access that has been held at a crossing completes (R407). -/
def heldGo (s : State) (r : HeldReq) : State :=
  match r with
  | .lck f kind n bytes => semWriteGo f kind n bytes s
  | .stat f n off bytes => semStatGo f n off bytes s
  | .mbxRel f n off bytes v => mbxReleaseGo f n (BitVec.ofNat 4 off) (BitVec.ofNat 5 bytes) v s
  | .mbxFill n st dt v => mbxSet n st dt v s
  | .reset m => semResetGo m s
  | .reg m off be v => mgmtGo m off be v s
  | .fn f off be v => fnGo f off be v s
  | .sec op vqps => secRun op vqps s

/-- The fault source of the unit that a held access is for. -/
def heldUnit (r : HeldReq) : Nat :=
  match r with
  | .lck _ _ _ _ => 136
  | .stat _ _ _ _ => 136
  | .mbxRel _ _ _ _ _ => 137
  | .mbxFill _ _ _ _ => 137
  | .reset _ => 136
  | .reg _ off _ _ => regUnit off
  | .fn f off _ _ => fnUnit f off
  | .sec _ _ => 140

/-- Every held access whose crossing is open completes, oldest first; the others stay. -/
def heldRelease (s : State) : State :=
  (s.snf.held.filter (fun r => !crossingShut (heldUnit r) s)).foldl heldGo
    { s with snf := { s.snf with held := s.snf.held.filter (fun r => crossingShut (heldUnit r) s) } }

/-- LTN_SNAPSHOT_COMPLETE (R451): the island's state is written and its crossings reopen. -/
def execLtnSnapshotComplete (s : State) : Host.Outcome State Fault Refusal :=
  act (fun s =>
    let (parts, s) := snapRecs s
    heldRelease (snapDone parts s)) s

/-- A tick of the 500 MHz control clock, in which nothing is commanded. -/
def idleTick (s : State) : State := if running s then heldRelease (mgtTick (secTick (ltnTick (timePass 32 s)))) else s

/-- RESTART_COMPLETE (R388, R394). -/
def execRestartComplete (src : BitVec 8) (s : State) : Host.Outcome State Fault Refusal :=
  act (fun s =>
    if s.snf.restarting.contains src.toNat then
      heldRelease (restartBack src.toNat { s with snf := { s.snf with restarting := s.snf.restarting.filter (· != src.toNat) } })
    else s) s

/-- RESTORE_SELF_TEST_COMPLETE (R393). The unit's strike count is clear whether it passed or not. -/
def execRestoreSelfTestComplete (pass : Bool) (s : State) : Host.Outcome State Fault Refusal :=
  act (fun s =>
    match s.snf.restore with
    | none => s
    | some u =>
      if !domOn (unitDomain u) s then s
      else if pass then heldRelease (unitBack u (restoreEnd 1 (clearStrikes u s)))
      else restoreEnd 2 (clearStrikes u s)) s

/-- DOMAIN_RAMP_COMPLETE (R414). A domain whose condition has ceased in the meantime goes off again. -/
def execDomainRampComplete (d : BitVec 8) (s : State) : Host.Outcome State Fault Refusal :=
  act (fun s =>
    let n := d.toNat
    if !s.clk.ramping.contains n then s
    else if domWanted n s then heldRelease (domainOn n (unramp n s))
    else unramp n s) s

end Sys2Proof.Machine
end

