-- ==== Sys2Proof/Machine/Dispatch.lean ====
section
/-! DEFINITION. The meaning of each command, one arm for each constructor. -/

namespace Sys2Proof.Machine

def exec (i : Instr) (s : State) : Host.Outcome State Fault Refusal :=
  match i with
  | .nop f r => Sys2Proof.Machine.execNop f r s
  | .send f r => Sys2Proof.Machine.execSend f r s
  | .write f r => Sys2Proof.Machine.execWrite f r s
  | .read f r => Sys2Proof.Machine.execRead f r s
  | .atomic f r => Sys2Proof.Machine.execAtomic f r s
  | .counterAdd f r => Sys2Proof.Machine.execCounterAdd f r s
  | .postRecv f r => Sys2Proof.Machine.execPostRecv f r s
  | .fence f r => Sys2Proof.Machine.execFence f r s
  | .waitCtr f r idx w => Sys2Proof.Machine.execWaitCtr f r idx w s
  | .signal f r => Sys2Proof.Machine.execSignal f r s
  | .colStart f r => Sys2Proof.Machine.execColStart f r s
  | .collAbort f r => Sys2Proof.Machine.execCollAbort f r s
  | .taperInvoke f r => Sys2Proof.Machine.execTaperInvoke f r s
  | .taperLoad f blk => Sys2Proof.Machine.execTaperLoad f blk s
  | .taperLoadReplace f blk => Sys2Proof.Machine.execTaperLoadReplace f blk s
  | .taperLoadUnload f blk => Sys2Proof.Machine.execTaperLoadUnload f blk s
  | .ringCreate f blk => Sys2Proof.Machine.execRingCreate f blk s
  | .ringDestroy f => Sys2Proof.Machine.execRingDestroy f s
  | .ringResume f => Sys2Proof.Machine.execRingResume f s
  | .arvCreate f blk => Sys2Proof.Machine.execArvCreate f blk s
  | .arvDestroy f => Sys2Proof.Machine.execArvDestroy f s
  | .pdAlloc f blk => Sys2Proof.Machine.execPdAlloc f blk s
  | .pdFree f => Sys2Proof.Machine.execPdFree f s
  | .mrRegister f blk => Sys2Proof.Machine.execMrRegister f blk s
  | .mrRevoke f blk => Sys2Proof.Machine.execMrRevoke f blk s
  | .xltInvalidate f blk => Sys2Proof.Machine.execXltInvalidate f blk s
  | .xltLock f blk => Sys2Proof.Machine.execXltLock f blk s
  | .xltUnlock f blk => Sys2Proof.Machine.execXltUnlock f blk s
  | .btrSet f blk => Sys2Proof.Machine.execBtrSet f blk s
  | .qpCreate f blk => Sys2Proof.Machine.execQpCreate f blk s
  | .qpModify f blk => Sys2Proof.Machine.execQpModify f blk s
  | .qpQuery f blk => Sys2Proof.Machine.execQpQuery f blk s
  | .qpDestroy f => Sys2Proof.Machine.execQpDestroy f s
  | .commandRingDoorbell f page off bytes v => Sys2Proof.Machine.execCommandRingDoorbell f page off bytes v s
  | .arrivalRingDoorbell f page off bytes v => Sys2Proof.Machine.execArrivalRingDoorbell f page off bytes v s
  | .entryFetch f r d => Sys2Proof.Machine.execEntryFetch f r d s
  | .ownershipReread f r => Sys2Proof.Machine.execOwnershipReread f r s
  | .headMirrorPublish f r => Sys2Proof.Machine.execHeadMirrorPublish f r s
  | .waitCtrTimeout f r idx => Sys2Proof.Machine.execWaitCtrTimeout f r idx s
  | .adminRingEnable f start => Sys2Proof.Machine.execAdminRingEnable f start s
  | .adminRingDisable f => Sys2Proof.Machine.execAdminRingDisable f s
  | .paramBlockReadComplete f d => Sys2Proof.Machine.execParamBlockReadComplete f d s
  | .keytabEnable f => Sys2Proof.Machine.execKeytabEnable f s
  | .keytabDisable f => Sys2Proof.Machine.execKeytabDisable f s
  | .keytabDescriptorRead f index d => Sys2Proof.Machine.execKeytabDescriptorRead f index d s
  | .walkEntryRead serial d => Sys2Proof.Machine.execWalkEntryRead serial d s
  | .flushingReadComplete link d => Sys2Proof.Machine.execFlushingReadComplete link d s
  | .ctxtabEnable f => Sys2Proof.Machine.execCtxtabEnable f s
  | .ctxtabDisable f => Sys2Proof.Machine.execCtxtabDisable f s
  | .qpcRangeWrite m f v => Sys2Proof.Machine.execQpcRangeWrite m f v s
  | .contextFetchComplete q d => Sys2Proof.Machine.execContextFetchComplete q d s
  | .contextFetchRetry q => Sys2Proof.Machine.execContextFetchRetry q s
  | .contextEviction => Sys2Proof.Machine.execContextEviction s
  | .sendPacket p => Sys2Proof.Machine.execSendPacket p s
  | .writePacket p => Sys2Proof.Machine.execWritePacket p s
  | .readReq p => Sys2Proof.Machine.execReadReq p s
  | .readResp p => Sys2Proof.Machine.execReadResp p s
  | .atomicReq p => Sys2Proof.Machine.execAtomicReq p s
  | .atomicResp p => Sys2Proof.Machine.execAtomicResp p s
  | .counterAddPacket p => Sys2Proof.Machine.execCounterAddPacket p s
  | .ack p => Sys2Proof.Machine.execAck p s
  | .nak p => Sys2Proof.Machine.execNak p s
  | .packetUndefinedOp p => Sys2Proof.Machine.execPacketUndefinedOp p s
  | .ackDelayExpiry q => Sys2Proof.Machine.execAckDelayExpiry q s
  | .retransmitTimeout q => Sys2Proof.Machine.execRetransmitTimeout q s
  | .busyBackoffExpiry q => Sys2Proof.Machine.execBusyBackoffExpiry q s
  | .packetTransmit q => Sys2Proof.Machine.execPacketTransmit q s
  | .rateUpdate hp ep => Sys2Proof.Machine.execRateUpdate hp ep s
  | .roundTripUpdate hp ep => Sys2Proof.Machine.execRoundTripUpdate hp ep s
  | .placementComplete q psn resp => Sys2Proof.Machine.execPlacementComplete q psn resp s
  | .hostDataReadComplete q psn resp d => Sys2Proof.Machine.execHostDataReadComplete q psn resp d s
  | .stagingFlush k n => Sys2Proof.Machine.execStagingFlush k n s
  | .rndvProbeExpiry q psn => Sys2Proof.Machine.execRndvProbeExpiry q psn s
  | .unexpectedCopyComplete q psn0 d => Sys2Proof.Machine.execUnexpectedCopyComplete q psn0 d s
  | .uxpoolEnable f => Sys2Proof.Machine.execUxpoolEnable f s
  | .uxpoolDisable f => Sys2Proof.Machine.execUxpoolDisable f s
  | .copCredit i1 => Sys2Proof.Machine.execCopCredit i1 s
  | .copSend i1 d => Sys2Proof.Machine.execCopSend i1 d s
  | .copMcast i1 d => Sys2Proof.Machine.execCopMcast i1 d s
  | .copReduce i1 => Sys2Proof.Machine.execCopReduce i1 s
  | .copPlace i1 d => Sys2Proof.Machine.execCopPlace i1 d s
  | .copCadd i1 => Sys2Proof.Machine.execCopCadd i1 s
  | .copResult i1 => Sys2Proof.Machine.execCopResult i1 s
  | .copFree i1 => Sys2Proof.Machine.execCopFree i1 s
  | .copAbort i1 => Sys2Proof.Machine.execCopAbort i1 s
  | .copEnd i1 => Sys2Proof.Machine.execCopEnd i1 s
  | .colData p => Sys2Proof.Machine.execColData p s
  | .colCredit p => Sys2Proof.Machine.execColCredit p s
  | .colAck p => Sys2Proof.Machine.execColAck p s
  | .colAbort p => Sys2Proof.Machine.execColAbort p s
  | .cadd inp p => Sys2Proof.Machine.execCadd inp p s
  | .caddAck inp p => Sys2Proof.Machine.execCaddAck inp p s
  | .colRtoExpiry id => Sys2Proof.Machine.execColRtoExpiry id s
  | .caddHopTimeout c => Sys2Proof.Machine.execCaddHopTimeout c s
  | .combIntExpiry c => Sys2Proof.Machine.execCombIntExpiry c s
  | .tombTimeExpiry hp comm seq => Sys2Proof.Machine.execTombTimeExpiry hp comm seq s
  | .reduceComplete i1 op d => Sys2Proof.Machine.execReduceComplete i1 op d s
  | .mbxRelease f n off bytes v => Sys2Proof.Machine.execMbxRelease f n off bytes v s
  | .mbxAllocWrite m n v => Sys2Proof.Machine.execMbxAllocWrite m n v s
  | .tAdd c rd ra rb => Sys2Proof.Machine.execTAdd c rd ra rb s
  | .tSub c rd ra rb => Sys2Proof.Machine.execTSub c rd ra rb s
  | .tAnd c rd ra rb => Sys2Proof.Machine.execTAnd c rd ra rb s
  | .tOr c rd ra rb => Sys2Proof.Machine.execTOr c rd ra rb s
  | .tXor c rd ra rb => Sys2Proof.Machine.execTXor c rd ra rb s
  | .tShl c rd ra rb => Sys2Proof.Machine.execTShl c rd ra rb s
  | .tShr c rd ra rb => Sys2Proof.Machine.execTShr c rd ra rb s
  | .tSar c rd ra rb => Sys2Proof.Machine.execTSar c rd ra rb s
  | .tMul c rd ra rb => Sys2Proof.Machine.execTMul c rd ra rb s
  | .tMulhu c rd ra rb => Sys2Proof.Machine.execTMulhu c rd ra rb s
  | .tSlt c rd ra rb => Sys2Proof.Machine.execTSlt c rd ra rb s
  | .tSltu c rd ra rb => Sys2Proof.Machine.execTSltu c rd ra rb s
  | .tAddi c rd ra imm => Sys2Proof.Machine.execTAddi c rd ra imm s
  | .tAndi c rd ra imm => Sys2Proof.Machine.execTAndi c rd ra imm s
  | .tOri c rd ra imm => Sys2Proof.Machine.execTOri c rd ra imm s
  | .tXori c rd ra imm => Sys2Proof.Machine.execTXori c rd ra imm s
  | .tShli c rd ra imm => Sys2Proof.Machine.execTShli c rd ra imm s
  | .tShri c rd ra imm => Sys2Proof.Machine.execTShri c rd ra imm s
  | .tSari c rd ra imm => Sys2Proof.Machine.execTSari c rd ra imm s
  | .tSlti c rd ra imm => Sys2Proof.Machine.execTSlti c rd ra imm s
  | .tSltiu c rd ra imm => Sys2Proof.Machine.execTSltiu c rd ra imm s
  | .tMovz c rd lane imm => Sys2Proof.Machine.execTMovz c rd lane imm s
  | .tMovk c rd lane imm => Sys2Proof.Machine.execTMovk c rd lane imm s
  | .tLd c rd ra imm => Sys2Proof.Machine.execTLd c rd ra imm s
  | .tLw c rd ra imm => Sys2Proof.Machine.execTLw c rd ra imm s
  | .tLh c rd ra imm => Sys2Proof.Machine.execTLh c rd ra imm s
  | .tLb c rd ra imm => Sys2Proof.Machine.execTLb c rd ra imm s
  | .tSt c rd ra imm => Sys2Proof.Machine.execTSt c rd ra imm s
  | .tSw c rd ra imm => Sys2Proof.Machine.execTSw c rd ra imm s
  | .tSh c rd ra imm => Sys2Proof.Machine.execTSh c rd ra imm s
  | .tSb c rd ra imm => Sys2Proof.Machine.execTSb c rd ra imm s
  | .tAadd c rd ra rb => Sys2Proof.Machine.execTAadd c rd ra rb s
  | .tAswp c rd ra rb => Sys2Proof.Machine.execTAswp c rd ra rb s
  | .tAcas c rd ra rb => Sys2Proof.Machine.execTAcas c rd ra rb s
  | .tVld c vd ra imm => Sys2Proof.Machine.execTVld c vd ra imm s
  | .tVst c vb ra imm => Sys2Proof.Machine.execTVst c vb ra imm s
  | .tVins c vd ra lane => Sys2Proof.Machine.execTVins c vd ra lane s
  | .tVext c rb vb lane => Sys2Proof.Machine.execTVext c rb vb lane s
  | .tVmov c vd vb => Sys2Proof.Machine.execTVmov c vd vb s
  | .tVzero c vd => Sys2Proof.Machine.execTVzero c vd s
  | .tBeq c ra rb off => Sys2Proof.Machine.execTBeq c ra rb off s
  | .tBne c ra rb off => Sys2Proof.Machine.execTBne c ra rb off s
  | .tBlt c ra rb off => Sys2Proof.Machine.execTBlt c ra rb off s
  | .tBge c ra rb off => Sys2Proof.Machine.execTBge c ra rb off s
  | .tBltu c ra rb off => Sys2Proof.Machine.execTBltu c ra rb off s
  | .tBgeu c ra rb off => Sys2Proof.Machine.execTBgeu c ra rb off s
  | .tJmp c off => Sys2Proof.Machine.execTJmp c off s
  | .tCall c off => Sys2Proof.Machine.execTCall c off s
  | .tJr c ra => Sys2Proof.Machine.execTJr c ra s
  | .tRet c => Sys2Proof.Machine.execTRet c s
  | .tEnd c => Sys2Proof.Machine.execTEnd c s
  | .tBrk c imm => Sys2Proof.Machine.execTBrk c imm s
  | .tWaitev c rd imm => Sys2Proof.Machine.execTWaitev c rd imm s
  | .tPollev c rd imm => Sys2Proof.Machine.execTPollev c rd imm s
  | .tTimer c ra => Sys2Proof.Machine.execTTimer c ra s
  | .tRdtime c rd => Sys2Proof.Machine.execTRdtime c rd s
  | .tSys c rd imm => Sys2Proof.Machine.execTSys c rd imm s
  | .tCrd c vd ra imm => Sys2Proof.Machine.execTCrd c vd ra imm s
  | .tCwr c vb ra imm => Sys2Proof.Machine.execTCwr c vb ra imm s
  | .tCcpy c rd ra rb => Sys2Proof.Machine.execTCcpy c rd ra rb s
  | .tCfree c => Sys2Proof.Machine.execTCfree c s
  | .tColop c vb => Sys2Proof.Machine.execTColop c vb s
  | .tMsg c vb => Sys2Proof.Machine.execTMsg c vb s
  | .tHxfer c vb => Sys2Proof.Machine.execTHxfer c vb s
  | .tMbxput c rd ra rb => Sys2Proof.Machine.execTMbxput c rd ra rb s
  | .tSemacq c rd ra => Sys2Proof.Machine.execTSemacq c rd ra s
  | .tSemrel c ra => Sys2Proof.Machine.execTSemrel c ra s
  | .tNote c vb rb => Sys2Proof.Machine.execTNote c vb rb s
  | .illegalOpcode c word => Sys2Proof.Machine.execIllegalOpcode c word s
  | .hxferComplete id d => Sys2Proof.Machine.execHxferComplete id d s
  | .tmsg p => Sys2Proof.Machine.execTmsg p s
  | .tmsgAck p => Sys2Proof.Machine.execTmsgAck p s
  | .tmRtoExpiry psn => Sys2Proof.Machine.execTmRtoExpiry psn s
  | .acceptanceEntryExpiry chip psn => Sys2Proof.Machine.execAcceptanceEntryExpiry chip psn s
  | .timerExpiry c inv => Sys2Proof.Machine.execTimerExpiry c inv s
  | .watchdogExpiry c => Sys2Proof.Machine.execWatchdogExpiry c s
  | .activationDispatch cluster => Sys2Proof.Machine.execActivationDispatch cluster s
  | .tprUnfreeze m v => Sys2Proof.Machine.execTprUnfreeze m v s
  | .routeDecision inp idx => Sys2Proof.Machine.execRouteDecision inp idx s
  | .xbrChipWrite m v => Sys2Proof.Machine.execXbrChipWrite m v s
  | .xbrConfigWrite m off v => Sys2Proof.Machine.execXbrConfigWrite m off v s
  | .mgtLocal p pkt => Sys2Proof.Machine.execMgtLocal p pkt s
  | .mgtRouted inp pkt => Sys2Proof.Machine.execMgtRouted inp pkt s
  | .mgtWaitExpiry p => Sys2Proof.Machine.execMgtWaitExpiry p s
  | .signalDetect p lane => Sys2Proof.Machine.execSignalDetect p lane s
  | .capabilityPage p lane raw => Sys2Proof.Machine.execCapabilityPage p lane raw s
  | .pageSendTimer p => Sys2Proof.Machine.execPageSendTimer p s
  | .bringupTimeout p lanes => Sys2Proof.Machine.execBringupTimeout p lanes s
  | .trainingComplete p lanes low => Sys2Proof.Machine.execTrainingComplete p lanes low s
  | .alignmentComplete p => Sys2Proof.Machine.execAlignmentComplete p s
  | .holdExpiry p => Sys2Proof.Machine.execHoldExpiry p s
  | .downHoldExpiry p => Sys2Proof.Machine.execDownHoldExpiry p s
  | .dataFrame p fr => Sys2Proof.Machine.execDataFrame p fr s
  | .idle p raw bad => Sys2Proof.Machine.execIdle p raw bad s
  | .credit p raw bad => Sys2Proof.Machine.execCredit p raw bad s
  | .retryReq p raw bad => Sys2Proof.Machine.execRetryReq p raw bad s
  | .tsReq p raw bad => Sys2Proof.Machine.execTsReq p raw bad s
  | .tsResp p raw bad => Sys2Proof.Machine.execTsResp p raw bad s
  | .reconfig p raw bad => Sys2Proof.Machine.execReconfig p raw bad s
  | .reconfigAck p raw bad => Sys2Proof.Machine.execReconfigAck p raw bad s
  | .controlFrameTimer p => Sys2Proof.Machine.execControlFrameTimer p s
  | .creditRefresh p => Sys2Proof.Machine.execCreditRefresh p s
  | .retryToExpiry p => Sys2Proof.Machine.execRetryToExpiry p s
  | .linkToExpiry p => Sys2Proof.Machine.execLinkToExpiry p s
  | .egressSelect p => Sys2Proof.Machine.execEgressSelect p s
  | .laneLockLoss p lane => Sys2Proof.Machine.execLaneLockLoss p lane s
  | .laneErrorThreshold p lane => Sys2Proof.Machine.execLaneErrorThreshold p lane s
  | .llUncorrThreshold p => Sys2Proof.Machine.execLlUncorrThreshold p s
  | .reconfigResend p => Sys2Proof.Machine.execReconfigResend p s
  | .reconfigTimeout p => Sys2Proof.Machine.execReconfigTimeout p s
  | .laneRetrain p => Sys2Proof.Machine.execLaneRetrain p s
  | .laneRestoreQualified p lane => Sys2Proof.Machine.execLaneRestoreQualified p lane s
  | .tsIntervalExpiry p => Sys2Proof.Machine.execTsIntervalExpiry p s
  | .linkRestore m p => Sys2Proof.Machine.execLinkRestore m p s
  | .linkReneg m p => Sys2Proof.Machine.execLinkReneg m p s
  | .adminUpSet m p => Sys2Proof.Machine.execAdminUpSet m p s
  | .adminUpClear m p => Sys2Proof.Machine.execAdminUpClear m p s
  | .servoRun => Sys2Proof.Machine.execServoRun s
  | .ppsEdge fall => Sys2Proof.Machine.execPpsEdge fall s
  | .ppsLoss => Sys2Proof.Machine.execPpsLoss s
  | .holdMaxExpiry => Sys2Proof.Machine.execHoldMaxExpiry s
  | .gtimeLoad m => Sys2Proof.Machine.execGtimeLoad m s
  | .tmuModeWrite m mode => Sys2Proof.Machine.execTmuModeWrite m mode s
  | .gtimeLoRead f => Sys2Proof.Machine.execGtimeLoRead f s
  | .epochStart => Sys2Proof.Machine.execEpochStart s
  | .guardBandStart p => Sys2Proof.Machine.execGuardBandStart p s
  | .earlyExpiry p => Sys2Proof.Machine.execEarlyExpiry p s
  | .gclWord0Write m p e v => Sys2Proof.Machine.execGclWord0Write m p e v s
  | .gclWord1Write m p e v => Sys2Proof.Machine.execGclWord1Write m p e v s
  | .histSample => Sys2Proof.Machine.execHistSample s
  | .histClear m => Sys2Proof.Machine.execHistClear m s
  | .lckAcq f n bytes => Sys2Proof.Machine.execLckAcq f n bytes s
  | .lckRel f n bytes => Sys2Proof.Machine.execLckRel f n bytes s
  | .lckCancel f n bytes => Sys2Proof.Machine.execLckCancel f n bytes s
  | .lckStatRead f n bytes => Sys2Proof.Machine.execLckStatRead f n bytes s
  | .lckForce m v => Sys2Proof.Machine.execLckForce m v s
  | .lckAllocWrite m n v => Sys2Proof.Machine.execLckAllocWrite m n v s
  | .atomicUpdateReadComplete f addr d => Sys2Proof.Machine.execAtomicUpdateReadComplete f addr d s
  | .atomicResultExpiry q psn => Sys2Proof.Machine.execAtomicResultExpiry q psn s
  | .faultOccurrence src u inj => Sys2Proof.Machine.execFaultOccurrence src u inj s
  | .spareInService u => Sys2Proof.Machine.execSpareInService u s
  | .restartComplete src => Sys2Proof.Machine.execRestartComplete src s
  | .unitRestore m v => Sys2Proof.Machine.execUnitRestore m v s
  | .restoreSelfTestComplete pass => Sys2Proof.Machine.execRestoreSelfTestComplete pass s
  | .fcuInjectWrite m v => Sys2Proof.Machine.execFcuInjectWrite m v s
  | .stickyClear m merged w v => Sys2Proof.Machine.execStickyClear m merged w v s
  | .scrub src n hour => Sys2Proof.Machine.execScrub src n hour s
  | .thermalWarning => Sys2Proof.Machine.execThermalWarning s
  | .supplyOutOfRange => Sys2Proof.Machine.execSupplyOutOfRange s
  | .brownOut rail => Sys2Proof.Machine.execBrownOut rail s
  | .thermalTrip => Sys2Proof.Machine.execThermalTrip s
  | .domainSwitchOff d => Sys2Proof.Machine.execDomainSwitchOff d s
  | .domainSwitchOn d => Sys2Proof.Machine.execDomainSwitchOn d s
  | .domainRampComplete d => Sys2Proof.Machine.execDomainRampComplete d s
  | .clockMonitorWindow island bad => Sys2Proof.Machine.execClockMonitorWindow island bad s
  | .pstateToP0 m => Sys2Proof.Machine.execPstateToP0 m s
  | .pstateToP1 m => Sys2Proof.Machine.execPstateToP1 m s
  | .pstateToP2 m => Sys2Proof.Machine.execPstateToP2 m s
  | .pstateToP3 m => Sys2Proof.Machine.execPstateToP3 m s
  | .pstateTransitionComplete => Sys2Proof.Machine.execPstateTransitionComplete s
  | .clkP1KeepWrite m w v => Sys2Proof.Machine.execClkP1KeepWrite m w v s
  | .provision m vqps => Sys2Proof.Machine.execProvision m vqps s
  | .addOwnerKey m vqps => Sys2Proof.Machine.execAddOwnerKey m vqps s
  | .revokeOwnerKey m vqps => Sys2Proof.Machine.execRevokeOwnerKey m vqps s
  | .seal_ m vqps => Sys2Proof.Machine.execSeal m vqps s
  | .rma m vqps => Sys2Proof.Machine.execRma m vqps s
  | .svnAdvance m vqps => Sys2Proof.Machine.execSvnAdvance m vqps s
  | .debugUnlock m => Sys2Proof.Machine.execDebugUnlock m s
  | .debugLower m => Sys2Proof.Machine.execDebugLower m s
  | .attest m => Sys2Proof.Machine.execAttest m s
  | .nonce m => Sys2Proof.Machine.execNonce m s
  | .bypass => Sys2Proof.Machine.execBypass s
  | .idcode => Sys2Proof.Machine.execIdcode s
  | .secNonce => Sys2Proof.Machine.execSecNonce s
  | .secToken blk vqps => Sys2Proof.Machine.execSecToken blk vqps s
  | .samplePreload v => Sys2Proof.Machine.execSamplePreload v s
  | .extest => Sys2Proof.Machine.execExtest s
  | .clamp => Sys2Proof.Machine.execClamp s
  | .highz => Sys2Proof.Machine.execHighz s
  | .dbgRead off => Sys2Proof.Machine.execDbgRead off s
  | .dbgWrite off be v => Sys2Proof.Machine.execDbgWrite off be v s
  | .halt core on addr bytes => Sys2Proof.Machine.execHalt core on addr bytes s
  | .replay => Sys2Proof.Machine.execReplay s
  | .secUnfreeze m v => Sys2Proof.Machine.execSecUnfreeze m v s
  | .bar0WindowViolation f off wr => Sys2Proof.Machine.execBar0WindowViolation f off wr s
  | .evcCtlWrite m n v => Sys2Proof.Machine.execEvcCtlWrite m n v s
  | .evcCntWrite m n v inc => Sys2Proof.Machine.execEvcCntWrite m n v inc s
  | .evcPageEnWrite m b v => Sys2Proof.Machine.execEvcPageEnWrite m b v s
  | .evcFreeze m on => Sys2Proof.Machine.execEvcFreeze m on s
  | .ltnStart m => Sys2Proof.Machine.execLtnStart m s
  | .ltnSnapshotComplete => Sys2Proof.Machine.execLtnSnapshotComplete s
  | .ltnTrigger m => Sys2Proof.Machine.execLtnTrigger m s
  | .ltnTimeTrigger => Sys2Proof.Machine.execLtnTimeTrigger s
  | .ltnModeWrite m mode => Sys2Proof.Machine.execLtnModeWrite m mode s
  | .replayStop mark => Sys2Proof.Machine.execReplayStop mark s
  | .flr f => Sys2Proof.Machine.execFlr f s
  | .controllerReset j => Sys2Proof.Machine.execControllerReset j s
  | .pcieLinkLoss l => Sys2Proof.Machine.execPcieLinkLoss l s
  | .d3hotToD0 f => Sys2Proof.Machine.execD3hotToD0 f s
  | .vfEnableClear j => Sys2Proof.Machine.execVfEnableClear j s
  | .completionTimeout r => Sys2Proof.Machine.execCompletionTimeout r s
  | .hifWinWrite m f k v => Sys2Proof.Machine.execHifWinWrite m f k v s
  | .hifMgtprivWrite m v => Sys2Proof.Machine.execHifMgtprivWrite m v s
  | .msixUnmask f vec => Sys2Proof.Machine.execMsixUnmask f vec s
  | .configRequest f r => Sys2Proof.Machine.execConfigRequest f r s
  | .enumerationTimeout j => Sys2Proof.Machine.execEnumerationTimeout j s
  | .aspmL1Entry l => Sys2Proof.Machine.execAspmL1Entry l s
  | .coldReset straps => Sys2Proof.Machine.execColdReset straps s
  | .warmReset m => Sys2Proof.Machine.execWarmReset m s
  | .mgtRestart m => Sys2Proof.Machine.execMgtRestart m s
  | .hostReady m => Sys2Proof.Machine.execHostReady m s
  | .selfTestComplete u pass => Sys2Proof.Machine.execSelfTestComplete u pass s
  | .recoveryReselect => Sys2Proof.Machine.execRecoveryReselect s
  | .registerWrite m off be v => Sys2Proof.Machine.execRegisterWrite m off be v s
  | .descriptorReadComplete f r d => Sys2Proof.Machine.execDescriptorReadComplete f r d s
  | .taperImageReadComplete f d => Sys2Proof.Machine.execTaperImageReadComplete f d s
  | .xspiOperationComplete ok => Sys2Proof.Machine.execXspiOperationComplete ok s
  | .refLockChange locked => Sys2Proof.Machine.execRefLockChange locked s
  | .perstNRelease j => Sys2Proof.Machine.execPerstNRelease j s
  | .pcieLinkUp l rate width => Sys2Proof.Machine.execPcieLinkUp l rate width s
  | .supplyReturn => Sys2Proof.Machine.execSupplyReturn s
  | .baseRttWindowRestart hp ep => Sys2Proof.Machine.execBaseRttWindowRestart hp ep s

end Sys2Proof.Machine
end

