-- ==== Sys2Proof/Safety.lean ====
section
/-! DEFINITION. What the claims call a safe state, and a state in which nothing in the block goes on by itself. -/

namespace Sys2Proof.Machine

/-- The memories inside the block keep their canonical form: LDM and CSM read 0 where unlisted, the flash 0xFF, the MGT's memories 0. -/
abbrev Safe (s : State) : Prop :=
  Memory.wf 0 s.tpr.ldm = true ∧ Memory.wf 0 s.tpr.csm = true ∧ Memory.wf 0xFF s.mgt.flash = true ∧
    Memory.wf 0 s.mgt.mem = true

/-- Nothing that waits in the block can go on by itself: no host-memory access and no transition of a queue pair waits. -/
abbrev Idle (s : State) : Prop := s.xlt.waiting = [] ∧ ∀ x ∈ s.qpc.qps, x.2.trans = none

end Sys2Proof.Machine
end

