-- ==== Sys2Proof/Certificates/Slice0/Obligations.lean ====
section
/-! DEFINITION. The statements for the provers: what the commands do, what they leave as it is, and what holds in every state. -/

namespace Sys2Proof.Claims

open Sys2Proof.Machine

/-! ### The form of an effect -/

/-- What goes on by itself after a command's own effect: the accesses that wait for nothing any more are taken up (05), and the
transitions of queue pairs whose condition has come true finish (06). In an idle block nothing goes on. -/
def goOn (s : State) : State := transAll (settle s)

/-- Given to a running block in state `s`, the command answers the next state `t`, with what then goes on by itself. -/
def Does (i : Instr) (s t : State) : Prop := running s = true → exec i s = .next (goOn t)

/-- Given to a running block in state `s`, the command answers the next state `t` and nothing else. -/
def DoesOnly (i : Instr) (s t : State) : Prop := running s = true → exec i s = .next t

/-! ### Who may write -/

/-- An access to BAR0 by host function `f` is served: the function exists (R462, R464), its controller is not fenced (R389) and HOST_READY
is set (R488). -/
abbrev HostReaches (f : Nat) (s : State) : Prop := reaches f s = true ∧ hostReadyOn s = true

/-- A write to BAR0 by host function `f` is taken: the state is not P2 (R419) and the function is not frozen (R440) beside. -/
abbrev HostWrites (f : Nat) (s : State) : Prop := HostReaches f s ∧ powerState s ≠ 2 ∧ frozen f s = false

/-- A write of a register of management space by a master is taken (R473): the MGT while it runs, JTAG at level INVASIVE, PF0 with
privilege. -/
abbrev MgtWrites (m : Master) (s : State) : Prop :=
  (m = 0x800 ∧ unitFenced 141 s = false ∧ none ∉ s.sec.halts) ∨
  (m = 0x801 ∧ rf Reg.SEC_STATE 1 0 s = 2) ∨
  (m = 0 ∧ HostWrites 0 s ∧ rf Reg.HIF_MGTPRIV 0 0 s = 1)

/-- The same for a register of a block that P2 switches off (R432). -/
abbrev MgtWritesOff (m : Master) (s : State) : Prop := MgtWrites m s ∧ (m = 0x801 → powerState s ≠ 2)

/-- The crossing into the block of a fault source is open: its unit is not fenced and its clocks run (R389, R407). -/
abbrev Open (src : Nat) (s : State) : Prop := crossingShut src s = false

/-! ### The Taper cores (08) -/

/-- Core `c` is about to execute: it runs activation `a`, which waits for nothing, the core is not halted (R431), the block runs, and
nothing else in the block is about to go on by itself. -/
abbrev Runs (c : CoreId) (a : Act) (s : State) : Prop :=
  running s = true ∧ Idle s ∧ (getCore c.toNat s).act = some a ∧ a.wait = none ∧ coreHalted c.toNat s = false

/-- The State in which core `c` runs activation `a`, and everything else is as in `s`: the queue of commands, every register, every other
core, all memory. -/
def runsNow (c : CoreId) (a : Act) (s : State) : State :=
  { s with tpr := { s.tpr with cores := tset s.tpr.cores c.toNat { getCore c.toNat s with act := some a } } }

/-- `b` is activation `a` one instruction further, with w register `rd` holding `v`; w0 stays zero (R234). -/
def WroteW (a b : Act) (rd : WReg) (v : BitVec 64) : Prop :=
  b = { a with pc := a.pc + 4, w := b.w } ∧
  ∀ d : WReg, b.getW d.toNat = if d = rd ∧ d ≠ 0 then v else a.getW d.toNat

/-- `b` is activation `a` one instruction further, with v register `vd` holding `v`. -/
def WroteV (a b : Act) (vd : VReg) (v : BitVec 512) : Prop :=
  b = { a with pc := a.pc + 4, v := b.v } ∧
  ∀ d : VReg, b.getV d.toNat = if d = vd then v else a.getV d.toNat

/-- The command answers a next state that differs from `s` in core `c`'s activation only, which has `rd` holding `v`. -/
def PutsW (i : Instr) (c : CoreId) (a : Act) (s : State) (rd : WReg) (v : BitVec 64) : Prop :=
  ∃ b, exec i s = .next (runsNow c b s) ∧ WroteW a b rd v

/-- The same for a v register. -/
def PutsV (i : Instr) (c : CoreId) (a : Act) (s : State) (vd : VReg) (v : BitVec 512) : Prop :=
  ∃ b, exec i s = .next (runsNow c b s) ∧ WroteV a b vd v

/-- Memory as a core sees it: the byte at a place of its LDM or of its cluster's CSM. -/
def byteAt (c : CoreId) (t : TAddr) (k : Nat) (s : State) : Byte :=
  match t with
  | .ldm a => memGet 0 s.tpr.ldm (ldmKey c.toNat (a + k))
  | .csm a => memGet 0 s.tpr.csm (csmKey (clusterOf c.toNat) (a + k))

/-- The key of a place's byte `k` in its memory. -/
def keyOf (c : CoreId) (t : TAddr) (k : Nat) : Bool × Nat :=
  match t with
  | .ldm a => (false, ldmKey c.toNat (a + k))
  | .csm a => (true, csmKey (clusterOf c.toNat) (a + k))

/-- The byte at a key: of the LDMs or of the CSMs. -/
def cellAt (x : Bool × Nat) (s : State) : Byte :=
  if x.1 then memGet 0 s.tpr.csm x.2 else memGet 0 s.tpr.ldm x.2

/-- The command answers a next state in which byte `k` at `t` holds `f k` for each of the `n` bytes there, every other byte of the Taper
memories is as before, activation `a` has become `b`, and nothing else has changed. -/
def StoresBytes (i : Instr) (c : CoreId) (b : Act) (s : State) (t : TAddr) (n : Nat) (f : Nat → Byte) : Prop :=
  ∃ u, exec i s = .next u ∧
    (∀ k, k < n → cellAt (keyOf c t k) u = f k) ∧
    (∀ x, (∀ k, k < n → x ≠ keyOf c t k) → cellAt x u = cellAt x s) ∧
    u = { runsNow c b s with tpr := { (runsNow c b s).tpr with ldm := u.tpr.ldm, csm := u.tpr.csm } }

/-- The same for the low bytes of a number. -/
def Stores (i : Instr) (c : CoreId) (b : Act) (s : State) (t : TAddr) (n v : Nat) : Prop :=
  StoresBytes i c b s t n (fun k => BitVec.ofNat 8 (v / 256 ^ k))

/-! ### Arriving packets (05) -/

/-- A packet with a good check code arrives for queue pair `q` of function `f`, whose context `x` is on chip and accepts what its peer sends
(R115, R116, R137); the function is not frozen. -/
def Arrives (p : Packet) (q f : Nat) (x : Qp) (s : State) : Prop :=
  e2eCrc p = p.crc ∧ p.dstQpn.toNat = q ∧ (∃ first, qpRange q s = some (f, first)) ∧ frozen f s = false ∧
  getQp q s = some x ∧ accepting x = true ∧ fromPeer x p = true

/-- The State in which queue pair `q`'s context is marked as used and changed. -/
def touched (q : Nat) (x : Qp) (s : State) : State := putQp q { x with used := true, changed := true } s

/-- The packet's sequence number lies where R137 takes it. -/
abbrev InReach (x : Qp) (p : Packet) : Prop := -(2 ^ 30) ≤ (p.psn - x.par.rqPsn).toInt ∧ (p.psn - x.par.rqPsn).toInt ≤ 255

/-! ### Arrival Rings (02) -/

/-- An Arrival Ring as ARV_CREATE leaves it (R66): empty at `start`, 4 slots for errors, `pool` for the pool, the rest for receives. -/
def newArv (base : BitVec 64) (log2 page pool : Nat) (start : BitVec 32) : Arv :=
  { base := base, log2size := log2, page := page, freeErr := 4, freePool := pool, freeRecv := 2 ^ log2 - pool - 4, written := []
    consumed := start, produced := start, lost := 0, fenced := false }

end Sys2Proof.Claims

section Statements

open Sys2Proof Sys2Proof.Machine Sys2Proof.Claims

/-! ### The queue -/

/-- The command at the front of the queue is executed with the queue's rest left (the model's queue: the command that waits longest comes
first). Model's choices that it rests on: log entry 2 (DESIGN CHOICE). -/
def Obligations.StepExecutesFront : Prop :=
  ∀ (c : Instr) (rest : List Instr) (s : State), s.pending = c :: rest →
    step s = exec c { s with pending := rest }

/-! ### Taper instructions (08) -/

/-- R236: the three-operand arithmetic instructions put their result into rd and go on; w0 discards (R234); nothing else changes. -/
def Sys2Proof.Claims.TaperArithmeticWritesRd : Prop :=
  ∀ (c : CoreId) (rd ra rb : WReg) (a : Act) (s : State), Runs c a s →
    let x := a.getW ra.toNat
    let y := a.getW rb.toNat
    PutsW (.tAdd c rd ra rb) c a s rd (x + y) ∧
    PutsW (.tSub c rd ra rb) c a s rd (x - y) ∧
    PutsW (.tAnd c rd ra rb) c a s rd (x &&& y) ∧
    PutsW (.tOr c rd ra rb) c a s rd (x ||| y) ∧
    PutsW (.tXor c rd ra rb) c a s rd (x ^^^ y) ∧
    PutsW (.tShl c rd ra rb) c a s rd (x <<< (y.toNat % 64)) ∧
    PutsW (.tShr c rd ra rb) c a s rd (x >>> (y.toNat % 64)) ∧
    PutsW (.tSar c rd ra rb) c a s rd (x.sshiftRight (y.toNat % 64)) ∧
    PutsW (.tMul c rd ra rb) c a s rd (BitVec.ofNat 64 (x.toNat * y.toNat)) ∧
    PutsW (.tMulhu c rd ra rb) c a s rd (BitVec.ofNat 64 (x.toNat * y.toNat / 2 ^ 64)) ∧
    PutsW (.tSlt c rd ra rb) c a s rd (if x.toInt < y.toInt then 1 else 0) ∧
    PutsW (.tSltu c rd ra rb) c a s rd (if x.toNat < y.toNat then 1 else 0)

/-- R236: the immediate forms, the moves of 16 bits and RDTIME put their result into rd and go on; a shift by an immediate whose bits
[15:6] are not zero is no instruction and is not stated here. -/
def Sys2Proof.Claims.TaperImmediateWritesRd : Prop :=
  ∀ (c : CoreId) (rd ra : WReg) (imm : BitVec 16) (lane : BitVec 2) (n : BitVec 6) (a : Act) (s : State), Runs c a s →
    let x := a.getW ra.toNat
    let sx : BitVec 64 := imm.signExtend 64
    let zx : BitVec 64 := imm.zeroExtend 64
    let sh : BitVec 16 := n.zeroExtend 16
    PutsW (.tAddi c rd ra imm) c a s rd (x + sx) ∧
    PutsW (.tAndi c rd ra imm) c a s rd (x &&& zx) ∧
    PutsW (.tOri c rd ra imm) c a s rd (x ||| zx) ∧
    PutsW (.tXori c rd ra imm) c a s rd (x ^^^ zx) ∧
    PutsW (.tShli c rd ra sh) c a s rd (x <<< n.toNat) ∧
    PutsW (.tShri c rd ra sh) c a s rd (x >>> n.toNat) ∧
    PutsW (.tSari c rd ra sh) c a s rd (x.sshiftRight n.toNat) ∧
    PutsW (.tSlti c rd ra imm) c a s rd (if x.toInt < sx.toInt then 1 else 0) ∧
    PutsW (.tSltiu c rd ra imm) c a s rd (if x.toNat < sx.toNat then 1 else 0) ∧
    PutsW (.tMovz c rd lane imm) c a s rd (zx <<< (16 * lane.toNat)) ∧
    PutsW (.tMovk c rd lane imm) c a s rd
      (a.getW rd.toNat &&& ~~~((0xFFFF : BitVec 64) <<< (16 * lane.toNat)) ||| zx <<< (16 * lane.toNat)) ∧
    PutsW (.tRdtime c rd) c a s rd s.gtime

/-- R236: the arithmetic instructions of both forms put their results into rd. Model's choices that it rests on: log entries 96 (DESIGN
CHOICE), 99 (DEDUCED). -/
def Obligations.TaperComputesIntoRd : Prop := TaperArithmeticWritesRd ∧ TaperImmediateWritesRd

/-- R236: the moves between w and v registers and within the v registers; nothing else changes. Model's choices that it rests on: log entry
96 (DESIGN CHOICE). -/
def Obligations.TaperVectorMoves : Prop :=
  ∀ (c : CoreId) (vd vb : VReg) (ra rb : WReg) (lane : BitVec 3) (a : Act) (s : State), Runs c a s →
    let m : BitVec 512 := (0xFFFFFFFFFFFFFFFF : BitVec 512) <<< (64 * lane.toNat)
    PutsV (.tVins c vd ra lane) c a s vd
      (a.getV vd.toNat &&& ~~~m ||| (a.getW ra.toNat).zeroExtend 512 <<< (64 * lane.toNat)) ∧
    PutsW (.tVext c rb vb lane) c a s rb ((a.getV vb.toNat >>> (64 * lane.toNat)).setWidth 64) ∧
    PutsV (.tVmov c vd vb) c a s vd (a.getV vb.toNat) ∧
    PutsV (.tVzero c vd) c a s vd 0

/-- R231, R232, R236: an aligned load from a place that the address map gives the program puts the bytes there, zero-extended, into rd, or
64 bytes into vd. -/
def Sys2Proof.Claims.TaperLoadReadsMemory : Prop :=
  ∀ (c : CoreId) (rd ra : WReg) (vd : VReg) (imm : BitVec 16) (i12 : BitVec 12) (a : Act) (s : State) (t : TAddr), Runs c a s →
    let load (n : Nat) : BitVec 64 := BitVec.ofNat 64 (((List.range n).map (fun k => (byteAt c t k s).toNat * 256 ^ k)).sum)
    let at16 : BitVec 64 := a.getW ra.toNat + imm.signExtend 64
    let at12 : BitVec 64 := a.getW ra.toNat + i12.signExtend 64
    let ok (x : BitVec 64) (n : Nat) : Prop := x.toNat % n = 0 ∧ tAddr c.toNat a x n false false s = some t
    (ok at16 8 → PutsW (.tLd c rd ra imm) c a s rd (load 8)) ∧
    (ok at16 4 → PutsW (.tLw c rd ra imm) c a s rd (load 4)) ∧
    (ok at16 2 → PutsW (.tLh c rd ra imm) c a s rd (load 2)) ∧
    (ok at16 1 → PutsW (.tLb c rd ra imm) c a s rd (load 1)) ∧
    (ok at12 64 → PutsV (.tVld c vd ra i12) c a s vd
      (BitVec.ofNat 512 (((List.range 64).map (fun k => (byteAt c t k s).toNat * 256 ^ k)).sum)))

/-- R231, R232, R236: an aligned store to a place that the address map lets the program write stores the low bytes of its register there and
changes no other byte. -/
def Sys2Proof.Claims.TaperStoreWritesMemory : Prop :=
  ∀ (c : CoreId) (rd ra : WReg) (vb : VReg) (imm : BitVec 16) (i12 : BitVec 12) (a : Act) (s : State) (t : TAddr), Runs c a s → Safe s →
    let at16 : BitVec 64 := a.getW ra.toNat + imm.signExtend 64
    let at12 : BitVec 64 := a.getW ra.toNat + i12.signExtend 64
    let ok (x : BitVec 64) (n : Nat) : Prop := x.toNat % n = 0 ∧ tAddr c.toNat a x n true false s = some t
    let b : Act := { a with pc := a.pc + 4 }
    (ok at16 8 → Stores (.tSt c rd ra imm) c b s t 8 (a.getW rd.toNat).toNat) ∧
    (ok at16 4 → Stores (.tSw c rd ra imm) c b s t 4 (a.getW rd.toNat).toNat) ∧
    (ok at16 2 → Stores (.tSh c rd ra imm) c b s t 2 (a.getW rd.toNat).toNat) ∧
    (ok at16 1 → Stores (.tSb c rd ra imm) c b s t 1 (a.getW rd.toNat).toNat) ∧
    (ok at12 64 → Stores (.tVst c vb ra i12) c b s t 64 (a.getV vb.toNat).toNat)

/-- R231, R232, R236: loads read and stores write the places that the address map gives the program. Model's choices that it rests on: log
entries 12 (DESIGN CHOICE), 96 (DESIGN CHOICE), 100 (DEDUCED). -/
def Obligations.TaperLoadsAndStores : Prop := TaperLoadReadsMemory ∧ TaperStoreWritesMemory

/-- R232, R236: an aligned atomic on the program's heap returns the old 8 bytes in rd and leaves the sum, the operand, or the operand where
the old bytes equalled rd. Model's choices that it rests on: log entries 96 (DESIGN CHOICE), 100 (DEDUCED). -/
def Obligations.TaperAtomicUpdates : Prop :=
  ∀ (c : CoreId) (rd ra rb : WReg) (a : Act) (s : State) (t : TAddr), Runs c a s → Safe s →
    (a.getW ra.toNat).toNat % 8 = 0 → tAddr c.toNat a (a.getW ra.toNat) 8 true true s = some t →
    let old : BitVec 64 := BitVec.ofNat 64 (((List.range 8).map (fun k => (byteAt c t k s).toNat * 256 ^ k)).sum)
    let y := a.getW rb.toNat
    let does (i : Instr) (v : BitVec 64) : Prop := ∃ b, WroteW a b rd old ∧ Stores i c b s t 8 v.toNat
    does (.tAadd c rd ra rb) (old + y) ∧
    does (.tAswp c rd ra rb) y ∧
    does (.tAcas c rd ra rb) (if old = a.getW rd.toNat then y else old)

/-- R236: a branch whose condition holds goes to PC + 4 × its offset where that is an instruction of the image; otherwise it goes on. JMP
and JR go there, and CALL does with w15 holding PC + 4. Model's choices that it rests on: log entry 96 (DESIGN CHOICE). -/
def Obligations.TaperBranches : Prop :=
  ∀ (c : CoreId) (ra rb : WReg) (off : BitVec 16) (off24 : BitVec 24) (a : Act) (s : State), Runs c a s →
    let x := a.getW ra.toNat
    let y := a.getW rb.toNat
    let goes (i : Instr) (t : BitVec 64) : Prop := codeAddr c.toNat a t s = true → exec i s = .next (runsNow c { a with pc := t } s)
    let stays (i : Instr) : Prop := exec i s = .next (runsNow c { a with pc := a.pc + 4 } s)
    let branch (i : Instr) (p : Prop) : Prop := (p → goes i (a.pc + 4 * off.signExtend 64)) ∧ (¬p → stays i)
    let far : BitVec 64 := a.pc + 4 * off24.signExtend 64
    branch (.tBeq c ra rb off) (x = y) ∧
    branch (.tBne c ra rb off) (x ≠ y) ∧
    branch (.tBlt c ra rb off) (x.toInt < y.toInt) ∧
    branch (.tBge c ra rb off) (y.toInt ≤ x.toInt) ∧
    branch (.tBltu c ra rb off) (x.toNat < y.toNat) ∧
    branch (.tBgeu c ra rb off) (y.toNat ≤ x.toNat) ∧
    goes (.tJmp c off24) far ∧
    goes (.tJr c ra) x ∧
    (codeAddr c.toNat a far s = true →
      ∃ b, exec (.tCall c off24) s = .next (runsNow c b s) ∧ b = { a with pc := far, w := b.w } ∧
        ∀ d : WReg, b.getW d.toNat = if d = 15 then a.pc + 4 else a.getW d.toNat)

/-- R236, R237, R247: WAITEV and POLLEV give the oldest queued event whose KIND is in the mask, and its slot is free again; with none
queued WAITEV waits and POLLEV gives 0. TIMER arms the timer of the queue, or cancels it. SYS gives the values of its table. -/
def Sys2Proof.Claims.TaperEventsAndSystemValues : Prop :=
  ∀ (c : CoreId) (rd ra : WReg) (mask : BitVec 16) (a : Act) (s : State), Runs c a s →
    let q := actQueue a s
    let hit (w : BitVec 64) : Prop := eventKind w < 16 ∧ mask.getLsbD (eventKind w) = true
    let holds (b : Act) (r : EvQueue) : Act := { b with evq := if a.inv.isNone then r else a.evq }
    let x := a.getW ra.toNat
    let r : EvQueue := { q with timer := if x = 0 then none else some (s.now + 16 * x.toNat) }
    let sys (n : Nat) (v : Nat) : Prop := PutsW (.tSys c rd (BitVec.ofNat 16 n)) c a s rd (BitVec.ofNat 64 v)
    (∀ (old new : List (BitVec 64)) (w : BitVec 64), q.words = old ++ w :: new → (∀ e ∈ old, ¬hit e) → hit w →
      let q' : EvQueue := { q with words := old ++ new, slots := if eventKind w = 3 ∨ eventKind w = 6 then q.slots else q.slots - 1 }
      ∀ i ∈ [Instr.tWaitev c rd mask, Instr.tPollev c rd mask],
        ∃ b, exec i s = .next (runsNow c b (putQueue c.toNat a q' s)) ∧ WroteW (holds a q') b rd w) ∧
    ((∀ e ∈ q.words, ¬hit e) →
      exec (.tWaitev c rd mask) s = .next (runsNow c { a with pc := a.pc + 4, wait := some (.event mask rd.toNat) } s) ∧
      PutsW (.tPollev c rd mask) c a s rd 0) ∧
    exec (.tTimer c ra) s = .next (runsNow c { holds a r with pc := a.pc + 4 } (putQueue c.toNat a r s)) ∧
    sys 0 c.toNat ∧ sys 1 (c.toNat / 8) ∧ sys 2 a.prog ∧ sys 3 (actOwner a s) ∧ sys 4 (a.inv.getD 0) ∧ sys 5 (chipId s) ∧
    sys 6 ((s.now - (getCore c.toNat s).resetAt) * 9 / 80) ∧
    sys 7 (((getImage a.image s).map (fun m => m.version.toNat)).getD 0) ∧
    sys 8 (actPlace c.toNat a s).1 ∧ sys 9 (actPlace c.toNat a s).2.2

/-- R236, R245, R262, R263: RET ends an activation, which frees its core; END ends the invocation once nothing of it is outstanding. BRK
raises TRAP, and a word that is no instruction raises ILLEGAL: of an invocation they make it fail with TAPER_FAULT, a message activation
ends, counted. -/
def Sys2Proof.Claims.TaperEndsAndExceptions : Prop :=
  ∀ (c : CoreId) (imm : BitVec 16) (word : BitVec 32) (a : Act) (s : State),
    (getCore c.toNat s).act = some a → a.wait = none → coreHalted c.toNat s = false →
    let n := c.toNat
    let counted := evcPulse 216 (imm.toNat % 4096) s
    (∀ i v, a.inv = some i → getInvoc i s = some v →
      Does (.tRet c) s (conclude i (invSched i (modInvoc i (fun v => { v with busy := false }) (freeCore n s)))) ∧
      (v.inst = 0 → Does (.tEnd c) s (conclude i (setAct n { a with wait := some .ending }
        (putInvoc i { v with ended := true, evq := { v.evq with timer := none } } s)))) ∧
      Does (.tBrk c imm) s (conclude i (invFail i St.taperFault 0x0B counted)) ∧
      (taperDecode c word = none → Does (.illegalOpcode c word) s (conclude i (invFail i St.taperFault 0x01 s)))) ∧
    (a.inv = none →
      ((∀ h ∈ s.tpr.hxfers, h.2.owner ≠ .act n a.uid) →
        Does (.tRet c) s (endMsgAct n a s) ∧ Does (.tEnd c) s (endMsgAct n a s)) ∧
      Does (.tBrk c imm) s (endMsgAct n a (evcPulse 215 0x0B counted)) ∧
      (taperDecode c word = none → Does (.illegalOpcode c word) s (endMsgAct n a (evcPulse 215 0x01 s))))

/-- R236, R237, R245, R247, R262, R263: events, system values, the ends of activations and the exceptions. Model's choices that it rests on:
log entries 6 (DESIGN CHOICE), 96 (DESIGN CHOICE), 105 (DESIGN CHOICE), 110 (DEDUCED). -/
def Obligations.TaperEventsEndsAndExceptions : Prop := TaperEventsAndSystemValues ∧ TaperEndsAndExceptions

/-- R254, R255: CRD gives 64 bytes of a trigger object or held chunk buffer, zeros past its end; CWR stores 64 bytes in a chunk buffer;
CCPY copies bytes of one to local memory; CFREE releases the trigger object. -/
def Sys2Proof.Claims.TaperObjects : Prop :=
  ∀ (c : CoreId) (vd : VReg) (rd ra rb : WReg) (imm : BitVec 12) (a : Act) (s : State) (bs : List Byte) (t : TAddr), Runs c a s →
    let r := a.getW ra.toNat + imm.zeroExtend 64
    let sel := r.toNat / 2 ^ 48
    let off := r.toNat % 2 ^ 32
    let r' := a.getW ra.toNat
    let on : Act := { a with pc := a.pc + 4 }
    (objBytes a sel s = some bs → r.toNat / 2 ^ 32 % 2 ^ 16 = 0 → off % 64 = 0 →
      PutsV (.tCrd c vd ra imm) c a s vd
        (BitVec.ofNat 512 (((List.range 64).map (fun k => (bs.getD (off + k) 0).toNat * 256 ^ k)).sum)) ∧
      ∀ i v, a.inv = some i → getInvoc i s = some v → sel ≠ 0xFFFF → off < 4096 →
        exec (.tCwr c vd ra imm) s = .next (runsNow c on (modInst v.inst (fun g => { g with
          bufs := tmod g.bufs sel (fun b => { b with data := spliceBytes bs off (toBytes 64 (a.getV vd.toNat)) }) }) s))) ∧
    (objBytes a (r'.toNat / 2 ^ 48) s = some bs → r'.toNat / 2 ^ 32 % 2 ^ 16 = 0 → Safe s →
      tAddr c.toNat a (a.getW rd.toNat) (a.getW rb.toNat).toNat true false s = some t →
      StoresBytes (.tCcpy c rd ra rb) c on s t (a.getW rb.toNat).toNat (fun k => bs.getD (r'.toNat % 2 ^ 32 + k) 0)) ∧
    (a.inv = none → exec (.tCfree c) s = .next (runsNow c { on with obj := none } s)) ∧
    (∀ i v, a.inv = some i → getInvoc i s = some v →
      exec (.tCfree c) s = .next (runsNow c on (putInvoc i { v with obj := none } s)))

/-- R248 to R251, R257, R258: of a collective invocation COLOP queues an operation with the COL and takes the slots of its events; MSG sends a
TMSG with the next PSN and keeps it for resending; HXFER is checked as an access of the program's owner. -/
def Sys2Proof.Claims.TaperDeviceOperations : Prop :=
  ∀ (c : CoreId) (vb : VReg) (a : Act) (s : State), (getCore c.toNat s).act = some a → a.wait = none → coreHalted c.toNat s = false →
    let n := c.toNat
    let x := a.getV vb.toNat
    let q := actQueue a s
    let slotted (k : Nat) : State := putQueue n a { q with slots := q.slots + k } s
    let b : Act := { a with pc := a.pc + 4, evq := if a.inv.isNone then { q with slots := q.slots + 1 } else a.evq }
    (∀ i v g, a.inv = some i → getInvoc i s = some v → v.inst ≠ 0 → getInst v.inst s = some g → g.failed = none →
      1 ≤ oCop x → oCop x ≤ 9 →
      let k := if oCop x = 1 then 2 else 1
      q.slots + k ≤ 64 →
      Does (.tColop c vb) s (putInst v.inst { g with ops := g.ops ++ [⟨g.nextOp, x, .queued, []⟩], nextOp := g.nextOp + 1 }
        (setAct n { a with pc := a.pc + 4 } (slotted k)))) ∧
    (let len := bits 335 320 x
     let cls := bits 366 364 x
     let src := tAddr n a (x.extractLsb' 256 64) len true false s
     let hp := actOwner a s / 256
     let rto := 16000 * max 1 ((rdReg Reg.TPR_CFG s).toNat / 2 ^ 40 % 256)
     cls < 4 → len ≤ 4096 → bits 399 384 x = 0 → bits 363 352 x = 0 → bits 255 0 x = 0 → msgClassOk a cls s = true →
     (len = 0 ∨ src ≠ none) → q.slots < 64 →
     ∃ p : Packet,
       p = { Packet.zero with
         op := 0x30, cls := BitVec.ofNat 3 cls, addr := BitVec.ofNat 64 (bits 415 400 x), opx := x.extractLsb' 448 64
         key := x.extractLsb' 416 32, msgLen := BitVec.ofNat 32 len, payLen := BitVec.ofNat 13 len, last := true, psn := s.tpr.psn
         dstEp := x.extractLsb' 367 17, srcEp := BitVec.ofNat 17 (chipId s * 4 + hp)
         payload := (src.map (fun t => tRead n t len s)).getD [] } ∧
       Does (.tMsg c vb) s (inject (168 + n / 8) (sealCrc p) (setAct n b (addOp a (withTpr (fun t => { t with
         psn := t.psn + 1, tmsgs := t.tmsgs ++ [⟨168 + n / 8, p, actOpOwner n a, x.extractLsb' 336 16, 0, s.now, rto⟩] }) (slotted 1)))))) ∧
    (let dir := bits 239 238 x
     let len := bits 351 320 x
     let laddr : BitVec 64 := x.extractLsb' 256 64
     let loc := tAddr n a laddr len true false s
     dir < 2 → bits 237 0 x = 0 → len ≠ 0 → len ≤ 65536 → bits 447 384 x = 0 → laddr.toNat % 8 = 0 → loc ≠ none → q.slots < 64 →
     let h : Hxfer :=
       { owner := actOpOwner n a, fn := actOwner a s, dir := dir, core := n, laddr := laddr, len := len, tag := x.extractLsb' 240 16,
         bytes := if dir = 1 then (loc.map (fun t => tRead n t len s)).getD [] else [], serial := none, outcome := none }
     Does (.tHxfer c vb) s (xltStart
         { fn := actOwner a s, dom := some (actPd a s),
           parts := [⟨x.extractLsb' 352 32, x.extractLsb' 448 64, len⟩], rights := if dir = 0 then 1 else 2, rd := dir != 1,
           wr := dir != 0, testsOnly := false, purpose := .hxfer s.tpr.nextId }
         (setAct n b (addOp a (withTpr (fun t => { t with hxfers := tset t.hxfers s.tpr.nextId h, nextId := t.nextId + 1 })
           (slotted 1))))))

/-- R236, R248 to R256: the objects of a program and the operations of the device that it begins. Model's choices that it rests on: log
entries 6 (DESIGN CHOICE), 96 (DESIGN CHOICE), 98 (DEDUCED), 101 (DEDUCED), 104 (DEDUCED). -/
def Obligations.TaperObjectsAndOperations : Prop := TaperObjects ∧ TaperDeviceOperations

/-- R252, R253, R256, R369, R370, R373: MBXPUT fills an empty mailbox that the program's owner owns, or tells that it is full or armed for
another; SEMACQ takes a free semaphore, or waits for a held one, and SEMREL releases a held one to the waiter that waits longest; NOTE
writes a notice in a slot of an Arrival Ring, or tells that there is none. While the unit that it needs is fenced (R389) the instruction
waits. Model's choices that it rests on: log entries 96 (DESIGN CHOICE), 109 (DEDUCED), 134 (DEDUCED). -/
def Obligations.TaperMailboxesSemaphoresNotices : Prop :=
  ∀ (c : CoreId) (vb : VReg) (rd ra rb : WReg) (a : Act) (s : State), Runs c a s →
    let r := a.getW ra.toNat
    let box := r.toNat % 4096
    let n := r.toNat % 1024
    let m := coreMaster c.toNat
    let owner := actOwner a s
    let x := a.getV vb.toNat
    let wrote (i : Instr) (d : WReg) (v : BitVec 64) (t : State) : Prop := ∃ b, exec i s = .next (runsNow c b t) ∧ WroteW a b d v
    (unitFenced 137 s = false → mbxOwned box owner s = true →
      ((getMbx box s).state = .empty →
        wrote (.tMbxput c rd ra rb) rd 0 (mbxFill box (r.extractLsb' 24 8) (r.extractLsb' 16 8) (a.getW rb.toNat) s)) ∧
      ((getMbx box s).state = .full → wrote (.tMbxput c rd ra rb) rd 1 s) ∧
      ((getMbx box s).state = .armed → a.inv = none → wrote (.tMbxput c rd ra rb) rd 2 s)) ∧
    (unitFenced 136 s = false → semAllowed n owner s = true → (getSem n s).excused = none →
      ((getSem n s).holder = some m → wrote (.tSemacq c rd ra) rd 0 s) ∧
      ((getSem n s).holder = none → wrote (.tSemacq c rd ra) rd (if (getSem n s).abandoned then 1 else 0)
        (putSem n { getSem n s with holder := some m, grants := (getSem n s).grants + 1, abandoned := false } s)) ∧
      (∀ k, (getSem n s).holder = some k → k ≠ m → m ∉ (getSem n s).queue → semWaiters s < 4096 →
        exec (.tSemacq c rd ra) s = .next (runsNow c { a with pc := a.pc + 4, wait := some (.sem n rd.toNat) }
          (putSem n { getSem n s with queue := (getSem n s).queue ++ [m] } s))) ∧
      ((getSem n s).holder = some m → (getSem n s).queue = [] →
        exec (.tSemrel c ra) s = .next (runsNow c { a with pc := a.pc + 4 }
          (putSem n { getSem n s with holder := none, abandoned := false } s))) ∧
      (∀ q rest, (getSem n s).holder = some m → (getSem n s).queue = q :: rest →
        exec (.tSemrel c ra) s = .next (runsNow c { a with pc := a.pc + 4 }
          (semGrant n q (putSem n { getSem n s with holder := none, queue := rest, abandoned := false } s))))) ∧
    (unitFenced 137 s = true → exec (.tMbxput c rd ra rb) s = .next s) ∧
    (unitFenced 136 s = true → exec (.tSemacq c rd ra) s = .next s ∧ exec (.tSemrel c ra) s = .next s) ∧
    (let id := bits 319 308 x
     (getArv owner id s = none → wrote (.tNote c vb rb) rb 2 s) ∧
     (∀ g, getArv owner id s = some g → g.fenced = true → wrote (.tNote c vb rb) rb 2 s) ∧
     ∀ g, getArv owner id s = some g → g.fenced = false →
       (g.free .pool = 0 → wrote (.tNote c vb rb) rb 1 s) ∧
       (0 < g.free .pool → wrote (.tNote c vb rb) rb 0 (writeNotice owner id .pool
         { addr := x.extractLsb' 448 64, imm := x.extractLsb' 416 32, key := x.extractLsb' 384 32
           src := BitVec.ofNat 17 (chipId s * 4 + owner / 256), bytes := bits 383 352 x, detail := 0, status := 1, kind := 5,
           qpn := bits 351 328 x } (putArv owner id (g.setFree .pool (g.free .pool - 1)) s))))
/-- R243, R244, R246, R247, R251, R268: the data of a transfer to local memory comes and HOST_DONE with it; a timer expires as a TIMER
event; the watchdog ends an activation; the oldest ready activation goes to the lowest free core of its cluster; TPR_UNFREEZE makes a FROZEN
program LIVE again. Model's choices that it rests on: log entries 4 (DESIGN CHOICE), 6 (DESIGN CHOICE), 266 (DEDUCED). -/
def Obligations.ClusterEvents : Prop :=
  ∀ (c : CoreId) (id inv : BitVec 32) (cl : BitVec 4) (bs : List Byte) (h : Hxfer) (n : Nat) (v : Invoc) (t : Nat) (a : Act)
    (r : Ready) (rest : List Ready) (m : Master) (w : BitVec 32) (p : Prog) (s : State),
    let k := c.toNat
    (tget s.tpr.hxfers id.toNat = some h → h.serial = some n → h.dir = 0 → h.owner ≠ .none → bs.length = h.len →
      Does (.hxferComplete id (.data bs)) s (hxferDone id.toNat 1 0
        (tWrite h.core (if h.laddr.toNat < 0x8000 then .ldm h.laddr.toNat else .csm h.laddr.toNat) bs (drained n s)))) ∧
    (inv ≠ 0 → getInvoc inv.toNat s = some v → v.evq.timer = some t →
      Does (.timerExpiry c inv) s
        (invEvent inv.toNat 0x0600000000000000 (putInvoc inv.toNat { v with evq := { v.evq with timer := none } } (advanceTo t s)))) ∧
    ((getCore k s).act = some a →
      Does (.watchdogExpiry c) s
        (tprExc k a 0x05 (reachGtime (a.started + a.wdog) s))) ∧
    (cl.toNat ∉ s.snf.clusters → tget s.tpr.ready cl.toNat = some (r :: rest) → mayDispatch cl.toNat r s = true →
      ∀ j < 8, coreFree (8 * cl.toNat + j) s = true → (∀ i < j, coreFree (8 * cl.toNat + i) s = false) →
        Does (.activationDispatch cl) s
          (dispatchTo (8 * cl.toNat + j) cl.toNat r (withTpr (fun t => { t with ready := tset t.ready cl.toNat rest }) s))) ∧
    (MgtWritesOff m s → Open 48 s → getProg (w.toNat % 1024) s = some p → p.state = .frozen →
      let back (x : ProgState) : State :=
        showProg (w.toNat % 1024) (withTpr (fun t => { t with progs := tset t.progs (w.toNat % 1024) { p with state := x } }) s)
      (p.unload = none → Does (.tprUnfreeze m w) s (back .live)) ∧
      (p.unload ≠ none → Does (.tprUnfreeze m w) s (back .unloading)))

/-- R258, R259: a TMSG for a LIVE program is accepted, acknowledged with code 0 and made ready in a cluster; it is refused by name
otherwise: with NO_HANDLER where the handle names no program, one that is UNLOADING, one of another host port, or one whose image has no
message handler. Which cluster answers is the model's choice (log entry 194), and so is that a running timer keeps its time (log entry 221).
It is discarded and counted with a wrong E2E_CRC, and discarded without a word where room is lacking. A TMSG_ACK ends the message that it
names; one that is not acknowledged in TM_RTO is sent again with RETX, and given up after TM_RETRY; an entry of the acceptance table
expires. Model's choices that it rests on: log entries 6 (DESIGN CHOICE), 194 (DESIGN CHOICE), 221 (DEDUCED). -/
def Obligations.TaperMessages : Prop :=
  ∀ (p : Packet) (g : Prog) (im : Image) (m : TmsgTx) (psn : BitVec 32) (chip : BitVec 15) (s : State),
    let h := p.addr.toNat % 65536
    let from_ := p.srcEp.toNat / 4
    let rto := 16000 * max 1 ((rdReg Reg.TPR_CFG s).toNat / 2 ^ 40 % 256)
    let retry := max 1 ((rdReg Reg.TPR_CFG s).toNat / 2 ^ 32 % 256)
    let answer (cl code : Nat) (t : State) : State := inject (168 + cl) (sealCrc { Packet.zero with
      op := 0x31, cls := 2, psn := p.psn, dstEp := p.srcEp, srcEp := p.dstEp, opx := BitVec.ofNat 64 (code * 2 ^ 56) }) t
    let by_ := (msgCluster g s).getD 0
    let takes := g.state ≠ .unloading ∧ g.owner / 256 = p.dstEp.toNat % 4 ∧ ∃ im, getImage g.image s = some im ∧ im.msge ≠ 0xFFFFFFFF
    (p.op = 0x30 → e2eCrc p ≠ p.crc → Does (.tmsg p) s (evcPulse 193 48 s)) ∧
    (p.op = 0x30 → e2eCrc p = p.crc → getProg h s = none → Does (.tmsg p) s (answer 0 1 s)) ∧
    (p.op = 0x30 → e2eCrc p = p.crc → getProg h s = some g → ¬takes → Does (.tmsg p) s (answer 0 1 s)) ∧
    (p.op = 0x30 → e2eCrc p = p.crc → getProg h s = some g → g.state ≠ .unloading → g.owner / 256 = p.dstEp.toNat % 4 →
      getImage g.image s = some im → im.msge ≠ 0xFFFFFFFF →
      (g.hkey ≠ p.key → Does (.tmsg p) s (answer by_ 2 s)) ∧
      (g.hkey = p.key → g.state = .frozen ∨ frozen g.owner s = true → Does (.tmsg p) s (answer by_ 3 s)) ∧
      (g.hkey = p.key → g.state = .live → frozen g.owner s = false →
        ((∃ t, (from_, p.psn, t) ∈ s.tpr.accept) → Does (.tmsg p) s (answer by_ 0 s)) ∧
        ((∀ t, (from_, p.psn, t) ∉ s.tpr.accept) → ∀ cl, msgCluster g s = some cl → s.tpr.accept.length < 8192 → msgQueue cl s < 256 →
          objCells s + cellsOf p ≤ objLimit s →
          Does (.tmsg p) s (answer cl 0 (pushReady cl (.msg h p (cellsOf p))
            (withTpr (fun t => { t with accept := t.accept ++ [(from_, p.psn, s.now + (retry + 2) * rto)] }) s)))) ∧
        ((∀ t, (from_, p.psn, t) ∉ s.tpr.accept) →
          (msgCluster g s = none ∨ 8192 ≤ s.tpr.accept.length ∨ (∃ cl, msgCluster g s = some cl ∧ 256 ≤ msgQueue cl s) ∨
            objLimit s < objCells s + cellsOf p) → Does (.tmsg p) s s))) ∧
    (s.tpr.tmsgs.find? (fun m => m.pkt.psn == p.psn) = some m → p.op = 0x31 → e2eCrc p = p.crc →
      Does (.tmsgAck p) s (tmsgDone m (p.opx.toNat / 2 ^ 56) s)) ∧
    (s.tpr.tmsgs.find? (fun m => m.pkt.psn == psn) = some m →
      let t := advanceTo (m.sentAt + m.rto) s
      (retry ≤ m.tries → Does (.tmRtoExpiry psn) s (tmsgDone m 0x80 t)) ∧
      (m.tries < retry → Does (.tmRtoExpiry psn) s (inject m.att (sealCrc { m.pkt with retx := true })
        (withTpr (fun u => { u with tmsgs := u.tmsgs.map (fun x =>
          if x.pkt.psn == psn then { x with tries := x.tries + 1, sentAt := t.now, rto := rto } else x) }) t)))) ∧
    (∀ t, (chip.toNat, psn, t) ∈ s.tpr.accept → (∀ u, (chip.toNat, psn, u) ∈ s.tpr.accept → u = t) →
      Does (.acceptanceEntryExpiry chip psn) s
        (withTpr (fun u => { u with accept := u.accept.filter (fun x => !(x.1 == chip.toNat && x.2.1 == psn)) }) (advanceTo t s)))
/-! ### Command Rings (02) -/

/-- R36, R40, R41, R47: a NOP or a FENCE that stands alone in its ring finishes with SUCCESS: its ownership word is written and the head moves
over it. A FENCE with an unfinished entry before it is not issued. -/
def Sys2Proof.Claims.NopAndFenceFinish : Prop :=
  ∀ (f : Fn) (r : BitVec 12) (g : Ring) (e : BitVec 512) (s : State),
    getRing f.toNat r.toNat s = some g → g.state = .running → frozen f.toNat s = false → g.issuing = false →
    (g.entries = [⟨e, false, none⟩] → eFence e = false ∨ eOpcode e = 0x10 →
      let done := putRing f.toNat r.toNat { g with head := g.head + 1, entries := [], issuing := false, reading := none }
        (ringWrite f.toNat (g.base + BitVec.ofNat 64 (64 * (g.head.toNat % 2 ^ g.log2size)))
          (leBytes 8 (finishedWord g.log2size g.head e 1 0)) (markIssued ⟨f.toNat, r.toNat, g.uid, g.head⟩ s))
      (eOpcode e = 0x00 → Does (.nop f r) s done) ∧ (eOpcode e = 0x10 → Does (.fence f r) s done)) ∧
    (∀ x, g.entries = [x, ⟨e, false, none⟩] → x.issued = true → x.result = none → eOpcode e = 0x10 → Does (.fence f r) s s)

/-- R33, R194, R196, R261: at issue WAIT_CTR and SIGNAL ask for the check of their counter word, COL_START and TAPER_INVOKE for that of their
descriptor, and COLL_ABORT aborts the active instance that it names; a WAIT_CTR that has timed out finishes with WAIT_TIMEOUT. -/
def Sys2Proof.Claims.CounterCollectiveAndTaperEntriesIssue : Prop :=
  ∀ (f : Fn) (r : BitVec 12) (idx : BitVec 32) (w : ReadResult) (ref : EntryRef) (e : BitVec 512) (i : Nat) (x : ColInst) (g : Ring)
    (k : Nat) (y : Entry) (s : State),
    let at_ (op : Nat) : Prop := issueOf op f.toNat r.toNat s = some (ref, e)
    let desc : Access :=
      { fn := ref.fn, dom := none, parts := [⟨eLkey e, eLaddr e, eLength e⟩], rights := 1, rd := true, wr := false, testsOnly := false,
        purpose := .entryTable ref }
    let word (wr : Bool) (p : Purpose) : Access :=
      { fn := ref.fn, dom := none, parts := [⟨eLkey e, eLaddr e, 8⟩], rights := if wr then 3 else 1, rd := true, wr := wr,
        testsOnly := false, purpose := p }
    (at_ 0x11 → ref.idx = idx → (eLaddr e).toNat % 8 = 0 →
      Does (.waitCtr f r idx w) s (xltStart (word false (.waitCtr ref w)) (markIssued ref s))) ∧
    (at_ 0x12 → (eLaddr e).toNat % 8 = 0 → Does (.signal f r) s (xltStart (word true (.signal ref)) (markIssued ref s))) ∧
    (at_ 0x12 → (eLaddr e).toNat % 8 ≠ 0 → Does (.signal f r) s (issueFinish ref 0x0A 0 s)) ∧
    (at_ 0x20 → unitFenced 117 s = false → unitFenced 137 s = false → 64 ≤ eLength e → eLength e ≤ 65536 → eLength e % 8 = 0 → descRoom e s = true →
      Does (.colStart f r) s (xltStart desc (setIssuing ref true none s))) ∧
    (at_ 0x28 → 0 < eLength e → eLength e ≤ 65536 → eLength e % 8 = 0 → bits 63 16 (eX64 e) = 0 → descRoom e s = true →
      Does (.taperInvoke f r) s (xltStart desc (setIssuing ref true none s))) ∧
    (at_ 0x21 → findInst (f.toNat / 256) ((eX64 e).extractLsb' 32 32) ((eX64 e).extractLsb' 16 16) s = some (i, x) →
      Does (.collAbort f r) s (finishEntry ref 1 0 (instAbort i Cd.aborted (markIssued ref s)))) ∧
    (getRing f.toNat r.toNat s = some g → refEntry ⟨f.toNat, r.toNat, g.uid, idx⟩ s = some (g, k, y) → y.issued = true →
      y.result = none → eOpcode y.raw = 0x11 → eLength y.raw ≠ 0 →
      Does (.waitCtrTimeout f r idx) s (finishEntry ⟨f.toNat, r.toNat, g.uid, idx⟩ 0x15 0 s))

/-- R33, R36, R40, R194, R261: the entries of a ring that name no queue pair. Model's choices that it rests on: log entries 6 (DESIGN
CHOICE), 20 (DESIGN CHOICE). -/
def Obligations.EntriesWithoutQueuePairsIssue : Prop := NopAndFenceFinish ∧ CounterCollectiveAndTaperEntriesIssue

/-- R34, R35, R115, R125, R375: an entry that names a queue pair in a state that takes it queues its message there, or first asks for the
check that it needs; in another state it finishes with the status of R115; one whose context is not on chip waits for it. Model's choices
that it rests on: log entries 6 (DESIGN CHOICE), 22 (DESIGN CHOICE), 23 (DEDUCED), 47 (DEDUCED). -/
def Obligations.QueuePairEntriesIssue : Prop :=
  ∀ (f : Fn) (r : BitVec 12) (ref : EntryRef) (e : BitVec 512) (x : Qp) (s : State),
    let q := eQpn e
    let at_ (op : Nat) (post : Bool) : Prop := issueOf op f.toNat r.toNat s = some (ref, e) ∧ qpGate f.toNat q post s = .ok x
    let direct : List Part := [⟨eLkey e, eLaddr e, eLength e⟩]
    let queued (m : TxMsg) : State := queueMsg q m (modQp q (fun y => { y with used := true, changed := true }) (markIssued ref s))
    let asked (rights : BitVec 5) (rd wr tests : Bool) (p : Purpose) : State := xltStart
      { fn := ref.fn, dom := some x.par.pd, parts := direct, rights := rights, rd := rd, wr := wr, testsOnly := tests, purpose := p }
      (setIssuing ref true none s)
    let plain_ : Prop := eInline e = false ∧ eIndirect e = false
    (at_ 0x01 false → plain_ → eLength e ≠ 0 → (rndvThresh s = 0 ∨ eLength e ≤ rndvThresh s) →
      Does (.send f r) s (queued (sendMsg ref e direct))) ∧
    (at_ 0x01 false → plain_ → rndvThresh s ≠ 0 → rndvThresh s < eLength e →
      Does (.send f r) s (asked 0b00101 true false true (.sendTest ref))) ∧
    (at_ 0x01 false → eInline e = true → Does (.send f r) s (queued (sendMsg ref e []))) ∧
    (at_ 0x02 false → plain_ → eLength e ≠ 0 → Does (.write f r) s (queued (writeMsg ref e direct))) ∧
    (at_ 0x02 false → eInline e = true → Does (.write f r) s (queued (writeMsg ref e []))) ∧
    (at_ 0x02 false → plain_ → eLength e = 0 → Does (.write f r) s (asked 0b00001 true false false (.zeroCheck ref))) ∧
    (at_ 0x03 false → eIndirect e = false → Does (.read f r) s (queued (readMsg ref e direct))) ∧
    (at_ 0x04 false → (eRaddr e).toNat % 2 ^ bits 143 136 e = 0 → (eLaddr e).toNat % 16 = 0 →
      Does (.atomic f r) s (queued (atomicMsg ref e))) ∧
    (at_ 0x05 false → (eRaddr e).toNat % 8 = 0 → Does (.counterAdd f r) s (queued (counterAddMsg ref e))) ∧
    (at_ 0x06 true → eIndirect e = false → Does (.postRecv f r) s (asked 0b00010 false true false (.postRecv ref))) ∧
    (∀ i ∈ [(Instr.send f r, 0x01, false), (.write f r, 0x02, false), (.read f r, 0x03, false), (.atomic f r, 0x04, false),
        (.counterAdd f r, 0x05, false), (.postRecv f r, 0x06, true)],
      issueOf i.2.1 f.toNat r.toNat s = some (ref, e) →
      (∀ st, qpGate f.toNat q i.2.2 s = .status st → Does i.1 s (issueFinish ref st 0 s)) ∧
      (qpGate f.toNat q i.2.2 s = .fetch → tget s.qpc.fetches q = none → Does i.1 s (startFetch q none s)))

/-- R40, R42 to R45, R48, R50, R64, R65: a doorbell moves a ring's tail, or returns slots of an Arrival Ring; a tail too far ahead is
rejected with cause 0x01 and a write to a page never assigned with cause 0x02; a fetched entry joins its ring, one that is not posted yet is
read again later, and the mirror shows a head that has moved. Model's choices that it rests on: log entries 6 (DESIGN CHOICE), 27 (DEDUCED). -/
def Obligations.DoorbellsFetchesAndMirrors : Prop :=
  ∀ (f : Fn) (page off r : BitVec 12) (n : BitVec 4) (v : BitVec 64) (g : Ring) (a : Arv) (id : Nat) (raw : BitVec 512) (s : State),
    let fn := f.toNat
    let pg := page.toNat
    let t : BitVec 32 := v.extractLsb' 0 32
    let use := tget s.cmp.pages (ringKey fn pg)
    (HostWrites fn s → off = 0 → (n = 4 ∨ n = 8 ∧ v.toNat < 2 ^ 32) →
      (use = some (.ring id) → getRing fn id s = some g → g.state ≠ .stoppedDevice → 0 < (t - g.tail).toInt →
        ((t - g.head).toNat ≤ 2 ^ g.log2size →
          Does (.commandRingDoorbell f page off n v) s (putRing fn id { g with tail := t } s)) ∧
        (2 ^ g.log2size < (t - g.head).toNat → Does (.commandRingDoorbell f page off n v) s (doorbellRejected fn pg 1 s))) ∧
      (use = some (.arv id) → getArv fn id s = some a → a.fenced = false → t ≠ a.consumed →
        ((t - a.consumed).toNat ≤ (a.produced - a.consumed).toNat →
          Does (.arrivalRingDoorbell f page off n v) s
            (putArv fn id { a.giveBack (t - a.consumed).toNat with consumed := t } s)) ∧
        ((a.produced - a.consumed).toNat < (t - a.consumed).toNat →
          Does (.arrivalRingDoorbell f page off n v) s (arvFence fn id a s)))) ∧
    (HostWrites fn s → use = none → pg ≠ 0 →
      Does (.commandRingDoorbell f page off n v) s (doorbellRejected fn pg 2 s) ∧
      Does (.arrivalRingDoorbell f page off n v) s (doorbellRejected fn pg 2 s)) ∧
    (getRing fn r.toNat s = some g → fetchIndex fn g s = some g.head → g.entries = [] → g.waitOwn = false →
      let seen := readable fn (entryAddr g g.head) 64 s
      let read := if seen then hostRead fn (entryAddr g g.head) 64 s else s
      (seen = true → ownTest g.log2size g.head raw = true → decodeStatus (r.toNat == 0) raw = none →
        Does (.entryFetch f r (.data (leBytes 64 raw.toNat))) s (putRing fn r.toNat { g with entries := [⟨raw, false, none⟩] } read)) ∧
      (seen = true → ownTest g.log2size g.head raw = false →
        Does (.entryFetch f r (.data (leBytes 64 raw.toNat))) s (putRing fn r.toNat { g with waitOwn := true } read)) ∧
      (seen = false → ∀ d, Does (.entryFetch f r d) s (setRingState fn r.toNat .stoppedFetch s)) ∧
      Does (.entryFetch f r .pcieError) s (setRingState fn r.toNat .stoppedFetch read)) ∧
    (getRing fn r.toNat s = some g → g.waitOwn = true → g.state = .running → frozen fn s = false →
      Does (.ownershipReread f r) s (evcPulse 194 fn (putRing fn r.toNat { g with waitOwn := false } s))) ∧
    (getRing fn r.toNat s = some g → g.head ≠ g.published →
      Does (.headMirrorPublish f r) s
        (ringWrite fn g.mirror (mirrorBytes g g.state.code) (putRing fn r.toNat { g with published := g.head } s)))

/-- R54 to R57, R66, R522: RING_CREATE and ARV_CREATE create a ring under the lowest free identifier and return it; RING_DESTROY and
ARV_DESTROY free it; RING_RESUME makes a stopped or frozen ring RUNNING; the admin ring is enabled if its registers pass, and disabled.
Model's choices that it rests on: log entry 6 (DESIGN CHOICE). -/
def Obligations.RingsAreCreatedAndDestroyed : Prop :=
  ∀ (f : Fn) (blk : BitVec 256) (ref : EntryRef) (e : BitVec 512) (g : Ring) (a : Arv) (id : Nat) (start : BitVec 32) (s : State),
    let fn := f.toNat
    let at_ (op : Nat) : Prop := issueOf op fn 0 s = some (ref, e)
    let s0 := markIssued ref s
    let s1 := hostRead fn (eLaddr e) 32 s0
    let page := blk.toNat / 2 ^ 64 % 2 ^ 12
    let log2 := blk.toNat % 2 ^ 5
    let fmt := blk.getLsbD 8
    let base : BitVec 64 := blk.extractLsb' 128 64
    let mirror : BitVec 64 := blk.extractLsb' 192 64
    let head : BitVec 32 := blk.extractLsb' 32 32
    let gone (u : State) (p : Nat) : State := setPage fn p .gone u
    (at_ 0x30 → inWindow fn (eLaddr e) 32 s = true → bits 127 112 blk = 0 → bits 95 76 blk = 0 → bits 31 9 blk = 0 → bits 7 5 blk = 0 →
      ringShapeOk log2 fmt base mirror = true → page ≠ 0 → pageUsed fn page s = false → ringInWindow fn log2 fmt base mirror s = true →
      ringCount s < 32768 → ringCountOf fn s < 4095 → 1 ≤ id → id < 4096 → getRing fn id s0 = none →
      (∀ k, 1 ≤ k → k < id → getRing fn k s0 ≠ none) →
      Does (.ringCreate f blk) s (finishEntry ref 1 0 (hostWrite fn (eLaddr e + 12) (leBytes 2 id)
        (newRing fn id page log2 fmt base mirror head s1)))) ∧
    (at_ 0x31 → (eX64 e).toNat = id → 1 ≤ id → id < 4096 → getRing fn id s0 ≠ none →
      Does (.ringDestroy f) s (finishEntry ref 1 0 (dropRing fn id s0))) ∧
    (at_ 0x32 → (eX64 e).toNat = id → 1 ≤ id → id < 4096 → getRing fn id s0 = some g →
      (g.state = .stoppedFetch ∨ g.state = .frozen → Does (.ringResume f) s (finishEntry ref 1 0 (setRingState fn id .running s0))) ∧
      (g.state = .running ∨ g.state = .stoppedDevice → Does (.ringResume f) s (finishEntry ref 0x06 0 s0))) ∧
    (at_ 0x33 → inWindow fn (eLaddr e) 32 s = true → bits 255 192 blk = 0 → bits 127 112 blk = 0 → bits 95 76 blk = 0 → bits 11 5 blk = 0 →
      6 ≤ log2 → log2 ≤ 20 → base.toNat % 4096 = 0 → page ≠ 0 → pageUsed fn page s = false → bits 31 12 blk + 8 ≤ 2 ^ log2 →
      inWindow fn base (32 * 2 ^ log2) s = true → s.cmp.arvs.length < 32768 → arvCountOf fn s < 4095 → freeArv fn s = some id →
      Does (.arvCreate f blk) s (finishEntry ref 1 0 (hostWrite fn (eLaddr e + 12) (leBytes 2 id) (setPage fn page (.arv id)
        (putArv fn id (newArv base log2 page (bits 31 12 blk) head) s1))))) ∧
    (at_ 0x34 → (eX64 e).toNat = id → id < 4096 → getArv fn id s = some a → (arvBound fn id s = false ∨ a.fenced = true) →
      Does (.arvDestroy f) s (finishEntry ref 1 0
        (gone { s0 with cmp := { s0.cmp with arvs := tdel s0.cmp.arvs (ringKey fn id) } } a.page))) ∧
    (HostWrites fn s → Open 123 s → bit 1 (rdFn fn Reg.CMR_ADMIN_CTRL s) = false →
      let t := setFf fn Reg.CMR_ADMIN_CTRL 0 0 1 (setFf fn Reg.CMR_ADMIN_CTRL 63 32 start.toNat s)
      let w := rdFn fn Reg.CMR_ADMIN_RING t
      let b : BitVec 64 := BitVec.ofNat 64 (w.toNat / 4096 * 4096)
      let m : BitVec 64 := BitVec.ofNat 64 ((rdFn fn Reg.CMR_ADMIN_MIRROR t).toNat / 4 * 4)
      let l := w.toNat % 32
      (ringShapeOk l (w.getLsbD 5) b m = true → ringInWindow fn l (w.getLsbD 5) b m t = true →
        Does (.adminRingEnable f start) s (setFf fn Reg.CMR_ADMIN_CTRL 1 1 1 (newRing fn 0 0 l (w.getLsbD 5) b m start t))) ∧
      (ringShapeOk l (w.getLsbD 5) b m = false ∨ ringInWindow fn l (w.getLsbD 5) b m t = false →
        Does (.adminRingEnable f start) s (setFf fn Reg.CMR_STATUS 1 1 1 t))) ∧
    (HostWrites fn s → Open 123 s → bit 1 (rdFn fn Reg.CMR_ADMIN_CTRL (setFf fn Reg.CMR_ADMIN_CTRL 0 0 0 s)) = true →
      Does (.adminRingDisable f) s (setFf fn Reg.CMR_ADMIN_CTRL 1 1 0 (dropRing fn 0 (setFf fn Reg.CMR_ADMIN_CTRL 0 0 0 s))))
/-! ### Admin entries on memory and queue pairs (02, 03, 04) -/

/-- R70, R71, R77, R78, R82, R104, R522: PD_ALLOC gives the lowest free domain and PD_FREE frees one that nothing names; MR_REGISTER makes
an INVALID descriptor VALID with the next generation and returns it, and MR_REVOKE makes a VALID one REVOKING and waits for the accesses in
flight; BTR_SET writes or clears a base translation register. Model's choices that it rests on: log entries 6 (DESIGN CHOICE), 38 (DEDUCED),
40 (DEDUCED), 43 (DEDUCED). -/
def Obligations.DomainsRegionsAndBtrs : Prop :=
  ∀ (f : Fn) (b16 : BitVec 128) (b32 : BitVec 256) (ref : EntryRef) (e : BitVec 512) (pd idx : Nat) (d : Desc) (s : State),
    let fn := f.toNat
    let at_ (op n : Nat) : Prop := issueOf op fn 0 s = some (ref, e) ∧ (n = 0 ∨ inWindow fn (eLaddr e) n s = true)
    let s0 := markIssued ref s
    let read (n : Nat) : State := hostRead fn (eLaddr e) n s0
    let root : BitVec 64 := b16.extractLsb' 64 64
    let dom : BitVec 16 := (eX64 e).extractLsb' 0 16
    let withXlt (g : Xlt → Xlt) (u : State) : State := { u with xlt := g u.xlt }
    (at_ 0x38 16 → bits 63 48 b16 = 0 → bits 31 0 b16 = 0 → root.toNat % 4096 = 0 → (root = 0 ∨ inWindow fn root 4096 s = true) →
      pd < 65536 → tget s.xlt.pds pd = none → (∀ k < pd, tget s.xlt.pds k ≠ none) →
      Does (.pdAlloc f b16) s (finishEntry ref 1 0 (hostWrite fn (eLaddr e + 4) (leBytes 2 pd)
        (withXlt (fun x => { x with pds := tset x.pds pd { owner := fn, root := root } }) (read 16))))) ∧
    (at_ 0x39 0 → pdJudge fn dom s = none → (∀ x ∈ s.xlt.regions, x.2.pd ≠ dom) → (∀ x ∈ s.qpc.bound, x.2.pd ≠ dom) →
      (∀ x ∈ s.xlt.btrs, x.2.pd ≠ dom) → (∀ x ∈ s.xlt.locked, x.2.leaf.dom ≠ dom) →
      Does (.pdFree f) s (finishEntry ref 1 0 (withXlt (fun x => { x with
        pds := tdel x.pds dom.toNat, xtc := x.xtc.filter (fun l => l.dom != dom), walks := x.walks.filter (fun w => w.dom != dom) })
        (stopFills (fun w => w.dom == dom) (fun l => l.dom == dom) s0)))) ∧
    (at_ 0x3A 32 → registerJudge fn b32 s = none → bits 127 104 b32 = idx → tget s.xlt.descs (descKey fn idx) = some d →
      d.state = .invalid →
      let n : Desc := { va := b32.extractLsb' 192 64, size := b32.extractLsb' 128 64, gen := d.gen + 1, pd := b32.extractLsb' 80 16,
                        btr := b32.extractLsb' 72 8, state := .valid, modeBtr := b32.getLsbD 69, rights := b32.extractLsb' 64 5 }
      let r : Region := { pd := n.pd, btr := if n.modeBtr then some n.btr else none }
      Does (.mrRegister f b32) s (finishEntry ref 1 0 (hostWrite fn (eLaddr e + 12) [d.gen + 1] (writeDesc fn idx n
        (withXlt (fun x => { x with regions := tset x.regions (descKey fn idx) r }) (read 32)))))) ∧
    (at_ 0x3B 16 → bits 95 0 b16 = 0 → keytabActive fn s = true → b16.toNat / 2 ^ 104 = idx → 0 < idx → idx < 2 ^ keytabLog2 fn s →
      tget s.xlt.descs (descKey fn idx) = some d → d.state = .valid → d.gen.toNat = b16.toNat / 2 ^ 96 % 256 → pdOwned fn d.pd s = true →
      Does (.mrRevoke f b16) s (startDrain ref (.revoke idx { d with state := .revoking }) []
        (writeDesc fn idx { d with state := .revoking } (read 16)))) ∧
    (at_ 0x3F 32 → btrOwned fn (bits 63 56 b32) s = true → btrInUse (bits 63 56 b32) s = false →
      (b32.getLsbD 48 = false →
        Does (.btrSet f b32) s (finishEntry ref 1 0 (withXlt (fun x => { x with btrs := tdel x.btrs (bits 63 56 b32) }) (read 32)))) ∧
      (b32.getLsbD 48 = true → bits 55 49 b32 = 0 → bits 31 2 b32 = 0 → pdJudge fn (b32.extractLsb' 32 16) s = none →
        bits 255 192 b32 % 4096 = 0 → bits 191 128 b32 % 4096 = 0 → bits 127 64 b32 % 4096 = 0 → bits 127 64 b32 ≠ 0 → bits 191 128 b32 + bits 127 64 b32 ≤ 2 ^ 64 →
        inWindow fn (b32.extractLsb' 128 64) (bits 127 64 b32) s = true →
        let n : Btr := { vaBase := b32.extractLsb' 192 64, busBase := b32.extractLsb' 128 64, size := b32.extractLsb' 64 64,
                         pd := b32.extractLsb' 32 16, read := b32.getLsbD 0, write := b32.getLsbD 1 }
        Does (.btrSet f b32) s (finishEntry ref 1 0 (withXlt (fun x => { x with btrs := tset x.btrs (bits 63 56 b32) n }) (read 32)))))

/-- R95 to R97: XLT_INVALIDATE of a domain empties the translation cache and the walk cache of it, tells how many locked pages it leaves,
and waits for the accesses in flight and for those suspended in a walk of the domain; XLT_LOCK begins the walk of its page; XLT_UNLOCK frees
its slot and waits for the accesses in flight. Model's choices that it rests on: log entries 6 (DESIGN CHOICE), 37 (DEDUCED), 40 (DEDUCED),
246 (DEDUCED). -/
def Obligations.TranslationsAreInvalidatedAndLocked : Prop :=
  ∀ (f : Fn) (b16 : BitVec 128) (b32 : BitVec 256) (ref : EntryRef) (e : BitVec 512) (slot : Nat) (l : Locked) (s : State),
    let fn := f.toNat
    let at_ (op n : Nat) : Prop := issueOf op fn 0 s = some (ref, e) ∧ inWindow fn (eLaddr e) n s = true
    let read (n : Nat) : State := hostRead fn (eLaddr e) n (markIssued ref s)
    let dom : BitVec 16 := b32.extractLsb' 112 16
    let pd : BitVec 16 := b16.extractLsb' 48 16
    let va := b16.toNat / 2 ^ 64
    (at_ 0x3C 32 → bits 255 96 b32 = dom.toNat * 2 ^ 16 → bits 63 0 b32 = 0b010011 → pdJudge fn dom s = none →
      let left := (s.xlt.locked.filter (fun x => x.2.leaf.dom == dom)).length
      let t := stopFills (fun w => w.dom == dom) (fun l => l.dom == dom) (read 32)
      Does (.xltInvalidate f b32) s (startDrain ref .other (caughtWalks (fun w => w.dom == dom) (read 32)) (hostWrite fn (eLaddr e + 8) (leBytes 4 left)
        { t with xlt := { t.xlt with
          xtc := t.xlt.xtc.filter (fun k => !(k.dom == dom)), walks := t.xlt.walks.filter (fun w => !(w.dom == dom)) } }))) ∧
    (at_ 0x3D 16 → bits 47 40 b16 = 0 → bits 31 0 b16 = 0 → pdJudge fn pd s = none → va < 2 ^ 48 → lockedSlot pd va s = none →
      s.xlt.locked.length < 256 →
      ∀ p, tget s.xlt.pds pd.toNat = some p → p.root ≠ 0 →
      let w := walkStart pd p.root va s
      tableOk fn w.table s = true →
      Does (.xltLock f b16) s (suspend
        { fn := fn, dom := some pd, parts := [], rights := 0, rd := false, wr := false, testsOnly := true, purpose := .lockPage ref } []
        (.walk w) (hostRead fn (w.table + BitVec.ofNat 64 (8 * (va / 2 ^ (12 + 9 * w.level) % 512))) 8 (read 16)))) ∧
    (at_ 0x3E 16 → bits 47 40 b16 = 0 → bits 31 0 b16 = 0 → pdJudge fn pd s = none → b16.toNat / 2 ^ 32 % 256 = slot →
      tget s.xlt.locked slot = some l → l.owner = fn → l.leaf.covers pd va = true →
      Does (.xltUnlock f b16) s (startDrain ref .other []
        { read 16 with xlt := { (read 16).xlt with locked := tdel (read 16).xlt.locked slot } }))

/-- R117 to R121: QP_CREATE fetches the image of its queue pair; QP_MODIFY makes the transition that it asks for, returns INCARN and writes
the image; QP_QUERY returns the image of a queue pair on chip; QP_DESTROY flushes the posted receives of one in RESET or ERROR and frees it
once its condition holds. Model's choices that it rests on: log entries 6 (DESIGN CHOICE), 63 (DEDUCED). -/
def Obligations.QueuePairsAreAdministered : Prop :=
  ∀ (f : Fn) (b16 : BitVec 128) (b32 : BitVec 256) (b256 : BitVec 2048) (ref : EntryRef) (e : BitVec 512) (q : Nat) (x : Qp) (s : State),
    let fn := f.toNat
    let at_ (op n : Nat) : Prop := issueOf op fn 0 s = some (ref, e) ∧ (n = 0 ∨ inWindow fn (eLaddr e) n s = true)
    let s0 := markIssued ref s
    let read (n : Nat) : State := hostRead fn (eLaddr e) n s0
    (at_ 0x40 16 → createJudge fn b16 s = none → b16.toNat / 2 ^ 104 = q →
      Does (.qpCreate f b16) s (startFetch q (some (.create ref b16)) (read 16))) ∧
    (at_ 0x41 32 → modifyFieldsOk b32 = true → ctxtabActive fn s = true → b32.toNat / 2 ^ 104 % 2 ^ 24 = q → inRange fn q s = true →
      getQp q s = some x → x.trans = none →
      (x.par.state = .reset → bits 103 100 b32 = 2 → modifyJudge fn b32 x .init s = none →
        Does (.qpModify f b32) s (modifyDone ref q (eLaddr e)
          (setBound q fn (modifyParam b32 x.par .init) (putQp q { x with par := modifyParam b32 x.par .init } (read 32))))) ∧
      (x.par.state = .init → bits 103 100 b32 = 3 → modifyJudge fn b32 x .active s = none →
        Does (.qpModify f b32) s (modifyDone ref q (eLaddr e)
          (processAll q (putQp q { x with par := modifyParam b32 x.par .active, msn := 0, bitmap := 0, known := 0 } (read 32))))) ∧
      (x.par.state = .active → bits 103 100 b32 = 4 → modifyJudge fn b32 x .quiesced s = none →
        Does (.qpModify f b32) s (transCheck q
          (putQp q { x with trans := some ⟨ref, .quiesce, modifyParam b32 x.par .quiesced, eLaddr e⟩ } (read 32)))) ∧
      (x.par.state = .active → bits 103 100 b32 = 5 → modifyJudge fn b32 x .error s = none →
        Does (.qpModify f b32) s (modifyDone ref q (eLaddr e) (enterError q 0x80 0 (read 32)))) ∧
      (x.par.state = .reset → bits 103 100 b32 = 3 → Does (.qpModify f b32) s (finishEntry ref 0x09 0 (read 32)))) ∧
    (at_ 0x42 256 → bits 2047 24 b256 = 0 → b256.toNat % 2 ^ 24 = q → ctxtabActive fn s = true → inRange fn q s = true → getQp q s = some x →
      Does (.qpQuery f b256) s (finishEntry ref 1 0 (hostWrite fn (eLaddr e) (imageBytes q x) (read 256)))) ∧
    (at_ 0x43 0 → (eX64 e).toNat = q → ctxtabActive fn s = true → inRange fn q s = true → getQp q s = some x → x.trans = none →
      x.hollow = false →
      (x.par.state = .reset ∨ x.par.state = .error →
        Does (.qpDestroy f) s (transCheck q
          (modQp q (fun y => { y with trans := some ⟨ref, .destroy, x.par, 0⟩ }) (flushPosted q s0)))) ∧
      (x.par.state = .active → Does (.qpDestroy f) s (finishEntry ref 0x09 0 s0)))

/-- R112: the parameters of a queue pair come back from its context image with every field as it was, for every queue pair number. -/
def Obligations.ContextImageKeepsParameters : Prop :=
  ∀ (q : Nat) (p : QpParam) (w : BitVec 256), w.toNat = paramNat q p →
    paramNat q p < 2 ^ 256 ∧ paramDecode w = some p ∧ bits 23 0 w = q % 2 ^ 24
/-- R110, R189, R74, R108: enabling a table that is not ACTIVE sets ENABLE with ACTIVE if its registers pass and with CFG_ERR if not; disabling
an ACTIVE one clears both unless it is still in use, which sets CFG_ERR; a valid range of queue pairs is written while the context table is
not ACTIVE. -/
def Sys2Proof.Claims.FunctionTablesAreEnabled : Prop :=
  ∀ (f : Fn) (m : Master) (v : BitVec 64) (s : State),
    let fn := f.toNat
    let tables : List (Instr × Nat × Bool × Nat) :=
      [(.keytabEnable f, Reg.XLT_KEYTAB_CTRL, keytabOk fn s, 125), (.ctxtabEnable f, Reg.QPC_CTXTAB_CTRL, ctxtabOk fn s, 126),
        (.uxpoolEnable f, Reg.MTE_UXCTRL, uxpoolOk fn s, 133)]
    let off (u : State) (ctrl : Nat) (held : Bool) : State :=
      if held then setFf fn ctrl 2 2 1 u else setFf fn ctrl 1 0 0 u
    (HostWrites fn s →
      (∀ t ∈ tables, Open t.2.2.2 s → bit 1 (rdFn fn t.2.1 s) = false →
        Does t.1 s (setFf fn t.2.1 (if t.2.2.1 then 1 else 2) (if t.2.2.1 then 1 else 2) 1 (setFf fn t.2.1 0 0 1 s))) ∧
      (Open 125 s → bit 1 (rdFn fn Reg.XLT_KEYTAB_CTRL s) = true →
        let u := off s Reg.XLT_KEYTAB_CTRL (s.xlt.regions.any (fun x => x.1 / 2 ^ 24 == fn))
        Does (.keytabDisable f) s (if s.xlt.regions.any (fun x => x.1 / 2 ^ 24 == fn) then u
          else { u with xlt := { u.xlt with descs := u.xlt.descs.filter (fun x => x.1 / 2 ^ 24 != fn) } })) ∧
      (Open 126 s → bit 1 (rdFn fn Reg.QPC_CTXTAB_CTRL s) = true →
        Does (.ctxtabDisable f) s (off s Reg.QPC_CTXTAB_CTRL (s.qpc.bound.any (fun x => x.2.fn == fn)))) ∧
      (Open 133 s → bit 1 (rdFn fn Reg.MTE_UXCTRL s) = true →
        Does (.uxpoolDisable f) s (off s Reg.MTE_UXCTRL (!(usedPieces fn s).isEmpty)))) ∧
    (MgtWritesOff m s → Open 126 s → bits 28 24 v ≤ 24 → bits 23 0 v % 2 ^ bits 28 24 v = 0 → (v.getLsbD 31 = true → rangeTaken fn v s = false) →
      ctxtabActive fn s = false → Does (.qpcRangeWrite m f v) s (writeReg (Reg.QPC_RANGE + 8 * fn) v s)) ∧
    (MgtWritesOff m s → Open 126 s → 24 < bits 28 24 v → Does (.qpcRangeWrite m f v) s (evcPulse 204 0 s))

/-- R72, R85 to R91, R105, R114, R124 to R127, R141: what the tables in host memory return goes on: a descriptor is cached and its waiting
accesses go on; a walk goes down a level, ends with its leaf, or fails; a notice held for a flushing read is written; a context that has come
is installed, and a failed fetch is issued once more; a context that is not in use is evicted when slots are few. -/
def Sys2Proof.Claims.TableReadsReturn : Prop :=
  ∀ (f : Fn) (idx : BitVec 24) (serial : BitVec 32) (link : BitVec 3) (q : Qpn) (bs : List Byte) (raw : BitVec 64) (w : Waiting) (k : Walk)
    (l : Leaf) (next : BitVec 64) (d : Nat) (n : Notice) (g a : Nat) (b : Budget) (c : Option BoundRecv) (release : Bool) (x : Fetch) (first : Nat) (y : Qp) (s : State),
    let fn := f.toNat
    let sr := serial.toNat
    let mine (j : Waiting) : Bool := j.serial == sr
    ((∃ j ∈ s.xlt.waiting, j.access.fn = fn ∧ j.wait = .desc idx.toNat) →
      (∀ j ∈ s.xlt.waiting, j.access.fn = fn → j.wait = .desc idx.toNat → descAdmin j = false) → bs.length = 32 →
      Does (.keytabDescriptorRead f idx (.data bs)) s (setWaits (fun j => j.access.fn == fn && j.wait == .desc idx.toNat)
        (fun j => { j with wait := .ready }) (cacheDesc fn idx.toNat (Desc.decode (ofBytes 256 bs)) s))) ∧
    (s.xlt.waiting.find? mine = some w → w.wait = .walk k → (∀ ref, w.access.purpose ≠ .lockPage ref) →
      (walkEntry k raw = .table next → tableOk w.access.fn next s = true →
        Does (.walkEntryRead serial (.data (leBytes 8 raw.toNat))) s
          (setWaits mine (fun j => { j with wait := .walk (k.down next) })
            (hostRead w.access.fn (next + BitVec.ofNat 64 (8 * tableIndex (k.level - 1) k.va.toNat)) 8 s))) ∧
      (walkEntry k raw = .leaf l →
        Does (.walkEntryRead serial (.data (leBytes 8 raw.toNat))) s
          (setWaits mine (fun j => { j with wait := .ready, leaves := l :: j.leaves }) (fillCaches k l s))) ∧
      (walkEntry k raw = .fail d →
        Does (.walkEntryRead serial (.data (leBytes 8 raw.toNat))) s (setWaits mine (fun j => { j with wait := .failed d }) s)) ∧
      Does (.walkEntryRead serial .pcieError) s (setWaits mine (fun j => { j with wait := .failed 0x10 }) s)) ∧
    (s.xlt.flushes.find? (fun j => j.1 == link.toNat) = some (link.toNat, .notice g a b n c release) → frozen g s = false →
      Does (.flushingReadComplete link (.data bs)) s (endRelease c release (writeNotice g a b n
        { s with xlt := { s.xlt with flushes := dropFirst (fun j => j.1 == link.toNat) s.xlt.flushes } }))) ∧
    (tget s.qpc.fetches q.toNat = some x → qpRange q.toNat s = some (fn, first) → x.waitSlot = false →
      (x.waitRetry = false → bs.length = 256 → imageDecode bs = .live y → tget s.qpc.bound q.toNat ≠ none →
        Does (.contextFetchComplete q (.data bs)) s
          (issueWaiting (serveFetch q.toNat (jobsGo q.toNat y.par.incarn x.jobs) (installFetched q.toNat fn y (endFetch q.toNat s))))) ∧
      (x.waitRetry = false → bs.length = 256 → imageDecode bs = .live y → tget s.qpc.bound q.toNat = none →
        Does (.contextFetchComplete q (.data bs)) s
          (issueWaiting (serveFetch q.toNat (fun s => x.jobs.foldl (fun s j => jobUnbound q.toNat y j s) s) (endFetch q.toNat s)))) ∧
      (x.waitRetry = false → x.second = false →
        Does (.contextFetchComplete q .pcieError) s (putFetch q.toNat { x with waitRetry := true } s)) ∧
      (x.waitRetry = true → readable fn (imageAddr fn q.toNat first s) 256 s = true →
        Does (.contextFetchRetry q) s (issueFetch q.toNat { x with waitRetry := false, second := true } s))) ∧
    (512 ≤ 65536 - wickUsed s → Does .contextEviction s { s with qpc := { s.qpc with evicting := false } }) ∧
    (65536 - wickUsed s < 256 → Does .contextEviction s (evictOne { s with qpc := { s.qpc with evicting := true } }))

/-- R72, R85, R105, R108, R110, R124, R189: the tables of a function are enabled and disabled, and what reads of them return goes on.
Model's choices that it rests on: log entries 6 (DESIGN CHOICE), 42 (DEDUCED). -/
def Obligations.TablesAreEnabledAndRead : Prop := FunctionTablesAreEnabled ∧ TableReadsReturn

/-- R240, R242, R266, R522: TAPER_LOAD that passes its tests reads its image, with REPLACE too; with UNLOAD the program is UNLOADING and is
gone once nothing of it runs. An image that has come and keeps R238 and R241 is installed; one that does not finishes with TAPER_FAULT. The
read of a parameter block has the effect of its entry's own command, and its error finishes the entry with LOCAL_PCIE; a descriptor that has
come starts its collective or invocation. Model's choices that it rests on: log entries 6 (DESIGN CHOICE), 106 (DEDUCED), 107 (DESIGN
CHOICE). -/
def Obligations.ProgramsAreLoaded : Prop :=
  ∀ (f : Fn) (blk : BitVec 512) (b16 : BitVec 128) (bs : List Byte) (r : BitVec 12) (ref : EntryRef) (e : BitVec 512) (l : TLoad) (n : Nat)
    (s : State),
    let fn := f.toNat
    let at_ (op : Nat) : Prop := issueOf op fn 0 s = some (ref, e)
    let t := hostRead fn (eLaddr e) 64 (markIssued ref s)
    let reads : State := hostRead fn (blk.extractLsb' 448 64) (bits 447 416 blk)
      { t with tpr := { t.tpr with loads := tset t.tpr.loads fn ⟨ref, blk⟩ } }
    (at_ 0x29 → inWindow fn (eLaddr e) 64 s = true → tget s.tpr.loads fn = none →
      (∀ st, loadJudge fn blk t = some st → blk.getLsbD 256 = false → blk.getLsbD 258 = false →
        Does (.taperLoad f blk) s (finishEntry ref st 0 t)) ∧
      (loadJudge fn blk t = none →
        (blk.getLsbD 256 = false → blk.getLsbD 258 = false → Does (.taperLoad f blk) s reads) ∧
        (blk.getLsbD 256 = true → blk.getLsbD 258 = false → Does (.taperLoadReplace f blk) s reads) ∧
        (blk.getLsbD 256 = false → blk.getLsbD 258 = true →
          Does (.taperLoadUnload f blk) s (unloadProg ref (bits 383 368 blk) t)))) ∧
    (tget s.tpr.loads fn = some l →
      let u : State := { s with tpr := { s.tpr with loads := tdel s.tpr.loads fn } }
      refLive l.ref u = true → bs.length = bits 447 416 l.blk →
      (imageShape (bits 447 416 l.blk) bs = false → Does (.taperImageReadComplete f (.data bs)) s (finishEntry l.ref 0x18 0x20 u)) ∧
      (imageShape (bits 447 416 l.blk) bs = true → imageCrcOk bs = false →
        Does (.taperImageReadComplete f (.data bs)) s (finishEntry l.ref 0x18 0x21 u)) ∧
      (imageShape (bits 447 416 l.blk) bs = true → imageCrcOk bs = true → imageVerifies (l.blk.getLsbD 259) bs = false →
        Does (.taperImageReadComplete f (.data bs)) s (finishEntry l.ref 0x18 0x22 u)) ∧
      (imageShape (bits 447 416 l.blk) bs = true → imageCrcOk bs = true → imageVerifies (l.blk.getLsbD 259) bs = true →
        loadJudge fn l.blk u = none →
        Does (.taperImageReadComplete f (.data bs)) s (installImage l.ref (refRaw l.ref u) l.blk bs u)) ∧
      Does (.taperImageReadComplete f .pcieError) s (finishEntry l.ref 0x13 0 u)) ∧
    (at_ 0x38 → exec (.paramBlockReadComplete f (.data (leBytes 16 b16.toNat))) s = exec (.pdAlloc f b16) s ∧
      (inWindow fn (eLaddr e) 16 s = true →
        Does (.paramBlockReadComplete f .pcieError) s (finishEntry ref 0x13 0 (hostRead fn (eLaddr e) 16 (markIssued ref s))))) ∧
    (readingEntry fn r.toNat s = some (ref, e, n) →
      let u := setIssuing ref false none (drained n s)
      (eOpcode e = 0x20 → bs.length = eLength e → Does (.descriptorReadComplete f r (.data bs)) s (colStartGo ref e bs u)) ∧
      (eOpcode e = 0x28 → bs.length = eLength e → Does (.descriptorReadComplete f r (.data bs)) s (invokeGo ref e bs u)) ∧
      (eOpcode e = 0x20 ∨ eOpcode e = 0x28 → Does (.descriptorReadComplete f r .pcieError) s (issueFinish ref 0x13 0 u)))
/-! ### The transport and the matching engine (05, 06) -/

/-- R116, R137, R146, R147, R154, R155, R440: a request that has come through its staging queue, for a queue pair that takes it, is noted
and counted for the next ACK and, if its header agrees, checked as the access that it asks for; an old SEND is acknowledged again and one of
a bound message is placed. A packet with a bad check code, one that no queue pair takes, one for a frozen function, and one from elsewhere
are turned away by name; one that comes while the RXE, or for a SEND the MTE, is fenced is lost (R394). Model's choices that it rests on:
log entries 6 (DESIGN CHOICE), 55 (DEDUCED), 56 (DEDUCED). -/
def Obligations.RequestsAreTakenOrRefused : Prop :=
  ∀ (p : Packet) (q f : Nat) (x : Qp) (b : BoundRecv) (s : State), p.cls.toNat ≤ 1 →
    let s0 := rxTake p s
    let noted := noteSource p s0
    let x' : Qp :=
      { x with used := true, changed := true, counted := x.counted + 1, marked := x.marked + (if p.ce then 1 else 0) }
    let t := markCount q p (touched q x noted)
    let rows : List (Instr × BitVec 8) := [(.sendPacket p, 0x01), (.writePacket p, 0x02), (.readReq p, 0x03), (.atomicReq p, 0x05),
      (.counterAddPacket p, 0x07)]
    let nak (code : Nat) (u : State) : State := sendNak p code 0 u
    (rxeDown s0 = false → Arrives p q f x noted → InReach x p → headerAgrees x' p = true →
      (∀ i ∈ rows, p.op = i.2 → p.op ≠ 0x01 → Does i.1 s (xltStart (keyedAccess q x' p noted.now t) t)) ∧
      (p.op = 0x01 → psnReceived x p.psn = true → Does (.sendPacket p) s (sendAck q (heard p noted.now) t)) ∧
      (p.op = 0x01 → psnReceived x p.psn = false → unitFenced 133 t = true → Does (.sendPacket p) s t) ∧
      (p.op = 0x01 → psnReceived x p.psn = false → unitFenced 133 t = false →
        t.mte.bound.find? (fun b => b.qpn == q && b.psn0 == p.psn - BitVec.ofNat 32 (p.addr.toNat % 2 ^ 32 / 4096)) = some b →
        Does (.sendPacket p) s (placeSend q p noted.now b t))) ∧
    (rxeDown s0 = false → Arrives p q f x noted → InReach x p → headerAgrees x' p = false →
      ∀ i ∈ rows, p.op = i.2 → Does i.1 s (enterError q 0x0E 0 (nak 0x0E t))) ∧
    (rxeDown s0 = true → ∀ i ∈ rows, p.op = i.2 → Does i.1 s s0) ∧
    (rxeDown s0 = false → ∀ i ∈ rows, p.op = i.2 →
      (e2eCrc p ≠ p.crc → Does i.1 s (evcPulse 208 (p.dstEp.toNat % 4) s0)) ∧
      (e2eCrc p = p.crc → qpRange p.dstQpn.toNat noted = none → Does i.1 s (nak 0x0F noted)) ∧
      (e2eCrc p = p.crc → ∀ first, qpRange p.dstQpn.toNat noted = some (f, first) →
        (frozen f noted = true → Does i.1 s (nak 0x81 noted)) ∧
        (frozen f noted = false → getQp p.dstQpn.toNat noted = some x →
          (x.par.state = .error → Does i.1 s (nak 0x0F noted)) ∧
          (x.par.state = .reset → p.dstIncarn = x.par.incarn → Does i.1 s (nak 0x81 noted)) ∧
          (accepting x = true → fromPeer x p = false → Does i.1 s (evcPulse 203 0 noted)))))

/-- R140, R147, R148, R151, R154, R377: an ACK that covers outstanding PSNs acknowledges them and gives the destination its sample and
grant; a NAK fails its message with the status of its code; a READ_RESP is checked and placed; an ATOMIC_RESP acknowledges its PSN and
finishes its ATOMIC. An OP that is undefined is discarded and counted. Model's choices that it rests on: log entries 6 (DESIGN CHOICE), 52
(DEDUCED), 77 (DEDUCED). -/
def Obligations.ResponsesAreTaken : Prop :=
  ∀ (p : Packet) (q f : Nat) (x : Qp) (m : TxMsg) (s : State),
    let s0 := rxTake p s
    let x' : Qp := { x with used := true, changed := true }
    let t := touched q x s0
    let code := p.opx.toNat / 2 ^ 56
    let placing : Access :=
      { fn := f, dom := some x.par.pd, parts := respParts m p, rights := 0b00010, rd := false, wr := true, testsOnly := false,
        purpose := .rxKeyed p (respMark q x' p t).now }
    (rxeDown s0 = false → Arrives p q f x s0 → ¬p.cls.toNat ≤ 1 →
      (p.op = 0x10 → (∃ m ∈ x.msgs, ∃ k ∈ m.pkts, ∃ n ∈ k.left, ackCovers p n = true) →
        Does (.ack p) s (ackWhere q ackable (ackCovers p) (destAck q p true t))) ∧
      (p.op = 0x10 → (∀ m ∈ x.msgs, (∀ k ∈ m.pkts, ∀ n ∈ k.left, ackCovers p n = false) ∧ waitsRelease m = false) →
        Does (.ack p) s (ignored 130 t)) ∧
      (p.op = 0x11 → nakOwner x' p.psn = some m →
        (code = 0x0D → Does (.nak p) s (failMsg q m 0x0D (p.opx.extractLsb' 48 8) (destAck q p false t))) ∧
        (code = 0x0E → Does (.nak p) s (failMsg q m 0x0E 0 (destAck q p false t))) ∧
        (code = 0x0F → Does (.nak p) s (failMsg q m 0x0F 0 (destAck q p false t))) ∧
        (code = 0x80 ∨ code = 0x81 → Does (.nak p) s (busyNak q x' m p.psn (destAck q p false t)))) ∧
      (p.op = 0x04 → ownerOf x' p.psn = some m → m.kind = .read → respAgrees m p = true →
        Does (.readResp p) s (xltStart placing (respMark q x' p t))) ∧
      (p.op = 0x06 → ownerOf x' p.psn = some m → m.kind = .atomic → p.addr = 0 →
        let pk := respPkts p.psn 0 m.pkts
        let m' : TxMsg := { m with pkts := pk.1 }
        let ms := x.msgs.map (fun k => if k.psn0 == m.psn0 && k.kind == .atomic then m' else k)
        Does (.atomicResp p) s (atomicDone q m' (afterAck q pk.2 none (putQp q { x' with msgs := ms } t))))) ∧
    (opKnown p.op.toNat = false →
      (0x26 ≤ p.op.toNat → p.op.toNat ≤ 0x2F → DoesOnly (.packetUndefinedOp p) s (evcPulse 193 117 s0)) ∧
      (0x32 ≤ p.op.toNat → p.op.toNat ≤ 0x37 → DoesOnly (.packetUndefinedOp p) s (evcPulse 193 48 s0)) ∧
      (0x42 ≤ p.op.toNat → p.op.toNat ≤ 0x4F → DoesOnly (.packetUndefinedOp p) s (xbrDrop s0)) ∧
      (0x50 ≤ p.op.toNat → e2eCrc p = p.crc → DoesOnly (.packetUndefinedOp p) s (evcPulse 193 130 s0)))
/-- R149, R151, R152, R153, R156, R157, R163, R166, R184: an ACK_DELAY that has passed sends the ACK owed; RTO resends what is older, or
fails the oldest message past RETRY_LIMIT; a busy back-off ends with the refused packet sent again; the next packet that needs no data is
sent, one that needs data asks for it if its staging queue has room; rate, round trips and the minima of base_rtt are updated, each at its
interval, as R156's procedures say; a waiting rendezvous SEND is announced again. While the unit is fenced, or the chip ID is not set, its
timers wait (R394, R490). Model's choices that it rests on: log entries 6 (DESIGN CHOICE), 48 (DEDUCED), 70 (DEDUCED), 261 (DEDUCED). -/
def Obligations.TransmissionAndItsTimers : Prop :=
  ∀ (q : Qpn) (hp : BitVec 2) (ep : Ep) (psn : BitVec 32) (x : Qp) (m : TxMsg) (d : Dest) (h : Heard) (t : Nat) (i : Nat)
    (rest : List (BitVec 32 × Nat)) (s : State),
    let n := q.toNat
    let regTimer := (rdReg Reg.RXE_ACK s).toNat / 2 ^ 16 % 2 ^ 16
    let port := qpFn n s / 256
    (rxeDown s = false → getQp n s = some x → x.ackFirst = some h →
      Does (.ackDelayExpiry q) s (sendAck n h (advanceTo (h.since + 16 * max 1 regTimer) s))) ∧
    (txeDown s = false → getQp n s = some x → oldestSent x s = some t → oldestMsg x s = some m →
      let rto := nsPoint (rtoOf (getDest port x.par.peerEp s) x.retries s)
      let u := advanceTo (max t s.xbr.since + rto) s
      frozen (qpFn n u) u = false →
      (x.par.retryLimit.toNat < x.retries + 1 → Does (.retransmitTimeout q) s (failMsg n m 0x11 0 u)) ∧
      (x.retries + 1 ≤ x.par.retryLimit.toNat → Does (.retransmitTimeout q) s
        (resendWhere n (fun k => k.sentAt + rto ≤ u.now) (putQp n { x with retries := x.retries + 1 } u)))) ∧
    (txeDown s = false → getQp n s = some x → x.backoff = (psn, t) :: rest →
      let u := advanceTo t (putQp n { x with backoff := rest } s)
      frozen (qpFn n u) u = false → (∀ m ∈ x.msgs, waitsRelease m = false) →
      Does (.busyBackoffExpiry q) s (resendWhere n (fun k => k.left.contains psn) u)) ∧
    (txeDown s = false → getQp n s = some x → txOpen x s = true → frozen (qpFn n s) s = false →
      nextMsg s x.msgs 0 = some (i, m) → mayStart x i m = true →
      (needsData m = false → Does (.packetTransmit q) s (txSend n x i m (plainPayload m) s)) ∧
      (needsData m = true → x.built = none → x.building = none →
        let next := m.psn0 + BitVec.ofNat 32 m.sentPsns
        let a : Access := { fn := qpFn n s, dom := some x.par.pd, parts := sliceParts m.parts (nextOff m) (pieceLen m), rights := 1,
                            rd := true, wr := false, testsOnly := false, purpose := .txData n next }
        (htxRoom n next m s = true → Does (.packetTransmit q) s (xltStart a (putQp n { x with building := some (next, 0) } s))) ∧
        (htxRoom n next m s = false → Does (.packetTransmit q) s s))) ∧
    (getDest hp.toNat ep s = some d →
      let rate := advanceTo (d.updAt + updateTime s) s
      let trip := advanceTo (d.tripAt + tripTime d s) s
      let base := advanceTo (d.minAt + us 5000) s
      DoesOnly (.rateUpdate hp ep) s (tidyDest hp.toNat ep (putDest hp.toNat ep
        { d.everyUpdate (haiRate s) (aiRate s) (rateMin s) (dTarget s) with updAt := rate.now } rate)) ∧
      DoesOnly (.roundTripUpdate hp ep) s (putDest hp.toNat ep { d.everyTrip with tripAt := trip.now } trip) ∧
      DoesOnly (.baseRttWindowRestart hp ep) s (putDest hp.toNat ep
        { d with base1 := if d.baseTurn then d.base1 else bigRtt, base2 := if d.baseTurn then bigRtt else d.base2,
                 baseTurn := !d.baseTurn, minAt := base.now } base)) ∧
    (txeDown s = true → ∀ i ∈ [Instr.retransmitTimeout q, .busyBackoffExpiry q, .packetTransmit q, .rndvProbeExpiry q psn], Does i s s) ∧
    (rxeDown s = true → Does (.ackDelayExpiry q) s s) ∧
    (txeDown s = false → getQp n s = some x → frozen (qpFn n s) s = false →
      (liveMsgs x s).find? (fun m => waitsRelease m && m.psn0 == psn) = some m →
      Does (.rndvProbeExpiry q psn) s (probeAgain n x m (advanceTo (m.lastAt + us (nz (rf Reg.MTE_CFG 63 48 s))) s)))

/-- R136, R140, R141, R166, R167, R179, R378, R380, R381: a placement whose writes have been sent is counted; data that has come is sent, or
its error fails the message; a staging queue is emptied; a copy of an unexpected message is checked; an atomic update reads its word, writes
the new value and goes on, and its result expires. Model's choices that it rests on: log entries 6 (DESIGN CHOICE), 60 (DEDUCED), 61
(DEDUCED), 75 (DEDUCED). -/
def Obligations.DataAndAtomicsComplete : Prop :=
  ∀ (q : Qpn) (psn psn0 : BitVec 32) (k : BitVec 7) (f : Fn) (addr : BitVec 64) (bs : List Byte) (p : Placing) (x : Qp) (m : TxMsg) (n : Nat)
    (r : RespJob) (u : Unexp) (v : Recv) (j : AtomJob) (s : State),
    let qn := q.toNat
    let fn := f.toNat
    let own (a : Placing) : Bool := a.qpn == qn && a.pkt.psn == psn && (a.kind == .readResp) == false
    (s.rxe.placing.find? own = some p →
      let t := drained p.serial (withRxe (fun e => { e with placing := dropFirst own e.placing })
        (leaveHost .rxp (qpFn qn s / 256) (fun e => e.id == p.ser) s))
      Does (.placementComplete q psn false) s (countPacket qn p.pkt p.since p.half1 t).1) ∧
    (getQp qn s = some x → buildingMsg x psn s = some m → x.building = some (psn, n) → 0 < n →
      let t := drained n (putQp qn { x with building := none } s)
      (bs.length = pieceLen m → Does (.hostDataReadComplete q psn false (.data bs)) s
        (modQp qn (fun y => { y with built := some (psn, bs) }) t)) ∧
      Does (.hostDataReadComplete q psn false .pcieError) s (failMsg qn m 0x13 0 t)) ∧
    (s.rxe.resps.find? (fun a => a.qpn == qn && a.resp.psn == psn) = some r → r.req.psn = psn → reqLen r.req = bs.length → bs.length ≤ 4096 →
      let t := withRxe (fun e => { e with resps := dropFirst (fun a => a.qpn == qn && a.resp.psn == psn) e.resps }) s
      Does (.hostDataReadComplete q psn true (.data bs)) s (respEnd r.serial (sendResp (bits 31 0 r.resp.opx) r.req 0 bs t))) ∧
    (Does (.stagingFlush .lrx k) s (flushInput .lrx k.toNat s) ∧ Does (.stagingFlush .txi k) s (flushInput .txi k.toNat s) ∧
      Does (.stagingFlush .rxp k) s (flushRxp k.toNat s) ∧ Does (.stagingFlush .rxd k) s (flushRxd k.toNat s) ∧
      Does (.stagingFlush .htx k) s (flushHtx k.toNat s) ∧ Does (.stagingFlush .ltx k) s (flushLtx k.toNat s)) ∧
    (copying qn psn0 s = some (u, v) → bs.length = min u.msgLen v.len →
      (∀ w ∈ s.xlt.waiting, ∀ c, w.access.purpose ≠ .uxCopy qn psn0 c) →
      let a : Access := { fn := v.fn, dom := some v.pd, parts := sliceParts v.parts 0 bs.length, rights := 2, rd := false, wr := true,
                          testsOnly := false, purpose := .uxCopy qn psn0 bs }
      Does (.unexpectedCopyComplete q psn0 (.data bs)) s (xltStart a s) ∧
      Does (.unexpectedCopyComplete q psn0 .pcieError) s (copyFailed u v 0x13 0 s)) ∧
    (let mine (a : AtomJob) : Bool := a.reading && a.fn == fn && wordOf a.bus == wordOf addr
     let t := withRxe (fun e => { e with atoms := dropFirst mine e.atoms }) s
     s.rxe.atoms.find? mine = some j →
      Does (.atomicUpdateReadComplete f addr .pcieError) s (startAtoms (atomFailed j (drained j.serial t))) ∧
      (j.barred = true → Does (.atomicUpdateReadComplete f addr (.data bs)) s (startAtoms (atomFailed j (drained j.serial t)))) ∧
      (j.barred = false → bs.length = 8 →
        let c := j.compute (leNat bs)
        let w := if j.writes c.2.1 && !j.pcie then hostWrite fn j.bus (leBytes c.1 c.2.2) t else t
        (frozen fn t = true → j.pcie = false →
          Does (.atomicUpdateReadComplete f addr (.data bs)) s (startAtoms (atomFrozen j c.2.1 (drained j.serial t)))) ∧
        (frozen fn t = false ∨ j.pcie = true →
          Does (.atomicUpdateReadComplete f addr (.data bs)) s (startAtoms (atomDone j c.2.1 (drained j.serial w)))))) ∧
    (∀ e, s.rxe.results.find? (fun e => e.qpn == qn && e.psn == psn) = some e →
      DoesOnly (.atomicResultExpiry q psn) s (withRxe (fun r => { r with
        results := r.results.filter (fun e => !(e.qpn == qn && e.psn == psn)) }) (advanceTo (e.since + holdTime s) s)))

/-- R375: an atomic of 4 or 8 bytes computes fetch-and-add, swap, compare-and-swap, the logical operations, signed and unsigned minimum and
maximum, and FETCH, on its old value and operands. -/
def Obligations.AtomicOperations : Prop :=
  ∀ (n : Nat) (old op cmp : BitVec n), n = 32 ∨ n = 64 →
    let r (aop : Nat) : Nat := atomicOp aop (n / 8) old.toNat op.toNat cmp.toNat
    r 0x00 = (old + op).toNat ∧ r 0x01 = op.toNat ∧ r 0x02 = (if old = cmp then op else old).toNat ∧
    r 0x03 = (old &&& op).toNat ∧ r 0x04 = (old ||| op).toNat ∧ r 0x05 = (old ^^^ op).toNat ∧
    r 0x06 = (if op.toInt < old.toInt then op else old).toNat ∧ r 0x07 = (if old.toInt < op.toInt then op else old).toNat ∧
    r 0x08 = min old.toNat op.toNat ∧ r 0x09 = max old.toNat op.toNat ∧ r 0x0A = old.toNat
/-! ### The collective engine (07) -/

/-- Instance `i` is active and its oldest operation of code `cop` that has not been taken up is `o` (R198); the COL is not fenced. -/
abbrev Sys2Proof.Claims.TakesUp (i cop : Nat) (x : ColInst) (o : ColOp) (s : State) : Prop :=
  unitFenced 117 s = false ∧ getInst i s = some x ∧ x.active = true ∧
  opNext cop x s = some o

/-- R195 to R199, R217, R220: what the operations without data do: CREDIT reserves a chunk buffer and tells the peer, or waits for one; CADD
joins the combining of its egress; RESULT waits for placement writes and checks the place of the result record or fills the mailbox; FREE
frees the buffers, which a running REDUCE keeps for itself; ABORT finishes and aborts the instance; END concludes the invocation once it is
the only operation left. An operation that breaks R197 or R198 fails with BAD_OPERATION (0x0B), whatever its code. Model's choices that it
rests on: log entries 6 (DESIGN CHOICE), 78 (DEDUCED), 79 (DEDUCED), 247 (DEDUCED), 249 (DEDUCED). -/
def Obligations.CollectiveControlOperations : Prop :=
  ∀ (i : InstId) (x : ColInst) (o : ColOp) (d : ReadResult) (e : Nat) (s u : State),
    let n := i.toNat
    let put (y : ColInst) (s : State) : State := putInst n y s
    let takes (cop : Nat) : Prop := TakesUp n cop x o s ∧ opOk x o.desc s = true
    (∀ r ∈ [(1, Instr.copCredit i), (2, .copSend i d), (3, .copMcast i d), (4, .copReduce i), (5, .copPlace i d), (6, .copCadd i),
        (7, .copResult i), (8, .copFree i), (9, .copAbort i), (15, .copEnd i)],
      TakesUp n r.1 x o s → opOk x o.desc s = false → Does r.2 s (opFail n o.id St.collError Cd.badOperation s)) ∧
    (takes 1 → tget x.bufs (oOut o.desc) = none → buffersHeld s < cbMax s →
      Does (.copCredit i) s
        (colSend n (some o.id) x.hp
          { colPkt x 0x21 (oSched o.desc) (oPeer o.desc) (oPsn o.desc) s with addr := BitVec.ofNat 64 (oOut o.desc) }
          (setPhase n o.id (.waiting 1)
            (put { x with bufs := tset x.bufs (oOut o.desc) (CBuf.held (oPeer o.desc) (oPsn o.desc)) } s)))) ∧
    (takes 1 → (tget x.bufs (oOut o.desc)).isSome = true ∨ cbMax s ≤ buffersHeld s → Does (.copCredit i) s s) ∧
    (takes 6 → chipValid s = false → Does (.copCadd i) s s) ∧
    (takes 6 → chipValid s = true →
      let p := { colPkt x 0x24 (oSched o.desc) (oPeer o.desc) 0 s with
        addr := oHoff o.desc, opx := oValue o.desc, key := oKey o.desc, imm := x.comm, msn := x.seq, msgLen := 1 }
      caddEgress 184 p s = some e → combJoin e 2 p (.op n o.id) s = some u →
        Does (.copCadd i) s (setPhase n o.id (.waiting 1) (meet n (oPeer o.desc) u))) ∧
    (takes 7 → x.resultDone = false → hResKind x.head ≠ 0 → placesFirst n x o s = true → Does (.copResult i) s s) ∧
    (takes 7 → x.resultDone = false → hResKind x.head = 1 → placesFirst n x o s = false →
      Does (.copResult i) s (xltStart (recordAccess n x (some o.id) St.success 0 (oValue o.desc)) (setPhase n o.id .checking s))) ∧
    (takes 7 → x.resultDone = false → hResKind x.head = 2 → placesFirst n x o s = false →
      Does (.copResult i) s (opFinish n o.id St.success 0
        (put { x with resultDone := true } (mbxFill (bits 11 0 (hRes x.head)) St.success 0 (oValue o.desc) s)))) ∧
    (takes 7 → x.resultDone = true ∨ hResKind x.head = 0 → Does (.copResult i) s (opFail n o.id St.collError Cd.badOperation s)) ∧
    (takes 8 →
      let ids := (List.range (oCnt o.desc)).map (oIn o.desc)
      ((∀ b ∈ ids, (tget x.bufs b).isSome = true) →
        Does (.copFree i) s (opFinish n o.id St.success 0 (put (freeBufs x ids) s))) ∧
      ((∃ b ∈ ids, tget x.bufs b = none) → Does (.copFree i) s (opFail n o.id St.collError Cd.badOperation s))) ∧
    (takes 9 → Does (.copAbort i) s (instAbortOn (oSched o.desc) n Cd.aborted (instEvent x (colDone o.desc St.success 0)
      (meet n (oPeer o.desc) (modInst n (fun y => { y with ops := y.ops.filter (fun e => e.id != o.id) }) s))))) ∧
    (takes 15 → (x.ops = [o] → Does (.copEnd i) s (conclude x.inv (put { x with ops := [] } s))) ∧
      (1 < x.ops.length → Does (.copEnd i) s s))

/-- R197, R198, R202 to R204, R211: what the operations with data do: the data of a SEND, an MCAST or a PLACE comes from a complete chunk
buffer or, after a check with local read, from SRC or DST, once a SEND into a chunk buffer has its credit; of the operations of a kind the
oldest that can go on is taken up, and nothing happens where none can; a REDUCE starts on the lowest free RDU once its input chunks are
there, and when that RDU is done its result goes to its output. An identifier that names no buffer of the instance is BAD_OPERATION; with
the CND fenced an MCAST, with no RDU left a REDUCE, fails with UNIT_FENCED; an MCAST waits while 64 are in flight. Model's choices that it
rests on: log entries 6 (DESIGN CHOICE), 78 (DEDUCED), 83 (DEDUCED), 247 (DEDUCED), 248 (DEDUCED). -/
def Obligations.CollectiveDataOperations : Prop :=
  ∀ (i : InstId) (x : ColInst) (o : ColOp) (d : ReadResult) (b : CBuf) (s : State),
    let n := i.toNat
    let src := oIn o.desc 0
    (∀ r ∈ [(2, Instr.copSend i d), (3, .copMcast i d), (5, .copPlace i d)],
      TakesUp n r.1 x o s → opOk x o.desc s = true → (r.1 = 3 → unitFenced 116 s = false ∧ mcastsInFlight s < 64) →
      (lacksCredit x o = false → hostBuf src = true → oLen o.desc ≠ 0 →
        Does r.2 s (xltStart (hostAccess x src (oLen o.desc) (oHoff o.desc) false (.colRead n o.id d)) (setPhase n o.id .checking s))) ∧
      (lacksCredit x o = false → hostBuf src = false → tget x.bufs src = some b → b.full = true → b.ownPartial = true → r.1 = 2 →
        Does r.2 s (dataGo n o.id b.data s)) ∧
      (lacksCredit x o = false → hostBuf src = false → tget x.bufs src = some b → b.full = true → b.ownPartial = false ∨ r.1 ≠ 2 →
        oLen o.desc ≤ b.data.length → Does r.2 s (dataGo n o.id (b.data.take (oLen o.desc)) s)) ∧
      (hostBuf src = false → tget x.bufs src = none → Does r.2 s (opFail n o.id St.collError Cd.badOperation s))) ∧
    (∀ r ∈ [(2, Instr.copSend i d), (3, .copMcast i d), (4, .copReduce i), (5, .copPlace i d)],
      getInst n s = some x → opNext r.1 x s = none → Does r.2 s s) ∧
    (TakesUp n 3 x o s → opOk x o.desc s = true →
      (unitFenced 116 s = true → Does (.copMcast i d) s (opFail n o.id St.collError Cd.unitFenced s)) ∧
      (unitFenced 116 s = false → 64 ≤ mcastsInFlight s → Does (.copMcast i d) s s)) ∧
    (TakesUp n 4 x o s → opOk x o.desc s = true →
      let ins := (reduceInputs o.desc).filter (fun n => !hostBuf n)
      ((∃ k ∈ ins, tget x.bufs k = none) → Does (.copReduce i) s (opFail n o.id St.collError Cd.badOperation s)) ∧
      ((∀ k ∈ ins, (tget x.bufs k).isSome = true) →
        (anyRdu s = false → Does (.copReduce i) s (opFail n o.id St.collError Cd.unitFenced s)) ∧
        (∀ r, anyRdu s = true → freeRdu s = some r → (∀ k ∈ ins, ∃ c, tget x.bufs k = some c ∧ chunkWhole x c = true) →
          (reduceHost x o.desc = [] → Does (.copReduce i) s (setPhase n o.id (.reducing r none) s)) ∧
          (reduceHost x o.desc ≠ [] →
            Does (.copReduce i) s (xltStart (reduceAccess n x o) (setPhase n o.id (.reducing r none) s)))))) ∧
    (∀ (op : BitVec 32) (r : Nat) (host : List Byte), getInst n s = some x → x.ops.find? (fun o => o.id == op.toNat) = some o →
      o.phase = .reducing r none → reduceHost x o.desc = [] → bit 8 (rdReg (Reg.SNF_MAP_RDU + 8 * r) s) = false →
      let (ins, t) := gatherInputs (withKept x o) o.desc (reduceInputs o.desc) host s
      (hOp x.head = 6 ∨ hOp x.head = 7 →
        Does (.reduceComplete i op (.data host)) s
          (outGo n x o (reduceExact (hOp x.head == 7) (oRound o.desc) (oLen o.desc) ins) (some (!oRound o.desc))
            (keepLacs r (exactLacs (hOp x.head == 7) (oLen o.desc) ins) t))) ∧
      (hOp x.head < 6 →
        Does (.reduceComplete i op (.data host)) s
          (outGo n x o (reduceRounded (hOp x.head) (hType x.head) (oLen o.desc) (ins.map (·.2))) (some false) t)))

/-- R199, R201, R204, R217, R218, R274, R276: what an arriving collective packet does while the COL is not fenced: COL_DATA and COL_CREDIT
are acknowledged, data for a reserved buffer fills it and COL_CHUNK is sent to the program, a credit is given to its instance or held in the
early table, COL_ACK ends the resending of its packet and finishes an operation all of whose parts are acknowledged, COL_ABORT aborts the
instance with PEER_ABORTED or leaves a tombstone, once; a CADD joins the combining of its egress once or waits for a slot, or is not taken
from a port that may not carry it, and CADD_ACK acknowledges its constituents. A packet with a bad check code is discarded and counted.
Model's choices that it rests on: log entries 6 (DESIGN CHOICE), 80 (DEDUCED), 93 (DEDUCED). -/
def Obligations.CollectivePacketsAreTaken : Prop :=
  ∀ (p : Packet) (k i e : Nat) (inp : Input) (x : ColInst) (b : CBuf) (s t u : State), unitFenced 117 s = false →
    let good := e2eCrc p = p.crc
    let answered := colAnswer p s
    let credit : ColCredit := { peer := p.srcEp, psn := p.psn, buf := bits 13 0 p.addr, used := false }
    let part (q : Packet) : Nat := if q.op == 0x20 then q.imm.toNat / 65536 else 0
    let closed := inp.toNat < 128 ∧ (portRole inp.toNat s = 0 ∨ portRole inp.toNat s = 4)
    let come := chipValid s = true ∧ ¬closed
    let waits := joinInput (newIn inp.toNat (if inp.toNat < 128 then hopIndex false p else injectIndex p) 0 p s) s
    let acks (w : ColTx) : Bool := w.pkt.dstEp == p.srcEp && w.hp == epPort p.dstEp && pktComm w.pkt == pktComm p &&
      pktSeq w.pkt == pktSeq p && w.pkt.psn == p.psn && part w.pkt == p.imm.toNat
    let tomb := (getEarly (epPort p.dstEp) (pktComm p) (pktSeq p) s).bind (·.tomb)
    let nowhere := pktInst p s = none ∧
      ∀ y ∈ s.col.insts, ¬(y.2.hp = epPort p.dstEp ∧ y.2.comm = pktComm p ∧ y.2.seq = pktSeq p)
    (∀ r ∈ [(Instr.colData p, (0x20 : BitVec 8)), (.colCredit p, 0x21), (.colAck p, 0x22), (.colAbort p, 0x23),
        (.caddAck inp p, 0x25)], p.op = r.2 → ¬good → Does r.1 s (evcPulse 193 117 s)) ∧
    (p.op = 0x24 → come → ¬good → Does (.cadd inp p) s (evcPulse 193 117 s)) ∧
    (p.op = 0x24 → closed ∨ (chipValid s = false ∧ inp.toNat < 128) → Does (.cadd inp p) s (evcPulse 193 0 s)) ∧
    (p.op = 0x24 → chipValid s = false → 128 ≤ inp.toNat → Does (.cadd inp p) s waits) ∧
    (good →
      (p.op = 0x20 → bit 63 p.addr = false → pktInst p answered = some (i, x) → tget x.bufs (bits 13 0 p.addr) = some b →
        b.full = false → b.peer = p.srcEp → b.psn = p.psn →
        let part := p.imm.toNat / 65536
        let c := { b with full := true, data := p.payload, part := part, parts := p.imm.toNat % 65536 }
        let y := { x with
          bufs := tset x.bufs (bits 13 0 p.addr) c
          met := if x.met.contains p.srcEp then x.met else x.met ++ [p.srcEp] }
        Does (.colData p) s (instEvent x
          (eventWord 2 St.success 0 (p.imm.toNat % 65536) (p.psn.toNat / 65536) (if part = 0 then p.psn.toNat % 65536 else part))
          (putInst i y answered))) ∧
      (p.op = 0x20 → bit 63 p.addr = false → pktInst p answered = none → Does (.colData p) s answered) ∧
      (p.op = 0x21 → pktInst p s = some (i, x) → (∀ c ∈ x.credits, ¬(c.peer = p.srcEp ∧ c.psn = p.psn ∧ c.buf = bits 13 0 p.addr)) →
        Does (.colCredit p) s (sendsGoOn i (colAnswer p (meet i p.srcEp (putInst i { x with credits := x.credits ++ [credit] } s))))) ∧
      (p.op = 0x21 → nowhere → getEarly (epPort p.dstEp) (pktComm p) (pktSeq p) s = none → s.col.early.length < 4096 →
        let early : Early :=
          { hp := epPort p.dstEp, comm := pktComm p, seq := pktSeq p, credits := [credit], combs := [], tomb := none }
        Does (.colCredit p) s (colAnswer p (withCol (fun c => { c with early := c.early ++ [early] }) s))) ∧
      (p.op = 0x22 → (∀ w ∈ s.col.tx, acks w = false) → Does (.colAck p) s s) ∧
      (p.op = 0x22 → ∀ w, s.col.tx.find? acks = some w →
        let v := withCol (fun c => { c with tx := c.tx.filter (fun y => y.id != w.id) }) s
        (w.op = none → Does (.colAck p) s v) ∧
        (getInst w.inst v = none → Does (.colAck p) s v) ∧
        (∀ n o, w.op = some n → getInst w.inst v = some x → x.ops.find? (fun o => o.id == n) = some o →
          (opAcked w.inst o v = true → Does (.colAck p) s (opFinish w.inst n St.success 0 v)) ∧
          (opAcked w.inst o v = false → Does (.colAck p) s v))) ∧
      (p.op = 0x23 → pktInst p s = some (i, x) → Does (.colAbort p) s (instAbort i Cd.peerAborted answered)) ∧
      (p.op = 0x23 → pktInst p s = none → tomb.isSome = true → Does (.colAbort p) s answered) ∧
      (p.op = 0x23 → pktInst p s = none → tomb = none → leaveTomb (epPort p.dstEp) (pktComm p) (pktSeq p) s = some t →
        Does (.colAbort p) s (colAnswer p t)) ∧
      (p.op = 0x24 → come → (inp.toNat, p.psn) ∉ s.col.done → (∀ c ∈ s.col.combs, ∀ w ∈ c.2.custody, isHop inp.toNat p.psn w = false) →
        caddEgress inp.toNat p s = some e →
        (combJoin e (intraBudget inp.toNat p s) p (.hop inp.toNat p.psn p.srcEp) s = some u → Does (.cadd inp p) s u) ∧
        (combJoin e (intraBudget inp.toNat p s) p (.hop inp.toNat p.psn p.srcEp) s = none →
          Does (.cadd inp p) s waits)) ∧
      (p.op = 0x24 → come → (inp.toNat, p.psn) ∈ s.col.done → Does (.cadd inp p) s (ackCustody (.hop inp.toNat p.psn p.srcEp) s)) ∧
      (p.op = 0x25 → ∀ c, s.col.combs.find? (fun (_, y) => y.phase == .sent && y.egress == inp.toNat && y.pkt.psn == p.psn) = some (k, c) →
        Does (.caddAck inp p) s
          (c.custody.foldl (fun s w => ackCustody w s) (withCol (fun q => { q with combs := tdel q.combs k }) s))))

/-- R201, R217, R218, R196, R223 to R226: an unacknowledged packet is sent again after COL_RTO, by unicast, until its attempts are used up,
when its instance fails with PEER_LOST; the combining of a CADD ends after its interval (each wait at the value that its timer had when it
began); a hop that is not acknowledged is tried again; a tombstone ends. A FULL mailbox is released by a write of its generation by its
owner, which is held while the MBX is fenced, and MBX_ALLOC changes only while the mailbox is EMPTY; both advance the generation. Model's
choices that it rests on: log entries 6 (DESIGN CHOICE), 89 (DEDUCED), 94 (DEDUCED), 95 (DEDUCED). -/
def Obligations.CollectiveTimersAndMailboxes : Prop :=
  ∀ (id : BitVec 32) (c : BitVec 11) (w : ColTx) (y : Comb) (hp : BitVec 2) (comm : BitVec 32) (seq : BitVec 16) (e : Early) (time : Nat)
    (m : Master) (f : Fn) (n : BitVec 12) (v : BitVec 64) (off : BitVec 4) (bytes : BitVec 5) (s : State),
    let drop (s : State) : State := withCol (fun c => { c with tx := c.tx.filter (fun u => u.id != id.toNat) }) s
    let box := getMbx n.toNat s
    (unitFenced 117 s = false → s.col.tx.find? (fun t => t.id == id.toNat) = some w →
      let t := advanceTo (w.sentAt + w.rto) s
      (nz (rf Reg.COL_CFG 23 16 t) ≤ w.tries → Does (.colRtoExpiry id) s (instAbort w.inst Cd.peerLost (drop t))) ∧
      (w.tries < nz (rf Reg.COL_CFG 23 16 t) → w.pkt.op = 0x20 →
        Does (.colRtoExpiry id) s
          (transmit w.hp { w.pkt with msn := 0 } (evcPulse 213 0 (withCol (fun c =>
            { c with tx := c.tx.map (fun u =>
                if u.id == id.toNat then { u with tries := u.tries + 1, sentAt := t.now, rto := colRto t } else u) }) t))))) ∧
    (unitFenced 117 s = false → getComb c.toNat s = some y → y.phase = .sent → y.egress ≠ 184 →
      let t := evcPulse 213 0 (advanceTo (y.since + y.wait) s)
      Does (.caddHopTimeout c) s (combEmit y (putComb c.toNat { y with since := t.now, wait := colRto t } t))) ∧
    (unitFenced 117 s = false → getComb c.toNat s = some y → y.phase = .open_ →
      let t := advanceTo (y.since + y.wait) s
      (y.egress = 184 → Does (.combIntExpiry c) s (combApply c.toNat t)) ∧
      (y.egress ≠ 184 →
        let z := { y with phase := .sent, since := t.now, wait := colRto t, pkt := { y.pkt with psn := t.col.hopSeq + 1 } }
        Does (.combIntExpiry c) s
          (combEmit z (putComb c.toNat z (withCol (fun k => { k with hopSeq := t.col.hopSeq + 1 }) t))))) ∧
    (getEarly hp.toNat comm seq s = some e → e.tomb = some time →
      DoesOnly (.tombTimeExpiry hp comm seq) s
        (tidyEarly ((modEarly hp.toNat comm seq (fun e => { e with tomb := none }) (advanceTo time s)).getD s))) ∧
    (HostWrites f.toNat s ∨ (HostReaches f.toNat s ∧ powerState s = 2 ∧ frozen f.toNat s = false) →
      (unitFenced 137 s = true → Does (.mbxRelease f n off bytes v) s (holdReq (.mbxRel f.toNat n.toNat off.toNat bytes.toNat v) s)) ∧
      (unitFenced 137 s = false → mbxOwned n.toNat f.toNat s = false → Does (.mbxRelease f n off bytes v) s (violation 162 f.toNat 3 s)) ∧
      (unitFenced 137 s = false → mbxOwned n.toNat f.toNat s = true → off = 0 → bytes = 8 → box.state = .full → box.gen = v.extractLsb' 0 16 →
        Does (.mbxRelease f n off bytes v) s (putMbx n.toNat { box with state := .empty, gen := box.gen + 1 } s)) ∧
      (unitFenced 137 s = false → mbxOwned n.toNat f.toNat s = true → off ≠ 0 ∨ bytes ≠ 8 ∨ box.state ≠ .full ∨ box.gen ≠ v.extractLsb' 0 16 →
        Does (.mbxRelease f n off bytes v) s (evcPulse 193 137 s))) ∧
    (MgtWrites m s → Open 137 s →
      (box.state = .empty → bits 12 0 v ≠ rf (Reg.MBX_ALLOC + 8 * n.toNat) 12 0 s →
        Does (.mbxAllocWrite m n v) s (putMbx n.toNat { box with gen := box.gen + 1 } (writeReg (Reg.MBX_ALLOC + 8 * n.toNat) v s))) ∧
      (box.state ≠ .empty ∨ bits 12 0 v = rf (Reg.MBX_ALLOC + 8 * n.toNat) 12 0 s → Does (.mbxAllocWrite m n v) s s))

/-! ### The switch core (09) -/

/-- R281 to R283, R285, R286: an output is chosen among the usable ports that lead to the target at the least cost, and of these one with
the least load, unless the packet takes the fixed route. The header counts the hop, and counts a global hop in PHASE; no packet leaves with
HOPS above 8. Model's choices that it rests on: log entry 113 (DEDUCED). -/
def Obligations.RoutesTakeTheLeastCost : Prop :=
  ∀ (i : InPkt) (p q : Packet) (out : Nat) (s t : State), routeOnce i p s = (.port out q, t) →
    let target := if p.nonmin = true ∧ p.phase = 0 then p.viaGroup.toNat else epGroup p.dstEp
    let costs := routeCosts target p.dstEp i.budget s
    portUsable out s = true ∧
    (∃ m, (out, m) ∈ costs ∧ (∀ c ∈ costs, m ≤ c.2) ∧
      (fixedRoute p = false → ∀ c ∈ costs, c.2 = m → portLoad out s ≤ portLoad c.1 s)) ∧
    q.hops.toNat = p.hops.toNat + 1 ∧ q.hops.toNat ≤ 8 ∧
    (portRole out s = 3 → q.phase.toNat = p.phase.toNat + 1 ∧ q.sublevel = false) ∧
    (portRole out s ≠ 3 → q.phase = p.phase ∧ 1 ≤ i.budget)

/-- R15, R276, R282, R286, R287, R294, R295, R299: the decision for the packet at the head of an input VC, where one in the acknowledgement
lane comes first: at its chip it is delivered, elsewhere it is queued at the port chosen, and one that finds no candidate is discarded and
counted; a scheduled packet follows its table entry or is demoted. A CADD joins the combining of its egress or waits, and a packet of an
attachment waits while the chip ID is not set or no cell is free for it. What the device's own units have given a port leaves by it, or is
decided again if the port is not usable. Model's choices that it rests on: log entries 6 (DESIGN CHOICE), 118 (DEDUCED), 120 (DESIGN
CHOICE). -/
def Obligations.RouteDecisionsQueueOrDeliver : Prop :=
  ∀ (inp : Input) (idx : BitVec 5) (h : InPkt) (out : Nat) (q : Packet) (s u : State), nextIn inp.toNat idx.toNat s = some h →
    let i := (begun h s).1
    let v := advanceTo i.since (begun h s).2
    let t := withXbr (fun x => { x with inq := x.inq.erase h }) v
    let n := t.xbr.egq.length
    let row := Instr.routeDecision inp idx
    let here := i.pkt.dstEp.toNat / 4 = chipId t
    (18 ≤ idx.toNat → idx.toNat < 24 → ∀ j, inputHead inp.toNat (idx.toNat + 8) s = some j → h = j) ∧
    (128 ≤ h.inp → chipValid s = false → h.pkt.op ≠ 0x40 → Does row s s) ∧
    (cellsFree h s = false → Does row s s) ∧
    (h.inp < 128 ∨ chipValid s = true ∨ h.pkt.op = 0x40 → cellsFree h s = true →
      (i.out = some out →
        (i.pkt.op = 0x40 → portUp out t = true → Does row s (enqueue i i.pkt out true t)) ∧
        (i.pkt.op ≠ 0x40 → portUsable out t = false → Does row s (decideAgain false i t)) ∧
        (i.pkt.op ≠ 0x40 → portUsable out t = true → i.pkt.cls ≠ 4 → hopHeader i i.pkt out t = some q →
          Does row s (enqueue i q out true t))) ∧
      (i.out = none →
        (i.pkt.op = 0x24 → caddCome inp.toNat i.pkt t = (true, u) → Does row s (creditBack i u)) ∧
        (i.pkt.op = 0x24 → caddCome inp.toNat i.pkt t = (false, u) → Does row s v) ∧
        (i.pkt.op = 0x25 → Does row s (deliver i t)) ∧
        (i.pkt.op ≠ 0x24 → i.pkt.op ≠ 0x25 →
          (here → Does row s (noteRate n i (deliver i t))) ∧
          (i.pkt.cls ≠ 4 → routePlain i t = (.port out q, u) → Does row s (noteRate n i (enqueue i q out false u))) ∧
          (i.pkt.cls ≠ 4 → routePlain i t = (.unroutable, u) →
            Does row s (noteRate n i (creditBack i (evcPulse 218 (inputTile i.inp) u)))) ∧
          (i.pkt.cls = 4 → ¬here → schRoute i t = some (out, q) → schTurnedAway out t = false →
            Does row s (noteRate n i (enqueue i q out false t))) ∧
          (i.pkt.cls = 4 → ¬here → schRoute i t = none →
            Does row s (noteRate n i (routeOut i.demote (evcPulse 223 (bits 6 0 (schEntry i.pkt t)) t)))))))

/-- R276, R288, R296, R302: XBR_CHIP is written while VALID is 0, and clearing VALID discards what is queued; a write of a routing register
is taken or, where R302 says so, rejected and shown in XBR_STATUS. A management packet is handed to the MGT if its check code is good, one
for another chip goes on by the fixed route; while the chip ID is not set, one that a port brings is discarded and one from an attachment
waits, as it does for a cell; a routed one is not taken from a SERVICE or UNUSED port (R274); the device's own MGT sends MGT_LOCAL by one
hop on a port that is up; and one that has waited too long for credit is discarded and counted. Model's choices that it rests on: log
entries 6 (DESIGN CHOICE), 119 (DEDUCED), 121 (DEDUCED). -/
def Obligations.RoutingIsConfiguredAndManaged : Prop :=
  ∀ (m : Master) (w : BitVec 32) (off : BitVec 28) (v : BitVec 64) (d : RegDef) (p : Port) (inp : Input) (k : Packet) (e : EgPkt) (s : State),
    let n := d.index off.toNat
    let closed : Prop := inp.toNat < 128 ∧ (portRole inp.toNat s = 0 ∨ portRole inp.toNat s = 4)
    let own := k.viaGroup.toNat
    let sent := sealCrc { k with viaGroup := 0, nonmin := false, hops := 1, cls := 5 }
    let i := newIn inp.toNat 25 0 k s
    let o : InPkt := { newIn 184 25 0 sent s with budget := 2, decided := true, out := some own }
    let take (x : Nat) : State := if e2eCrc k = k.crc then emit (.mgtPacket x k) s else evcPulse 193 141 s
    (MgtWritesOff m s → Open 0 s →
      (chipValid s = false →
        Does (.xbrChipWrite m w) s (writeReg Reg.XBR_CHIP (w.setWidth 64)
          (if bit 31 w then { s with xbr := { s.xbr with since := s.now } } else s))) ∧
      (chipValid s = true → bit 31 w = true → Does (.xbrChipWrite m w) s s) ∧
      (chipValid s = true → bit 31 w = false → Does (.xbrChipWrite m w) s (discardQueued (setRf Reg.XBR_CHIP 31 31 0 s))) ∧
      (regFind false off.toNat = some d →
        (d.base = Reg.XBR_PORT → portRejected n v s = true → Does (.xbrConfigWrite m off v) s (xbrReject off.toNat s)) ∧
        (d.base = Reg.XBR_PORT → portRejected n v s = false → Does (.xbrConfigWrite m off v) s (writePort n v s)) ∧
        (d.base = Reg.XBR_SCH → bit 7 v = true → portRole (bits 6 0 v) s = 0 ∨ portRole (bits 6 0 v) s = 4 →
          Does (.xbrConfigWrite m off v) s (xbrReject off.toNat s)) ∧
        (d.base = Reg.XBR_SCH → bit 7 v = false → Does (.xbrConfigWrite m off v) s (writeReg off.toNat v s)) ∧
        (d.base = Reg.XBR_GW → n / 4 = chipGroup s → v ≠ 0 → Does (.xbrConfigWrite m off v) s (xbrReject off.toNat s)) ∧
        (d.base = Reg.XBR_GW → n / 4 ≠ chipGroup s → Does (.xbrConfigWrite m off v) s (writeReg off.toNat v s)) ∧
        (d.base = Reg.XBR_VCMIN → chipValid s = true → Does (.xbrConfigWrite m off v) s s) ∧
        (d.base = Reg.XBR_GRPVALID ∨ d.base = Reg.XBR_ROUTE → Does (.xbrConfigWrite m off v) s (writeReg off.toNat v s)))) ∧
    (k.op = 0x40 → portUp p.toNat s = true → Does (.mgtLocal p k) s (take p.toNat)) ∧
    (k.op = 0x41 → closed → Does (.mgtRouted inp k) s (evcPulse 193 0 s)) ∧
    (k.op = 0x41 → chipValid s = false → inp.toNat < 128 → Does (.mgtRouted inp k) s (evcPulse 193 0 s)) ∧
    (k.op = 0x41 → ¬closed → inp.toNat < 128 ∨ 128 ≤ inp.toNat ∧ cellsFree i s = true →
      (∀ j ∈ s.xbr.inq, ¬(j.inp = inp.toNat ∧ j.idx = 25)) → chipValid s = true →
      (k.dstEp.toNat / 4 = chipId s → Does (.mgtRouted inp k) s (take inp.toNat)) ∧
      (k.dstEp.toNat / 4 ≠ chipId s → Does (.mgtRouted inp k) s (routePacket i s))) ∧
    (k.op = 0x41 → 128 ≤ inp.toNat → chipValid s = false ∨ cellsFree i s = false → Does (.mgtRouted inp k) s (joinInput i s)) ∧
    (k.op = 0x40 → inp = 184 → portUp own s = true →
      (cellsFree o s = true → (∀ j ∈ s.xbr.inq, ¬(j.inp = 184 ∧ j.idx = 25)) → Does (.mgtRouted inp k) s (enqueue o sent own true s)) ∧
      (cellsFree o s = false → Does (.mgtRouted inp k) s (joinInput o s))) ∧
    (s.xbr.egq.find? (fun e => e.port == p.toNat && e.pkt.cls == 5) = some e →
      let t := advanceTo (e.since + us (nz (rf Reg.XBR_ROUTE 63 48 s))) s
      Does (.mgtWaitExpiry p) s
        (creditBack e.src (evcPulse 193 0 (withXbr (fun x => { x with egq := x.egq.erase e }) t))))

/-! ### Itzor Link (10) -/

/-- A control frame of type `ct` (R310) comes to port `p`, whose link carries frames: it is well formed, and its LCRC is good. -/
abbrev Sys2Proof.Claims.GoodControl (p : Port) (ct : Nat) (raw : BitVec 256) (s : State) : Prop :=
  linkLive p.toNat s = true ∧ bits 255 252 raw = 0xA ∧ bits 251 248 raw = ct ∧
  bits 31 0 raw = (crc32c ((leBytes 32 (bits 255 32 raw * 2 ^ 32)).drop 4)).toNat

/-- The State in which that frame has been heard: its LACK frees the frames that it covers (R314). -/
def Sys2Proof.Claims.heard (p : Port) (raw : BitVec 256) (s : State) : State :=
  lackCovers p.toNat (bits 247 236 raw % seqMod p.toNat s) (modLink p.toNat (fun l => { l with lastCtl := s.now }) s)

/-- R305 to R308, R315: bring-up step by step: a signal starts it, pages go out on every allowed lane, a valid page is counted on its lane
and resolves the port once every lane that both sides allow is connected, training that has fitted every lane in use goes on to alignment
and alignment to the link's start; a step that takes too long, and a lane in use that has not trained, fail the attempt; after HOLD and
DOWN_HOLD it starts again. Model's choices that it rests on: log entries 6 (DESIGN CHOICE), 123 (DEDUCED), 124 (DEDUCED). -/
def Obligations.LinkBringUp : Prop :=
  ∀ (p : Port) (lane : BitVec 2) (raw : BitVec 64) (lanes : BitVec 4) (low : Bool) (s : State),
    let n := p.toNat
    let l := getLink n s
    let used := lstat n 39 36 s
    let late : State := match l.stepDue with
      | some d => advanceTo d s
      | none => s
    Does (.signalDetect p lane) s (tryStart n (putLink n { l with signal := true } s)) ∧
    (lstate n s = 1 → pageValid raw = false → Does (.capabilityPage p lane raw) s s) ∧
    (lstate n s = 1 → pageValid raw = true →
      let k := match tget l.pages lane.toNat with
        | some (old, n) => if old = raw then n + 1 else 1
        | none => 1
      let l' := { l with
        pages := tset l.pages lane.toNat (raw, k)
        three := if 3 ≤ k then setBits lane.toNat lane.toNat 1 l.three else l.three
        stepDue := some (l.stepDue.getD (s.now + us 10000)) }
      let t := setLstat n 31 31 (b2n (connected l').2) (setLstat n 35 32 (laneMask (connected l').1) (putLink n l' s))
      (peerPage l' = none → Does (.capabilityPage p lane raw) s t) ∧
      (∀ page u, peerPage l' = some page → usableLanes n t = (u, 0) → Does (.capabilityPage p lane raw) s (resolvePort n u page t))) ∧
    (lstate n s = 1 → Does (.pageSendTimer p) s
      ((lanesOf (adv n 3 0 s)).foldl (fun s i => emit (.page n i (ownPage n i s)) s) s)) ∧
    (lstate n s = 2 →
      (Nat.land used lanes.toNat = used →
        Does (.trainingComplete p lanes low) s (stepLimit n 1000 (setLstate n 3 (putLink n { l with llOk := low } s)))) ∧
      (used - Nat.land used lanes.toNat ≠ 0 →
        Does (.trainingComplete p lanes low) s (attemptFails n 5 (used - Nat.land used lanes.toNat) s)) ∧
      Does (.bringupTimeout p lanes) s (attemptFails n 5 lanes.toNat late)) ∧
    (lstate n s = 1 → l.pages ≠ [] →
      Does (.bringupTimeout p lanes) s (attemptFails n 4 (Nat.land (adv n 3 0 s) (15 - connectedMask l)) late)) ∧
    (lstate n s = 3 → Does (.alignmentComplete p) s (linkInit n s) ∧ Does (.bringupTimeout p lanes) s (attemptFails n 6 lanes.toNat late)) ∧
    (lstate n s = 4 → Does (.bringupTimeout p lanes) s (attemptFails n 7 0 late)) ∧
    (lstate n s = 7 →
      let t := tryStart n (setLstate n 0 (putLink n { l with downHold := false } (advanceTo l.holdDue s)))
      (l.downHold = false → Does (.holdExpiry p) s t ∧ Does (.downHoldExpiry p) s s) ∧
      (l.downHold = true → Does (.downHoldExpiry p) s t ∧ Does (.holdExpiry p) s s))

/-- R310 to R315, R319 to R321: a good data frame in sequence is accepted and counted; one out of sequence, one with a bad LCRC asks for a
replay once. After a framing error every data frame is damaged, until the frame comes that a RETRY_REQ has asked for. A good control frame
is heard, and then does what its type says; a bad one does nothing. Model's choices that it rests on: log entries 6 (DESIGN CHOICE), 125
(DEDUCED), 127 (DESIGN CHOICE), 257 (DEDUCED). -/
def Obligations.LinkFramesAreTaken : Prop :=
  ∀ (p : Port) (fr : DataFrame) (raw : BitVec 256) (bad : Bool) (s : State),
    let n := p.toNat
    let l := getLink n s
    let len := bits 42 30 fr.lhdr
    let body := bits 223 32 raw
    let broken := putLink n { l with resync := true, ts := l.ts.map (fun t => { t with spoilt := true }) } s
    let rows : List (Instr × Nat × (State → State)) :=
      [(.idle p raw false, 0, fun s => s), (.credit p raw false, 1, creditCome n body),
        (.retryReq p raw false, 2, fun s => replayFrom n (bits 247 236 raw % seqMod n s) s), (.tsReq p raw false, 3, tsAnswer n body),
        (.tsResp p raw false, 4, tsCome n body), (.reconfig p raw false, 5, answerReconf n body),
        (.reconfigAck p raw false, 6, reconfAcked n body)]
    (∀ r ∈ rows, GoodControl p r.2.1 raw s → Does r.1 s (r.2.2 (heard p raw s))) ∧
    (linkLive n s = true → bits 255 252 raw ≠ 0xA → bits 255 252 raw ≠ 5 →
      ∀ i ∈ [Instr.idle p raw bad, .credit p raw bad, .retryReq p raw bad, .tsReq p raw bad, .tsResp p raw bad, .reconfig p raw bad,
        .reconfigAck p raw bad], Does i s broken) ∧
    (∀ i ∈ [Instr.idle p raw bad, .credit p raw bad, .retryReq p raw bad, .tsReq p raw bad, .tsResp p raw bad, .reconfig p raw bad,
        .reconfigAck p raw bad], (bad = true ∧ bits 255 252 raw = 0xA) ∨ linkLive n s = false → Does i s s) ∧
    (linkLive n s = true → bits 63 60 fr.lhdr = 5 → len = 64 + fr.pkt.payload.length → len ≤ 4160 → fr.fecBad = false →
      (fr.lcrc = frameCrc fr.lhdr fr.pkt → bits 59 48 fr.lhdr = l.rxSeq → l.resync = false ∨ l.rxWait = true →
        Does (.dataFrame p fr) s (acceptPacket n (bits 47 43 fr.lhdr) fr.pkt
          (putLink n { l with rxSeq := (l.rxSeq + 1) % seqMod n s, resync := false, rxWait := false } s))) ∧
      (fr.lcrc = frameCrc fr.lhdr fr.pkt → bits 59 48 fr.lhdr ≠ l.rxSeq → l.resync = false →
        (l.rxWait = false → Does (.dataFrame p fr) s (askReplay n s)) ∧ (l.rxWait = true → Does (.dataFrame p fr) s s)) ∧
      (fr.lcrc ≠ frameCrc fr.lhdr fr.pkt ∨ (l.resync = true ∧ (l.rxWait = false ∨ bits 59 48 fr.lhdr ≠ l.rxSeq)) →
        (l.rxWait = false → Does (.dataFrame p fr) s (askReplay n (evcPulse 226 n s))) ∧
        (l.rxWait = true → Does (.dataFrame p fr) s (evcPulse 226 n s)))) ∧
    (linkLive n s = true → bits 63 60 fr.lhdr ≠ 5 ∨ len < 64 ∨ 4160 < len → Does (.dataFrame p fr) s broken) ∧
    (linkLive n s = true →
      Does (.controlFrameTimer p) s (sendControl n 0 0 s) ∧
      Does (.linkToExpiry p) s (linkDown n (advanceTo (l.lastCtl + us (nz (rf Reg.LNK_CFG 39 32 s))) s)) ∧
      (l.rxWait = true → Does (.retryToExpiry p) s (askReplay n (advanceTo l.retryDue s))) ∧
      (l.rxWait = false → Does (.retryToExpiry p) s s) ∧
      (let all := usedIdx n s
       let r := l.rot % max 1 all.length
       Does (.creditRefresh p) s (sendCredit n ((all.drop r ++ all.take r).take 6) (putLink n { l with rot := r + 6 } s)))) ∧
    (linkLive n s = true → lstat n 21 20 s ≠ 0 → Does (.tsIntervalExpiry p) s (startTs n (advanceTo l.tsDue s))) ∧
    Does (.egressSelect p) s (egressSelect n s)

/-- R316 to R318, R323, R325: a lane in use that loses lock or exceeds LANE_ERR_MAX leaves HEALTHY, and the widest set of the lanes that are
left is proposed; the port leaves LL when more than LL_UNCORR_MAX codewords cannot be corrected; lanes out of service are retrained under
IZL-3, and one that is fit again is counted in, and proposed if a wider set results. LNK_CTRL starts a port, takes it down, negotiates
afresh or restores it. Model's choices that it rests on: log entry 6 (DESIGN CHOICE). -/
def Obligations.LinkLanesAndCommands : Prop :=
  ∀ (m : Master) (p : Port) (lane : BitVec 2) (count : BitVec 32) (r : Reconf) (s : State),
    let n := p.toNat
    let l := getLink n s
    let ctrl := Reg.LNK_CTRL + 8 * n
    let used := lstat n 39 36 s
    let most := nz (rf Reg.LNK_CFG2 31 16 s)
    (∀ i ∈ [Instr.laneLockLoss p lane, .laneErrorThreshold p ⟨lane, count⟩], most < count.toNat →
      (linkLive n s = true → used / 2 ^ lane.toNat % 2 = 1 →
        let t := putLink n { l with healthy := setBits lane.toNat lane.toNat 0 l.healthy, usable := setBits lane.toNat lane.toNat 0 l.usable } s
        Does i s (startReconf n (lstat n 23 23 s == 1) t)) ∧
      (used / 2 ^ lane.toNat % 2 = 0 → Does i s s)) ∧
    (count.toNat ≤ most → Does (.laneErrorThreshold p ⟨lane, count⟩) s s) ∧
    (lstat n 23 23 s = 1 → nz (rf Reg.LNK_CFG2 15 8 s) < count.toNat → Does (.llUncorrThreshold ⟨p, count⟩) s (startReconf n false s)) ∧
    (lstat n 23 23 s = 0 ∨ count.toNat ≤ nz (rf Reg.LNK_CFG2 15 8 s) → Does (.llUncorrThreshold ⟨p, count⟩) s s) ∧
    (l.rc = some r →
      (let v := advanceTo (r.sentAt + 1600) s
       Does (.reconfigResend p) s (sendControl n 5 (r.lanes.toNat * 2 ^ 188 + b2n r.ll * 2 ^ 187 + r.seq.toNat * 2 ^ 160)
         (putLink n { l with rc := some { r with sentAt := v.now } } v))) ∧
      Does (.reconfigTimeout p) s (linkDown n (advanceTo (r.since + us 50) s))) ∧
    (linkLive n s = true → izl3 n s = true → spareLanes n s ≠ 0 →
      Does (.laneRetrain p) s (putLink n { l with retrain := BitVec.ofNat 4 (spareLanes n s) } (setRf ctrl 2 2 0 s))) ∧
    (10 * count.toNat < most → bit lane.toNat l.retrain = true →
      let l' := { l with
        healthy := setBits lane.toNat lane.toNat 1 l.healthy, usable := setBits lane.toNat lane.toNat 1 l.usable
        retrain := setBits lane.toNat lane.toNat 0 l.retrain }
      let t := putLink n l' s
      let v := if l'.retrain = 0 then setRf ctrl 2 2 0 t else t
      (widestLanes n l'.usable.toNat v = lstat n 39 36 v → Does (.laneRestoreQualified p ⟨lane, count⟩) s v) ∧
      (widestLanes n l'.usable.toNat v ≠ lstat n 39 36 v →
        Does (.laneRestoreQualified p ⟨lane, count⟩) s (startReconf n (lstat n 23 23 v == 1) v))) ∧
    (most ≤ 10 * count.toNat ∨ bit lane.toNat l.retrain = false → Does (.laneRestoreQualified p ⟨lane, count⟩) s s) ∧
    (MgtWritesOff m s →
      Does (.adminUpSet m p) s (tryStart n (setRf ctrl 0 0 1 s)) ∧
      Does (.adminUpClear m p) s (adminDown n s) ∧
      (lstate n s ≠ 0 → lstate n s ≠ 7 → Does (.linkReneg m p) s (linkDown n (setRf ctrl 1 1 1 s))) ∧
      (lstate n s = 0 ∨ lstate n s = 7 → Does (.linkReneg m p) s (setRf ctrl 1 1 1 s)) ∧
      (linkLive n s = true → izl3 n s = true → spareLanes n s ≠ 0 →
        Does (.linkRestore m p) s (startRetrain n (setRf ctrl 2 2 1 s))) ∧
      (linkLive n s = false ∨ izl3 n s = false ∨ spareLanes n s = 0 → Does (.linkRestore m p) s s))

/-- R166, R312, R314, R341, R342: a port sends at most one frame at a time, when its link can start one: enough of the packet is there, its
credit index has credit for all its cells, the frames held stay within TXRETRY, its queue's gate admits it, and no queue of Q0 to Q3 that
comes before its own could have sent. What is sent is held. -/
def Obligations.EgressSendsWithinCredit : Prop :=
  ∀ (p : Nat) (s : State),
    let t := egressSelect p s
    let v := advanceTo (egressTime p s) s
    let l := getLink p s
    (lstate p s ≠ 5 → lstate p s ≠ 6 → t = s) ∧
    ((t.xbr = s.xbr ∧ t.links = s.links ∧ t.out = s.out) ∨
     ∃ e ∈ s.xbr.egq, e.port = p ∧ e.ready ≤ v.now ∧ gateAdmits p e.q v = true ∧ frameFits p e v = true ∧
      (∀ q < 4, q < e.q → queueHead p q v = none) ∧
      t.xbr.egq = s.xbr.egq.erase e ∧
      (getLink p t).held = l.held ++ [⟨l.txSeq, e.idx, markCe p e v, e.src⟩] ∧
      (getLink p t).txSeq = (l.txSeq + 1) % seqMod p s ∧
      (∀ k, k ≠ p → tget t.links k = tget s.links k))

/-! ### The time unit and the Lamplighter (11) -/

/-- R331 to R334, R337, R354, R360, R361: the servo runs on the sample of its mode, or with none; a load is refused once STATE has left FREE
or above 2^62, waits for the edge of a reference that is present, and else sets GTIME; one that waits takes effect at the edge, corrected by
PPS_DELAY, or is then refused on the same grounds; MODE 0 and MODE 2 set STATE at once; an active edge of the reference is captured; its
loss after 1.5 s and the end of HOLD_MAX are noticed; a read of TMU_GTIME_LO, of 32 or of 64 bits, latches the high half for its function.
(That the value at the edge is tested again, and that a LOAD still waiting then is refused, is the model's choice: the log entry on LOAD.)
Model's choices that it rests on: log entries 130 (DEDUCED), 131 (DEDUCED). -/
def Obligations.TimeUnitCommands : Prop :=
  ∀ (m : Master) (mode : BitVec 2) (f : Fn) (fall locked : Bool) (e : Int) (ports time : Nat) (c : BitVec 64) (s : State),
    let v := rdReg Reg.TMU_SET s
    let ref := rdReg Reg.TMU_REF s
    (tmuMode s = 1 →
      let fresh (n : Nat) : State := setRf Reg.TMU_STAT 23 16 n (withTmu (fun t => { t with kept := [] }) s)
      (followSample s = none → DoesOnly .servoRun s (noSample (fresh 0))) ∧
      (followSample s = some (e, ports) → DoesOnly .servoRun s (servoRunWith e (fresh ports)))) ∧
    (tmuMode s = 3 → s.tmu.pps = some c →
      DoesOnly .servoRun s (servoRunWith (refOffset c s) (withTmu (fun t => { t with pps := none }) s))) ∧
    (tmuMode s = 0 ∨ tmuMode s = 2 → DoesOnly .servoRun s s) ∧
    (MgtWrites m s →
      (tmuState s ≠ 0 ∨ 2 ^ 62 ≤ v.toNat → DoesOnly (.gtimeLoad m) s (evcPulse 193 135 s)) ∧
      (tmuState s = 0 → v.toNat < 2 ^ 62 → s.tmu.loadWaits = true → DoesOnly (.gtimeLoad m) s s) ∧
      (tmuState s = 0 → v.toNat < 2 ^ 62 → s.tmu.loadWaits = false →
        (rf Reg.TMU_REF 0 0 s = 1 → rf Reg.TMU_STAT 6 6 s = 1 →
          DoesOnly (.gtimeLoad m) s (setRf Reg.TMU_CTRL 2 2 1 (withTmu (fun t => { t with loadWaits := true }) s))) ∧
        (rf Reg.TMU_REF 0 0 s = 0 ∨ rf Reg.TMU_STAT 6 6 s = 0 → DoesOnly (.gtimeLoad m) s (clearExpired { s with gtime := v })))) ∧
    (MgtWrites m s →
      let still (t : State) : State := withTmu (fun t => { t with slewLeft := 0, pps := none }) t
      let seen := if rf Reg.TMU_STAT 6 6 s = 1 then s.tmu.lastEdge else none
      let s' : State := withTmu (fun t => { t with lastEdge := if mode = 3 then some (seen.getD s.now) else seen }) s
      let t := setRf Reg.TMU_CTRL 1 0 mode.toNat s'
      (mode = 0 → DoesOnly (.tmuModeWrite m mode) s (setTmuState 0 (setRf Reg.TMU_STAT 7 7 0 (still t)))) ∧
      (mode = 2 → DoesOnly (.tmuModeWrite m mode) s (setTmuState 2 (setRf Reg.TMU_STAT 7 7 1 (still t)))) ∧
      (mode = 1 → DoesOnly (.tmuModeWrite m mode) s t) ∧
      (mode = 3 → tmuMode s ≠ 3 → DoesOnly (.tmuModeWrite m mode) s t) ∧
      (mode = 3 → tmuMode s = 3 → DoesOnly (.tmuModeWrite m mode) s (setRf Reg.TMU_CTRL 1 0 3 s))) ∧
    (HostReaches f.toNat s →
      let latched := setFf f.toNat Reg.TMU_GTIME_HI 31 0 (bits 63 32 s.gtime) s
      DoesOnly (.gtimeLoRead ⟨f, false⟩) s (emit (.bar0Read f.toNat Reg.TMU_GTIME_LO (BitVec.ofNat 64 (bits 31 0 s.gtime))) latched) ∧
      DoesOnly (.gtimeLoRead ⟨f, true⟩) s (emit (.bar0Read f.toNat Reg.TMU_GTIME_LO s.gtime) latched)) ∧
    (bit 0 ref = true → bit 3 ref = fall → s.tmu.loadWaits = false → tmuMode s ≠ 3 →
      DoesOnly (.ppsEdge fall) s (setRf Reg.TMU_STAT 6 6 1 (withTmu (fun t => { t with lastEdge := some s.now, pps := none }) s))) ∧
    (bit 0 ref = true → bit 3 ref = fall → s.tmu.loadWaits = false → tmuMode s = 3 → everLocked s = true →
      8000000 < (refOffset s.gtime s).natAbs → DoesOnly (.ppsEdge fall) s (evcPulse 193 135 s)) ∧
    (bit 0 ref = true → bit 3 ref = fall → s.tmu.loadWaits = true → tmuMode s ≠ 3 →
      let x : Int := v.toNat + ppsDelay s
      let t := setRf Reg.TMU_CTRL 2 2 0 (withTmu (fun t => { t with loadWaits := false }) s)
      let seen (u : State) : State := setRf Reg.TMU_STAT 6 6 1 (withTmu (fun t => { t with lastEdge := some s.now, pps := none }) u)
      let taken : Prop := tmuState s = 0 ∧ v.toNat < 2 ^ 62 ∧ 0 ≤ x ∧ x < 2 ^ 62
      (taken → DoesOnly (.ppsEdge fall) s (seen (clearExpired { t with gtime := BitVec.ofInt 64 x }))) ∧
      (¬taken → DoesOnly (.ppsEdge fall) s (seen (evcPulse 193 135 t)))) ∧
    (bit 0 ref = false ∨ bit 3 ref ≠ fall → DoesOnly (.ppsEdge fall) s s) ∧
    (s.tmu.lastEdge = some time →
      let t := setRf Reg.TMU_STAT 6 6 0 (advanceTo (time + us 1500000) s)
      let from_ (x : Option Nat) : State := withTmu (fun u => { u with lastEdge := x }) t
      (tmuMode t = 3 → DoesOnly .ppsLoss s (noSample (from_ (some t.now)))) ∧ (tmuMode t ≠ 3 → DoesOnly .ppsLoss s (from_ none))) ∧
    (tmuState s = 3 → s.tmu.holdSince = some time →
      DoesOnly .holdMaxExpiry s (demoteUnscheduled (advanceTo (time + 1000 * us (nz (rf Reg.TMU_CFG 15 8 s)) + 1) s))) ∧
    DoesOnly (.refLockChange locked) s (setRf Reg.TMU_STAT 5 5 (if locked = true ∧ rf Reg.TMU_REF 1 1 s = 1 then 1 else 0) s)

/-- R331, R336: once STATE has been LOCKED the servo steps GTIME no more: a run leaves GTIME as it is and corrects it over the next run by
at most 200 ppm; a run that leaves GTIME as it is never corrects by more. Model's choices that it rests on: log entry 14 (DESIGN CHOICE). -/
def Obligations.ServoSlewsOnceLocked : Prop :=
  ∀ s t : State, exec .servoRun s = .next t →
    (everLocked s = true → t.gtime = s.gtime) ∧
    (t.gtime = s.gtime → t.tmu.slew = s.tmu.slew ∨
      ∃ T : Nat, T = servoT s ∧ -(200 * T * 16 / 1000000 : Int) ≤ t.tmu.slew ∧ t.tmu.slew ≤ 200 * T * 16 / 1000000)

/-- R345: from BASE on, the schedule epoch is the number of periods since BASE modulo 2^16, and the offset within the period, in ns, is the
rest; before BASE there is no epoch, and every gate list entry is pending. -/
def Obligations.ScheduleEpochs : Prop :=
  ∀ (t : Nat) (s : State),
    let base := schedBase s
    let period := schedPeriod s
    (base ≤ t → ∃ E o, epochAt t s = some (E, o) ∧ E = (t - base) / (16 * period) % 2 ^ 16 ∧ o / 16 = (t - base) / 16 % period) ∧
    (t < base → epochAt t s = none ∧ ∀ w0 : BitVec 64, gclCond w0 ((epochAt t s).map (·.1)) = .pending)

/-- R350: word 1 of a valid entry is not written, and word 0 with VALID set is not written when OPEN is not below CLOSE, CLOSE lies beyond
PERIOD, COUNT is above 32,767 or GATES names Q0, Q2 or Q3: each is counted. Word 0 is written otherwise, and the entry takes effect; an
entry whose range has passed is written without VALID and counted (R351). -/
def Obligations.GateEntryWritesAreJudged : Prop :=
  ∀ (m : Master) (p : Port) (e : BitVec 8) (v : BitVec 64) (s : State), MgtWritesOff m s → Open 134 s →
    let w0 := gclOff p.toNat e.toNat 0
    let w1 := gclOff p.toNat e.toNat 1
    let x := setBits 62 48 0 v
    let opens := bits 31 0 (rdReg w1 s)
    let closes := bits 63 32 (rdReg w1 s)
    let gate (q : Nat) : Bool := v.getLsbD (32 + q)
    let broken := closes ≤ opens ∨ schedPeriod s < closes ∨ 32767 < bits 31 16 v ∨ gate 0 = true ∨ gate 2 = true ∨ gate 3 = true
    let passed := gclCond x ((epochAt s.gtime.toNat s).map (·.1)) = .expired
    let counted (t : State) : State := evcPulse 193 134 t
    (bit 63 (rdReg w0 s) = true → DoesOnly (.gclWord1Write m p e v) s (counted s)) ∧
    (bit 63 (rdReg w0 s) = false → DoesOnly (.gclWord1Write m p e v) s (wrReg w1 v s)) ∧
    (bit 63 v = true → broken → DoesOnly (.gclWord0Write m p e v) s (counted s)) ∧
    (bit 63 v = true → ¬broken → ¬passed → DoesOnly (.gclWord0Write m p e v) s (wrReg w0 x s)) ∧
    (bit 63 v = true → ¬broken → passed → DoesOnly (.gclWord0Write m p e v) s (counted (wrReg w0 (setBits 63 63 0 x) s))) ∧
    (bit 63 v = false → DoesOnly (.gclWord0Write m p e v) s (wrReg w0 x s))

/-- R351, R355, R357, R358: an epoch's start clears the entries that have expired; the guard band before a closing and the end of EARLY
demote what waits in Q1; a sample, taken when GTIME reaches the next multiple of 8 × INTERVAL ns, adds one to a depth and a delay bin of
every queue while sampling is enabled, and a clear empties them. -/
def Obligations.GatesAndHistograms : Prop :=
  ∀ (m : Master) (p : Port) (k : EgPkt) (s : State),
    let n := p.toNat
    DoesOnly .epochStart s (clearExpired s) ∧
    (gated n 1 s = true → scheduled s = true → gateOpen n 1 s.gtime.toNat s = true → closingSoon n 1 s.gtime.toNat s = true →
      DoesOnly (.guardBandStart p) s (demoteQ1 n (fun _ => true) s)) ∧
    (s.xbr.egq.find? (fun e => e.port == n && e.q == 1) = some k →
      let wait := 16 * rf Reg.LLT_SCHED 31 16 s
      let t := advanceTo (k.since + wait) s
      (gated n 1 t = true → gateOpen n 1 t.gtime.toNat t = false →
        DoesOnly (.earlyExpiry p) s (demoteQ1 n (fun y => y.since + wait ≤ t.now) t)) ∧
      (gateOpen n 1 t.gtime.toNat t = true → DoesOnly (.earlyExpiry p) s t)) ∧
    (MgtWritesOff m s → Open 134 s → DoesOnly (.histClear m) s (withLlt (fun l => { l with hist := [] }) s)) ∧
    (rf Reg.LLT_HIST_CFG 1 1 s = 1 →
      let g := nextSample s
      let t := withLlt (fun l => { l with sampled := some g }) (reachGtime g s)
      DoesOnly .histSample s ((List.range 2048).foldl (fun s k => histQueue (k / 16) (k % 16) s) t)) ∧
    (rf Reg.LLT_HIST_CFG 1 1 s = 0 → DoesOnly .histSample s s)

/-! ### The lock unit (12) -/

/-- R366 to R372: a request by a function that may use the semaphore is granted if it is free, joins the queue if it is held, and leaves no
trace when all waiter entries are in use; a release by the holder frees it for the next in the queue, a foreign one freezes the function and
is counted, one excused is counted only; a withdrawal leaves the queue; LCK_STAT is read; a forced release abandons it; LCK_ALLOC changes
only while it is free. A function that may not use the semaphore is frozen with cause 0x04; an access of a wrong width or where no register
stands is counted, and while the unit is fenced (R389) an access is held. Model's choices that it rests on: log entries 6 (DESIGN CHOICE),
133 (DEDUCED), 135 (DEDUCED). -/
def Obligations.SemaphoresAreGrantedInOrder : Prop :=
  ∀ (f : Fn) (k : BitVec 10) (m : Master) (v : BitVec 32) (w : BitVec 64) (bytes : BitVec 4) (off : BitVec 6) (s : State),
    let n := k.toNat
    let me := BitVec.ofNat 12 f.toNat
    let x := getSem n s
    let up := unitFenced 136 s = false
    let served := HostReaches f.toNat s ∧ frozen f.toNat s = false ∧ up
    let place := 0x03000000 + 64 * n + off.toNat
    let allowed := semAllowed n f.toNat s = true
    let counted := evcPulse 193 136 s
    (served → ¬allowed → ∀ i ∈ [Instr.lckAcq f k bytes, .lckRel f k bytes, .lckCancel f k bytes], Does i s (violation 161 f.toNat 4 s)) ∧
    (served → allowed → bytes ≠ 8 → ∀ i ∈ [Instr.lckAcq f k bytes, .lckRel f k bytes, .lckCancel f k bytes], Does i s counted) ∧
    (served → allowed → x.excused ≠ some me →
      (x.holder = none → me ∉ x.queue → isCore me = false →
        Does (.lckAcq f k 8) s (putSem n { x with holder := some me, grants := x.grants + 1 } s)) ∧
      (∀ h, x.holder = some h → h ≠ me → me ∉ x.queue →
        (semWaiters s < 4096 → Does (.lckAcq f k 8) s (putSem n { x with queue := x.queue ++ [me] } s)) ∧
        (4096 ≤ semWaiters s → Does (.lckAcq f k 8) s s)) ∧
      (x.holder = some me ∨ me ∈ x.queue → Does (.lckAcq f k 8) s counted) ∧
      (me ∈ x.queue → Does (.lckCancel f k 8) s (putSem n { x with queue := x.queue.filter (· != me) } s)) ∧
      (me ∉ x.queue → Does (.lckCancel f k 8) s counted)) ∧
    (served → allowed →
      (x.holder = some me → x.queue = [] → Does (.lckRel f k 8) s (putSem n { x with holder := none, abandoned := false } s)) ∧
      (∀ q t, x.holder = some me → x.queue = q :: t →
        Does (.lckRel f k 8) s (semGrant n q (putSem n { x with holder := none, queue := t, abandoned := false } s))) ∧
      (x.holder ≠ some me → x.excused = some me → Does (.lckRel f k 8) s counted) ∧
      (x.holder ≠ some me → x.excused ≠ some me → Does (.lckRel f k 8) s (violation 161 f.toNat 5 (evcPulse 228 n s)))) ∧
    (HostReaches f.toNat s → frozen f.toNat s = false → ¬up →
      Does (.lckAcq f k bytes) s (holdReq (.lck f.toNat 0 n bytes.toNat) s) ∧ Does (.lckRel f k bytes) s (holdReq (.lck f.toNat 1 n bytes.toNat) s) ∧
      Does (.lckCancel f k bytes) s (holdReq (.lck f.toNat 2 n bytes.toNat) s)) ∧
    (HostReaches f.toNat s → up → allowed →
      Does (.lckStatRead f k ⟨0x18, 8⟩) s (semRead n me (emit (.bar0Read f.toNat (0x03000018 + 64 * n) (semStat n me s)) s)) ∧
      (bytes ≠ 8 ∨ 0x20 ≤ off.toNat ∨ off.toNat % 8 ≠ 0 →
        Does (.lckStatRead f k ⟨off, bytes⟩) s (evcPulse 193 136 (emit (.bar0Read f.toNat place 0) s))) ∧
      (off = 0 ∨ off = 8 ∨ off = 16 → Does (.lckStatRead f k ⟨off, 8⟩) s (emit (.bar0Read f.toNat place 0) s))) ∧
    (HostReaches f.toNat s → up → ¬allowed →
      Does (.lckStatRead f k ⟨off, bytes⟩) s (violation 161 f.toNat 4 (emit (.bar0Read f.toNat place 0) s))) ∧
    (HostReaches f.toNat s → ¬up → Does (.lckStatRead f k ⟨off, bytes⟩) s (holdReq (.stat f.toNat n off.toNat bytes.toNat) s)) ∧
    (MgtWrites m s → Open 136 s →
      let t := setRf Reg.LCK_FORCE 9 0 (bits 9 0 v) s
      (bit 10 v = false → DoesOnly (.lckForce m v) s t) ∧
      (bit 10 v = true → (getSem (bits 9 0 v) t).holder = none → DoesOnly (.lckForce m v) s (evcPulse 193 136 t)) ∧
      (∀ h, bit 10 v = true → (getSem (bits 9 0 v) t).holder = some h → DoesOnly (.lckForce m v) s (semAbandon (bits 9 0 v) h t)) ∧
      (x.holder = none → x.queue = [] → DoesOnly (.lckAllocWrite m k w) s (writeReg (Reg.LCK_ALLOC + 8 * n) w s)) ∧
      (x.holder ≠ none ∨ x.queue ≠ [] → DoesOnly (.lckAllocWrite m k w) s counted))

/-- A free semaphore has no waiters, no master waits twice, and no holder waits for what it holds. -/
def Sys2Proof.Claims.LocksOrdered (s : State) : Prop :=
  ∀ n, ((getSem n s).holder = none → (getSem n s).queue = []) ∧ (getSem n s).queue.Nodup ∧
    ∀ m, (getSem n s).holder = some m → m ∉ (getSem n s).queue

/-- R369 to R371, R374: whatever the lock unit does to its semaphores, a free one has no waiters, no master waits twice, and none waits for
what it holds. -/
def Obligations.LockUnitKeepsOrder : Prop :=
  ∀ (n : Nat) (m : BitVec 12) (ab : Bool) (v : BitVec 32) (s : State), LocksOrdered s →
    LocksOrdered (semAcquire n m s) ∧ LocksOrdered (semFree n ab s) ∧ LocksOrdered (semAbandon n m s) ∧
    LocksOrdered (semCancel n m s) ∧ LocksOrdered (semReset m s) ∧ LocksOrdered (semLose s) ∧ LocksOrdered (semForce v s) ∧
    LocksOrdered (semRead n m s) ∧ LocksOrdered (semNoExcuse n m s)

/-! ### Faults and units (13) -/

/-- R383, R384, R385: an occurrence sets the sticky bit of its source, and its merged bit if the sticky bit was set already; no other
source's sticky bit changes. -/
def Obligations.FirstOccurrenceIsCaptured : Prop :=
  ∀ (src : Nat) (s : State), src < 192 →
    let t := fcuOccur src s
    sticky src t = true ∧
    (sticky src s = true → bit (src % 64) (rdReg (Reg.FCU_MERGED + 8 * (src / 64)) t) = true) ∧
    ∀ k < 192, k ≠ src → sticky k t = sticky k s ∧
      bit (k % 64) (rdReg (Reg.FCU_MERGED + 8 * (k / 64)) t) = bit (k % 64) (rdReg (Reg.FCU_MERGED + 8 * (k / 64)) s)

/-- R383, R384, R387 to R390, R392, R394, R396, R397, R399, R508, R515: an occurrence in a unit that can have one is captured, loses the
data of a wrong word and strikes its units, a core that it fences meeting the word no more; one that is injected does what INJECT's MODE
says; two GTIME counters that differ put the TMU in ACQUIRE; a checker of a replayed island reports to LTN_RSTAT alone; nothing arises in a
unit that is fenced or without power. A spare that is ready serves its logical unit, a restarted block is back, a scrub counts its
corrections and a sensor raises its source. Model's choices that it rests on: log entries 6 (DESIGN CHOICE), 137 (DEDUCED), 138 (DEDUCED),
139 (DEDUCED), 168 (DESIGN CHOICE), 263 (DESIGN CHOICE), 264 (DEDUCED). -/
def Obligations.FaultsReact : Prop :=
  ∀ (src : BitVec 8) (u : SUnit) (n hour : BitVec 32) (l due : Nat) (s : State),
    let k := src.toNat
    let v := rdReg Reg.FCU_INJECT s
    let occurs := k < 188 ∧ k ≠ 124 ∧ ¬(161 ≤ k ∧ k ≤ 163) ∧ canOccur k u s = true ∧ inReplay k u s = false
    let staging := k = 122 ∨ k = 129 ∨ k = 131 ∨ k = 132
    let reacts (word strikes : Bool) (seen : State) : State :=
      let lost (x : State) : State := if word then dataLoss k u x else x
      let struck (x : State) : State := if strikes then strikeUnits k u x else x
      if 64 ≤ k ∧ k < 80 then (if isFenced u (struck seen) then struck seen else lost (struck seen))
      else struck (lost seen)
    (occurs →
      (staging → Does (.faultOccurrence src u false) s (stagingFault k s)) ∧
      (k = 135 → Does (.faultOccurrence src u false) s (gtimeDiffers s)) ∧
      (¬staging → k ≠ 135 → captureSource k = true → Does (.faultOccurrence src u false) s (fcuOccur k s)) ∧
      (¬staging → k ≠ 135 → captureSource k = false →
        ∀ word t, wordWrong k s = (word, t) →
          (hasCompare k = false → word = true ∧ t = s) ∧
          Does (.faultOccurrence src u false) s (reacts word true (fcuOccurAt k u t))) ∧
      (bit 31 v = true → bits 7 0 v = k →
        (bits 33 32 v = 1 → Does (.faultOccurrence src u true) s (evcPulse 192 k (injectCount s))) ∧
        (bits 33 32 v ≠ 1 → k = 135 → Does (.faultOccurrence src u true) s (setTmuState 1 (fcuOccur k (injectCount s)))) ∧
        (bits 33 32 v ≠ 1 → k ≠ 135 → captureSource k = true →
          Does (.faultOccurrence src u true) s (occurFull k u (injectCount s))) ∧
        (bits 33 32 v = 2 ∨ bits 33 32 v = 3 → k ≠ 135 → captureSource k = false →
          Does (.faultOccurrence src u true) s
            (reacts (bits 33 32 v == 2) (bit 34 v) (fcuOccurAt k u (injectCount s))))) ∧
      (bit 31 v = false ∨ bits 7 0 v ≠ k → Does (.faultOccurrence src u true) s s)) ∧
    (k < 188 → k ≠ 124 → ¬(161 ≤ k ∧ k ≤ 163) → canOccur k u s = true → inReplay k u s = true → ∀ b,
      let t : State := { s with free := s.free + 1 }
      Does (.faultOccurrence src u b) s (if Config.markRecorded s.free then t else setRf Reg.LTN_RSTAT 1 0 2 t)) ∧
    (canOccur k u s = false → ∀ b, Does (.faultOccurrence src u b) s s) ∧
    (s.snf.spares.find? (fun x => x.1 == u) = some (u, l, due) → domOn (unitDomain u) s = true →
      Does (.spareInService u) s (spareServes u l (advanceTo due s))) ∧
    (k ∈ s.snf.restarting →
      Does (.restartComplete src) s
        (heldRelease (restartBack k { s with snf := { s.snf with restarting := s.snf.restarting.filter (· != k) } }))) ∧
    (k < 192 →
      let t := evcPulses 192 k n.toNat s
      (hour.toNat ≤ nz (bits 31 16 (rdReg Reg.SNF_SCRUB s)) → DoesOnly (.scrub src n hour) s t) ∧
      (nz (bits 31 16 (rdReg Reg.SNF_SCRUB s)) < hour.toNat → DoesOnly (.scrub src n hour) s (fcuOccur 187 t))) ∧
    DoesOnly .thermalWarning s (fcuOccur 164 s) ∧ DoesOnly .supplyOutOfRange s (fcuOccur 165 s)

/-- R385, R386, R393, R398: SNF_CTRL.GO restores a fenced unit, waits for a domain that the power state keeps off, and fails at once for a
unit that is not fenced; the self-test ends it. FCU_INJECT is written, or refused and disarmed. A sticky or merged bit is cleared by writing
one. Model's choices that it rests on: log entries 6 (DESIGN CHOICE), 140 (DEDUCED), 141 (DESIGN CHOICE), 142 (DEDUCED). -/
def Obligations.UnitsAreRestoredAndInjected : Prop :=
  ∀ (m : Master) (v : BitVec 64) (u : SUnit) (merged : Bool) (w : BitVec 2) (s : State),
    let fields := setRf Reg.SNF_CTRL 15 0 (bits 15 0 v) (setRf Reg.SNF_CTRL 26 24 (bits 26 24 v) s)
    let going := setRf Reg.SNF_CTRL 33 32 0 (setRf Reg.SNF_CTRL 31 31 1 fields)
    let base := if merged then Reg.FCU_MERGED else Reg.FCU_STICKY
    (MgtWrites m s →
      (rf Reg.SNF_CTRL 31 31 s = 1 → Does (.unitRestore m v) s (evcPulse 193 143 s)) ∧
      (rf Reg.SNF_CTRL 31 31 s ≠ 1 →
        (bit 31 v = false → Does (.unitRestore m v) s fields) ∧
        (bit 31 v = true → ctrlUnit (rdReg Reg.SNF_CTRL going) = none → Does (.unitRestore m v) s (restoreEnd 3 going)) ∧
        (bit 31 v = true → ctrlUnit (rdReg Reg.SNF_CTRL going) = some u →
          (isFenced u going = false → Does (.unitRestore m v) s (restoreEnd 3 going)) ∧
          (isFenced u going = true → stateKeeps (effState going) (unitDomain u) going = true →
            Does (.unitRestore m v) s { going with snf := { going.snf with restore := some u } }) ∧
          (isFenced u going = true → stateKeeps (effState going) (unitDomain u) going = false →
            Does (.unitRestore m v) s { going with clk := { going.clk with restoreWaits := true } }))) ∧
      (bits 47 40 v ≠ 0 → injectRefused v s = true → bit 30 v = false →
        DoesOnly (.fcuInjectWrite m v) s (setRf Reg.FCU_INJECT 30 30 1 (setRf Reg.FCU_INJECT 31 31 0 s))) ∧
      (injectRefused v s = false ∨ bits 47 40 v = 0 → bit 30 v = false →
        DoesOnly (.fcuInjectWrite m v) s
          (setRf Reg.FCU_INJECT 31 31 (if bits 47 40 v = 0 then 0 else 1)
            (setRf Reg.FCU_INJECT 7 0 (bits 7 0 v) (setRf Reg.FCU_INJECT 34 32 (bits 34 32 v)
              (setRf Reg.FCU_INJECT 47 40 (bits 47 40 v) s))))) ∧
      (w ≠ 3 → DoesOnly (.stickyClear m merged w v) s (writeReg (base + 8 * w.toNat) v s)) ∧
      (w = 3 → DoesOnly (.stickyClear m merged w v) s (evcPulse 193 144 s))) ∧
    (s.snf.restore = some u → domOn (unitDomain u) s = true →
      Does (.restoreSelfTestComplete true) s (heldRelease (unitBack u (restoreEnd 1 (clearStrikes u s)))) ∧
      Does (.restoreSelfTestComplete false) s (restoreEnd 2 (clearStrikes u s)))

/-! ### Clocks and power (14) -/

/-- R389, R402, R407, R413, R414, R417, R508, R516: a write to a block whose unit is fenced, or whose domains are off, is held, and is made
when the crossing opens; a domain that is no longer wanted is switched off, one that is wanted starts while fewer than four ramp, and is on
once its ramp is complete; a bad clock of an island that runs raises source 186 and its unit's own; a write of CLK_P1_KEEP takes down the
ports that it no longer keeps; one newly kept negotiates again; a brown-out of a core rail holds the block, of a link rail takes its links
down; a thermal trip turns every domain but 0 off, and in P3 asserts the pin alone. Model's choices that it rests on: log entries 6 (DESIGN
CHOICE), 146 (DEDUCED), 151 (DEDUCED), 188 (DEDUCED). -/
def Obligations.DomainsAndSupplies : Prop :=
  ∀ (m : Master) (d : BitVec 8) (island : BitVec 9) (w : BitVec 1) (v : BitVec 64) (rail : BitVec 3) (w32 : BitVec 32) (box : BitVec 12)
    (off : BitVec 28) (f : Fn) (sem : BitVec 10) (pair : BitVec 2) (port : Port) (e : BitVec 8) (on : Bool) (s : State),
    let n := d.toNat
    let ramped := unramp n s
    let x : BitVec 64 := w32.setWidth 64
    let hist := setBits 0 0 1 (rdReg Reg.LLT_HIST_CFG s)
    let late : List (Instr × Nat × HeldReq) :=
      [(.mbxAllocWrite m box v, 137, regReq m (Reg.MBX_ALLOC + 8 * box.toNat) v), (.tprUnfreeze m w32, 48, regReq m Reg.TPR_UNFREEZE x),
        (.xbrChipWrite m w32, 0, regReq m Reg.XBR_CHIP x), (.xbrConfigWrite m off v, 0, regReq m off.toNat v),
        (.qpcRangeWrite m f v, 126, regReq m (Reg.QPC_RANGE + 8 * f.toNat) v),
        (.registerWrite m off 0xFF (.data v), regUnit (off.toNat / 8 * 8), .reg m (off.toNat / 8 * 8) 0xFF v)]
    let lateOnly : List (Instr × Nat × HeldReq) :=
      [(.lckForce m w32, 136, regReq m Reg.LCK_FORCE x), (.lckAllocWrite m sem v, 136, regReq m (Reg.LCK_ALLOC + 8 * sem.toNat) v),
        (.hifWinWrite m f pair v, 118 + f.toNat / 256, regReq m (Reg.HIF_WIN + 32 * f.toNat + 8 * pair.toNat) v),
        (.hifMgtprivWrite m w32, 118, regReq m Reg.HIF_MGTPRIV x), (.histClear m, 134, regReq m Reg.LLT_HIST_CFG hist),
        (.gclWord0Write m port e v, 134, regReq m (gclOff port.toNat e.toNat 0) v),
        (.gclWord1Write m port e v, 134, regReq m (gclOff port.toNat e.toNat 1) v),
        (.evcFreeze m on, 138, regReq m Reg.EVC_GLOBAL (if on then 2 else 0))]
    (domOn n s = true → domWanted n s = false → Does (.domainSwitchOff d) s (domainOff n s)) ∧
    (domOn n s = false ∨ domWanted n s = true → Does (.domainSwitchOff d) s s) ∧
    (domOn n s = false → domWanted n s = true → n ∉ s.clk.ramping → mustWait n s = false →
      (s.clk.ramping.length < 4 →
        Does (.domainSwitchOn d) s { s with clk := { s.clk with ramping := s.clk.ramping ++ [n] } }) ∧
      (4 ≤ s.clk.ramping.length → Does (.domainSwitchOn d) s s)) ∧
    (n ∈ s.clk.ramping →
      (domWanted n s = true → Does (.domainRampComplete d) s (heldRelease (domainOn n ramped))) ∧
      (domWanted n s = false → Does (.domainRampComplete d) s ramped)) ∧
    (MgtWritesOff m s → 0x08000000 ≤ off.toNat → secReg off.toNat = false → m ≠ 0x801 →
      (∀ r ∈ late, crossingShut r.2.1 s = true → Does r.1 s (holdReq r.2.2 s)) ∧
      (∀ r ∈ lateOnly, crossingShut r.2.1 s = true → DoesOnly r.1 s (holdReq r.2.2 s))) ∧
    (HostWrites f.toNat s → ∀ r ∈ [(Instr.keytabDisable f, 125, Reg.XLT_KEYTAB_CTRL), (.ctxtabDisable f, 126, Reg.QPC_CTXTAB_CTRL),
        (.uxpoolDisable f, 133, Reg.MTE_UXCTRL), (.adminRingDisable f, 123, Reg.CMR_ADMIN_CTRL)],
      crossingShut r.2.1 s = true → Does r.1 s (holdReq (.fn f.toNat r.2.2 1 0) s)) ∧
    (islandRuns island.toNat s = true → Does (.clockMonitorWindow island true) s (clockLost island.toNat (fcuOccur 186 s))) ∧
    (islandRuns island.toNat s = false → Does (.clockMonitorWindow island true) s s) ∧
    Does (.clockMonitorWindow island false) s s ∧
    (MgtWrites m s →
      let after := writeReg (Reg.CLK_P1_KEEP + 8 * w.toNat) v s
      let newly := (List.range 128).filter (fun p => !kept p s && kept p after)
      Does (.clkP1KeepWrite m w v) s (newly.foldl (fun t p => tryStart p t) (portsFollow after))) ∧
    (rail = 0 ∨ rail = 1 ∨ rail = 5 →
      ∃ t, exec (.brownOut rail) s = .next t ∧ running t = false ∧ rail.toNat ∈ t.clk.brown ∧
        (5 ∉ t.clk.brown → t.out.head? = some (.pstateOut (if s.clk.testEn then 3 else 0)))) ∧
    (rail = 2 ∨ rail = 3 → Does (.brownOut rail) s ((List.range 128).foldl (fun s p => linkDown p s) s)) ∧
    (rail = 4 → Does (.brownOut rail) s ((List.range 4).foldl (fun s j => controllerDown j s) s)) ∧
    (s.clk.trip = none →
      Does .thermalTrip s
        (domainsFollow (portsFollow
          (emit (.pstateOut 3) (emit .thermTrip { s with clk := { s.clk with trip := some s.now, trans := none } })))) ∧
      (s.clk.off = true → s.clk.testEn = false → s.clk.brown = [] →
        exec .thermalTrip s = .next (emit .thermTrip { s with clk := { s.clk with trip := some s.now } }))) ∧
    (s.clk.trip ≠ none → exec .thermalTrip s = .next s)

/-- R416, R418, R419, R433, R514: a GO to another power state begins its path (P1 from P2 goes by P0) or is refused: P1 and P2 while a core
is halted, P2 unless the quiet condition holds; one to the present state completes at once. Each state of the path is reached in turn; P3
holds the block. Model's choices that it rests on: log entries 6 (DESIGN CHOICE), 153 (DEDUCED), 154 (DEDUCED), 156 (DESIGN CHOICE). -/
def Obligations.PowerStatesAreTaken : Prop :=
  ∀ (m : Master) (tr : PTrans) (st : Nat) (rest : List Nat) (s : State),
    let cur := powerState s
    (MgtWrites m s →
      ∀ r ∈ [(Instr.pstateToP0 m, 0), (.pstateToP1 m, 1), (.pstateToP2 m, 2), (.pstateToP3 m, 3)],
        let asked := setRf Reg.CLK_PSTATE 11 10 0 (setRf Reg.CLK_PSTATE 1 0 r.2 s)
        let halted := rf Reg.SEC_STATE 9 9 asked = 1 ∨ rf Reg.SEC_CMD 16 16 asked = 1
        (rf Reg.CLK_PSTATE 9 9 s = 1 → Does r.1 s (evcPulse 193 142 s)) ∧
        (rf Reg.CLK_PSTATE 9 9 s ≠ 1 →
          (r.2 = cur → Does r.1 s (setRf Reg.CLK_PSTATE 11 10 1 asked)) ∧
          (r.2 ≠ cur → r.2 = 1 ∨ r.2 = 2 → halted → Does r.1 s (setRf Reg.CLK_PSTATE 11 10 2 asked)) ∧
          (r.2 ≠ cur → r.2 = 2 → quiet asked = false → Does r.1 s (setRf Reg.CLK_PSTATE 11 10 2 asked)) ∧
          (r.2 ≠ cur → (r.2 = 1 ∨ r.2 = 2 → ¬halted) →
            (r.2 = 2 → quiet asked = true) →
            let path := if cur = 2 ∧ r.2 = 1 then [0, 1] else [r.2]
            Does r.1 s (enterPhase { setRf Reg.CLK_PSTATE 9 8 3 asked with clk := { s.clk with trans := some ⟨r.2, path⟩ } })))) ∧
    (s.clk.trans = some tr →
      (tr.path = st :: rest → st ≠ 3 → domainsReady s = false → Does .pstateTransitionComplete s s) ∧
      (tr.path = st :: rest → st ≠ 3 → rest ≠ [] → domainsReady s = true →
        Does .pstateTransitionComplete s
          (let t := mgtLog 0x13 (leBytes 4 st) (showPstate st (setRf Reg.CLK_PSTATE 5 4 st (domainsFollow s)))
           enterPhase { t with clk := { t.clk with trans := some { tr with path := rest } } })) ∧
      (tr.path = [st] → st ≠ 3 → domainsReady s = true →
        Does .pstateTransitionComplete s
          (let t := mgtLog 0x13 (leBytes 4 st) (showPstate st (setRf Reg.CLK_PSTATE 5 4 st (domainsFollow s)))
           restoreWake (setRf Reg.CLK_PSTATE 11 10 1 (setRf Reg.CLK_PSTATE 9 8 0 { t with clk := { t.clk with trans := none } })))) ∧
      (tr.path = [3] → s.mgt.xops = [] → s.sec.job = none →
        Does .pstateTransitionComplete s (emit (.pstateOut 3) (setRf Reg.CLK_PSTATE 5 4 3 (heldOff s)))) ∧
      (tr.path = [3] → s.mgt.xops ≠ [] ∨ s.sec.job ≠ none → Does .pstateTransitionComplete s s))

/-! ### Security and debug (15) -/

/-- A master whose write to SEC is taken: the MGT, or JTAG at level INVASIVE. -/
abbrev Sys2Proof.Claims.SecWrites (m : Master) (s : State) : Prop := 0x400 ≤ m.toNat ∧ unitFenced 140 s = false ∧ MgtWrites m s

/-- R422, R425, R426, R428, R429: a command to SEC that is not permitted ends with NOT_PERMITTED, one with bad arguments with BAD_PARAM, one
whose block is not good with AUTH_FAIL, one whose fuses do not all blow with FUSE_FAIL and source 183, and any other has its effect and ends
with DONE. GO reads 1 and RESULT PENDING until a tick of the control clock ends the command, which replaces SEC_NONCE; another GO until then
is ignored and counted. The order of the tests is the model's (DEDUCED, log entry 169). A host function's write is ignored and counted.
Model's choices that it rests on: log entries 169 (DEDUCED), 170 (DEDUCED), 173 (DESIGN CHOICE), 174 (PRESUMED), 251 (DESIGN CHOICE). -/
def Obligations.SecurityCommandsRun : Prop :=
  ∀ (m : Master) (vqps : Bool) (s : State),
    let rows : List (Instr × Nat × Bool) :=
      [(.provision m vqps, 1, vqps), (.addOwnerKey m vqps, 2, vqps), (.revokeOwnerKey m vqps, 3, vqps), (.seal_ m vqps, 4, vqps),
        (.rma m vqps, 5, vqps), (.svnAdvance m vqps, 6, vqps), (.debugUnlock m, 7, true), (.debugLower m, 8, true), (.attest m, 9, true),
        (.nonce m, 10, true)]
    let arg (t : State) : Nat := leNat (secArg 0 1 t)
    let effect (op : Nat) (t : State) : State :=
      match op with
      | 1 => secProvision t
      | 2 => blow (fun f => { f with own := f.own.setIfInBounds (arg t) (some (secArg 8 56 t)) }) t
      | 3 => blow (fun f => { f with orev := setBits (arg t) (arg t) 1 f.orev }) t
      | 4 => setRf Reg.SEC_STATE 43 43 1 (blow (fun f => { f with seal_ := .all true }) t)
      | 5 => setRf Reg.SEC_STATE 11 11 0 (setRf Reg.SEC_STATE 43 43 1 (blow (fun f => { f with rma := .all true, seed := none }) t))
      | 6 => blow (fun f => { f with svn := arg t }) t
      | 7 => setLevel (leNat (part 1 2 (secBuf 2 t))) t
      | 8 => setLevel (arg t) t
      | 9 => putSecBuf (secReport t.free { t with free := t.free + 1 }) { t with free := t.free + 1 }
      | _ => t
    let ends (j : SecJob) (t : State) : State :=
      let logged := if j.op = 1 ∨ j.op = 4 ∨ j.op = 5 then mgtLog 0x12 [BitVec.ofNat 8 j.op, BitVec.ofNat 8 j.result] t else t
      let shown := newNonce (setRf Reg.SEC_CMD 39 32 j.result
        (setRf Reg.SEC_CMD 16 16 0 { logged with sec := { logged.sec with job := none } }))
      if j.result = 5 then fcuOccur 183 shown else shown
    (∀ j, s.sec.job = some j → (j.due ≤ s.now → secTick s = ends j s) ∧ (s.now < j.due → secTick s = s)) ∧
    ∀ r ∈ rows,
      let op := r.2.1
      let t := setRf Reg.SEC_CMD 7 0 op s
      let authorised := authOk op t = true ∧ (op = 9 → rf Reg.SEC_STATE 11 11 t ≠ 0)
      let runs (result : Nat) (x : State) : State :=
        let v := setRf Reg.SEC_CMD 39 32 0 (setRf Reg.SEC_CMD 16 16 1 { x with free := x.free + 1 })
        { v with sec := { v.sec with job := some ⟨op, result, x.now + min (Config.secTime x.free) (us 2000)⟩ } }
      (SecWrites m s →
        (rf Reg.SEC_CMD 16 16 s = 1 → DoesOnly r.1 s (evcPulse 193 140 s)) ∧
        (rf Reg.SEC_CMD 16 16 s ≠ 1 →
          (secPermitted op t = false → DoesOnly r.1 s (runs 2 t)) ∧
          (secPermitted op t = true → secBad op t = true → DoesOnly r.1 s (runs 4 t)) ∧
          (secPermitted op t = true → secBad op t = false →
            (¬authorised → DoesOnly r.1 s (runs 3 t)) ∧
            (authorised → op ≤ 6 → r.2.2 = false → DoesOnly r.1 s (runs 5 (secCut op t))) ∧
            (authorised → (op ≤ 6 → r.2.2 = true) → DoesOnly r.1 s (runs 1 (effect op t)))))) ∧
      (m.toNat < 0x400 → HostWrites m.toNat s → DoesOnly r.1 s (evcPulse 193 140 s)) ∧
      (m.toNat < 0x400 → presented m.toNat s = false → DoesOnly r.1 s s)

/-- R425, R430 to R432, R441, R456: what each JTAG instruction shifts out and does; a debug instruction that the level does not permit
shifts out ones and changes nothing else. SEC_UNFREEZE ends the freeze of the function that it names. An access to BAR0 outside a function's
window freezes it with its cause. Model's choices that it rests on: log entries 6 (DESIGN CHOICE), 168 (DESIGN CHOICE), 176 (DEDUCED), 177
(DEDUCED), 178 (DEDUCED). -/
def Obligations.DebugPortAndFreezes : Prop :=
  ∀ (blk : List Byte) (vqps : Bool) (v : List Bool) (off : BitVec 28) (be : BitVec 8) (x w : BitVec 64) (core : Option CoreId) (on wr : Bool)
    (addr : BitVec 22) (bytes : List Byte) (m : Master) (u : BitVec 32) (f : Fn) (src cause : Nat) (s t : State),
    let j := jtagOther s
    let ones (t : State) : State := emit (.tdo (List.replicate 8 0xFF)) t
    let pins (i : JtagIr) (b : Bool) (v : List Bool) : State := emit (.pins b v) (loadIr i s)
    let c := core.map BitVec.toNat
    DoesOnly .bypass s (emit (.tdo []) (loadIr .bypass s)) ∧
    DoesOnly .idcode s (emit (.tdo (toBytes 4 Config.idcode)) (loadIr .idcode s)) ∧
    DoesOnly .secNonce s (emit (.tdo (nonceBytes s)) j) ∧
    (unitFenced 140 j = false → rf Reg.SEC_CMD 16 16 j = 1 → Does (.secToken blk vqps) s (evcPulse 193 140 j)) ∧
    (unitFenced 140 j = false → rf Reg.SEC_CMD 16 16 j ≠ 1 →
      Does (.secToken blk vqps) s (secRun (leNat ((fitBytes 328 blk).take 1)) vqps (putSecBuf (fitBytes 328 blk) j))) ∧
    (∀ l : State, l = loadIr .samplePreload s → DoesOnly (.samplePreload v) s { l with jtag := { l.jtag with boundary := v } }) ∧
    DoesOnly .extest s (pins .extest true s.jtag.boundary) ∧ DoesOnly .clamp s (pins .clamp true s.jtag.boundary) ∧
    DoesOnly .highz s (pins .highz false []) ∧
    (1 ≤ debugLevel j → 0x08000000 ≤ off.toNat → mgmtRead off.toNat j = (w, t) →
      Does (.dbgRead off) s (emit (.tdo (toBytes 8 w)) t)) ∧
    (debugLevel j = 0 → Does (.dbgRead off) s (ones j)) ∧
    (debugLevel j = 2 → 0x08000000 ≤ off.toNat → blockOff (off.toNat / 8 * 8) j = false →
      Does (.dbgWrite off be x) s (mgmtWrite 0x801 off.toNat be x j)) ∧
    (debugLevel j ≠ 2 → Does (.dbgWrite off be x) s (ones j) ∧ Does (.halt core on addr bytes) s (ones j) ∧ Does .replay s (ones j)) ∧
    (debugLevel j = 2 → powerState j ≠ 2 ∨ core = none →
      Does (.halt core true addr bytes) s (haltDo c true (haltWrite c addr.toNat bytes (haltDo c true j))) ∧
      Does (.halt core false addr bytes) s (haltDo c false (haltWrite c addr.toNat bytes j))) ∧
    (debugLevel j = 2 → powerState j = 0 → rf Reg.CLK_PSTATE 9 9 j = 0 → quiet j = true → (∀ p < 128, adminUp p j = false) →
      Does .replay s (replayBegin j)) ∧
    (SecWrites m s →
      let g := bits 11 0 (u.setWidth 64)
      (g ≤ 0x3FF → frozen g s = true → Does (.secUnfreeze m u) s (unfreeze g s)) ∧
      (0x3FF < g ∨ frozen g s = false → Does (.secUnfreeze m u) s (evcPulse 193 140 s))) ∧
    (windowCause f.toNat off.toNat true s = some (src, cause) → cause ≠ 2 → secReg off.toNat = false →
      HostWrites f.toNat s → Does (.bar0WindowViolation f off true) s (violation src f.toNat cause s)) ∧
    (windowCause f.toNat off.toNat false s = some (src, cause) → cause ≠ 2 → HostWrites f.toNat s →
      Does (.bar0WindowViolation f off false) s (violation src f.toNat cause (emit (.bar0Read f.toNat off.toNat 0) s))) ∧
    (secReg off.toNat = true → HostWrites f.toNat s → Does (.bar0WindowViolation f off true) s (evcPulse 193 140 s)) ∧
    (pageMisread f.toNat off.toNat s = true → HostWrites f.toNat s →
      Does (.bar0WindowViolation f off false) s (evcPulse 193 138 (emit (.bar0Read f.toNat off.toNat 0) s))) ∧
    (windowCause f.toNat off.toNat wr s = none → (wr = true → secReg off.toNat = false) →
      (wr = false → pageMisread f.toNat off.toNat s = false) → Does (.bar0WindowViolation f off wr) s s)

/-! ### Counters and the Lantern (16) -/

/-- R445 to R448, R451, R454, R455, R457: EVC_CTL and EVC_PAGE_EN are written unless they break their rules, which sets CFG_ERR, and a page
that changes hands is cleared; a counter's value is written, with the increments that meet the write added; FREEZE is set and cleared. START
begins a recording with the START record of its first island, or is refused; a snapshot that is complete is written in SNAP records, the
next island's begins, and the island is recorded from there; a frame is 64 KiB with its FSEQ, its GTIME and its records; triggers, MODE and
the stop of a replay act. Model's choices that it rests on: log entries 164 (DESIGN CHOICE), 165 (DESIGN CHOICE), 166 (DEDUCED), 252
(DEDUCED), 253 (DEDUCED). -/
def Obligations.CountersAndRecording : Prop :=
  ∀ (m : Master) (n : BitVec 11) (b : BitVec 5) (v : BitVec 64) (inc : BitVec 16) (on : Bool) (mode : BitVec 2) (i : Nat) (rest : List Nat)
    (matched : Bool) (src : BitVec 8) (cycle : BitVec 48) (s : State),
    let page := Reg.EVC_PAGE_EN + 8 * b.toNat
    let bad := setRf Reg.EVC_GLOBAL 0 0 1 s
    let going := rf Reg.LTN_CTRL 6 6 s
    let todo := (selected s).filter (fun i => islandOn i s)
    let closed := ltnFlush (ltnDrain s)
    let spill := rdReg Reg.LTN_SPILL s
    (MgtWrites m s →
      (n.toNat < 1536 → Open 138 s →
        (evcRefused n.toNat v s = true → DoesOnly (.evcCtlWrite m n v) s bad) ∧
        (evcRefused n.toNat v s = false → DoesOnly (.evcCtlWrite m n v) s (writeReg (Reg.EVC_CTL + 8 * n.toNat) v s)) ∧
        DoesOnly (.evcCntWrite m n v inc) s (evcMeet n.toNat inc.toNat (writeReg (Reg.EVC_CNT + 8 * n.toNat) v s))) ∧
      (1536 ≤ n.toNat → DoesOnly (.evcCtlWrite m n v) s (evcPulse 193 138 s) ∧ DoesOnly (.evcCntWrite m n v inc) s (evcPulse 193 138 s)) ∧
      (b.toNat < 24 → Open 138 s →
        (0x3FF < bits 11 0 v → DoesOnly (.evcPageEnWrite m b v) s bad) ∧
        (bits 11 0 v ≤ 0x3FF → bits 12 0 v ≠ rf page 12 0 s →
          DoesOnly (.evcPageEnWrite m b v) s (writeReg page v (pageClear b.toNat s))) ∧
        (bits 11 0 v ≤ 0x3FF → bits 12 0 v = rf page 12 0 s → DoesOnly (.evcPageEnWrite m b v) s s)) ∧
      (Open 138 s → DoesOnly (.evcFreeze m on) s (setRf Reg.EVC_GLOBAL 1 1 (if on then 1 else 0) s)) ∧
      (going ≠ 1 → Open 139 s → startRefused s = true → DoesOnly (.ltnStart m) s (setRf Reg.LTN_STAT 0 0 1 s)) ∧
      (going ≠ 1 → Open 139 s → startRefused s = false →
        let begun : State := { closed with ltn := { closed.ltn with
          todo := todo, live := [], prev := [], post := none, late := [], frames := 0, pinned := 0
          ring := if rf Reg.LTN_CTRL 1 0 closed = 2 then some (bits 63 16 spill * 65536, bits 4 0 spill) else none } }
        let shown := setRf Reg.LTN_CTRL 2 2 1 (setRf Reg.LTN_CTRL 7 6 1 begun)
        (todo = [] → DoesOnly (.ltnStart m) s (setRf Reg.LTN_CTRL 2 2 0 shown)) ∧
        (∀ j more, todo = j :: more → DoesOnly (.ltnStart m) s (ltnPut [startRec j false shown] shown))) ∧
      (Open 139 s → DoesOnly (.ltnTrigger m) s (ltnTrig 1 s)) ∧
      (going = 0 → Open 139 s → DoesOnly (.ltnModeWrite m mode) s (setRf Reg.LTN_CTRL 1 0 mode.toNat s)) ∧
      (going ≠ 0 → Open 139 s → mode = 0 → rf Reg.LTN_CTRL 7 7 s = 0 →
        DoesOnly (.ltnModeWrite m mode) s (ltnEnd (setRf Reg.LTN_CTRL 1 0 0 s))) ∧
      (going ≠ 0 → Open 139 s → mode ≠ 0 ∨ rf Reg.LTN_CTRL 7 7 s ≠ 0 → DoesOnly (.ltnModeWrite m mode) s (evcPulse 193 139 s))) ∧
    (s.ltn.todo = i :: rest →
      let parts := (snapRecs s).1
      let t : State := { s with free := s.free + 1 }
      let put := ltnPut parts { t with ltn := { t.ltn with prev := tset t.ltn.prev i t.now } }
      let started : State := { put with ltn := { put.ltn with todo := rest, live := put.ltn.live ++ [i], late := [] } }
      let marked (t : State) : State := put.ltn.late.foldl (fun t x => lanternMark x.2 (some x.1) t) t
      (∀ r ∈ parts, r.parts.1 = i ∧ r.parts.2.1 = 3 ∧ r.parts.2.2.2.length ≤ 511) ∧
      parts.flatMap (fun r => r.parts.2.2.2) = (List.range (Config.snapshotLength i)).map (Config.snapshotWord s.free) ∧
      (rest = [] → Does .ltnSnapshotComplete s (heldRelease (marked (setRf Reg.LTN_CTRL 2 2 0 started)))) ∧
      (∀ j more, rest = j :: more → Does .ltnSnapshotComplete s (heldRelease (marked (ltnPut [startRec j false started] started))))) ∧
    (∀ g : LtnFrame, g.words.length ≤ 8184 →
      (g.head ++ g.body).length = 65536 ∧ g.head = leBytes 8 (0x4C54 * 2 ^ 48 + g.seq) ∧ g.body.take 8 = toBytes 8 g.gtime ∧
      g.body.drop 56 = g.words.flatMap (toBytes 8) ++ List.replicate (8 * (8184 - g.words.length)) 0) ∧
    (rf Reg.LTN_CTRL 4 4 s = 1 → going = 1 →
      DoesOnly .ltnTimeTrigger s (ltnTrig 2 (timePass ((rdReg Reg.LTN_TRIG_TIME s).toNat - s.gtime.toNat) s))) ∧
    (rf Reg.LTN_CTRL 4 4 s ≠ 1 ∨ going ≠ 1 → DoesOnly .ltnTimeTrigger s s) ∧
    (s.ltn.replaying = true →
      let stopped := rf Reg.LTN_RCTRL 0 0 s = 0
      let at_ := rdReg Reg.LTN_RCTRL s
      let t : State := { s with ltn := { s.ltn with
        replaying := !(rf Reg.LTN_RCTRL 0 0 s == 0)
        heldAt := if rf Reg.LTN_RCTRL 0 0 s == 0 then none else some (bits 15 7 at_, bits 63 16 at_) } }
      DoesOnly (.replayStop (some (matched, src, cycle))) s
        (setRf Reg.LTN_RSTAT 63 16 cycle.toNat (setRf Reg.LTN_RSTAT 15 8 src.toNat
          (setRf Reg.LTN_RSTAT 1 0 (if matched then 1 else 2) t))) ∧
      (stopped → DoesOnly (.replayStop none) s (setRf Reg.LTN_RSTAT 1 0 3 t)) ∧ (¬stopped → DoesOnly (.replayStop none) s t))

/-! ### The host interface (17) -/

/-- R441, R458, R462, R464, R465, R468, R474, R476, R480 to R483, R488: resets of functions and controllers, the loss and the training of
links, reads that time out or return, the permitted windows, GRANT, the masks of vectors, a write with poisoned data, L0p and L1, and
configuration requests, to AUX functions too, which are answered with Request Retry Status until the host is released or 1 s has passed.
Model's choices that it rests on: log entries 6 (DESIGN CHOICE), 184 (DEDUCED), 185 (DESIGN CHOICE), 186 (DEDUCED), 254 (PRESUMED), 256
(DEDUCED). -/
def Obligations.HostInterfaceCommands : Prop :=
  ∀ (m : Master) (f : Fn) (j : BitVec 2) (l : BitVec 3) (r : HostReq) (k : BitVec 2) (v : BitVec 64) (w : BitVec 32) (vec : BitVec 9) (q : CfgReq)
    (off : BitVec 28) (be : BitVec 8) (rate : BitVec 3) (width : BitVec 5) (n : BitVec 12) (d : ReadResult) (time : Nat) (s : State),
    let fn := f.toNat
    let one (g : Nat) : Bool := g == fn
    let cfg := (tget s.hif.cfg fn).getD FnCfg.reset
    let link := Reg.HIF_LINK + 8 * l.toNat
    Does (.flr f) s (flrSet one s) ∧
    (cfg.d3hot = true → Does (.d3hotToD0 f) s (flrSet one s)) ∧ (cfg.d3hot = false → Does (.d3hotToD0 f) s s) ∧
    Does (.controllerReset j) s (controllerDown j.toNat s) ∧
    (l.toNat % 2 = 0 → Does (.pcieLinkLoss l) s (controllerDown (l.toNat / 2) s)) ∧
    (l.toNat % 2 = 1 → Does (.pcieLinkLoss l) s (halfReadsFail l.toNat (flushesFail l.toNat (halfDown (l.toNat / 2) s)))) ∧
    (let t := flrSet (fun g => g / 256 == j.toNat && g != 256 * j.toNat) s
     Does (.vfEnableClear j) s (setCfg (256 * j.toNat) { fnCfg (256 * j.toNat) t with vfEnable := false } t)) ∧
    (∀ g, readFor r s = some g → Does (.completionTimeout r) s (timedOut r (timeoutPass g s))) ∧
    (readFor r s = none → Does (.completionTimeout r) s s) ∧ Does (.descriptorReadComplete f n d) s (entryReadCome fn n.toNat d s) ∧
    Does (.taperImageReadComplete f d) s (imageCome fn d s) ∧
    (MgtWrites m s →
      (Open (118 + fn / 256) s → winBad v = true → DoesOnly (.hifWinWrite m f k v) s (evcPulse 193 118 s)) ∧
      (Open (118 + fn / 256) s → winBad v = false → DoesOnly (.hifWinWrite m f k v) s (writeReg (Reg.HIF_WIN + 32 * fn + 8 * k.toNat) v s)) ∧
      (Open 118 s → bit 0 w = false → DoesOnly (.hifMgtprivWrite m w) s (setRf Reg.HIF_MGTPRIV 0 0 0 s)) ∧
      (Open 118 s → bit 0 w = true → m = 0x800 → DoesOnly (.hifMgtprivWrite m w) s (setRf Reg.HIF_MGTPRIV 0 0 1 s)) ∧
      (Open 118 s → bit 0 w = true → m ≠ 0x800 → rf Reg.HIF_MGTPRIV 0 0 s ≠ 1 → DoesOnly (.hifMgtprivWrite m w) s (evcPulse 193 118 s))) ∧
    (HostWrites fn s →
      Does (.msixUnmask f (some vec)) s (msixResend fn (setFf fn (0x80000 + 16 * vec.toNat + 8) 32 32 0 s))) ∧
    (reaches fn s = true → Does (.msixUnmask f none) s (msixResend fn (setCfg fn { fnCfg fn s with msixMask := false } s))) ∧
    (presented fn s = true →
      (enumerates (fn / 256) s = true →
        Does (.configRequest (.fn f) q) s (cfgApply fn q (emit (.config (.fn f) (some (cfgIdent fn s))) s))) ∧
      (enumerates (fn / 256) s = false → Does (.configRequest (.fn f) q) s (emit (.config (.fn f) none) s))) ∧
    (presented fn s = false → Does (.configRequest (.fn f) q) s s) ∧
    (auxPresent j.toNat s = true →
      (enumerates j.toNat s = true → Does (.configRequest (.aux j) q) s (auxApply j.toNat q (emit (.config (.aux j) (some auxIdent)) s))) ∧
      (enumerates j.toNat s = false → Does (.configRequest (.aux j) q) s (emit (.config (.aux j) none) s))) ∧
    (auxPresent j.toNat s = false → Does (.configRequest (.aux j) q) s s) ∧
    (reaches fn s = true → Does (.registerWrite (f.setWidth 12) off be .poisoned) s (emit (.aer fn) (evcPulse 193 118 s))) ∧
    (tget s.mgt.perst j.toNat = some time →
      let t := advanceTo (time + 16000000000) s
      (j.toNat ∉ t.mgt.expired →
        Does (.enumerationTimeout j) s { t with mgt := { t.mgt with expired := t.mgt.expired ++ [j.toNat] } }) ∧
      (j.toNat ∈ t.mgt.expired → Does (.enumerationTimeout j) s t)) ∧
    Does (.perstNRelease j) s { s with mgt := { s.mgt with
      perst := tset s.mgt.perst j.toNat s.now, expired := s.mgt.expired.filter (· != j.toNat) } } ∧
    (linkTrains l.toNat s = true → 1 ≤ rate.toNat → rate.toNat ≤ 6 → 1 ≤ width.toNat →
      width.toNat ≤ (if bit 2 (rdReg link s) then 8 else 16) →
      (l0pFits l.toNat rate.toNat width.toNat s = false →
        let t : State := { s with hif := { s.hif with lanes := tset s.hif.lanes l.toNat width.toNat } }
        Does (.pcieLinkUp l rate width) s (setRf link 15 15 1 (setRf link 14 14 (if rate = 6 then 1 else 0)
          (setRf link 13 11 rate.toNat (setRf link 10 4 (width.toNat * 64) t))))) ∧
      (l0pFits l.toNat rate.toNat width.toNat s = true →
        Does (.pcieLinkUp l rate width) s
          (setRf link 10 6 width.toNat (setRf link 5 5 (if width.toNat < (tget s.hif.lanes l.toNat).getD 0 then 1 else 0) s)))) ∧
    (linkTrains l.toNat s = false → Does (.pcieLinkUp l rate width) s s) ∧
    (powerState s = 2 → rf link 15 15 s = 1 → (linkCfg l.toNat (256 * (l.toNat / 2)) s).l1Enable = true →
      (∀ x ∈ s.xlt.flushes, x.1 ≠ l.toNat) →
      Does (.aspmL1Entry l) s (setRf link 15 15 0 (setRf link 4 4 1 (emit (.l1Request l.toNat) (partPass (us 10) s))))) ∧
    (powerState s ≠ 2 → Does (.aspmL1Entry l) s s)

/-! ### Start-up and the persistent store (18) -/

/-- R482 to R489, R493, R495, R504, R508: a COLD reset gives the block its reset state with the straps, under TEST_EN or with a rail out one
that stays held; a supply that returns does the same. HOST_READY is set by the MGT alone, and not in RECOVERY; a WARM reset and a restart of
the MGT do their parts, the restart after the operation in progress; an operation of the flash leaves its bytes, or free values with source
184, and is cut 1 ms after a thermal trip; a unit that fails its self-test is fenced; RECOVERY is left for a new selection. Model's choices
that it rests on: log entries 6 (DESIGN CHOICE), 158 (DEDUCED), 159 (DEDUCED), 160 (DEDUCED), 259 (DESIGN CHOICE), 260 (DEDUCED), 262
(DEDUCED). -/
def Obligations.StartUpCommands : Prop :=
  ∀ (straps : BitVec 10) (m : Master) (u : SUnit) (op : XOp) (rest : List XOp) (s : State),
    let st := straps.toNat % 512
    let less : State := { s with snf := { s.snf with tests := s.snf.tests.filter (· != u) } }
    (s.clk.brown = [] → bit 9 straps = false → exec (.coldReset straps) s = .next (coldReset st s)) ∧
    (s.clk.brown ≠ [] ∨ bit 9 straps = true → ∃ t, exec (.coldReset straps) s = .next t ∧ running t = false ∧ t.pending = s.pending) ∧
    (s.clk.brown ≠ [] → s.clk.testEn = false → exec .supplyReturn s = .next (coldReset (strapBits s) s)) ∧
    (s.clk.brown = [] → exec .supplyReturn s = .next s) ∧
    (MgtWrites m s → m ≠ 0x801 → Open 141 s →
      Does (.warmReset m) s
        (let t := warmState s
         let t := { t with free := t.free + 1, mgt := { t.mgt with warm := t.now + Config.warmTime t.free % (us 20000 + 1) } }
         if s.clk.trip.isSome then domainsFollow t else if powerState s = 0 then t else emit (.pstateOut 0) t) ∧
      (s.mgt.xops = [] → Does (.mgtRestart m) s (mgtReset 2 s)) ∧
      (s.mgt.xops ≠ [] → Does (.mgtRestart m) s (setRf Reg.MGT_RESET 1 1 1 { s with mgt := { s.mgt with restart := some 2 } })) ∧
      (m = 0x800 → recovering s = false → Does (.hostReady m) s (setRf Reg.MGT_BOOT 7 7 1 s)) ∧
      (m = 0x800 → recovering s = true → Does (.hostReady m) s s) ∧
      (m ≠ 0x800 → Does (.hostReady m) s (evcPulse 193 141 s))) ∧
    (u ∈ s.snf.tests →
      Does (.selfTestComplete u true) s less ∧ Does (.selfTestComplete u false) s (fcuOccur (unitSource u) (fenceUnit u less))) ∧
    (s.mgt.xops = op :: rest →
      (s.mgt.restart = none → s.clk.trip = none →
        Does (.xspiOperationComplete true) s
          (let t := opLeaves true op s
           startOp { t with mgt := { t.mgt with xops := rest } }) ∧
        Does (.xspiOperationComplete false) s
          (let t := opLeaves false op s
           startOp (fcuOccur 184 { t with mgt := { t.mgt with xops := [], sector := none } })))) ∧
    (∀ trip ok, s.clk.trip = some trip → trip + us 1000 < s.now → s.mgt.xops ≠ [] →
      Does (.xspiOperationComplete ok) s (let t := opCut s; { t with mgt := { t.mgt with xops := [], restart := none } })) ∧
    (s.mgt.xops = [] → ∀ ok, Does (.xspiOperationComplete ok) s s) ∧
    (rf Reg.MGT_BOOT 3 2 s = 2 → rf Reg.MGT_STRAP 6 6 s = 0 →
      Does .recoveryReselect s
        (setBoot (some (.try_ 0)) (setRf Reg.MGT_BOOT 3 2 0 (emit (.xspiFloats false) (advanceTo s.mgt.again s))))) ∧
    (rf Reg.MGT_BOOT 3 2 s ≠ 2 → Does .recoveryReselect s s)

/-! ### Whole-block rules -/

/-- Registers of management space that have no rule of their own beside the access codes of their fields. -/
def Sys2Proof.Claims.plainRegs : List Nat :=
  [Reg.COL_CFG, Reg.LNK_CFG, Reg.TMU_CFG, Reg.TMU_SET, Reg.TMU_PORTMASK, Reg.FCU_STICKY, Reg.FCU_MERGED]

/-- R7, R471: a register write to a plain register of management space by a master that may make it changes that register alone: in the
bytes enabled an RW bit takes what is written, a W1C bit written as one is cleared, a W1S bit written as one is set; every other bit stays.
Model's choices that it rests on: log entry 6 (DESIGN CHOICE). -/
def Obligations.RegisterWritesFollowAccessCodes : Prop :=
  ∀ (m : Master) (off : BitVec 28) (be : BitVec 8) (v : BitVec 64) (d : RegDef) (s : State),
    let o := off.toNat / 8 * 8
    MgtWrites m s → m ≠ 0x801 → Open (regUnit o) s → regFind false o = some d → d.base ∈ plainRegs → d.bytes = 8 → be ≠ 0 →
    ∃ x : BitVec 64,
      Does (.registerWrite m off be (.data v)) s (wrReg o x s) ∧
      ∀ i < 64,
        let has (a : Acc) : Bool := (accMask [a] d.fields).getLsbD i
        let en := be.getLsbD (i / 8)
        let old := (rdReg o s).getLsbD i
        let new := v.getLsbD i
        (has .rw = true → has .w1c = false → has .w1s = false → x.getLsbD i = if en then new else old) ∧
        (has .w1c = true → has .rw = false → has .w1s = false → x.getLsbD i = (old && !(en && new))) ∧
        (has .w1s = true → has .rw = false → has .w1c = false → x.getLsbD i = (old || (en && new))) ∧
        (has .rw = false → has .w1c = false → has .w1s = false → x.getLsbD i = old)

/-- R80, R88, R90, R469: whatever part of an access passes the check of its keys names a descriptor of the accessing function that is VALID,
has the key's generation and all the rights asked, belongs to a domain of that function and holds the bytes; and every segment that the
access then makes lies in the function's permitted window. Model's choices that it rests on: log entry 35 (DEDUCED). -/
def Obligations.CheckedAccessesStayInside : Prop :=
  ∀ (a : Access) (own : List Leaf) (s : State) (segs : List Seg), checkParts a own s a.parts [] = .pass segs →
    (∀ g ∈ segs, inWindow a.fn g.bus g.len s = true) ∧
    ∀ p ∈ a.parts, keytabActive a.fn s = true ∧ ∃ d, tget s.xlt.descs (descKey a.fn (p.key.toNat / 256)) = some d ∧
      d.state = .valid ∧ d.gen.toNat = p.key.toNat % 256 ∧ d.rights &&& a.rights = a.rights ∧ pdOwned a.fn d.pd s = true ∧
      (∀ x, a.dom = some x → x = d.pd) ∧
      (a.testsOnly = false → d.va.toNat ≤ p.addr.toNat ∧ p.addr.toNat + p.len ≤ d.va.toNat + d.size.toNat)

/-- The commands that can end the hold of a block held in reset. -/
def Sys2Proof.Claims.wakes : Instr → Bool
  | .coldReset _ => true
  | .supplyReturn => true
  | _ => false

/-- The commands that reach a block held in reset besides: a supply that fails, and the two instructions of the debug port (R504). -/
def Sys2Proof.Claims.reachesHeld : Instr → Bool
  | .brownOut _ => true
  | .bypass => true
  | .idcode => true
  | _ => false

/-- R415, R482, R504, R508, R516: a block held in reset stays held by every step until a COLD reset or a supply's return; only a supply that
fails and the debug port's BYPASS and IDCODE reach it, and every other command leaves everything but the queue as it is. Model's choices
that it rests on: log entry 7 (DESIGN CHOICE). -/
def Obligations.HeldBlockStaysHeld : Prop :=
  ∀ s t : State, running s = false → (∀ c ∈ s.pending, wakes c = false) → step s = .next t →
    running t = false ∧ t.pending = s.pending.tail ∧ (∀ c ∈ t.pending, wakes c = false) ∧
    ((∀ c ∈ s.pending.head?, reachesHeld c = false) → t = { s with pending := s.pending.tail })

/-- The model's own form, which every step keeps: LDM and CSM, which read 0 where nothing is listed (DESIGN CHOICE, log entry 12), and the
flash, which reads 0xFF there, and the MGT's memories, which read 0 there, are listed with addresses rising strictly and without an entry
that equals what an unlisted address reads as. Model's choices that it rests on: log entries 11 (DESIGN CHOICE), 12 (DESIGN CHOICE). -/
def Obligations.EveryStepKeepsMemoryForm : Prop :=
  ∀ s t : State, Safe s → step s = .next t → Safe t

/-- R225, R326, R331, R366, R415, R440, R486: at reset GTIME is 0 and the time unit FREE, the power state is P0, HOST_READY is 0, no
function is frozen, every semaphore is free and every mailbox EMPTY, no link carries frames, no ring exists, nothing waits in the queue, and
the memories have their form. Model's choices that it rests on: log entries 1 (DESIGN CHOICE), 9 (DESIGN CHOICE), 11 (DESIGN CHOICE). -/
def Obligations.ResetState : Prop :=
  let s := State.reset
  s.gtime = 0 ∧ tmuState s = 0 ∧ powerState s = 0 ∧ hostReadyOn s = false ∧ (∀ f < 1024, frozen f s = false) ∧
  (∀ n, (getSem n s).holder = none ∧ (getSem n s).queue = []) ∧ (∀ n, (getMbx n s).state = .empty) ∧ (∀ p < 128, linkLive p s = false) ∧
  (∀ f r, getRing f r s = none) ∧ s.pending = [] ∧ running s = true ∧ Safe s

/-- R235, R236: a Taper instruction that is encoded and decoded again is itself, with every operand at every value, so no bit of an encoding
is dropped; and a word that decodes is the one word of its instruction, so no other word has its meaning. Model's choices that it rests on:
log entry 99 (DEDUCED). -/
def Obligations.TaperDecodesWhatItEncodes : Prop :=
  (∀ (i : Instr) (w : BitVec 32), taperEncode i = some w → ∃ c, taperDecode c w = some i) ∧
  (∀ (c : CoreId) (w : BitVec 32) (i : Instr), taperDecode c w = some i → taperEncode i = some w)


end Statements
end

