-- ==== Sys2Proof/Laws/Tables.lean ====
section
/-! SUPPORT. Tables and free identifiers: what a read gives after a write or a removal, and the order of the keys. -/

namespace Sys2Proof.Machine

/-- Every key of a table is above a bound. -/
def Tab.above {α : Type} (b : Nat) (t : Tab α) : Prop := ∀ x ∈ t, b < x.1

theorem Tab.wf_tail {α : Type} {k : Nat} {v : α} {t : Tab α} (h : Tab.wf ((k, v) :: t) = true) : Tab.wf t = true := by
  cases t with
  | nil => rfl
  | cons y t => obtain ⟨k', v'⟩ := y; simp [Tab.wf] at h; exact h.2

theorem Tab.wf_above {α : Type} {k : Nat} {v : α} {t : Tab α} (h : Tab.wf ((k, v) :: t) = true) : Tab.above k t := by
  induction t generalizing k v with
  | nil => intro x hx; cases hx
  | cons y t ih =>
    obtain ⟨k', v'⟩ := y
    simp [Tab.wf] at h
    intro x hx
    cases hx with
    | head => exact h.1
    | tail _ hx => exact Nat.lt_trans h.1 (ih h.2 x hx)

theorem Tab.wf_cons {α : Type} {k : Nat} {v : α} {t : Tab α} (ha : Tab.above k t) (h : Tab.wf t = true) :
    Tab.wf ((k, v) :: t) = true := by
  cases t with
  | nil => rfl
  | cons y t => obtain ⟨k', v'⟩ := y; simp [Tab.wf, h]; exact ha _ (List.mem_cons_self ..)

theorem tget_above {α : Type} {i : Nat} {t : Tab α} (h : Tab.above i t) : tget t i = none := by
  cases t with
  | nil => rfl
  | cons y t =>
    obtain ⟨k, v⟩ := y
    have hk : i < k := h _ (List.mem_cons_self ..)
    have hne : ¬k = i := by omega
    simp [tget, hne, hk]

@[simp] theorem tget_tset_same {α : Type} (t : Tab α) (i : Nat) (x : α) : tget (tset t i x) i = some x := by
  induction t with
  | nil => simp [tset, tget]
  | cons y t ih =>
    obtain ⟨k, v⟩ := y
    by_cases h : k = i
    · simp [tset, tget, h]
    · by_cases h' : i < k
      · simp [tset, tget, h, h']
      · simp [tset, tget, h, h', ih]

theorem tget_tset_ne {α : Type} (t : Tab α) {i j : Nat} (x : α) (hij : j ≠ i) : tget (tset t i x) j = tget t j := by
  induction t with
  | nil => simp [tset, tget, Ne.symm hij]
  | cons y t ih =>
    obtain ⟨k, v⟩ := y
    have hij' : ¬i = j := Ne.symm hij
    by_cases h : k = i
    · subst h; simp [tset, tget, hij']
    · by_cases h' : i < k
      · simp only [tset, h, h', beq_iff_eq, if_true, if_false]
        by_cases hj : j < i
        · have h1 : ¬k = j := by omega
          have h2 : j < k := by omega
          simp [tget, hij', hj, h1, h2]
        · simp [tget, hij', hj]
      · simp only [tset, h, h', beq_iff_eq, if_false]
        by_cases h2 : k = j
        · simp [tget, h2]
        · by_cases h3 : j < k
          · simp [tget, h2, h3]
          · simp [tget, h2, h3, ih]

theorem tget_tset {α : Type} (t : Tab α) (i j : Nat) (x : α) : tget (tset t i x) j = if j = i then some x else tget t j := by
  by_cases h : j = i
  · simp [h]
  · simp [h, tget_tset_ne t x h]

theorem tset_above {α : Type} {b i : Nat} {t : Tab α} {x : α} (h : Tab.above b t) (hi : b < i) : Tab.above b (tset t i x) := by
  induction t with
  | nil => intro y hy; simp [tset] at hy; subst hy; exact hi
  | cons y t ih =>
    obtain ⟨k, v⟩ := y
    have hk : b < k := h _ (List.mem_cons_self ..)
    have ht : Tab.above b t := fun z hz => h z (List.mem_cons_of_mem _ hz)
    intro z hz
    simp only [tset] at hz
    split at hz
    · cases hz with
      | head => exact hi
      | tail _ hz => exact ht z hz
    · split at hz
      · cases hz with
        | head => exact hi
        | tail _ hz => exact h z hz
      · cases hz with
        | head => exact hk
        | tail _ hz => exact ih ht z hz

theorem tset_wf {α : Type} {t : Tab α} (i : Nat) (x : α) (h : Tab.wf t = true) : Tab.wf (tset t i x) = true := by
  induction t with
  | nil => rfl
  | cons y t ih =>
    obtain ⟨k, v⟩ := y
    have ha := Tab.wf_above h
    have ht := Tab.wf_tail h
    simp only [tset]
    split
    · rename_i e
      have e : k = i := by simpa using e
      exact Tab.wf_cons (e ▸ ha) ht
    · split
      · rename_i hlt
        refine Tab.wf_cons ?_ h
        intro z hz
        cases hz with
        | head => exact hlt
        | tail _ hz => exact Nat.lt_trans hlt (ha z hz)
      · rename_i e hlt
        have e : ¬k = i := by simpa using e
        exact Tab.wf_cons (tset_above ha (by omega)) (ih ht)

theorem tdel_mem {α : Type} {t : Tab α} {i : Nat} {z : Nat × α} (h : z ∈ tdel t i) : z ∈ t := by
  induction t with
  | nil => cases h
  | cons y t ih =>
    obtain ⟨k, v⟩ := y
    simp only [tdel] at h
    split at h
    · exact List.mem_cons_of_mem _ h
    · split at h
      · exact h
      · cases h with
        | head => exact List.mem_cons_self ..
        | tail _ h => exact List.mem_cons_of_mem _ (ih h)

theorem tdel_wf {α : Type} {t : Tab α} (i : Nat) (h : Tab.wf t = true) : Tab.wf (tdel t i) = true := by
  induction t with
  | nil => rfl
  | cons y t ih =>
    obtain ⟨k, v⟩ := y
    simp only [tdel]
    split
    · exact Tab.wf_tail h
    · split
      · exact h
      · exact Tab.wf_cons (fun z hz => Tab.wf_above h z (tdel_mem hz)) (ih (Tab.wf_tail h))

theorem tmod_wf {α : Type} {t : Tab α} (i : Nat) (f : α → α) (h : Tab.wf t = true) : Tab.wf (tmod t i f) = true := by
  unfold tmod
  split
  · exact tset_wf i _ h
  · exact h

theorem tget_tdel {α : Type} {t : Tab α} (i j : Nat) (h : Tab.wf t = true) :
    tget (tdel t i) j = if j = i then none else tget t j := by
  induction t with
  | nil => simp [tdel, tget]
  | cons y t ih =>
    obtain ⟨k, v⟩ := y
    have ha := Tab.wf_above h
    by_cases e : k = i
    · subst e
      simp only [tdel, beq_self_eq_true, if_true]
      by_cases hj : j = k
      · subst hj; simp [tget_above ha]
      · by_cases hlt : j < k
        · have hab : Tab.above j t := fun z hz => Nat.lt_trans hlt (ha z hz)
          have hne : ¬k = j := by omega
          simp [hj, tget_above hab, tget, hlt, hne]
        · have hne : ¬k = j := by omega
          simp [hj, tget, hlt, hne]
    · by_cases hlt : i < k
      · simp only [tdel, e, hlt, beq_iff_eq, if_true, if_false]
        by_cases hj : j = i
        · subst hj; simp [tget, e, hlt]
        · simp [hj]
      · simp only [tdel, e, hlt, beq_iff_eq, if_false]
        by_cases hj : k = j
        · subst hj; simp [tget, e]
        · by_cases hjk : j < k
          · simp [tget, hj, hjk]
          · simp [ih (Tab.wf_tail h), tget, hj, hjk]

theorem tget_tmod {α : Type} (t : Tab α) (i j : Nat) (f : α → α) :
    tget (tmod t i f) j = if j = i then (tget t i).map f else tget t j := by
  unfold tmod
  cases h : tget t i with
  | none => by_cases e : j = i <;> simp [e, h]
  | some x => simp [tget_tset]

/-- The identifier that `tfree` finds is free and lies in the range (R56, R66, R70). -/
theorem tfree_spec {α : Type} (t : Tab α) (hi : Nat) : ∀ (n lo i : Nat), tfree t hi lo n = some i →
    lo ≤ i ∧ i < hi ∧ tget t i = none := by
  intro n
  induction n with
  | zero => intro lo i h; simp [tfree] at h
  | succ n ih =>
    intro lo i h
    simp only [tfree] at h
    split at h
    · cases h
    · split at h
      · rename_i h1 h2
        have := Option.some.inj h
        subst this
        exact ⟨Nat.le_refl _, by omega, Option.isNone_iff_eq_none.mp h2⟩
      · obtain ⟨a, b, c⟩ := ih _ _ h
        exact ⟨by omega, b, c⟩

end Sys2Proof.Machine
end

