-- ==== Sys2Proof/Laws/Crossings.lean ====
section
/-! SUPPORT. What the operations of the crossings, of the SEC's commands and of the Lantern buffer can do. -/

namespace Sys2Proof.Machine

/-- A write reaches its block while the crossing is open. -/
theorem cross_open {src : Nat} {r : HeldReq} {k : State → State} {s : State} (h : crossingShut src s = false) :
    cross src r k s = k s := by simp [cross, h]

/-- A write is held while the crossing is shut. -/
theorem cross_shut {src : Nat} {r : HeldReq} {k : State → State} {s : State} (h : crossingShut src s = true) :
    cross src r k s = holdReq r s := by simp [cross, h]

@[simp] theorem holdReq_held (r : HeldReq) (s : State) : (holdReq r s).snf.held = s.snf.held ++ [r] := rfl
@[simp] theorem holdReq_regs (r : HeldReq) (s : State) : (holdReq r s).regs = s.regs := rfl

/-- With nothing held, nothing happens when crossings open. -/
theorem heldRelease_none {s : State} (h : s.snf.held = []) : heldRelease s = s := by
  have e : { s with snf := { s.snf with held := [] } } = s := by rw [← h]
  simp [heldRelease, h, e]

/-- A word of the Lantern buffer reads as it was written, and every other one as before. -/
theorem lanternWord_set (j k : Nat) (v : BitVec 64) (s : State) :
    lanternWord k (lanternSet j v s) = if k = j then v else lanternWord k s := by
  by_cases h : k = j
  · subst h; simp [lanternWord, lanternSet]
  · simp [lanternWord, lanternSet, h, tget_tset_ne]

/-- A command of the SEC runs for 2 ms at most (R426, R433). -/
theorem secRuns_due (op result : Nat) (s : State) :
    ∃ t, (secRuns op result s).sec.job = some ⟨op, result, t⟩ ∧ t ≤ s.now + us 2000 := by
  refine ⟨_, rfl, ?_⟩
  dsimp only
  omega

end Sys2Proof.Machine
end

