-- ==== Sys2Proof/Laws/Memory.lean ====
section
/-! SUPPORT. Memories inside the block: a read after a write, and the canonical form that every operation keeps. -/

namespace Sys2Proof.Machine

theorem Memory.wf_tail {d : Byte} {k : Nat} {v : Byte} {t : List Host.Cell} (h : Memory.wf d ((k, v) :: t) = true) :
    Memory.wf d t = true := by
  cases t with
  | nil => rfl
  | cons y t => obtain ⟨k', v'⟩ := y; simp [Memory.wf] at h; exact h.2

theorem Memory.wf_head {d : Byte} {k : Nat} {v : Byte} {t : List Host.Cell} (h : Memory.wf d ((k, v) :: t) = true) :
    v ≠ d := by
  cases t with
  | nil => simpa [Memory.wf] using h
  | cons y t => obtain ⟨k', v'⟩ := y; simp [Memory.wf] at h; exact h.1.1

theorem Memory.wf_above {d : Byte} {k : Nat} {v : Byte} {t : List Host.Cell} (h : Memory.wf d ((k, v) :: t) = true) :
    ∀ x ∈ t, k < x.1 := by
  induction t generalizing k v with
  | nil => intro x hx; cases hx
  | cons y t ih =>
    obtain ⟨k', v'⟩ := y
    simp [Memory.wf] at h
    intro x hx
    cases hx with
    | head => exact h.1.2
    | tail _ hx => exact Nat.lt_trans h.1.2 (ih h.2 x hx)

theorem Memory.wf_cons {d : Byte} {k : Nat} {v : Byte} {t : List Host.Cell} (hv : v ≠ d) (ha : ∀ x ∈ t, k < x.1)
    (h : Memory.wf d t = true) : Memory.wf d ((k, v) :: t) = true := by
  cases t with
  | nil => simpa [Memory.wf] using hv
  | cons y t =>
    obtain ⟨k', v'⟩ := y
    simp only [Memory.wf, Bool.and_eq_true, bne_iff_ne, decide_eq_true_eq]
    exact ⟨⟨hv, ha _ (List.mem_cons_self ..)⟩, h⟩

theorem memGet_above {d : Byte} {m : List Host.Cell} {a : Nat} (h : ∀ x ∈ m, a < x.1) : memGet d m a = d := by
  cases m with
  | nil => rfl
  | cons y t =>
    obtain ⟨k, v⟩ := y
    have hk : a < k := h _ (List.mem_cons_self ..)
    have hne : ¬k = a := by omega
    simp [memGet, hne, hk]

theorem memSet_above {d : Byte} {m : List Host.Cell} {b a : Nat} {x : Byte} (h : ∀ y ∈ m, b < y.1) (ha : b < a) :
    ∀ y ∈ memSet d m a x, b < y.1 := by
  induction m with
  | nil =>
    intro y hy
    simp only [memSet] at hy
    split at hy
    · cases hy
    · simp at hy; subst hy; exact ha
  | cons z t ih =>
    obtain ⟨k, v⟩ := z
    have hk : b < k := h _ (List.mem_cons_self ..)
    have ht : ∀ y ∈ t, b < y.1 := fun y hy => h y (List.mem_cons_of_mem _ hy)
    intro y hy
    simp only [memSet] at hy
    split at hy
    · split at hy
      · exact ht y hy
      · cases hy with
        | head => exact ha
        | tail _ hy => exact ht y hy
    · split at hy
      · split at hy
        · exact h y hy
        · cases hy with
          | head => exact ha
          | tail _ hy => exact h y hy
      · cases hy with
        | head => exact hk
        | tail _ hy => exact ih ht y hy

/-- A write of one byte keeps the canonical form. -/
theorem memSet_wf {d : Byte} {m : List Host.Cell} (a : Nat) (x : Byte) (h : Memory.wf d m = true) :
    Memory.wf d (memSet d m a x) = true := by
  induction m with
  | nil => by_cases e : x = d <;> simp [memSet, e, Memory.wf]
  | cons y t ih =>
    obtain ⟨k, v⟩ := y
    have ha := Memory.wf_above h
    have ht := Memory.wf_tail h
    simp only [memSet]
    split
    · rename_i e
      have e : k = a := by simpa using e
      subst e
      split
      · exact ht
      · rename_i hx
        exact Memory.wf_cons (by simpa using hx) ha ht
    · split
      · rename_i hlt
        split
        · exact h
        · rename_i hx
          refine Memory.wf_cons (by simpa using hx) ?_ h
          intro z hz
          cases hz with
          | head => exact hlt
          | tail _ hz => exact Nat.lt_trans hlt (ha z hz)
      · rename_i e hlt
        have e : ¬k = a := by simpa using e
        exact Memory.wf_cons (Memory.wf_head h) (memSet_above ha (by omega)) (ih ht)

/-- A write of bytes keeps the canonical form. -/
theorem memWrite_wf {d : Byte} (bs : List Byte) : ∀ (m : List Host.Cell) (a : Nat), Memory.wf d m = true →
    Memory.wf d (memWrite d m a bs) = true := by
  induction bs with
  | nil => intro m a h; exact h
  | cons b t ih => intro m a h; exact ih _ _ (memSet_wf a b h)

/-- A read after a write of one byte: the byte written there, and every other byte as before. -/
theorem memGet_memSet {d : Byte} {m : List Host.Cell} (a b : Nat) (x : Byte) (h : Memory.wf d m = true) :
    memGet d (memSet d m a x) b = if b = a then x else memGet d m b := by
  induction m with
  | nil =>
    by_cases e : x = d
    · by_cases hb : b = a <;> simp [memSet, memGet, e, hb]
    · by_cases hb : b = a
      · simp [memSet, memGet, e, hb]
      · have : ¬a = b := fun h => hb h.symm
        simp [memSet, memGet, e, hb, this]
  | cons y t ih =>
    obtain ⟨k, v⟩ := y
    have ha := Memory.wf_above h
    have ht := Memory.wf_tail h
    by_cases e : k = a
    · subst e
      by_cases hx : x = d
      · simp only [memSet, beq_self_eq_true, if_true, hx]
        by_cases hb : b = k
        · subst hb; simp [memGet_above ha]
        · by_cases hlt : b < k
          · have : memGet d t b = d := memGet_above (fun z hz => Nat.lt_trans hlt (ha z hz))
            have hne : ¬k = b := fun h => hb h.symm
            simp [hb, this, memGet, hne, hlt]
          · have hne : ¬k = b := fun h => hb h.symm
            simp [hb, memGet, hne, hlt]
      · simp only [memSet, beq_self_eq_true, if_true, beq_iff_eq, hx, if_false]
        by_cases hb : b = k
        · simp [hb, memGet]
        · have hne : ¬k = b := fun h => hb h.symm
          simp [hb, memGet, hne]
    · by_cases hlt : a < k
      · by_cases hx : x = d
        · simp only [memSet, e, hlt, hx, beq_iff_eq, if_true, if_false]
          by_cases hb : b = a
          · subst hb; simp [memGet, e, hlt]
          · simp [hb]
        · simp only [memSet, e, hlt, hx, beq_iff_eq, if_true, if_false]
          by_cases hb : b = a
          · simp [hb, memGet]
          · have hne : ¬a = b := fun h => hb h.symm
            by_cases hba : b < a
            · have h1 : ¬k = b := by omega
              have h2 : b < k := by omega
              simp [hb, memGet, hne, hba, h1, h2]
            · simp [hb, memGet, hne, hba]
      · simp only [memSet, e, hlt, beq_iff_eq, if_false]
        by_cases hb : k = b
        · subst hb; simp [memGet, e]
        · by_cases hbk : b < k
          · have : ¬b = a := by omega
            simp [memGet, hb, hbk, this]
          · simp [memGet, hb, hbk, ih ht]

/-- Bytes outside a write read as before. -/
theorem memGet_memWrite_out {d : Byte} (bs : List Byte) : ∀ (m : List Host.Cell) (a b : Nat), Memory.wf d m = true →
    (b < a ∨ a + bs.length ≤ b) → memGet d (memWrite d m a bs) b = memGet d m b := by
  induction bs with
  | nil => intro m a b _ _; rfl
  | cons x t ih =>
    intro m a b h hb
    simp only [List.length_cons] at hb
    rw [memWrite, ih _ _ _ (memSet_wf a x h) (by omega), memGet_memSet a b x h]
    simp [show ¬b = a by omega]

/-- The bytes written read back. -/
theorem memRead_memWrite {d : Byte} (bs : List Byte) : ∀ (m : List Host.Cell) (a : Nat), Memory.wf d m = true →
    memRead d (memWrite d m a bs) a bs.length = bs := by
  induction bs with
  | nil => intro m a _; rfl
  | cons x t ih =>
    intro m a h
    have hw := memSet_wf (d := d) a x h
    simp only [List.length_cons, memRead, memWrite]
    rw [ih _ _ hw, memGet_memWrite_out t _ _ _ hw (by omega), memGet_memSet a a x h]
    simp

end Sys2Proof.Machine
end

