-- ==== Sys2Proof/Laws/State.lean ====
section
/-! SUPPORT. What each update of the State leaves in each field, so that no proof unfolds a record update. -/

namespace Sys2Proof.Machine

variable (s : State)

/-! `wrReg` -/

@[simp] theorem wrReg_regs (o : Nat) (v : BitVec 64) : (wrReg o v s).regs = tset s.regs o v := rfl
@[simp] theorem wrReg_fregs (o : Nat) (v : BitVec 64) : (wrReg o v s).fregs = s.fregs := rfl
@[simp] theorem wrReg_now (o : Nat) (v : BitVec 64) : (wrReg o v s).now = s.now := rfl
@[simp] theorem wrReg_gtime (o : Nat) (v : BitVec 64) : (wrReg o v s).gtime = s.gtime := rfl
@[simp] theorem wrReg_hif (o : Nat) (v : BitVec 64) : (wrReg o v s).hif = s.hif := rfl
@[simp] theorem wrReg_cmp (o : Nat) (v : BitVec 64) : (wrReg o v s).cmp = s.cmp := rfl
@[simp] theorem wrReg_xlt (o : Nat) (v : BitVec 64) : (wrReg o v s).xlt = s.xlt := rfl
@[simp] theorem wrReg_qpc (o : Nat) (v : BitVec 64) : (wrReg o v s).qpc = s.qpc := rfl
@[simp] theorem wrReg_txe (o : Nat) (v : BitVec 64) : (wrReg o v s).txe = s.txe := rfl
@[simp] theorem wrReg_rxe (o : Nat) (v : BitVec 64) : (wrReg o v s).rxe = s.rxe := rfl
@[simp] theorem wrReg_mte (o : Nat) (v : BitVec 64) : (wrReg o v s).mte = s.mte := rfl
@[simp] theorem wrReg_xbr (o : Nat) (v : BitVec 64) : (wrReg o v s).xbr = s.xbr := rfl
@[simp] theorem wrReg_links (o : Nat) (v : BitVec 64) : (wrReg o v s).links = s.links := rfl
@[simp] theorem wrReg_llt (o : Nat) (v : BitVec 64) : (wrReg o v s).llt = s.llt := rfl
@[simp] theorem wrReg_tmu (o : Nat) (v : BitVec 64) : (wrReg o v s).tmu = s.tmu := rfl
@[simp] theorem wrReg_col (o : Nat) (v : BitVec 64) : (wrReg o v s).col = s.col := rfl
@[simp] theorem wrReg_mbx (o : Nat) (v : BitVec 64) : (wrReg o v s).mbx = s.mbx := rfl
@[simp] theorem wrReg_tpr (o : Nat) (v : BitVec 64) : (wrReg o v s).tpr = s.tpr := rfl
@[simp] theorem wrReg_sems (o : Nat) (v : BitVec 64) : (wrReg o v s).sems = s.sems := rfl
@[simp] theorem wrReg_snf (o : Nat) (v : BitVec 64) : (wrReg o v s).snf = s.snf := rfl
@[simp] theorem wrReg_clk (o : Nat) (v : BitVec 64) : (wrReg o v s).clk = s.clk := rfl
@[simp] theorem wrReg_sec (o : Nat) (v : BitVec 64) : (wrReg o v s).sec = s.sec := rfl
@[simp] theorem wrReg_jtag (o : Nat) (v : BitVec 64) : (wrReg o v s).jtag = s.jtag := rfl
@[simp] theorem wrReg_ltn (o : Nat) (v : BitVec 64) : (wrReg o v s).ltn = s.ltn := rfl
@[simp] theorem wrReg_mgt (o : Nat) (v : BitVec 64) : (wrReg o v s).mgt = s.mgt := rfl
@[simp] theorem wrReg_stg (o : Nat) (v : BitVec 64) : (wrReg o v s).stg = s.stg := rfl
@[simp] theorem wrReg_out (o : Nat) (v : BitVec 64) : (wrReg o v s).out = s.out := rfl
@[simp] theorem wrReg_free (o : Nat) (v : BitVec 64) : (wrReg o v s).free = s.free := rfl
@[simp] theorem wrReg_pending (o : Nat) (v : BitVec 64) : (wrReg o v s).pending = s.pending := rfl

/-! `wrFn` -/

@[simp] theorem wrFn_regs (f o : Nat) (v : BitVec 64) : (wrFn f o v s).regs = s.regs := rfl
@[simp] theorem wrFn_fregs (f o : Nat) (v : BitVec 64) : (wrFn f o v s).fregs = tset s.fregs (fkey f o) v := rfl
@[simp] theorem wrFn_now (f o : Nat) (v : BitVec 64) : (wrFn f o v s).now = s.now := rfl
@[simp] theorem wrFn_gtime (f o : Nat) (v : BitVec 64) : (wrFn f o v s).gtime = s.gtime := rfl
@[simp] theorem wrFn_hif (f o : Nat) (v : BitVec 64) : (wrFn f o v s).hif = s.hif := rfl
@[simp] theorem wrFn_cmp (f o : Nat) (v : BitVec 64) : (wrFn f o v s).cmp = s.cmp := rfl
@[simp] theorem wrFn_xlt (f o : Nat) (v : BitVec 64) : (wrFn f o v s).xlt = s.xlt := rfl
@[simp] theorem wrFn_qpc (f o : Nat) (v : BitVec 64) : (wrFn f o v s).qpc = s.qpc := rfl
@[simp] theorem wrFn_txe (f o : Nat) (v : BitVec 64) : (wrFn f o v s).txe = s.txe := rfl
@[simp] theorem wrFn_rxe (f o : Nat) (v : BitVec 64) : (wrFn f o v s).rxe = s.rxe := rfl
@[simp] theorem wrFn_mte (f o : Nat) (v : BitVec 64) : (wrFn f o v s).mte = s.mte := rfl
@[simp] theorem wrFn_xbr (f o : Nat) (v : BitVec 64) : (wrFn f o v s).xbr = s.xbr := rfl
@[simp] theorem wrFn_links (f o : Nat) (v : BitVec 64) : (wrFn f o v s).links = s.links := rfl
@[simp] theorem wrFn_llt (f o : Nat) (v : BitVec 64) : (wrFn f o v s).llt = s.llt := rfl
@[simp] theorem wrFn_tmu (f o : Nat) (v : BitVec 64) : (wrFn f o v s).tmu = s.tmu := rfl
@[simp] theorem wrFn_col (f o : Nat) (v : BitVec 64) : (wrFn f o v s).col = s.col := rfl
@[simp] theorem wrFn_mbx (f o : Nat) (v : BitVec 64) : (wrFn f o v s).mbx = s.mbx := rfl
@[simp] theorem wrFn_tpr (f o : Nat) (v : BitVec 64) : (wrFn f o v s).tpr = s.tpr := rfl
@[simp] theorem wrFn_sems (f o : Nat) (v : BitVec 64) : (wrFn f o v s).sems = s.sems := rfl
@[simp] theorem wrFn_snf (f o : Nat) (v : BitVec 64) : (wrFn f o v s).snf = s.snf := rfl
@[simp] theorem wrFn_clk (f o : Nat) (v : BitVec 64) : (wrFn f o v s).clk = s.clk := rfl
@[simp] theorem wrFn_sec (f o : Nat) (v : BitVec 64) : (wrFn f o v s).sec = s.sec := rfl
@[simp] theorem wrFn_jtag (f o : Nat) (v : BitVec 64) : (wrFn f o v s).jtag = s.jtag := rfl
@[simp] theorem wrFn_ltn (f o : Nat) (v : BitVec 64) : (wrFn f o v s).ltn = s.ltn := rfl
@[simp] theorem wrFn_mgt (f o : Nat) (v : BitVec 64) : (wrFn f o v s).mgt = s.mgt := rfl
@[simp] theorem wrFn_stg (f o : Nat) (v : BitVec 64) : (wrFn f o v s).stg = s.stg := rfl
@[simp] theorem wrFn_out (f o : Nat) (v : BitVec 64) : (wrFn f o v s).out = s.out := rfl
@[simp] theorem wrFn_free (f o : Nat) (v : BitVec 64) : (wrFn f o v s).free = s.free := rfl
@[simp] theorem wrFn_pending (f o : Nat) (v : BitVec 64) : (wrFn f o v s).pending = s.pending := rfl

/-! `emit` -/

@[simp] theorem emit_regs (o : Output) : (emit o s).regs = s.regs := rfl
@[simp] theorem emit_fregs (o : Output) : (emit o s).fregs = s.fregs := rfl
@[simp] theorem emit_now (o : Output) : (emit o s).now = s.now := rfl
@[simp] theorem emit_gtime (o : Output) : (emit o s).gtime = s.gtime := rfl
@[simp] theorem emit_hif (o : Output) : (emit o s).hif = s.hif := rfl
@[simp] theorem emit_cmp (o : Output) : (emit o s).cmp = s.cmp := rfl
@[simp] theorem emit_xlt (o : Output) : (emit o s).xlt = s.xlt := rfl
@[simp] theorem emit_qpc (o : Output) : (emit o s).qpc = s.qpc := rfl
@[simp] theorem emit_txe (o : Output) : (emit o s).txe = s.txe := rfl
@[simp] theorem emit_rxe (o : Output) : (emit o s).rxe = s.rxe := rfl
@[simp] theorem emit_mte (o : Output) : (emit o s).mte = s.mte := rfl
@[simp] theorem emit_xbr (o : Output) : (emit o s).xbr = s.xbr := rfl
@[simp] theorem emit_links (o : Output) : (emit o s).links = s.links := rfl
@[simp] theorem emit_llt (o : Output) : (emit o s).llt = s.llt := rfl
@[simp] theorem emit_tmu (o : Output) : (emit o s).tmu = s.tmu := rfl
@[simp] theorem emit_col (o : Output) : (emit o s).col = s.col := rfl
@[simp] theorem emit_mbx (o : Output) : (emit o s).mbx = s.mbx := rfl
@[simp] theorem emit_tpr (o : Output) : (emit o s).tpr = s.tpr := rfl
@[simp] theorem emit_sems (o : Output) : (emit o s).sems = s.sems := rfl
@[simp] theorem emit_snf (o : Output) : (emit o s).snf = s.snf := rfl
@[simp] theorem emit_clk (o : Output) : (emit o s).clk = s.clk := rfl
@[simp] theorem emit_sec (o : Output) : (emit o s).sec = s.sec := rfl
@[simp] theorem emit_jtag (o : Output) : (emit o s).jtag = s.jtag := rfl
@[simp] theorem emit_ltn (o : Output) : (emit o s).ltn = s.ltn := rfl
@[simp] theorem emit_mgt (o : Output) : (emit o s).mgt = s.mgt := rfl
@[simp] theorem emit_stg (o : Output) : (emit o s).stg = s.stg := rfl
@[simp] theorem emit_out (o : Output) : (emit o s).out = o :: s.out := rfl
@[simp] theorem emit_free (o : Output) : (emit o s).free = s.free := rfl
@[simp] theorem emit_pending (o : Output) : (emit o s).pending = s.pending := rfl

/-! `putRing` -/

@[simp] theorem putRing_regs (f r : Nat) (g : Ring) : (putRing f r g s).regs = s.regs := rfl
@[simp] theorem putRing_fregs (f r : Nat) (g : Ring) : (putRing f r g s).fregs = s.fregs := rfl
@[simp] theorem putRing_now (f r : Nat) (g : Ring) : (putRing f r g s).now = s.now := rfl
@[simp] theorem putRing_gtime (f r : Nat) (g : Ring) : (putRing f r g s).gtime = s.gtime := rfl
@[simp] theorem putRing_hif (f r : Nat) (g : Ring) : (putRing f r g s).hif = s.hif := rfl
@[simp] theorem putRing_xlt (f r : Nat) (g : Ring) : (putRing f r g s).xlt = s.xlt := rfl
@[simp] theorem putRing_qpc (f r : Nat) (g : Ring) : (putRing f r g s).qpc = s.qpc := rfl
@[simp] theorem putRing_txe (f r : Nat) (g : Ring) : (putRing f r g s).txe = s.txe := rfl
@[simp] theorem putRing_rxe (f r : Nat) (g : Ring) : (putRing f r g s).rxe = s.rxe := rfl
@[simp] theorem putRing_mte (f r : Nat) (g : Ring) : (putRing f r g s).mte = s.mte := rfl
@[simp] theorem putRing_xbr (f r : Nat) (g : Ring) : (putRing f r g s).xbr = s.xbr := rfl
@[simp] theorem putRing_links (f r : Nat) (g : Ring) : (putRing f r g s).links = s.links := rfl
@[simp] theorem putRing_llt (f r : Nat) (g : Ring) : (putRing f r g s).llt = s.llt := rfl
@[simp] theorem putRing_tmu (f r : Nat) (g : Ring) : (putRing f r g s).tmu = s.tmu := rfl
@[simp] theorem putRing_col (f r : Nat) (g : Ring) : (putRing f r g s).col = s.col := rfl
@[simp] theorem putRing_mbx (f r : Nat) (g : Ring) : (putRing f r g s).mbx = s.mbx := rfl
@[simp] theorem putRing_tpr (f r : Nat) (g : Ring) : (putRing f r g s).tpr = s.tpr := rfl
@[simp] theorem putRing_sems (f r : Nat) (g : Ring) : (putRing f r g s).sems = s.sems := rfl
@[simp] theorem putRing_snf (f r : Nat) (g : Ring) : (putRing f r g s).snf = s.snf := rfl
@[simp] theorem putRing_clk (f r : Nat) (g : Ring) : (putRing f r g s).clk = s.clk := rfl
@[simp] theorem putRing_sec (f r : Nat) (g : Ring) : (putRing f r g s).sec = s.sec := rfl
@[simp] theorem putRing_jtag (f r : Nat) (g : Ring) : (putRing f r g s).jtag = s.jtag := rfl
@[simp] theorem putRing_ltn (f r : Nat) (g : Ring) : (putRing f r g s).ltn = s.ltn := rfl
@[simp] theorem putRing_mgt (f r : Nat) (g : Ring) : (putRing f r g s).mgt = s.mgt := rfl
@[simp] theorem putRing_stg (f r : Nat) (g : Ring) : (putRing f r g s).stg = s.stg := rfl
@[simp] theorem putRing_out (f r : Nat) (g : Ring) : (putRing f r g s).out = s.out := rfl
@[simp] theorem putRing_free (f r : Nat) (g : Ring) : (putRing f r g s).free = s.free := rfl
@[simp] theorem putRing_pending (f r : Nat) (g : Ring) : (putRing f r g s).pending = s.pending := rfl

/-! `putArv` -/

@[simp] theorem putArv_regs (f a : Nat) (g : Arv) : (putArv f a g s).regs = s.regs := rfl
@[simp] theorem putArv_fregs (f a : Nat) (g : Arv) : (putArv f a g s).fregs = s.fregs := rfl
@[simp] theorem putArv_now (f a : Nat) (g : Arv) : (putArv f a g s).now = s.now := rfl
@[simp] theorem putArv_gtime (f a : Nat) (g : Arv) : (putArv f a g s).gtime = s.gtime := rfl
@[simp] theorem putArv_hif (f a : Nat) (g : Arv) : (putArv f a g s).hif = s.hif := rfl
@[simp] theorem putArv_xlt (f a : Nat) (g : Arv) : (putArv f a g s).xlt = s.xlt := rfl
@[simp] theorem putArv_qpc (f a : Nat) (g : Arv) : (putArv f a g s).qpc = s.qpc := rfl
@[simp] theorem putArv_txe (f a : Nat) (g : Arv) : (putArv f a g s).txe = s.txe := rfl
@[simp] theorem putArv_rxe (f a : Nat) (g : Arv) : (putArv f a g s).rxe = s.rxe := rfl
@[simp] theorem putArv_mte (f a : Nat) (g : Arv) : (putArv f a g s).mte = s.mte := rfl
@[simp] theorem putArv_xbr (f a : Nat) (g : Arv) : (putArv f a g s).xbr = s.xbr := rfl
@[simp] theorem putArv_links (f a : Nat) (g : Arv) : (putArv f a g s).links = s.links := rfl
@[simp] theorem putArv_llt (f a : Nat) (g : Arv) : (putArv f a g s).llt = s.llt := rfl
@[simp] theorem putArv_tmu (f a : Nat) (g : Arv) : (putArv f a g s).tmu = s.tmu := rfl
@[simp] theorem putArv_col (f a : Nat) (g : Arv) : (putArv f a g s).col = s.col := rfl
@[simp] theorem putArv_mbx (f a : Nat) (g : Arv) : (putArv f a g s).mbx = s.mbx := rfl
@[simp] theorem putArv_tpr (f a : Nat) (g : Arv) : (putArv f a g s).tpr = s.tpr := rfl
@[simp] theorem putArv_sems (f a : Nat) (g : Arv) : (putArv f a g s).sems = s.sems := rfl
@[simp] theorem putArv_snf (f a : Nat) (g : Arv) : (putArv f a g s).snf = s.snf := rfl
@[simp] theorem putArv_clk (f a : Nat) (g : Arv) : (putArv f a g s).clk = s.clk := rfl
@[simp] theorem putArv_sec (f a : Nat) (g : Arv) : (putArv f a g s).sec = s.sec := rfl
@[simp] theorem putArv_jtag (f a : Nat) (g : Arv) : (putArv f a g s).jtag = s.jtag := rfl
@[simp] theorem putArv_ltn (f a : Nat) (g : Arv) : (putArv f a g s).ltn = s.ltn := rfl
@[simp] theorem putArv_mgt (f a : Nat) (g : Arv) : (putArv f a g s).mgt = s.mgt := rfl
@[simp] theorem putArv_stg (f a : Nat) (g : Arv) : (putArv f a g s).stg = s.stg := rfl
@[simp] theorem putArv_out (f a : Nat) (g : Arv) : (putArv f a g s).out = s.out := rfl
@[simp] theorem putArv_free (f a : Nat) (g : Arv) : (putArv f a g s).free = s.free := rfl
@[simp] theorem putArv_pending (f a : Nat) (g : Arv) : (putArv f a g s).pending = s.pending := rfl

/-! `putQp` -/

@[simp] theorem putQp_regs (q : Nat) (x : Qp) : (putQp q x s).regs = s.regs := rfl
@[simp] theorem putQp_fregs (q : Nat) (x : Qp) : (putQp q x s).fregs = s.fregs := rfl
@[simp] theorem putQp_now (q : Nat) (x : Qp) : (putQp q x s).now = s.now := rfl
@[simp] theorem putQp_gtime (q : Nat) (x : Qp) : (putQp q x s).gtime = s.gtime := rfl
@[simp] theorem putQp_hif (q : Nat) (x : Qp) : (putQp q x s).hif = s.hif := rfl
@[simp] theorem putQp_cmp (q : Nat) (x : Qp) : (putQp q x s).cmp = s.cmp := rfl
@[simp] theorem putQp_xlt (q : Nat) (x : Qp) : (putQp q x s).xlt = s.xlt := rfl
@[simp] theorem putQp_qpc (q : Nat) (x : Qp) : (putQp q x s).qpc = { s.qpc with qps := tset s.qpc.qps q x } := rfl
@[simp] theorem putQp_txe (q : Nat) (x : Qp) : (putQp q x s).txe = s.txe := rfl
@[simp] theorem putQp_rxe (q : Nat) (x : Qp) : (putQp q x s).rxe = s.rxe := rfl
@[simp] theorem putQp_mte (q : Nat) (x : Qp) : (putQp q x s).mte = s.mte := rfl
@[simp] theorem putQp_xbr (q : Nat) (x : Qp) : (putQp q x s).xbr = s.xbr := rfl
@[simp] theorem putQp_links (q : Nat) (x : Qp) : (putQp q x s).links = s.links := rfl
@[simp] theorem putQp_llt (q : Nat) (x : Qp) : (putQp q x s).llt = s.llt := rfl
@[simp] theorem putQp_tmu (q : Nat) (x : Qp) : (putQp q x s).tmu = s.tmu := rfl
@[simp] theorem putQp_col (q : Nat) (x : Qp) : (putQp q x s).col = s.col := rfl
@[simp] theorem putQp_mbx (q : Nat) (x : Qp) : (putQp q x s).mbx = s.mbx := rfl
@[simp] theorem putQp_tpr (q : Nat) (x : Qp) : (putQp q x s).tpr = s.tpr := rfl
@[simp] theorem putQp_sems (q : Nat) (x : Qp) : (putQp q x s).sems = s.sems := rfl
@[simp] theorem putQp_snf (q : Nat) (x : Qp) : (putQp q x s).snf = s.snf := rfl
@[simp] theorem putQp_clk (q : Nat) (x : Qp) : (putQp q x s).clk = s.clk := rfl
@[simp] theorem putQp_sec (q : Nat) (x : Qp) : (putQp q x s).sec = s.sec := rfl
@[simp] theorem putQp_jtag (q : Nat) (x : Qp) : (putQp q x s).jtag = s.jtag := rfl
@[simp] theorem putQp_ltn (q : Nat) (x : Qp) : (putQp q x s).ltn = s.ltn := rfl
@[simp] theorem putQp_mgt (q : Nat) (x : Qp) : (putQp q x s).mgt = s.mgt := rfl
@[simp] theorem putQp_stg (q : Nat) (x : Qp) : (putQp q x s).stg = s.stg := rfl
@[simp] theorem putQp_out (q : Nat) (x : Qp) : (putQp q x s).out = s.out := rfl
@[simp] theorem putQp_free (q : Nat) (x : Qp) : (putQp q x s).free = s.free := rfl
@[simp] theorem putQp_pending (q : Nat) (x : Qp) : (putQp q x s).pending = s.pending := rfl

/-! `withDrains` -/

@[simp] theorem withDrains_regs (d : List Drain) : (withDrains d s).regs = s.regs := rfl
@[simp] theorem withDrains_fregs (d : List Drain) : (withDrains d s).fregs = s.fregs := rfl
@[simp] theorem withDrains_now (d : List Drain) : (withDrains d s).now = s.now := rfl
@[simp] theorem withDrains_gtime (d : List Drain) : (withDrains d s).gtime = s.gtime := rfl
@[simp] theorem withDrains_hif (d : List Drain) : (withDrains d s).hif = s.hif := rfl
@[simp] theorem withDrains_cmp (d : List Drain) : (withDrains d s).cmp = s.cmp := rfl
@[simp] theorem withDrains_xlt (d : List Drain) : (withDrains d s).xlt = { s.xlt with drains := d } := rfl
@[simp] theorem withDrains_qpc (d : List Drain) : (withDrains d s).qpc = s.qpc := rfl
@[simp] theorem withDrains_txe (d : List Drain) : (withDrains d s).txe = s.txe := rfl
@[simp] theorem withDrains_rxe (d : List Drain) : (withDrains d s).rxe = s.rxe := rfl
@[simp] theorem withDrains_mte (d : List Drain) : (withDrains d s).mte = s.mte := rfl
@[simp] theorem withDrains_xbr (d : List Drain) : (withDrains d s).xbr = s.xbr := rfl
@[simp] theorem withDrains_links (d : List Drain) : (withDrains d s).links = s.links := rfl
@[simp] theorem withDrains_llt (d : List Drain) : (withDrains d s).llt = s.llt := rfl
@[simp] theorem withDrains_tmu (d : List Drain) : (withDrains d s).tmu = s.tmu := rfl
@[simp] theorem withDrains_col (d : List Drain) : (withDrains d s).col = s.col := rfl
@[simp] theorem withDrains_mbx (d : List Drain) : (withDrains d s).mbx = s.mbx := rfl
@[simp] theorem withDrains_tpr (d : List Drain) : (withDrains d s).tpr = s.tpr := rfl
@[simp] theorem withDrains_sems (d : List Drain) : (withDrains d s).sems = s.sems := rfl
@[simp] theorem withDrains_snf (d : List Drain) : (withDrains d s).snf = s.snf := rfl
@[simp] theorem withDrains_clk (d : List Drain) : (withDrains d s).clk = s.clk := rfl
@[simp] theorem withDrains_sec (d : List Drain) : (withDrains d s).sec = s.sec := rfl
@[simp] theorem withDrains_jtag (d : List Drain) : (withDrains d s).jtag = s.jtag := rfl
@[simp] theorem withDrains_ltn (d : List Drain) : (withDrains d s).ltn = s.ltn := rfl
@[simp] theorem withDrains_mgt (d : List Drain) : (withDrains d s).mgt = s.mgt := rfl
@[simp] theorem withDrains_stg (d : List Drain) : (withDrains d s).stg = s.stg := rfl
@[simp] theorem withDrains_out (d : List Drain) : (withDrains d s).out = s.out := rfl
@[simp] theorem withDrains_free (d : List Drain) : (withDrains d s).free = s.free := rfl
@[simp] theorem withDrains_pending (d : List Drain) : (withDrains d s).pending = s.pending := rfl

/-! `withRxe` -/

@[simp] theorem withRxe_regs (f : Rxe → Rxe) : (withRxe f s).regs = s.regs := rfl
@[simp] theorem withRxe_fregs (f : Rxe → Rxe) : (withRxe f s).fregs = s.fregs := rfl
@[simp] theorem withRxe_now (f : Rxe → Rxe) : (withRxe f s).now = s.now := rfl
@[simp] theorem withRxe_gtime (f : Rxe → Rxe) : (withRxe f s).gtime = s.gtime := rfl
@[simp] theorem withRxe_hif (f : Rxe → Rxe) : (withRxe f s).hif = s.hif := rfl
@[simp] theorem withRxe_cmp (f : Rxe → Rxe) : (withRxe f s).cmp = s.cmp := rfl
@[simp] theorem withRxe_xlt (f : Rxe → Rxe) : (withRxe f s).xlt = s.xlt := rfl
@[simp] theorem withRxe_qpc (f : Rxe → Rxe) : (withRxe f s).qpc = s.qpc := rfl
@[simp] theorem withRxe_txe (f : Rxe → Rxe) : (withRxe f s).txe = s.txe := rfl
@[simp] theorem withRxe_rxe (f : Rxe → Rxe) : (withRxe f s).rxe = f s.rxe := rfl
@[simp] theorem withRxe_mte (f : Rxe → Rxe) : (withRxe f s).mte = s.mte := rfl
@[simp] theorem withRxe_xbr (f : Rxe → Rxe) : (withRxe f s).xbr = s.xbr := rfl
@[simp] theorem withRxe_links (f : Rxe → Rxe) : (withRxe f s).links = s.links := rfl
@[simp] theorem withRxe_llt (f : Rxe → Rxe) : (withRxe f s).llt = s.llt := rfl
@[simp] theorem withRxe_tmu (f : Rxe → Rxe) : (withRxe f s).tmu = s.tmu := rfl
@[simp] theorem withRxe_col (f : Rxe → Rxe) : (withRxe f s).col = s.col := rfl
@[simp] theorem withRxe_mbx (f : Rxe → Rxe) : (withRxe f s).mbx = s.mbx := rfl
@[simp] theorem withRxe_tpr (f : Rxe → Rxe) : (withRxe f s).tpr = s.tpr := rfl
@[simp] theorem withRxe_sems (f : Rxe → Rxe) : (withRxe f s).sems = s.sems := rfl
@[simp] theorem withRxe_snf (f : Rxe → Rxe) : (withRxe f s).snf = s.snf := rfl
@[simp] theorem withRxe_clk (f : Rxe → Rxe) : (withRxe f s).clk = s.clk := rfl
@[simp] theorem withRxe_sec (f : Rxe → Rxe) : (withRxe f s).sec = s.sec := rfl
@[simp] theorem withRxe_jtag (f : Rxe → Rxe) : (withRxe f s).jtag = s.jtag := rfl
@[simp] theorem withRxe_ltn (f : Rxe → Rxe) : (withRxe f s).ltn = s.ltn := rfl
@[simp] theorem withRxe_mgt (f : Rxe → Rxe) : (withRxe f s).mgt = s.mgt := rfl
@[simp] theorem withRxe_stg (f : Rxe → Rxe) : (withRxe f s).stg = s.stg := rfl
@[simp] theorem withRxe_out (f : Rxe → Rxe) : (withRxe f s).out = s.out := rfl
@[simp] theorem withRxe_free (f : Rxe → Rxe) : (withRxe f s).free = s.free := rfl
@[simp] theorem withRxe_pending (f : Rxe → Rxe) : (withRxe f s).pending = s.pending := rfl

/-! `withMte` -/

@[simp] theorem withMte_regs (f : Mte → Mte) : (withMte f s).regs = s.regs := rfl
@[simp] theorem withMte_fregs (f : Mte → Mte) : (withMte f s).fregs = s.fregs := rfl
@[simp] theorem withMte_now (f : Mte → Mte) : (withMte f s).now = s.now := rfl
@[simp] theorem withMte_gtime (f : Mte → Mte) : (withMte f s).gtime = s.gtime := rfl
@[simp] theorem withMte_hif (f : Mte → Mte) : (withMte f s).hif = s.hif := rfl
@[simp] theorem withMte_cmp (f : Mte → Mte) : (withMte f s).cmp = s.cmp := rfl
@[simp] theorem withMte_xlt (f : Mte → Mte) : (withMte f s).xlt = s.xlt := rfl
@[simp] theorem withMte_qpc (f : Mte → Mte) : (withMte f s).qpc = s.qpc := rfl
@[simp] theorem withMte_txe (f : Mte → Mte) : (withMte f s).txe = s.txe := rfl
@[simp] theorem withMte_rxe (f : Mte → Mte) : (withMte f s).rxe = s.rxe := rfl
@[simp] theorem withMte_mte (f : Mte → Mte) : (withMte f s).mte = f s.mte := rfl
@[simp] theorem withMte_xbr (f : Mte → Mte) : (withMte f s).xbr = s.xbr := rfl
@[simp] theorem withMte_links (f : Mte → Mte) : (withMte f s).links = s.links := rfl
@[simp] theorem withMte_llt (f : Mte → Mte) : (withMte f s).llt = s.llt := rfl
@[simp] theorem withMte_tmu (f : Mte → Mte) : (withMte f s).tmu = s.tmu := rfl
@[simp] theorem withMte_col (f : Mte → Mte) : (withMte f s).col = s.col := rfl
@[simp] theorem withMte_mbx (f : Mte → Mte) : (withMte f s).mbx = s.mbx := rfl
@[simp] theorem withMte_tpr (f : Mte → Mte) : (withMte f s).tpr = s.tpr := rfl
@[simp] theorem withMte_sems (f : Mte → Mte) : (withMte f s).sems = s.sems := rfl
@[simp] theorem withMte_snf (f : Mte → Mte) : (withMte f s).snf = s.snf := rfl
@[simp] theorem withMte_clk (f : Mte → Mte) : (withMte f s).clk = s.clk := rfl
@[simp] theorem withMte_sec (f : Mte → Mte) : (withMte f s).sec = s.sec := rfl
@[simp] theorem withMte_jtag (f : Mte → Mte) : (withMte f s).jtag = s.jtag := rfl
@[simp] theorem withMte_ltn (f : Mte → Mte) : (withMte f s).ltn = s.ltn := rfl
@[simp] theorem withMte_mgt (f : Mte → Mte) : (withMte f s).mgt = s.mgt := rfl
@[simp] theorem withMte_stg (f : Mte → Mte) : (withMte f s).stg = s.stg := rfl
@[simp] theorem withMte_out (f : Mte → Mte) : (withMte f s).out = s.out := rfl
@[simp] theorem withMte_free (f : Mte → Mte) : (withMte f s).free = s.free := rfl
@[simp] theorem withMte_pending (f : Mte → Mte) : (withMte f s).pending = s.pending := rfl

/-! `withXbr` -/

@[simp] theorem withXbr_regs (f : Xbr → Xbr) : (withXbr f s).regs = s.regs := rfl
@[simp] theorem withXbr_fregs (f : Xbr → Xbr) : (withXbr f s).fregs = s.fregs := rfl
@[simp] theorem withXbr_now (f : Xbr → Xbr) : (withXbr f s).now = s.now := rfl
@[simp] theorem withXbr_gtime (f : Xbr → Xbr) : (withXbr f s).gtime = s.gtime := rfl
@[simp] theorem withXbr_hif (f : Xbr → Xbr) : (withXbr f s).hif = s.hif := rfl
@[simp] theorem withXbr_cmp (f : Xbr → Xbr) : (withXbr f s).cmp = s.cmp := rfl
@[simp] theorem withXbr_xlt (f : Xbr → Xbr) : (withXbr f s).xlt = s.xlt := rfl
@[simp] theorem withXbr_qpc (f : Xbr → Xbr) : (withXbr f s).qpc = s.qpc := rfl
@[simp] theorem withXbr_txe (f : Xbr → Xbr) : (withXbr f s).txe = s.txe := rfl
@[simp] theorem withXbr_rxe (f : Xbr → Xbr) : (withXbr f s).rxe = s.rxe := rfl
@[simp] theorem withXbr_mte (f : Xbr → Xbr) : (withXbr f s).mte = s.mte := rfl
@[simp] theorem withXbr_xbr (f : Xbr → Xbr) : (withXbr f s).xbr = f s.xbr := rfl
@[simp] theorem withXbr_links (f : Xbr → Xbr) : (withXbr f s).links = s.links := rfl
@[simp] theorem withXbr_llt (f : Xbr → Xbr) : (withXbr f s).llt = s.llt := rfl
@[simp] theorem withXbr_tmu (f : Xbr → Xbr) : (withXbr f s).tmu = s.tmu := rfl
@[simp] theorem withXbr_col (f : Xbr → Xbr) : (withXbr f s).col = s.col := rfl
@[simp] theorem withXbr_mbx (f : Xbr → Xbr) : (withXbr f s).mbx = s.mbx := rfl
@[simp] theorem withXbr_tpr (f : Xbr → Xbr) : (withXbr f s).tpr = s.tpr := rfl
@[simp] theorem withXbr_sems (f : Xbr → Xbr) : (withXbr f s).sems = s.sems := rfl
@[simp] theorem withXbr_snf (f : Xbr → Xbr) : (withXbr f s).snf = s.snf := rfl
@[simp] theorem withXbr_clk (f : Xbr → Xbr) : (withXbr f s).clk = s.clk := rfl
@[simp] theorem withXbr_sec (f : Xbr → Xbr) : (withXbr f s).sec = s.sec := rfl
@[simp] theorem withXbr_jtag (f : Xbr → Xbr) : (withXbr f s).jtag = s.jtag := rfl
@[simp] theorem withXbr_ltn (f : Xbr → Xbr) : (withXbr f s).ltn = s.ltn := rfl
@[simp] theorem withXbr_mgt (f : Xbr → Xbr) : (withXbr f s).mgt = s.mgt := rfl
@[simp] theorem withXbr_stg (f : Xbr → Xbr) : (withXbr f s).stg = s.stg := rfl
@[simp] theorem withXbr_out (f : Xbr → Xbr) : (withXbr f s).out = s.out := rfl
@[simp] theorem withXbr_free (f : Xbr → Xbr) : (withXbr f s).free = s.free := rfl
@[simp] theorem withXbr_pending (f : Xbr → Xbr) : (withXbr f s).pending = s.pending := rfl

/-! `withLlt` -/

@[simp] theorem withLlt_regs (f : Llt → Llt) : (withLlt f s).regs = s.regs := rfl
@[simp] theorem withLlt_fregs (f : Llt → Llt) : (withLlt f s).fregs = s.fregs := rfl
@[simp] theorem withLlt_now (f : Llt → Llt) : (withLlt f s).now = s.now := rfl
@[simp] theorem withLlt_gtime (f : Llt → Llt) : (withLlt f s).gtime = s.gtime := rfl
@[simp] theorem withLlt_hif (f : Llt → Llt) : (withLlt f s).hif = s.hif := rfl
@[simp] theorem withLlt_cmp (f : Llt → Llt) : (withLlt f s).cmp = s.cmp := rfl
@[simp] theorem withLlt_xlt (f : Llt → Llt) : (withLlt f s).xlt = s.xlt := rfl
@[simp] theorem withLlt_qpc (f : Llt → Llt) : (withLlt f s).qpc = s.qpc := rfl
@[simp] theorem withLlt_txe (f : Llt → Llt) : (withLlt f s).txe = s.txe := rfl
@[simp] theorem withLlt_rxe (f : Llt → Llt) : (withLlt f s).rxe = s.rxe := rfl
@[simp] theorem withLlt_mte (f : Llt → Llt) : (withLlt f s).mte = s.mte := rfl
@[simp] theorem withLlt_xbr (f : Llt → Llt) : (withLlt f s).xbr = s.xbr := rfl
@[simp] theorem withLlt_links (f : Llt → Llt) : (withLlt f s).links = s.links := rfl
@[simp] theorem withLlt_llt (f : Llt → Llt) : (withLlt f s).llt = f s.llt := rfl
@[simp] theorem withLlt_tmu (f : Llt → Llt) : (withLlt f s).tmu = s.tmu := rfl
@[simp] theorem withLlt_col (f : Llt → Llt) : (withLlt f s).col = s.col := rfl
@[simp] theorem withLlt_mbx (f : Llt → Llt) : (withLlt f s).mbx = s.mbx := rfl
@[simp] theorem withLlt_tpr (f : Llt → Llt) : (withLlt f s).tpr = s.tpr := rfl
@[simp] theorem withLlt_sems (f : Llt → Llt) : (withLlt f s).sems = s.sems := rfl
@[simp] theorem withLlt_snf (f : Llt → Llt) : (withLlt f s).snf = s.snf := rfl
@[simp] theorem withLlt_clk (f : Llt → Llt) : (withLlt f s).clk = s.clk := rfl
@[simp] theorem withLlt_sec (f : Llt → Llt) : (withLlt f s).sec = s.sec := rfl
@[simp] theorem withLlt_jtag (f : Llt → Llt) : (withLlt f s).jtag = s.jtag := rfl
@[simp] theorem withLlt_ltn (f : Llt → Llt) : (withLlt f s).ltn = s.ltn := rfl
@[simp] theorem withLlt_mgt (f : Llt → Llt) : (withLlt f s).mgt = s.mgt := rfl
@[simp] theorem withLlt_stg (f : Llt → Llt) : (withLlt f s).stg = s.stg := rfl
@[simp] theorem withLlt_out (f : Llt → Llt) : (withLlt f s).out = s.out := rfl
@[simp] theorem withLlt_free (f : Llt → Llt) : (withLlt f s).free = s.free := rfl
@[simp] theorem withLlt_pending (f : Llt → Llt) : (withLlt f s).pending = s.pending := rfl

/-! `withCol` -/

@[simp] theorem withCol_regs (f : Col → Col) : (withCol f s).regs = s.regs := rfl
@[simp] theorem withCol_fregs (f : Col → Col) : (withCol f s).fregs = s.fregs := rfl
@[simp] theorem withCol_now (f : Col → Col) : (withCol f s).now = s.now := rfl
@[simp] theorem withCol_gtime (f : Col → Col) : (withCol f s).gtime = s.gtime := rfl
@[simp] theorem withCol_hif (f : Col → Col) : (withCol f s).hif = s.hif := rfl
@[simp] theorem withCol_cmp (f : Col → Col) : (withCol f s).cmp = s.cmp := rfl
@[simp] theorem withCol_xlt (f : Col → Col) : (withCol f s).xlt = s.xlt := rfl
@[simp] theorem withCol_qpc (f : Col → Col) : (withCol f s).qpc = s.qpc := rfl
@[simp] theorem withCol_txe (f : Col → Col) : (withCol f s).txe = s.txe := rfl
@[simp] theorem withCol_rxe (f : Col → Col) : (withCol f s).rxe = s.rxe := rfl
@[simp] theorem withCol_mte (f : Col → Col) : (withCol f s).mte = s.mte := rfl
@[simp] theorem withCol_xbr (f : Col → Col) : (withCol f s).xbr = s.xbr := rfl
@[simp] theorem withCol_links (f : Col → Col) : (withCol f s).links = s.links := rfl
@[simp] theorem withCol_llt (f : Col → Col) : (withCol f s).llt = s.llt := rfl
@[simp] theorem withCol_tmu (f : Col → Col) : (withCol f s).tmu = s.tmu := rfl
@[simp] theorem withCol_col (f : Col → Col) : (withCol f s).col = f s.col := rfl
@[simp] theorem withCol_mbx (f : Col → Col) : (withCol f s).mbx = s.mbx := rfl
@[simp] theorem withCol_tpr (f : Col → Col) : (withCol f s).tpr = s.tpr := rfl
@[simp] theorem withCol_sems (f : Col → Col) : (withCol f s).sems = s.sems := rfl
@[simp] theorem withCol_snf (f : Col → Col) : (withCol f s).snf = s.snf := rfl
@[simp] theorem withCol_clk (f : Col → Col) : (withCol f s).clk = s.clk := rfl
@[simp] theorem withCol_sec (f : Col → Col) : (withCol f s).sec = s.sec := rfl
@[simp] theorem withCol_jtag (f : Col → Col) : (withCol f s).jtag = s.jtag := rfl
@[simp] theorem withCol_ltn (f : Col → Col) : (withCol f s).ltn = s.ltn := rfl
@[simp] theorem withCol_mgt (f : Col → Col) : (withCol f s).mgt = s.mgt := rfl
@[simp] theorem withCol_stg (f : Col → Col) : (withCol f s).stg = s.stg := rfl
@[simp] theorem withCol_out (f : Col → Col) : (withCol f s).out = s.out := rfl
@[simp] theorem withCol_free (f : Col → Col) : (withCol f s).free = s.free := rfl
@[simp] theorem withCol_pending (f : Col → Col) : (withCol f s).pending = s.pending := rfl

/-! `withTpr` -/

@[simp] theorem withTpr_regs (f : Tpr → Tpr) : (withTpr f s).regs = s.regs := rfl
@[simp] theorem withTpr_fregs (f : Tpr → Tpr) : (withTpr f s).fregs = s.fregs := rfl
@[simp] theorem withTpr_now (f : Tpr → Tpr) : (withTpr f s).now = s.now := rfl
@[simp] theorem withTpr_gtime (f : Tpr → Tpr) : (withTpr f s).gtime = s.gtime := rfl
@[simp] theorem withTpr_hif (f : Tpr → Tpr) : (withTpr f s).hif = s.hif := rfl
@[simp] theorem withTpr_cmp (f : Tpr → Tpr) : (withTpr f s).cmp = s.cmp := rfl
@[simp] theorem withTpr_xlt (f : Tpr → Tpr) : (withTpr f s).xlt = s.xlt := rfl
@[simp] theorem withTpr_qpc (f : Tpr → Tpr) : (withTpr f s).qpc = s.qpc := rfl
@[simp] theorem withTpr_txe (f : Tpr → Tpr) : (withTpr f s).txe = s.txe := rfl
@[simp] theorem withTpr_rxe (f : Tpr → Tpr) : (withTpr f s).rxe = s.rxe := rfl
@[simp] theorem withTpr_mte (f : Tpr → Tpr) : (withTpr f s).mte = s.mte := rfl
@[simp] theorem withTpr_xbr (f : Tpr → Tpr) : (withTpr f s).xbr = s.xbr := rfl
@[simp] theorem withTpr_links (f : Tpr → Tpr) : (withTpr f s).links = s.links := rfl
@[simp] theorem withTpr_llt (f : Tpr → Tpr) : (withTpr f s).llt = s.llt := rfl
@[simp] theorem withTpr_tmu (f : Tpr → Tpr) : (withTpr f s).tmu = s.tmu := rfl
@[simp] theorem withTpr_col (f : Tpr → Tpr) : (withTpr f s).col = s.col := rfl
@[simp] theorem withTpr_mbx (f : Tpr → Tpr) : (withTpr f s).mbx = s.mbx := rfl
@[simp] theorem withTpr_tpr (f : Tpr → Tpr) : (withTpr f s).tpr = f s.tpr := rfl
@[simp] theorem withTpr_sems (f : Tpr → Tpr) : (withTpr f s).sems = s.sems := rfl
@[simp] theorem withTpr_snf (f : Tpr → Tpr) : (withTpr f s).snf = s.snf := rfl
@[simp] theorem withTpr_clk (f : Tpr → Tpr) : (withTpr f s).clk = s.clk := rfl
@[simp] theorem withTpr_sec (f : Tpr → Tpr) : (withTpr f s).sec = s.sec := rfl
@[simp] theorem withTpr_jtag (f : Tpr → Tpr) : (withTpr f s).jtag = s.jtag := rfl
@[simp] theorem withTpr_ltn (f : Tpr → Tpr) : (withTpr f s).ltn = s.ltn := rfl
@[simp] theorem withTpr_mgt (f : Tpr → Tpr) : (withTpr f s).mgt = s.mgt := rfl
@[simp] theorem withTpr_stg (f : Tpr → Tpr) : (withTpr f s).stg = s.stg := rfl
@[simp] theorem withTpr_out (f : Tpr → Tpr) : (withTpr f s).out = s.out := rfl
@[simp] theorem withTpr_free (f : Tpr → Tpr) : (withTpr f s).free = s.free := rfl
@[simp] theorem withTpr_pending (f : Tpr → Tpr) : (withTpr f s).pending = s.pending := rfl

/-! `withTmu` -/

@[simp] theorem withTmu_regs (f : Tmu → Tmu) : (withTmu f s).regs = s.regs := rfl
@[simp] theorem withTmu_fregs (f : Tmu → Tmu) : (withTmu f s).fregs = s.fregs := rfl
@[simp] theorem withTmu_now (f : Tmu → Tmu) : (withTmu f s).now = s.now := rfl
@[simp] theorem withTmu_gtime (f : Tmu → Tmu) : (withTmu f s).gtime = s.gtime := rfl
@[simp] theorem withTmu_hif (f : Tmu → Tmu) : (withTmu f s).hif = s.hif := rfl
@[simp] theorem withTmu_cmp (f : Tmu → Tmu) : (withTmu f s).cmp = s.cmp := rfl
@[simp] theorem withTmu_xlt (f : Tmu → Tmu) : (withTmu f s).xlt = s.xlt := rfl
@[simp] theorem withTmu_qpc (f : Tmu → Tmu) : (withTmu f s).qpc = s.qpc := rfl
@[simp] theorem withTmu_txe (f : Tmu → Tmu) : (withTmu f s).txe = s.txe := rfl
@[simp] theorem withTmu_rxe (f : Tmu → Tmu) : (withTmu f s).rxe = s.rxe := rfl
@[simp] theorem withTmu_mte (f : Tmu → Tmu) : (withTmu f s).mte = s.mte := rfl
@[simp] theorem withTmu_xbr (f : Tmu → Tmu) : (withTmu f s).xbr = s.xbr := rfl
@[simp] theorem withTmu_links (f : Tmu → Tmu) : (withTmu f s).links = s.links := rfl
@[simp] theorem withTmu_llt (f : Tmu → Tmu) : (withTmu f s).llt = s.llt := rfl
@[simp] theorem withTmu_tmu (f : Tmu → Tmu) : (withTmu f s).tmu = f s.tmu := rfl
@[simp] theorem withTmu_col (f : Tmu → Tmu) : (withTmu f s).col = s.col := rfl
@[simp] theorem withTmu_mbx (f : Tmu → Tmu) : (withTmu f s).mbx = s.mbx := rfl
@[simp] theorem withTmu_tpr (f : Tmu → Tmu) : (withTmu f s).tpr = s.tpr := rfl
@[simp] theorem withTmu_sems (f : Tmu → Tmu) : (withTmu f s).sems = s.sems := rfl
@[simp] theorem withTmu_snf (f : Tmu → Tmu) : (withTmu f s).snf = s.snf := rfl
@[simp] theorem withTmu_clk (f : Tmu → Tmu) : (withTmu f s).clk = s.clk := rfl
@[simp] theorem withTmu_sec (f : Tmu → Tmu) : (withTmu f s).sec = s.sec := rfl
@[simp] theorem withTmu_jtag (f : Tmu → Tmu) : (withTmu f s).jtag = s.jtag := rfl
@[simp] theorem withTmu_ltn (f : Tmu → Tmu) : (withTmu f s).ltn = s.ltn := rfl
@[simp] theorem withTmu_mgt (f : Tmu → Tmu) : (withTmu f s).mgt = s.mgt := rfl
@[simp] theorem withTmu_stg (f : Tmu → Tmu) : (withTmu f s).stg = s.stg := rfl
@[simp] theorem withTmu_out (f : Tmu → Tmu) : (withTmu f s).out = s.out := rfl
@[simp] theorem withTmu_free (f : Tmu → Tmu) : (withTmu f s).free = s.free := rfl
@[simp] theorem withTmu_pending (f : Tmu → Tmu) : (withTmu f s).pending = s.pending := rfl

/-! `withSec` -/

@[simp] theorem withSec_regs (f : Sec → Sec) : (withSec f s).regs = s.regs := rfl
@[simp] theorem withSec_fregs (f : Sec → Sec) : (withSec f s).fregs = s.fregs := rfl
@[simp] theorem withSec_now (f : Sec → Sec) : (withSec f s).now = s.now := rfl
@[simp] theorem withSec_gtime (f : Sec → Sec) : (withSec f s).gtime = s.gtime := rfl
@[simp] theorem withSec_hif (f : Sec → Sec) : (withSec f s).hif = s.hif := rfl
@[simp] theorem withSec_cmp (f : Sec → Sec) : (withSec f s).cmp = s.cmp := rfl
@[simp] theorem withSec_xlt (f : Sec → Sec) : (withSec f s).xlt = s.xlt := rfl
@[simp] theorem withSec_qpc (f : Sec → Sec) : (withSec f s).qpc = s.qpc := rfl
@[simp] theorem withSec_txe (f : Sec → Sec) : (withSec f s).txe = s.txe := rfl
@[simp] theorem withSec_rxe (f : Sec → Sec) : (withSec f s).rxe = s.rxe := rfl
@[simp] theorem withSec_mte (f : Sec → Sec) : (withSec f s).mte = s.mte := rfl
@[simp] theorem withSec_xbr (f : Sec → Sec) : (withSec f s).xbr = s.xbr := rfl
@[simp] theorem withSec_links (f : Sec → Sec) : (withSec f s).links = s.links := rfl
@[simp] theorem withSec_llt (f : Sec → Sec) : (withSec f s).llt = s.llt := rfl
@[simp] theorem withSec_tmu (f : Sec → Sec) : (withSec f s).tmu = s.tmu := rfl
@[simp] theorem withSec_col (f : Sec → Sec) : (withSec f s).col = s.col := rfl
@[simp] theorem withSec_mbx (f : Sec → Sec) : (withSec f s).mbx = s.mbx := rfl
@[simp] theorem withSec_tpr (f : Sec → Sec) : (withSec f s).tpr = s.tpr := rfl
@[simp] theorem withSec_sems (f : Sec → Sec) : (withSec f s).sems = s.sems := rfl
@[simp] theorem withSec_snf (f : Sec → Sec) : (withSec f s).snf = s.snf := rfl
@[simp] theorem withSec_clk (f : Sec → Sec) : (withSec f s).clk = s.clk := rfl
@[simp] theorem withSec_sec (f : Sec → Sec) : (withSec f s).sec = f s.sec := rfl
@[simp] theorem withSec_jtag (f : Sec → Sec) : (withSec f s).jtag = s.jtag := rfl
@[simp] theorem withSec_ltn (f : Sec → Sec) : (withSec f s).ltn = s.ltn := rfl
@[simp] theorem withSec_mgt (f : Sec → Sec) : (withSec f s).mgt = s.mgt := rfl
@[simp] theorem withSec_stg (f : Sec → Sec) : (withSec f s).stg = s.stg := rfl
@[simp] theorem withSec_out (f : Sec → Sec) : (withSec f s).out = s.out := rfl
@[simp] theorem withSec_free (f : Sec → Sec) : (withSec f s).free = s.free := rfl
@[simp] theorem withSec_pending (f : Sec → Sec) : (withSec f s).pending = s.pending := rfl

/-! `withMgt` -/

@[simp] theorem withMgt_regs (f : Mgt → Mgt) : (withMgt f s).regs = s.regs := rfl
@[simp] theorem withMgt_fregs (f : Mgt → Mgt) : (withMgt f s).fregs = s.fregs := rfl
@[simp] theorem withMgt_now (f : Mgt → Mgt) : (withMgt f s).now = s.now := rfl
@[simp] theorem withMgt_gtime (f : Mgt → Mgt) : (withMgt f s).gtime = s.gtime := rfl
@[simp] theorem withMgt_hif (f : Mgt → Mgt) : (withMgt f s).hif = s.hif := rfl
@[simp] theorem withMgt_cmp (f : Mgt → Mgt) : (withMgt f s).cmp = s.cmp := rfl
@[simp] theorem withMgt_xlt (f : Mgt → Mgt) : (withMgt f s).xlt = s.xlt := rfl
@[simp] theorem withMgt_qpc (f : Mgt → Mgt) : (withMgt f s).qpc = s.qpc := rfl
@[simp] theorem withMgt_txe (f : Mgt → Mgt) : (withMgt f s).txe = s.txe := rfl
@[simp] theorem withMgt_rxe (f : Mgt → Mgt) : (withMgt f s).rxe = s.rxe := rfl
@[simp] theorem withMgt_mte (f : Mgt → Mgt) : (withMgt f s).mte = s.mte := rfl
@[simp] theorem withMgt_xbr (f : Mgt → Mgt) : (withMgt f s).xbr = s.xbr := rfl
@[simp] theorem withMgt_links (f : Mgt → Mgt) : (withMgt f s).links = s.links := rfl
@[simp] theorem withMgt_llt (f : Mgt → Mgt) : (withMgt f s).llt = s.llt := rfl
@[simp] theorem withMgt_tmu (f : Mgt → Mgt) : (withMgt f s).tmu = s.tmu := rfl
@[simp] theorem withMgt_col (f : Mgt → Mgt) : (withMgt f s).col = s.col := rfl
@[simp] theorem withMgt_mbx (f : Mgt → Mgt) : (withMgt f s).mbx = s.mbx := rfl
@[simp] theorem withMgt_tpr (f : Mgt → Mgt) : (withMgt f s).tpr = s.tpr := rfl
@[simp] theorem withMgt_sems (f : Mgt → Mgt) : (withMgt f s).sems = s.sems := rfl
@[simp] theorem withMgt_snf (f : Mgt → Mgt) : (withMgt f s).snf = s.snf := rfl
@[simp] theorem withMgt_clk (f : Mgt → Mgt) : (withMgt f s).clk = s.clk := rfl
@[simp] theorem withMgt_sec (f : Mgt → Mgt) : (withMgt f s).sec = s.sec := rfl
@[simp] theorem withMgt_jtag (f : Mgt → Mgt) : (withMgt f s).jtag = s.jtag := rfl
@[simp] theorem withMgt_ltn (f : Mgt → Mgt) : (withMgt f s).ltn = s.ltn := rfl
@[simp] theorem withMgt_mgt (f : Mgt → Mgt) : (withMgt f s).mgt = f s.mgt := rfl
@[simp] theorem withMgt_stg (f : Mgt → Mgt) : (withMgt f s).stg = s.stg := rfl
@[simp] theorem withMgt_out (f : Mgt → Mgt) : (withMgt f s).out = s.out := rfl
@[simp] theorem withMgt_free (f : Mgt → Mgt) : (withMgt f s).free = s.free := rfl
@[simp] theorem withMgt_pending (f : Mgt → Mgt) : (withMgt f s).pending = s.pending := rfl

/-! `putLink` -/

@[simp] theorem putLink_regs (p : Nat) (l : Link) : (putLink p l s).regs = s.regs := rfl
@[simp] theorem putLink_fregs (p : Nat) (l : Link) : (putLink p l s).fregs = s.fregs := rfl
@[simp] theorem putLink_now (p : Nat) (l : Link) : (putLink p l s).now = s.now := rfl
@[simp] theorem putLink_gtime (p : Nat) (l : Link) : (putLink p l s).gtime = s.gtime := rfl
@[simp] theorem putLink_hif (p : Nat) (l : Link) : (putLink p l s).hif = s.hif := rfl
@[simp] theorem putLink_cmp (p : Nat) (l : Link) : (putLink p l s).cmp = s.cmp := rfl
@[simp] theorem putLink_xlt (p : Nat) (l : Link) : (putLink p l s).xlt = s.xlt := rfl
@[simp] theorem putLink_qpc (p : Nat) (l : Link) : (putLink p l s).qpc = s.qpc := rfl
@[simp] theorem putLink_txe (p : Nat) (l : Link) : (putLink p l s).txe = s.txe := rfl
@[simp] theorem putLink_rxe (p : Nat) (l : Link) : (putLink p l s).rxe = s.rxe := rfl
@[simp] theorem putLink_mte (p : Nat) (l : Link) : (putLink p l s).mte = s.mte := rfl
@[simp] theorem putLink_xbr (p : Nat) (l : Link) : (putLink p l s).xbr = s.xbr := rfl
@[simp] theorem putLink_links (p : Nat) (l : Link) : (putLink p l s).links = tset s.links p l := rfl
@[simp] theorem putLink_llt (p : Nat) (l : Link) : (putLink p l s).llt = s.llt := rfl
@[simp] theorem putLink_tmu (p : Nat) (l : Link) : (putLink p l s).tmu = s.tmu := rfl
@[simp] theorem putLink_col (p : Nat) (l : Link) : (putLink p l s).col = s.col := rfl
@[simp] theorem putLink_mbx (p : Nat) (l : Link) : (putLink p l s).mbx = s.mbx := rfl
@[simp] theorem putLink_tpr (p : Nat) (l : Link) : (putLink p l s).tpr = s.tpr := rfl
@[simp] theorem putLink_sems (p : Nat) (l : Link) : (putLink p l s).sems = s.sems := rfl
@[simp] theorem putLink_snf (p : Nat) (l : Link) : (putLink p l s).snf = s.snf := rfl
@[simp] theorem putLink_clk (p : Nat) (l : Link) : (putLink p l s).clk = s.clk := rfl
@[simp] theorem putLink_sec (p : Nat) (l : Link) : (putLink p l s).sec = s.sec := rfl
@[simp] theorem putLink_jtag (p : Nat) (l : Link) : (putLink p l s).jtag = s.jtag := rfl
@[simp] theorem putLink_ltn (p : Nat) (l : Link) : (putLink p l s).ltn = s.ltn := rfl
@[simp] theorem putLink_mgt (p : Nat) (l : Link) : (putLink p l s).mgt = s.mgt := rfl
@[simp] theorem putLink_stg (p : Nat) (l : Link) : (putLink p l s).stg = s.stg := rfl
@[simp] theorem putLink_out (p : Nat) (l : Link) : (putLink p l s).out = s.out := rfl
@[simp] theorem putLink_free (p : Nat) (l : Link) : (putLink p l s).free = s.free := rfl
@[simp] theorem putLink_pending (p : Nat) (l : Link) : (putLink p l s).pending = s.pending := rfl

/-! `putMbx` -/

@[simp] theorem putMbx_regs (n : Nat) (x : Mbx) : (putMbx n x s).regs = s.regs := rfl
@[simp] theorem putMbx_fregs (n : Nat) (x : Mbx) : (putMbx n x s).fregs = s.fregs := rfl
@[simp] theorem putMbx_now (n : Nat) (x : Mbx) : (putMbx n x s).now = s.now := rfl
@[simp] theorem putMbx_gtime (n : Nat) (x : Mbx) : (putMbx n x s).gtime = s.gtime := rfl
@[simp] theorem putMbx_hif (n : Nat) (x : Mbx) : (putMbx n x s).hif = s.hif := rfl
@[simp] theorem putMbx_cmp (n : Nat) (x : Mbx) : (putMbx n x s).cmp = s.cmp := rfl
@[simp] theorem putMbx_xlt (n : Nat) (x : Mbx) : (putMbx n x s).xlt = s.xlt := rfl
@[simp] theorem putMbx_qpc (n : Nat) (x : Mbx) : (putMbx n x s).qpc = s.qpc := rfl
@[simp] theorem putMbx_txe (n : Nat) (x : Mbx) : (putMbx n x s).txe = s.txe := rfl
@[simp] theorem putMbx_rxe (n : Nat) (x : Mbx) : (putMbx n x s).rxe = s.rxe := rfl
@[simp] theorem putMbx_mte (n : Nat) (x : Mbx) : (putMbx n x s).mte = s.mte := rfl
@[simp] theorem putMbx_xbr (n : Nat) (x : Mbx) : (putMbx n x s).xbr = s.xbr := rfl
@[simp] theorem putMbx_links (n : Nat) (x : Mbx) : (putMbx n x s).links = s.links := rfl
@[simp] theorem putMbx_llt (n : Nat) (x : Mbx) : (putMbx n x s).llt = s.llt := rfl
@[simp] theorem putMbx_tmu (n : Nat) (x : Mbx) : (putMbx n x s).tmu = s.tmu := rfl
@[simp] theorem putMbx_col (n : Nat) (x : Mbx) : (putMbx n x s).col = s.col := rfl
@[simp] theorem putMbx_mbx (n : Nat) (x : Mbx) : (putMbx n x s).mbx = tset s.mbx n x := rfl
@[simp] theorem putMbx_tpr (n : Nat) (x : Mbx) : (putMbx n x s).tpr = s.tpr := rfl
@[simp] theorem putMbx_sems (n : Nat) (x : Mbx) : (putMbx n x s).sems = s.sems := rfl
@[simp] theorem putMbx_snf (n : Nat) (x : Mbx) : (putMbx n x s).snf = s.snf := rfl
@[simp] theorem putMbx_clk (n : Nat) (x : Mbx) : (putMbx n x s).clk = s.clk := rfl
@[simp] theorem putMbx_sec (n : Nat) (x : Mbx) : (putMbx n x s).sec = s.sec := rfl
@[simp] theorem putMbx_jtag (n : Nat) (x : Mbx) : (putMbx n x s).jtag = s.jtag := rfl
@[simp] theorem putMbx_ltn (n : Nat) (x : Mbx) : (putMbx n x s).ltn = s.ltn := rfl
@[simp] theorem putMbx_mgt (n : Nat) (x : Mbx) : (putMbx n x s).mgt = s.mgt := rfl
@[simp] theorem putMbx_stg (n : Nat) (x : Mbx) : (putMbx n x s).stg = s.stg := rfl
@[simp] theorem putMbx_out (n : Nat) (x : Mbx) : (putMbx n x s).out = s.out := rfl
@[simp] theorem putMbx_free (n : Nat) (x : Mbx) : (putMbx n x s).free = s.free := rfl
@[simp] theorem putMbx_pending (n : Nat) (x : Mbx) : (putMbx n x s).pending = s.pending := rfl

/-! `putSem` -/

@[simp] theorem putSem_regs (n : Nat) (x : Sem) : (putSem n x s).regs = s.regs := rfl
@[simp] theorem putSem_fregs (n : Nat) (x : Sem) : (putSem n x s).fregs = s.fregs := rfl
@[simp] theorem putSem_now (n : Nat) (x : Sem) : (putSem n x s).now = s.now := rfl
@[simp] theorem putSem_gtime (n : Nat) (x : Sem) : (putSem n x s).gtime = s.gtime := rfl
@[simp] theorem putSem_hif (n : Nat) (x : Sem) : (putSem n x s).hif = s.hif := rfl
@[simp] theorem putSem_cmp (n : Nat) (x : Sem) : (putSem n x s).cmp = s.cmp := rfl
@[simp] theorem putSem_xlt (n : Nat) (x : Sem) : (putSem n x s).xlt = s.xlt := rfl
@[simp] theorem putSem_qpc (n : Nat) (x : Sem) : (putSem n x s).qpc = s.qpc := rfl
@[simp] theorem putSem_txe (n : Nat) (x : Sem) : (putSem n x s).txe = s.txe := rfl
@[simp] theorem putSem_rxe (n : Nat) (x : Sem) : (putSem n x s).rxe = s.rxe := rfl
@[simp] theorem putSem_mte (n : Nat) (x : Sem) : (putSem n x s).mte = s.mte := rfl
@[simp] theorem putSem_xbr (n : Nat) (x : Sem) : (putSem n x s).xbr = s.xbr := rfl
@[simp] theorem putSem_links (n : Nat) (x : Sem) : (putSem n x s).links = s.links := rfl
@[simp] theorem putSem_llt (n : Nat) (x : Sem) : (putSem n x s).llt = s.llt := rfl
@[simp] theorem putSem_tmu (n : Nat) (x : Sem) : (putSem n x s).tmu = s.tmu := rfl
@[simp] theorem putSem_col (n : Nat) (x : Sem) : (putSem n x s).col = s.col := rfl
@[simp] theorem putSem_mbx (n : Nat) (x : Sem) : (putSem n x s).mbx = s.mbx := rfl
@[simp] theorem putSem_tpr (n : Nat) (x : Sem) : (putSem n x s).tpr = s.tpr := rfl
@[simp] theorem putSem_sems (n : Nat) (x : Sem) : (putSem n x s).sems = tset s.sems n x := rfl
@[simp] theorem putSem_snf (n : Nat) (x : Sem) : (putSem n x s).snf = s.snf := rfl
@[simp] theorem putSem_clk (n : Nat) (x : Sem) : (putSem n x s).clk = s.clk := rfl
@[simp] theorem putSem_sec (n : Nat) (x : Sem) : (putSem n x s).sec = s.sec := rfl
@[simp] theorem putSem_jtag (n : Nat) (x : Sem) : (putSem n x s).jtag = s.jtag := rfl
@[simp] theorem putSem_ltn (n : Nat) (x : Sem) : (putSem n x s).ltn = s.ltn := rfl
@[simp] theorem putSem_mgt (n : Nat) (x : Sem) : (putSem n x s).mgt = s.mgt := rfl
@[simp] theorem putSem_stg (n : Nat) (x : Sem) : (putSem n x s).stg = s.stg := rfl
@[simp] theorem putSem_out (n : Nat) (x : Sem) : (putSem n x s).out = s.out := rfl
@[simp] theorem putSem_free (n : Nat) (x : Sem) : (putSem n x s).free = s.free := rfl
@[simp] theorem putSem_pending (n : Nat) (x : Sem) : (putSem n x s).pending = s.pending := rfl

/-! `setCfg` -/

@[simp] theorem setCfg_regs (f : Nat) (c : FnCfg) : (setCfg f c s).regs = s.regs := rfl
@[simp] theorem setCfg_fregs (f : Nat) (c : FnCfg) : (setCfg f c s).fregs = s.fregs := rfl
@[simp] theorem setCfg_now (f : Nat) (c : FnCfg) : (setCfg f c s).now = s.now := rfl
@[simp] theorem setCfg_gtime (f : Nat) (c : FnCfg) : (setCfg f c s).gtime = s.gtime := rfl
@[simp] theorem setCfg_hif (f : Nat) (c : FnCfg) : (setCfg f c s).hif = { s.hif with cfg := tset s.hif.cfg f c } := rfl
@[simp] theorem setCfg_cmp (f : Nat) (c : FnCfg) : (setCfg f c s).cmp = s.cmp := rfl
@[simp] theorem setCfg_xlt (f : Nat) (c : FnCfg) : (setCfg f c s).xlt = s.xlt := rfl
@[simp] theorem setCfg_qpc (f : Nat) (c : FnCfg) : (setCfg f c s).qpc = s.qpc := rfl
@[simp] theorem setCfg_txe (f : Nat) (c : FnCfg) : (setCfg f c s).txe = s.txe := rfl
@[simp] theorem setCfg_rxe (f : Nat) (c : FnCfg) : (setCfg f c s).rxe = s.rxe := rfl
@[simp] theorem setCfg_mte (f : Nat) (c : FnCfg) : (setCfg f c s).mte = s.mte := rfl
@[simp] theorem setCfg_xbr (f : Nat) (c : FnCfg) : (setCfg f c s).xbr = s.xbr := rfl
@[simp] theorem setCfg_links (f : Nat) (c : FnCfg) : (setCfg f c s).links = s.links := rfl
@[simp] theorem setCfg_llt (f : Nat) (c : FnCfg) : (setCfg f c s).llt = s.llt := rfl
@[simp] theorem setCfg_tmu (f : Nat) (c : FnCfg) : (setCfg f c s).tmu = s.tmu := rfl
@[simp] theorem setCfg_col (f : Nat) (c : FnCfg) : (setCfg f c s).col = s.col := rfl
@[simp] theorem setCfg_mbx (f : Nat) (c : FnCfg) : (setCfg f c s).mbx = s.mbx := rfl
@[simp] theorem setCfg_tpr (f : Nat) (c : FnCfg) : (setCfg f c s).tpr = s.tpr := rfl
@[simp] theorem setCfg_sems (f : Nat) (c : FnCfg) : (setCfg f c s).sems = s.sems := rfl
@[simp] theorem setCfg_snf (f : Nat) (c : FnCfg) : (setCfg f c s).snf = s.snf := rfl
@[simp] theorem setCfg_clk (f : Nat) (c : FnCfg) : (setCfg f c s).clk = s.clk := rfl
@[simp] theorem setCfg_sec (f : Nat) (c : FnCfg) : (setCfg f c s).sec = s.sec := rfl
@[simp] theorem setCfg_jtag (f : Nat) (c : FnCfg) : (setCfg f c s).jtag = s.jtag := rfl
@[simp] theorem setCfg_ltn (f : Nat) (c : FnCfg) : (setCfg f c s).ltn = s.ltn := rfl
@[simp] theorem setCfg_mgt (f : Nat) (c : FnCfg) : (setCfg f c s).mgt = s.mgt := rfl
@[simp] theorem setCfg_stg (f : Nat) (c : FnCfg) : (setCfg f c s).stg = s.stg := rfl
@[simp] theorem setCfg_out (f : Nat) (c : FnCfg) : (setCfg f c s).out = s.out := rfl
@[simp] theorem setCfg_free (f : Nat) (c : FnCfg) : (setCfg f c s).free = s.free := rfl
@[simp] theorem setCfg_pending (f : Nat) (c : FnCfg) : (setCfg f c s).pending = s.pending := rfl

/-! `ltnPut` -/

@[simp] theorem ltnPut_regs (r : List LtnRec) : (ltnPut r s).regs = s.regs := rfl
@[simp] theorem ltnPut_fregs (r : List LtnRec) : (ltnPut r s).fregs = s.fregs := rfl
@[simp] theorem ltnPut_now (r : List LtnRec) : (ltnPut r s).now = s.now := rfl
@[simp] theorem ltnPut_gtime (r : List LtnRec) : (ltnPut r s).gtime = s.gtime := rfl
@[simp] theorem ltnPut_hif (r : List LtnRec) : (ltnPut r s).hif = s.hif := rfl
@[simp] theorem ltnPut_cmp (r : List LtnRec) : (ltnPut r s).cmp = s.cmp := rfl
@[simp] theorem ltnPut_xlt (r : List LtnRec) : (ltnPut r s).xlt = s.xlt := rfl
@[simp] theorem ltnPut_qpc (r : List LtnRec) : (ltnPut r s).qpc = s.qpc := rfl
@[simp] theorem ltnPut_txe (r : List LtnRec) : (ltnPut r s).txe = s.txe := rfl
@[simp] theorem ltnPut_rxe (r : List LtnRec) : (ltnPut r s).rxe = s.rxe := rfl
@[simp] theorem ltnPut_mte (r : List LtnRec) : (ltnPut r s).mte = s.mte := rfl
@[simp] theorem ltnPut_xbr (r : List LtnRec) : (ltnPut r s).xbr = s.xbr := rfl
@[simp] theorem ltnPut_links (r : List LtnRec) : (ltnPut r s).links = s.links := rfl
@[simp] theorem ltnPut_llt (r : List LtnRec) : (ltnPut r s).llt = s.llt := rfl
@[simp] theorem ltnPut_tmu (r : List LtnRec) : (ltnPut r s).tmu = s.tmu := rfl
@[simp] theorem ltnPut_col (r : List LtnRec) : (ltnPut r s).col = s.col := rfl
@[simp] theorem ltnPut_mbx (r : List LtnRec) : (ltnPut r s).mbx = s.mbx := rfl
@[simp] theorem ltnPut_tpr (r : List LtnRec) : (ltnPut r s).tpr = s.tpr := rfl
@[simp] theorem ltnPut_sems (r : List LtnRec) : (ltnPut r s).sems = s.sems := rfl
@[simp] theorem ltnPut_snf (r : List LtnRec) : (ltnPut r s).snf = s.snf := rfl
@[simp] theorem ltnPut_clk (r : List LtnRec) : (ltnPut r s).clk = s.clk := rfl
@[simp] theorem ltnPut_sec (r : List LtnRec) : (ltnPut r s).sec = s.sec := rfl
@[simp] theorem ltnPut_jtag (r : List LtnRec) : (ltnPut r s).jtag = s.jtag := rfl
@[simp] theorem ltnPut_ltn (r : List LtnRec) : (ltnPut r s).ltn = if unitFenced 139 s then s.ltn else r.foldl (ltnAdd s.now s.gtime) s.ltn := rfl
@[simp] theorem ltnPut_mgt (r : List LtnRec) : (ltnPut r s).mgt = s.mgt := rfl
@[simp] theorem ltnPut_stg (r : List LtnRec) : (ltnPut r s).stg = s.stg := rfl
@[simp] theorem ltnPut_out (r : List LtnRec) : (ltnPut r s).out = s.out := rfl
@[simp] theorem ltnPut_free (r : List LtnRec) : (ltnPut r s).free = s.free := rfl
@[simp] theorem ltnPut_pending (r : List LtnRec) : (ltnPut r s).pending = s.pending := rfl

end Sys2Proof.Machine
end

