-- ==== Sys2Proof/Laws/Ops.lean ====
section
/-! SUPPORT. What the shared operations do, once each: registers and their fields, the bytes of numbers, time, and the form of a
meaning. -/

namespace Sys2Proof.Machine

/-! ### Registers -/

theorem rdReg_wrReg (o p : Nat) (v : BitVec 64) (s : State) :
    rdReg p (wrReg o v s) = if p = o then v else rdReg p s := by
  by_cases h : p = o <;> simp [rdReg, tget_tset, h]

@[simp] theorem rdReg_wrReg_same (o : Nat) (v : BitVec 64) (s : State) : rdReg o (wrReg o v s) = v := by
  simp [rdReg_wrReg]

theorem rdReg_congr {s t : State} (h : s.regs = t.regs) (o : Nat) : rdReg o s = rdReg o t := by simp [rdReg, h]

theorem fkey_inj {f g o p : Nat} (ho : o < 0x100000) (hp : p < 0x100000) : fkey f o = fkey g p ↔ f = g ∧ o = p := by
  unfold fkey; omega

theorem rdFn_wrFn (f g o p : Nat) (v : BitVec 64) (s : State) (ho : o < 0x100000) (hp : p < 0x100000) :
    rdFn g p (wrFn f o v s) = if g = f ∧ p = o then v else rdFn g p s := by
  by_cases h : g = f ∧ p = o
  · obtain ⟨rfl, rfl⟩ := h; simp [rdFn]
  · have : fkey g p ≠ fkey f o := fun e => h ((fkey_inj hp ho).1 e)
    simp [rdFn, tget_tset, h, this]

/-! ### Bit fields -/

theorem bit_eq_getLsbD {n : Nat} (i : Nat) (v : BitVec n) : bit i v = v.getLsbD i := by
  simp [bit, BitVec.getLsbD, Nat.testBit, Nat.shiftRight_eq_div_pow, Nat.one_and_eq_mod_two]

/-- The number that a field's replacement spells. -/
theorem setBits_toNat {n : Nat} (hi lo x : Nat) (v : BitVec n) (hl : lo ≤ hi) (hn : hi < n) :
    (setBits hi lo x v).toNat =
      v.toNat / 2 ^ (hi + 1) * 2 ^ (hi + 1) + x % 2 ^ (hi + 1 - lo) * 2 ^ lo + v.toNat % 2 ^ lo := by
  obtain ⟨k, hk⟩ : ∃ k, hi + 1 = lo + k := ⟨hi + 1 - lo, by omega⟩
  have hk2 : hi + 1 - lo = k := by omega
  obtain ⟨m, hm⟩ : ∃ m, n = hi + 1 + m := ⟨n - (hi + 1), by omega⟩
  have hv := v.isLt
  unfold setBits bits
  rw [hk2, BitVec.toNat_ofNat]
  have e1 : v.toNat = v.toNat / 2 ^ lo * 2 ^ lo + v.toNat % 2 ^ lo := by
    rw [Nat.mul_comm]; exact (Nat.div_add_mod _ _).symm
  have e2 : v.toNat / 2 ^ lo = v.toNat / 2 ^ (hi + 1) * 2 ^ k + v.toNat / 2 ^ lo % 2 ^ k := by
    rw [hk, Nat.pow_add, ← Nat.div_div_eq_div_mul, Nat.mul_comm]; exact (Nat.div_add_mod _ _).symm
  have e3 : v.toNat / 2 ^ lo * 2 ^ lo = v.toNat / 2 ^ (hi + 1) * 2 ^ (hi + 1) + v.toNat / 2 ^ lo % 2 ^ k * 2 ^ lo := by
    conv => lhs; rw [e2]
    rw [Nat.add_mul, Nat.mul_assoc, ← Nat.pow_add, show k + lo = hi + 1 by omega]
  have hx : x % 2 ^ k < 2 ^ k := Nat.mod_lt _ (Nat.two_pow_pos k)
  have hc : v.toNat % 2 ^ lo < 2 ^ lo := Nat.mod_lt _ (Nat.two_pow_pos lo)
  have hA : v.toNat / 2 ^ (hi + 1) < 2 ^ m := by
    rw [Nat.div_lt_iff_lt_mul (Nat.two_pow_pos _), ← Nat.pow_add, Nat.add_comm m, ← hm]; exact hv
  have hlow : x % 2 ^ k * 2 ^ lo + v.toNat % 2 ^ lo < 2 ^ (hi + 1) := by
    have : x % 2 ^ k * 2 ^ lo + 2 ^ lo ≤ 2 ^ k * 2 ^ lo := by
      have := Nat.mul_le_mul_right (2 ^ lo) (show x % 2 ^ k + 1 ≤ 2 ^ k from hx)
      rw [Nat.add_mul, Nat.one_mul] at this; exact this
    rw [← Nat.pow_add, show k + lo = hi + 1 by omega] at this
    omega
  have hfull : v.toNat / 2 ^ (hi + 1) * 2 ^ (hi + 1) + x % 2 ^ k * 2 ^ lo + v.toNat % 2 ^ lo < 2 ^ n := by
    have : v.toNat / 2 ^ (hi + 1) * 2 ^ (hi + 1) + 2 ^ (hi + 1) ≤ 2 ^ m * 2 ^ (hi + 1) := by
      have := Nat.mul_le_mul_right (2 ^ (hi + 1)) (show v.toNat / 2 ^ (hi + 1) + 1 ≤ 2 ^ m from hA)
      rw [Nat.add_mul, Nat.one_mul] at this; exact this
    rw [← Nat.pow_add, show m + (hi + 1) = n by omega] at this
    omega
  have hsub : v.toNat - v.toNat / 2 ^ lo % 2 ^ k * 2 ^ lo =
      v.toNat / 2 ^ (hi + 1) * 2 ^ (hi + 1) + v.toNat % 2 ^ lo := by omega
  rw [hsub, Nat.mod_eq_of_lt]
  · omega
  · omega

/-- A bit of a number whose field has been replaced. -/
theorem getLsbD_setBits {n : Nat} (hi lo x i : Nat) (v : BitVec n) (hl : lo ≤ hi) (hn : hi < n) :
    (setBits hi lo x v).getLsbD i = if lo ≤ i ∧ i ≤ hi then x.testBit (i - lo) else v.getLsbD i := by
  obtain ⟨k, hk⟩ : ∃ k, hi + 1 = lo + k := ⟨hi + 1 - lo, by omega⟩
  have hk2 : hi + 1 - lo = k := by omega
  have hx : x % 2 ^ k < 2 ^ k := Nat.mod_lt _ (Nat.two_pow_pos k)
  have hc : v.toNat % 2 ^ lo < 2 ^ lo := Nat.mod_lt _ (Nat.two_pow_pos lo)
  have hform : (setBits hi lo x v).toNat =
      2 ^ lo * (2 ^ k * (v.toNat / 2 ^ (hi + 1)) + x % 2 ^ k) + v.toNat % 2 ^ lo := by
    rw [setBits_toNat hi lo x v hl hn, hk2, Nat.mul_add, ← Nat.mul_assoc, ← Nat.pow_add, ← hk,
      Nat.mul_comm (2 ^ (hi + 1)), Nat.mul_comm (2 ^ lo)]
  simp only [BitVec.getLsbD, hform]
  rw [Nat.testBit_two_pow_mul_add _ hc]
  by_cases h1 : i < lo
  · have hno : ¬(lo ≤ i ∧ i ≤ hi) := by omega
    rw [if_pos h1, if_neg hno, Nat.testBit_mod_two_pow]; simp [h1]
  · rw [if_neg h1, Nat.testBit_two_pow_mul_add _ hx]
    by_cases h2 : i ≤ hi
    · have hyes : lo ≤ i ∧ i ≤ hi := by omega
      have h3 : i - lo < k := by omega
      rw [if_pos h3, if_pos hyes, Nat.testBit_mod_two_pow]; simp [h3]
    · have hno : ¬(lo ≤ i ∧ i ≤ hi) := by omega
      have h3 : ¬i - lo < k := by omega
      rw [if_neg h3, if_neg hno, Nat.testBit_div_two_pow]
      congr 1; omega

/-- The field that was replaced. -/
theorem bits_setBits {n : Nat} (hi lo x : Nat) (v : BitVec n) (hl : lo ≤ hi) (hn : hi < n) :
    bits hi lo (setBits hi lo x v) = x % 2 ^ (hi + 1 - lo) := by
  obtain ⟨k, hk⟩ : ∃ k, hi + 1 = lo + k := ⟨hi + 1 - lo, by omega⟩
  have hk2 : hi + 1 - lo = k := by omega
  have hx : x % 2 ^ k < 2 ^ k := Nat.mod_lt _ (Nat.two_pow_pos k)
  have hc : v.toNat % 2 ^ lo < 2 ^ lo := Nat.mod_lt _ (Nat.two_pow_pos lo)
  have hform : (setBits hi lo x v).toNat =
      2 ^ lo * (2 ^ k * (v.toNat / 2 ^ (hi + 1)) + x % 2 ^ k) + v.toNat % 2 ^ lo := by
    rw [setBits_toNat hi lo x v hl hn, hk2, Nat.mul_add, ← Nat.mul_assoc, ← Nat.pow_add, ← hk,
      Nat.mul_comm (2 ^ (hi + 1)), Nat.mul_comm (2 ^ lo)]
  unfold bits
  rw [hform, hk2, Nat.mul_add_div (Nat.two_pow_pos lo), Nat.div_eq_of_lt hc, Nat.add_zero, Nat.mul_add_mod,
    Nat.mod_eq_of_lt hx]

/-- A bit outside a field that was replaced. -/
theorem bit_setBits_out {n : Nat} (hi lo x i : Nat) (v : BitVec n) (hl : lo ≤ hi) (hn : hi < n) (h : i < lo ∨ hi < i) :
    bit i (setBits hi lo x v) = bit i v := by
  have hno : ¬(lo ≤ i ∧ i ≤ hi) := by omega
  rw [bit_eq_getLsbD, bit_eq_getLsbD, getLsbD_setBits hi lo x i v hl hn, if_neg hno]

/-- A field of a register after a write of the field. -/
theorem rf_setRf (o hi lo x : Nat) (s : State) (hl : lo ≤ hi) (hn : hi < 64) :
    rf o hi lo (setRf o hi lo x s) = x % 2 ^ (hi + 1 - lo) := by
  simp [rf, setRf, bits_setBits _ _ _ _ hl hn]

/-- A field of another register. -/
theorem rdReg_setRf_ne {o p : Nat} (hi lo x : Nat) (s : State) (h : p ≠ o) : rdReg p (setRf o hi lo x s) = rdReg p s := by
  simp [setRf, rdReg_wrReg, h]

/-! ### Bytes of numbers -/

@[simp] theorem leBytes_length (n v : Nat) : (leBytes n v).length = n := by
  induction n generalizing v with
  | zero => rfl
  | succ n ih => simp [leBytes, ih]

/-- The number that the bytes of a number spell. -/
theorem leNat_leBytes (n v : Nat) : leNat (leBytes n v) = v % 256 ^ n := by
  induction n generalizing v with
  | zero => simp [leBytes, leNat, Nat.mod_one]
  | succ n ih =>
    simp only [leBytes, leNat, ih, BitVec.toNat_ofNat, Nat.mod_mod_of_dvd v (Nat.dvd_refl 256)]
    rw [Nat.pow_succ, Nat.mul_comm (256 ^ n), Nat.mod_mul]

@[simp] theorem fitBytes_length (n : Nat) (l : List Byte) : (fitBytes n l).length = n := by
  induction n generalizing l with
  | zero => rfl
  | succ n ih => cases l <;> simp [fitBytes, ih]

/-- A list of the length asked for is left as it is. -/
theorem fitBytes_self (l : List Byte) : fitBytes l.length l = l := by
  induction l with
  | nil => rfl
  | cons b t ih => simp [fitBytes, ih]

/-! ### Time -/

/-- A crossing takes no time of the machine's. -/
theorem pulseCross_now (ev key dt d : Nat) (s : State) : (pulseCross ev key dt d s).2.now = s.now := by
  have h : ∀ t : State, (pulseLost ev t).now = t.now := fun _ => rfl
  have hi : ∀ (c : Prop) [Decidable c] (a b : State), a.now = s.now → b.now = s.now → (if c then a else b).now = s.now := by
    intro c _ a b ha hb; split <;> assumption
  simp only [pulseCross, fresh]
  split
  · rfl
  · split
    · exact hi _ _ _ (by rw [h]) rfl
    · split
      · rfl
      · split
        · exact h s
        · exact hi _ _ _ (by rw [h]) rfl

/-- What keeps the time keeps it along a list. -/
theorem foldl_now {α : Type} (f : State → α → State) (h : ∀ s a, (f s a).now = s.now) (l : List α) (s : State) :
    (l.foldl f s).now = s.now := by
  induction l generalizing s with
  | nil => rfl
  | cons a l ih => rw [List.foldl_cons, ih, h]

/-- A link that is woken leaves the time as it is. -/
theorem wakeLink_now (l : Nat) (s : State) : (wakeLink l s).now = s.now := by
  simp only [wakeLink]; split <;> rfl

/-- An event for a vector leaves the time as it is. -/
theorem msixTry_now {f vec : Nat} {s t : State} (h : msixTry f vec s = some t) : t.now = s.now := by
  simp only [msixTry] at h
  split at h
  · simp at h
  · split at h
    · cases h; rfl
    · cases h; exact wakeLink_now _ _

/-- A count leaves the time as it is. -/
theorem evcAdd_now (n d : Nat) (s : State) : (evcAdd n d s).1.now = s.now := by
  simp only [evcAdd]; split <;> rfl

/-- Pulses take no time of the machine's. -/
theorem evcPulseD_now (fuel ev inst d : Nat) (s : State) : (evcPulseD fuel ev inst d s).now = s.now := by
  induction fuel generalizing ev inst d s with
  | zero => rfl
  | succ k ih =>
    unfold evcPulseD
    have hx := pulseCross_now ev (pulseStream ev inst 0) 1 d s
    generalize pulseCross ev (pulseStream ev inst 0) 1 d s = y at hx ⊢
    obtain ⟨d', s'⟩ := y
    dsimp only at hx ⊢
    split
    · exact hx
    · rw [foldl_now _ ?_ _ _]
      · exact hx
      · intro t n
        have ha := evcAdd_now n d' t
        generalize evcAdd n d' t = z at ha ⊢
        obtain ⟨t', b⟩ := z
        cases b with
        | false => exact ha
        | true =>
          dsimp only at ha ⊢
          split
          · exact ha
          · split
            · split
              · rename_i h; rw [msixTry_now h, ha]
              · rw [ih, ha]
            · exact ha

/-- An event for a vector, counted or not, takes no time of the machine's. -/
theorem msixSignal_now (f vec : Nat) (s : State) : (msixSignal f vec s).now = s.now := by
  unfold msixSignal
  cases h : msixTry f vec s with
  | none => simp [ignored, evcPulse, evcPulseD_now]
  | some t => simpa using msixTry_now h

/-- Increments of one counter take no time of the machine's. -/
theorem evcMeet_now (n d : Nat) (s : State) : (evcMeet n d s).now = s.now := by
  unfold evcMeet
  dsimp only
  split
  · rfl
  · have ha := evcAdd_now n d s
    generalize evcAdd n d s = z at ha ⊢
    obtain ⟨t, b⟩ := z
    cases b with
    | false => exact ha
    | true =>
      dsimp only at ha ⊢
      split
      · split
        · rw [msixSignal_now, ha]
        · exact ha
      · exact ha

/-- The levels are counted at no time of their own. -/
theorem levelsPass_now (d : Nat) (s : State) : (levelsPass d s).now = s.now := by
  refine foldl_now _ ?_ _ _
  intro t x
  simp only [levelPulses]
  split
  · rfl
  · rw [foldl_now _ (fun t n => evcMeet_now n _ t), pulseCross_now]

/-- With no counter on a level nothing is counted. -/
theorem levelsPass_none {d : Nat} {s : State} (h : levelCounters s = []) : levelsPass d s = s := by
  simp [levelsPass, h]

@[simp] theorem timePass_now (d : Nat) (s : State) : (timePass d s).now = s.now + d := by
  simp [timePass, levelsPass_now]

/-- An expiry never takes time back, and time is then at least its own. -/
theorem advanceTo_now (t : Nat) (s : State) : (advanceTo t s).now = max t s.now := by
  simp [advanceTo]; omega

/-! ### The form of a meaning -/

theorem settle_idle {s : State} (h : s.xlt.waiting = []) : settle s = s := by
  unfold settle
  split
  · rfl
  · simp [settleN, h]

theorem transAll_idle {s : State} (h : ∀ x ∈ s.qpc.qps, x.2.trans = none) : transAll s = s := by
  unfold transAll
  split
  · rfl
  · have : ∀ l : Tab Qp, (∀ x ∈ l, x.2.trans = none) → ∀ t : State,
        l.foldl (fun s (q, x) => if x.trans.isSome then transCheck q s else s) t = t := by
      intro l
      induction l with
      | nil => intro _ _; rfl
      | cons y l ih =>
        intro hl t
        obtain ⟨q, x⟩ := y
        have hx : x.trans = none := hl _ (List.mem_cons_self ..)
        simp only [List.foldl_cons, hx, Option.isSome_none, Bool.false_eq_true, if_false]
        exact ih (fun z hz => hl z (List.mem_cons_of_mem _ hz)) t
    exact this _ h s

/-- A meaning whose effect leaves nothing to go on by itself is its effect. -/
theorem act_idle {f : State → State} {s : State} (hr : running s = true) (h : Idle (f s)) : act f s = .next (f s) := by
  unfold act
  rw [if_pos hr, settle_idle h.1, transAll_idle h.2]

/-- While the block is held nothing acts. -/
theorem act_held {f : State → State} {s : State} (hr : running s = false) : act f s = .next s := by
  simp [act, hr]

theorem plain_running {f : State → State} {s : State} (hr : running s = true) : plain f s = .next (f s) := by
  simp [plain, hr]

end Sys2Proof.Machine
end

