-- ==== Sys2Proof/Machine/Package.lean ====
section
/-! DEFINITION. The package (19: R498 to R506, R508, R515, R516): which ball stands at each site of the grid, the rails, and which command
of the block a supply voltage or a junction temperature stands for. The state of the block holds nothing of these: they are what the board
connects to it. -/

namespace Sys2Proof.Machine

/-! ### Balls -/

/-- The two legs of a differential pair. -/
inductive Leg where
  | p
  | n
  deriving DecidableEq, Repr

/-- A ball by its name (R499 to R503). A fabric lane signal names its port and lane, a fabric reference its tile, a PCIe lane signal its
controller and lane, a PCIe reference its controller, a low-speed ball its number in R502's table. -/
inductive Ball where
  | ftx (leg : Leg) (port lane : Nat)
  | frx (leg : Leg) (port lane : Nat)
  | fref (leg : Leg) (tile : Nat)
  | vddSda
  | vddSdh
  | ptx (leg : Leg) (ctl lane : Nat)
  | prx (leg : Leg) (ctl lane : Nat)
  | pref (leg : Leg) (ctl : Nat)
  | vddPcie
  | low (n : Nat)
  | vddAon
  | vddio
  | vqps
  | vddCore
  | vddSram
  | vss
  deriving DecidableEq, Repr

/-- The names of the low-speed balls (R502). -/
def lowName (n : Nat) : String :=
  ["FSPI_CLK", "FSPI_DS", "FSPI_CS_N", "FSPI_RST_N", "FSPI_DQ[0]", "FSPI_DQ[1]", "FSPI_DQ[2]", "FSPI_DQ[3]", "FSPI_DQ[4]", "FSPI_DQ[5]",
    "FSPI_DQ[6]", "FSPI_DQ[7]", "I3C_SCL", "I3C_SDA", "TCK", "TMS", "TDI", "TDO", "TRST_N", "RESET_N", "PERST_N[0]", "PERST_N[1]",
    "PERST_N[2]", "PERST_N[3]", "STRAP_BIF[0]", "STRAP_BIF[1]", "STRAP_BIF[2]", "STRAP_BIF[3]", "STRAP_MGTPRIV", "STRAP_RECOVER",
    "STRAP_FLASH[0]", "STRAP_FLASH[1]", "TIME_PPS", "TIME_10M", "PSTATE_OUT[0]", "PSTATE_OUT[1]", "THERMTRIP_N", "THERM_D0_P",
    "THERM_D0_N", "THERM_D1_P", "THERM_D1_N", "THERM_D2_P", "THERM_D2_N", "THERM_D3_P", "THERM_D3_N", "SYSCLK_P", "SYSCLK_N",
    "TEST_EN"].getD n "NC"

/-- Depth of a site: its distance from the nearest edge, the outermost row or column being 0. -/
def siteDepth (r c : Nat) : Nat := min (min (r - 1) (85 - r)) (min (c - 1) (85 - c))

/-- Side, position and depth of a site of the band or of the ring whose outermost row is `lo` and whose sides hold `len` positions: the four
sides turn about the package, so that no site lies on two (R500, R501). `lo` is 1 for the band and 13 for the ring. -/
def sidePos (lo len : Nat) (r c : Nat) : Nat × Nat × Nat :=
  let hi := 86 - lo
  let inside (d a : Nat) : Bool := decide (d + lo ≤ hi) && decide (1 ≤ a) && decide (a ≤ len)
  let deep := if lo == 1 then 12 else 4
  if r - lo < deep && lo ≤ r && inside (r - lo) (c + 1 - lo) && lo ≤ c then (0, c + 1 - lo, r - lo)
  else if hi - c < deep && c ≤ hi && lo ≤ r && r + 1 - lo ≤ len then (1, r + 1 - lo, hi - c)
  else if hi - r < deep && r ≤ hi && c ≤ hi && hi + 1 - c ≤ len then (2, hi + 1 - c, hi - r)
  else (3, hi + 1 - r, c - lo)

/-- The ball at a position of the band (R500). -/
def bandBall (side a d : Nat) : Ball :=
  if a == 73 then .vss else
  let t := 4 * side + (a - 1) / 18
  let i := (a - 1) % 18
  let lane (k : Nat) (e : Nat → Nat → Ball) : Ball := e (8 * t + k / 4) (k % 4)
  if d < 8 && 1 ≤ i && i ≤ 16 then
    let k := 8 * (d / 2) + (i - 1) / 2
    let leg : Leg := if i % 2 == 1 then .p else .n
    if d % 2 == 0 then lane k (.ftx leg) else lane k (.frx leg)
  else if d == 9 && i == 8 then .fref .p t
  else if d == 9 && i == 9 then .fref .n t
  else if d == 8 || d == 10 then .vddSda
  else if d == 11 then .vddSdh
  else .vss

/-- The ball at a position of the ring, the low-speed balls apart (R501). -/
def ringBall (side a d : Nat) : Ball :=
  if 2 ≤ a && a ≤ 17 then
    let lane := 8 * (d / 2) + (a - 2) / 2
    let leg : Leg := if a % 2 == 0 then .p else .n
    if d % 2 == 0 then .ptx leg side lane else .prx leg side lane
  else if d == 0 && a == 1 then .pref .p side
  else if d == 1 && a == 1 then .pref .n side
  else if 2 ≤ d && 19 ≤ a && a ≤ 26 then .vddPcie
  else if side == 0 && 2 ≤ d && 27 ≤ a && a ≤ 34 then .vddAon
  else if side == 0 && 2 ≤ d && 35 ≤ a && a ≤ 38 then .vddio
  else if side == 0 && 2 ≤ d && (a == 39 || a == 40) then .vqps
  else .vss

/-- The ball at row `r` and column `c` (R498 to R503): none outside the grid and in the 25 sites at its middle. -/
def ballAt (r c : Nat) : Option Ball :=
  if r == 0 || c == 0 || 85 < r || 85 < c then none
  else if 41 ≤ r && r ≤ 45 && 41 ≤ c && c ≤ 45 then none
  else if siteDepth r c < 12 then
    let x := sidePos 1 73 r c
    some (bandBall x.1 x.2.1 x.2.2)
  else if siteDepth r c < 16 then
    if (r == 13 || r == 14) && 33 ≤ c && c ≤ 64 then some (.low (32 * (r - 13) + (c - 33)))
    else
      let x := sidePos 13 57 r c
      some (ringBall x.1 x.2.1 x.2.2)
  else if c % 2 == 1 then some .vss
  else if 29 ≤ r && r ≤ 57 && 29 ≤ c && c ≤ 57 then some .vddSram
  else some .vddCore

/-- How many sites of the grid hold a ball of a kind. -/
def ballCount (k : Ball → Bool) : Nat :=
  ((List.range 85).map (fun r => ((List.range 85).filter (fun c => ((ballAt (r + 1) (c + 1)).map k).getD false)).length)).sum

/-! ### Rails -/

/-- The rails of R505 in the order of its table. Their numbers are those of BROWN_OUT. -/
inductive Rail where
  | core
  | sram
  | sda
  | sdh
  | pcie
  | aon
  | io
  | qps
  deriving DecidableEq, Repr

/-- A rail's nominal voltage and operating range in mV, and the current at TDP in mA (R505; VQPS: while a fuse is blown). -/
def Rail.limits : Rail → Nat × Nat × Nat × Nat
  | .core => (750, 728, 772, 470000)
  | .sram => (800, 776, 824, 112000)
  | .sda => (900, 873, 927, 336000)
  | .sdh => (1200, 1164, 1236, 140000)
  | .pcie => (900, 873, 927, 25000)
  | .aon => (750, 728, 772, 3400)
  | .io => (1800, 1710, 1890, 1200)
  | .qps => (1800, 1710, 1890, 100)

/-- The most that a rail may carry, in mV (R510). -/
def Rail.absMax : Rail → Nat
  | .core => 900
  | .aon => 900
  | .sram => 950
  | .sda => 1050
  | .pcie => 1050
  | .sdh => 1400
  | .io => 2100
  | .qps => 2100

/-- The place of a rail in the order in which the board ramps the rails (R506: VDD_SDH comes last in step 3); power-down is the reverse (R507).
VQPS has none (R509). -/
def Rail.step : Rail → Option Nat
  | .aon => some 1
  | .io => some 1
  | .core => some 2
  | .sram => some 2
  | .pcie => some 3
  | .sda => some 3
  | .sdh => some 4
  | .qps => none

/-- Must rail `a` have passed 90 % of its nominal voltage before `b` is ramped (R506)? -/
def rampsBefore (a b : Rail) : Bool :=
  match a.step, b.step with
  | some x, some y => decide (x < y)
  | _, _ => false

/-- What a rail's voltage asks for: nothing, the command SUPPLY_OUT_OF_RANGE, or the command BROWN_OUT for a rail. -/
inductive SupplyEvent where
  | nothing
  | outOfRange
  | brownOut (rail : BitVec 3)
  deriving DecidableEq, Repr

/-- What a rail's voltage asks for (R508): nothing within its operating range; out of range and not below 90 % of nominal, source 165; below
that for more than 1 µs, the brown-out of the six rails that R508 names. VDDIO_1V8 and VQPS have none: VQPS may be switched off (R509). -/
def supplyEvent (r : Rail) (mV : Nat) : SupplyEvent :=
  let (nom, lo, hi, _) := r.limits
  if lo ≤ mV && mV ≤ hi then .nothing
  else if 9 * nom ≤ 10 * mV then .outOfRange
  else
    match r with
    | .core => .brownOut 0
    | .sram => .brownOut 1
    | .sda => .brownOut 2
    | .sdh => .brownOut 3
    | .pcie => .brownOut 4
    | .aon => .brownOut 5
    | .io => .nothing
    | .qps => .nothing

/-! ### Temperature -/

/-- What the junction temperature asks for: nothing, the command THERMAL_WARNING, or the command THERMAL_TRIP. -/
inductive ThermalEvent where
  | nothing
  | warning
  | trip
  deriving DecidableEq, Repr

/-- What the junction temperature, in °C, asks for (R515): nothing up to 100, source 164 above it, the thermal trip from 115 on. -/
def thermalEvent (tj : Int) : ThermalEvent := if 115 ≤ tj then .trip else if 100 < tj then .warning else .nothing

/-- May the device be operated at this junction temperature (R515)? From 95 to 110 it may for at most 500 hours in its service life. -/
def tjPermitted (tj : Int) : Bool := decide (5 ≤ tj) && decide (tj ≤ 110)

/-- The highest lid temperature, in m°C, at a power in W for a junction temperature of 95 °C with θJC 0.020 °C/W (R518). -/
def lidLimit (watts : Int) : Int := 95000 - 20 * watts

end Sys2Proof.Machine
end

