-- ==== Sys2Proof/Tests/Base.lean ====
section
/-! SUPPORT. The small states that the tests share: a block in service, a Taper program on core 0, rings, a key table, queue pairs. -/

namespace Sys2Proof.Tests

open Sys2Proof.Machine Sys2Proof.Claims

/-- A block in service: HOST_READY set. -/
def up : State := setRf Reg.MGT_BOOT 7 7 1 State.reset

/-- An image of one cluster: 16 instructions at 0x20_0000, a data segment and one instance block. -/
def img : Image :=
  { prog := 1, owner := 0, pd := 5, start := 0, event := 0xFFFFFFFF, msge := 0, version := 3, codeLen := 64, roLen := 0, maxInst := 1, instSize := 64
    dataSize := 64, place := [(0, (0x200000, 0x2C0040, 0x2C0000))], ownsData := true, withdrawn := [] }

/-- A program of function 0 with handle 1. -/
def prg : Prog :=
  { owner := 0, pd := 5, hkey := 7, collective := false, clusters := 1, state := .live, image := 1, old := [], unload := none }

/-- A message activation at the first instruction. -/
def msgAct : Act :=
  { uid := 1, prog := 1, image := 1, inv := none, pc := 0x200000, w := Vector.replicate 16 0, v := Vector.replicate 4 0, started := 0
    wdog := 65536, wait := none, evq := EvQueue.empty, obj := some ⟨[1, 2, 3], 1⟩, cls := 0 }

/-- The same as an activation of invocation 1. -/
def invAct : Act := { msgAct with inv := some 1, obj := none }

/-- Invocation 1, of instance `i` (0: of TAPER_INVOKE). -/
def inv1 (i : Nat) : Invoc :=
  { num := 1, prog := 1, image := 1, cluster := 0, slot := 0, ref := ⟨0, 1, 1, 0⟩, y64 := 0, x64 := 1, descLen := 64
    evq := EvQueue.empty, obj := some ⟨List.replicate 64 7, 1⟩, ops := 0, inst := i, ended := false, busy := true, failed := none }

/-- Instance 9 of a collective. -/
def inst9 : ColInst :=
  { hp := 0, fn := 0, comm := 1, seq := 2, prog := 1, ref := ⟨0, 1, 1, 0⟩, inv := 1, head := 0, pd := 5, failed := none
    finished := false, resultDone := false, met := [], ops := [], nextOp := 1
    bufs := [(3, { peer := 4, psn := 5, full := true, part := 0, parts := 1, data := [9, 9], isPartial := none })], credits := [], hostSeen := [] }

/-- Core 0 runs an activation. -/
def onCore (a : Act) : State :=
  { up with
    tpr := { up.tpr with cores := [(0, { act := some a, resetAt := 0 })], progs := [(1, prg)], images := [(1, img)] } }

/-- Core 0 runs an activation of invocation 1 of instance `i`. -/
def onInv (a : Act) (i : Nat) : State :=
  { onCore a with
    tpr := { (onCore a).tpr with invocs := [(1, inv1 i)] }
    col := { (onCore a).col with insts := [(9, inst9)] } }

/-- The message activation with w registers 1 to 7: the last 64 bytes of LDM, the data segment, the instance area, the first and the last
instruction, a read-only place, and 64. -/
def wAct : Act :=
  { msgAct with w := #v[0, 0x7FC0, 0x2C0000, 0x2C0040, 0x200000, 0x20003C, 0x7FFF, 64, 0, 0, 0, 0, 0, 0, 0, 0] }

/-- The word of an event of a KIND. -/
def ev (kind : BitVec 8) : BitVec 64 := kind ++ (5 : BitVec 56)

/-! ### Host functions -/

/-- A set chip ID, and function 0 with the window [0, 2^40), 256 region descriptors and the queue pairs 16 to 31, its tables ACTIVE, and domain 5. -/
def host : State :=
  let s := writeReg Reg.QPC_RANGE 0x84000010 (writeReg Reg.HIF_WIN 0x68 (setRf Reg.XBR_CHIP 31 31 1 up))
  let s := setFf 0 Reg.QPC_CTXTAB_CTRL 1 0 3 (setFf 0 Reg.XLT_KEYTAB_CTRL 1 0 3 (setFf 0 Reg.XLT_KEYTAB 4 0 8 s))
  { s with xlt := { s.xlt with pds := [(5, { owner := 0, root := 0x1000 })] } }

/-- A Command Ring of 64 entries with its head at 0, and these entries fetched. -/
def ring (es : List Entry) : Ring :=
  { uid := 1, base := 0x10000, log2size := 6, mirror := 0x20000, fmt8520 := false, page := 1, head := 0, tail := 2, state := .running
    errcnt := 0, published := 0, entries := es, waitOwn := false, issuing := false, reading := none, readPd := 0 }

/-- Ring `r` of function 0. -/
def withRing (r : Nat) (g : Ring) (s : State) : State := putRing 0 r g s

/-- Ring `r` of function 0 with one entry fetched and not issued. -/
def oneEntry (r : Nat) (e : BitVec 512) (s : State) : State := withRing r (ring [⟨e, false, none⟩]) s

/-- The reference of that entry. -/
def refOf (r : Nat) : EntryRef := ⟨0, r, 1, 0⟩

/-- An entry: opcode with its flags, QPN, LADDR, LENGTH, RADDR, X64. -/
def ent (op qpn laddr len raddr x64 : Nat) : BitVec 512 :=
  BitVec.ofNat 512 (op + qpn * 2 ^ 64 + laddr * 2 ^ 256 + len * 2 ^ 320 + raddr * 2 ^ 384 + x64 * 2 ^ 448)

/-- The context of queue pair 16 in a state, with domain 5 and the peer of endpoint 4 and QPN 9. -/
def qpIn (st : QpState) : Qp := Qp.idle { QpParam.zero with pd := 5, peerEp := 4, peerQpn := 9, retryLimit := 1, state := st }

/-- Queue pair 16 of function 0. -/
def withQp (x : Qp) (s : State) : State :=
  { s with qpc := { s.qpc with qps := [(16, x)], bound := [(16, { fn := 0, pd := 5, arvId := 0 })] } }

end Sys2Proof.Tests
end

