-- ==== Sys2Proof/WellFormed.lean ====
section
/-! DEFINITION. When a command is well formed: what the types of its operands do not say. The effect of a command does not depend on it. -/

namespace Sys2Proof

/-- A packet whose payload has the length its header gives, at most 4,096 bytes (R131). -/
def Packet.wf (p : Packet) : Bool := p.payload.length == p.payLen.toNat && p.payload.length ≤ 4096

/-- A packet of one OP (R133). -/
def Packet.wfOp (op : BitVec 8) (p : Packet) : Bool := p.wf && p.op == op

/-- Is an OP defined (R133)? -/
def opDefined (op : BitVec 8) : Bool :=
  let n := op.toNat
  (1 ≤ n && n ≤ 7) || n == 0x10 || n == 0x11 || (0x20 ≤ n && n ≤ 0x25) || n == 0x30 || n == 0x31 || n == 0x40 || n == 0x41

/-- A read that returned the number of bytes asked for, or an error. -/
def ReadResult.len (n : Nat) : ReadResult → Bool
  | .data bs => bs.length == n
  | .pcieError => true

/-- A read that returned at most a number of bytes, or an error. -/
def ReadResult.upTo (n : Nat) : ReadResult → Bool
  | .data bs => bs.length ≤ n
  | .pcieError => true

/-- A unit that exists (R392): 136 core sites, 36 RDU sites, and the RESTART units by their sources (R382). -/
def SUnit.wf : SUnit → Bool
  | .core s => s.toNat < 136
  | .rdu s => s.toNat < 36
  | .port _ => true
  | .bank _ => true
  | .tile _ => true
  | .cluster _ => true
  | .restart n =>
    let n := n.toNat
    (116 ≤ n && n ≤ 121) || n == 123 || (125 ≤ n && n ≤ 128) || n == 130 || n == 133 || n == 134 || (136 ≤ n && n ≤ 141)

/-- An input of the switch core (R13). -/
def Input.wf (i : Input) : Bool := i.toNat < 184

/-- A staging queue that exists (R163). -/
def StgKind.wf (k : StgKind) (n : BitVec 7) : Bool :=
  match k with
  | .lrx => true
  | .ltx => true
  | _ => n.toNat < 8

/-- A master that writes registers of management space (R20, R473): the MGT, JTAG or a host function. -/
def masterWf (m : Master) : Bool := m.toNat < 0x400 || m == 0x800 || m == 0x801

/-- A width of one access (R471). -/
def widthWf (bytes : Nat) : Bool := bytes == 1 || bytes == 2 || bytes == 4 || bytes == 8

/-- What the types of a command's operands do not say. -/
def Instr.wf (i : Instr) : Bool :=
  match i with
  | .waitCtr _ _ _ w => w.len 8
  | .commandRingDoorbell _ _ _ bytes _ => widthWf bytes.toNat
  | .arrivalRingDoorbell _ _ _ bytes _ => widthWf bytes.toNat
  | .entryFetch _ _ d => d.len 64
  | .paramBlockReadComplete _ d => d.upTo 256
  | .keytabDescriptorRead _ _ d => d.len 32
  | .walkEntryRead _ d => d.len 8
  | .qpcRangeWrite m _ _ => masterWf m
  | .contextFetchComplete _ d => d.len 256
  | .sendPacket p => p.wfOp 0x01
  | .writePacket p => p.wfOp 0x02
  | .readReq p => p.wfOp 0x03
  | .readResp p => p.wfOp 0x04
  | .atomicReq p => p.wfOp 0x05
  | .atomicResp p => p.wfOp 0x06
  | .counterAddPacket p => p.wfOp 0x07
  | .ack p => p.wfOp 0x10
  | .nak p => p.wfOp 0x11
  | .packetUndefinedOp p => p.wf && !opDefined p.op
  | .hostDataReadComplete _ _ _ d => d.upTo 4096
  | .stagingFlush k n => k.wf n
  | .copSend _ d => d.upTo 4096
  | .copMcast _ d => d.upTo 4096
  | .copPlace _ d => d.upTo 4096
  | .colData p => p.wfOp 0x20
  | .colCredit p => p.wfOp 0x21
  | .colAck p => p.wfOp 0x22
  | .colAbort p => p.wfOp 0x23
  | .cadd inp p => inp.wf && p.wfOp 0x24
  | .caddAck inp p => inp.wf && p.wfOp 0x25
  | .mbxRelease _ _ off bytes _ => widthWf bytes.toNat && off.toNat % bytes.toNat == 0
  | .mbxAllocWrite m _ _ => masterWf m
  | .tmsg p => p.wfOp 0x30
  | .tmsgAck p => p.wfOp 0x31
  | .tprUnfreeze m _ => masterWf m
  | .routeDecision inp _ => inp.toNat < 185
  | .xbrChipWrite m _ => masterWf m
  | .xbrConfigWrite m off _ => masterWf m && off.toNat / 0x10000 == 0x80B
  | .mgtLocal _ pkt => pkt.wfOp 0x40
  | .mgtRouted inp pkt => (inp.toNat < 185 && pkt.wfOp 0x41) || (inp == 184 && pkt.wfOp 0x40)
  | .dataFrame _ fr => fr.pkt.wf
  | .linkRestore m _ => masterWf m
  | .linkReneg m _ => masterWf m
  | .adminUpSet m _ => masterWf m
  | .adminUpClear m _ => masterWf m
  | .gtimeLoad m => masterWf m
  | .tmuModeWrite m _ => masterWf m
  | .gclWord0Write m _ _ _ => masterWf m
  | .gclWord1Write m _ _ _ => masterWf m
  | .histClear m => masterWf m
  | .lckAcq _ _ bytes => widthWf bytes.toNat
  | .lckRel _ _ bytes => widthWf bytes.toNat
  | .lckCancel _ _ bytes => widthWf bytes.toNat
  | .lckStatRead _ _ bytes => widthWf bytes.width.toNat
  | .lckForce m _ => masterWf m
  | .lckAllocWrite m _ _ => masterWf m
  | .atomicUpdateReadComplete _ _ d => d.len 8
  | .faultOccurrence src u _ => src.toNat < 188 && u.wf
  | .spareInService u => u.wf
  | .restartComplete src => (SUnit.restart src).wf
  | .unitRestore m _ => masterWf m
  | .fcuInjectWrite m _ => masterWf m
  | .stickyClear m _ w _ => masterWf m && w.toNat < 3
  | .scrub src _ _ => src.toNat < 188
  | .brownOut rail => rail.toNat < 6
  | .domainSwitchOff d => d.toNat < 212
  | .domainSwitchOn d => d.toNat < 212
  | .domainRampComplete d => d.toNat < 212
  | .clockMonitorWindow island _ => island.toNat < 388
  | .pstateToP0 m => masterWf m
  | .pstateToP1 m => masterWf m
  | .pstateToP2 m => masterWf m
  | .pstateToP3 m => masterWf m
  | .clkP1KeepWrite m _ _ => masterWf m
  | .provision m _ => masterWf m
  | .addOwnerKey m _ => masterWf m
  | .revokeOwnerKey m _ => masterWf m
  | .seal_ m _ => masterWf m
  | .rma m _ => masterWf m
  | .svnAdvance m _ => masterWf m
  | .debugUnlock m => masterWf m
  | .debugLower m => masterWf m
  | .attest m => masterWf m
  | .nonce m => masterWf m
  | .secUnfreeze m _ => masterWf m
  | .evcCtlWrite m n _ => masterWf m && n.toNat < 1536
  | .evcCntWrite m n _ _ => masterWf m && n.toNat < 1536
  | .evcPageEnWrite m b _ => masterWf m && b.toNat < 24
  | .evcFreeze m _ => masterWf m
  | .ltnStart m => masterWf m
  | .ltnTrigger m => masterWf m
  | .ltnModeWrite m _ => masterWf m
  | .hifWinWrite m _ _ _ => masterWf m
  | .hifMgtprivWrite m _ => masterWf m
  | .warmReset m => masterWf m
  | .mgtRestart m => masterWf m
  | .hostReady m => masterWf m
  | .selfTestComplete u _ => u.wf
  | .registerWrite m _ _ _ => masterWf m
  | .pcieLinkUp _ rate width =>
    1 ≤ rate.toNat && rate.toNat ≤ 6 &&
      (width == 1 || width == 2 || width == 4 || width == 8 || width == 16)
  | .nop .. => true
  | .send .. => true
  | .write .. => true
  | .read .. => true
  | .atomic .. => true
  | .counterAdd .. => true
  | .postRecv .. => true
  | .fence .. => true
  | .signal .. => true
  | .colStart .. => true
  | .collAbort .. => true
  | .taperInvoke .. => true
  | .taperLoad .. => true
  | .taperLoadReplace .. => true
  | .taperLoadUnload .. => true
  | .ringCreate .. => true
  | .ringDestroy .. => true
  | .ringResume .. => true
  | .arvCreate .. => true
  | .arvDestroy .. => true
  | .pdAlloc .. => true
  | .pdFree .. => true
  | .mrRegister .. => true
  | .mrRevoke .. => true
  | .xltInvalidate .. => true
  | .xltLock .. => true
  | .xltUnlock .. => true
  | .btrSet .. => true
  | .qpCreate .. => true
  | .qpModify .. => true
  | .qpQuery .. => true
  | .qpDestroy .. => true
  | .ownershipReread .. => true
  | .headMirrorPublish .. => true
  | .waitCtrTimeout .. => true
  | .adminRingEnable .. => true
  | .adminRingDisable .. => true
  | .keytabEnable .. => true
  | .keytabDisable .. => true
  | .flushingReadComplete .. => true
  | .ctxtabEnable .. => true
  | .ctxtabDisable .. => true
  | .contextFetchRetry .. => true
  | .contextEviction => true
  | .ackDelayExpiry .. => true
  | .retransmitTimeout .. => true
  | .busyBackoffExpiry .. => true
  | .packetTransmit .. => true
  | .rateUpdate .. => true
  | .roundTripUpdate .. => true
  | .placementComplete .. => true
  | .rndvProbeExpiry .. => true
  | .unexpectedCopyComplete .. => true
  | .uxpoolEnable .. => true
  | .uxpoolDisable .. => true
  | .copCredit .. => true
  | .copReduce .. => true
  | .copCadd .. => true
  | .copResult .. => true
  | .copFree .. => true
  | .copAbort .. => true
  | .copEnd .. => true
  | .colRtoExpiry .. => true
  | .caddHopTimeout .. => true
  | .combIntExpiry .. => true
  | .tombTimeExpiry .. => true
  | .reduceComplete .. => true
  | .tAdd .. => true
  | .tSub .. => true
  | .tAnd .. => true
  | .tOr .. => true
  | .tXor .. => true
  | .tShl .. => true
  | .tShr .. => true
  | .tSar .. => true
  | .tMul .. => true
  | .tMulhu .. => true
  | .tSlt .. => true
  | .tSltu .. => true
  | .tAddi .. => true
  | .tAndi .. => true
  | .tOri .. => true
  | .tXori .. => true
  | .tShli .. => true
  | .tShri .. => true
  | .tSari .. => true
  | .tSlti .. => true
  | .tSltiu .. => true
  | .tMovz .. => true
  | .tMovk .. => true
  | .tLd .. => true
  | .tLw .. => true
  | .tLh .. => true
  | .tLb .. => true
  | .tSt .. => true
  | .tSw .. => true
  | .tSh .. => true
  | .tSb .. => true
  | .tAadd .. => true
  | .tAswp .. => true
  | .tAcas .. => true
  | .tVld .. => true
  | .tVst .. => true
  | .tVins .. => true
  | .tVext .. => true
  | .tVmov .. => true
  | .tVzero .. => true
  | .tBeq .. => true
  | .tBne .. => true
  | .tBlt .. => true
  | .tBge .. => true
  | .tBltu .. => true
  | .tBgeu .. => true
  | .tJmp .. => true
  | .tCall .. => true
  | .tJr .. => true
  | .tRet .. => true
  | .tEnd .. => true
  | .tBrk .. => true
  | .tWaitev .. => true
  | .tPollev .. => true
  | .tTimer .. => true
  | .tRdtime .. => true
  | .tSys .. => true
  | .tCrd .. => true
  | .tCwr .. => true
  | .tCcpy .. => true
  | .tCfree .. => true
  | .tColop .. => true
  | .tMsg .. => true
  | .tHxfer .. => true
  | .tMbxput .. => true
  | .tSemacq .. => true
  | .tSemrel .. => true
  | .tNote .. => true
  | .illegalOpcode .. => true
  | .hxferComplete .. => true
  | .tmRtoExpiry .. => true
  | .acceptanceEntryExpiry .. => true
  | .timerExpiry .. => true
  | .watchdogExpiry .. => true
  | .activationDispatch .. => true
  | .mgtWaitExpiry .. => true
  | .signalDetect .. => true
  | .capabilityPage .. => true
  | .pageSendTimer .. => true
  | .bringupTimeout .. => true
  | .trainingComplete .. => true
  | .alignmentComplete .. => true
  | .holdExpiry .. => true
  | .downHoldExpiry .. => true
  | .idle .. => true
  | .credit .. => true
  | .retryReq .. => true
  | .tsReq .. => true
  | .tsResp .. => true
  | .reconfig .. => true
  | .reconfigAck .. => true
  | .controlFrameTimer .. => true
  | .creditRefresh .. => true
  | .retryToExpiry .. => true
  | .linkToExpiry .. => true
  | .egressSelect .. => true
  | .laneLockLoss .. => true
  | .laneErrorThreshold .. => true
  | .llUncorrThreshold .. => true
  | .reconfigResend .. => true
  | .reconfigTimeout .. => true
  | .laneRetrain .. => true
  | .laneRestoreQualified .. => true
  | .tsIntervalExpiry .. => true
  | .servoRun => true
  | .ppsEdge .. => true
  | .ppsLoss => true
  | .holdMaxExpiry => true
  | .gtimeLoRead .. => true
  | .epochStart => true
  | .guardBandStart .. => true
  | .earlyExpiry .. => true
  | .histSample => true
  | .atomicResultExpiry .. => true
  | .restoreSelfTestComplete .. => true
  | .thermalWarning => true
  | .supplyOutOfRange => true
  | .thermalTrip => true
  | .pstateTransitionComplete => true
  | .bypass => true
  | .idcode => true
  | .secNonce => true
  | .secToken .. => true
  | .samplePreload .. => true
  | .extest => true
  | .clamp => true
  | .highz => true
  | .dbgRead .. => true
  | .dbgWrite .. => true
  | .halt .. => true
  | .replay => true
  | .bar0WindowViolation .. => true
  | .ltnSnapshotComplete => true
  | .ltnTimeTrigger => true
  | .replayStop .. => true
  | .flr .. => true
  | .controllerReset .. => true
  | .pcieLinkLoss .. => true
  | .d3hotToD0 .. => true
  | .vfEnableClear .. => true
  | .completionTimeout .. => true
  | .msixUnmask .. => true
  | .configRequest .. => true
  | .enumerationTimeout .. => true
  | .aspmL1Entry .. => true
  | .coldReset .. => true
  | .recoveryReselect => true
  | .descriptorReadComplete .. => true
  | .taperImageReadComplete .. => true
  | .xspiOperationComplete .. => true
  | .refLockChange .. => true
  | .perstNRelease .. => true
  | .supplyReturn => true
  | .baseRttWindowRestart .. => true

end Sys2Proof
end

