-- ==== Sys2Proof/Tests/Slice0.lean ====
section
/-! SUPPORT. Small tests: well-formed and ill-formed commands, instruction words written out from the formats, and values that the spec
gives. The witnesses of the statements' hypotheses stand in the Wit files beside this one. -/

namespace Sys2Proof.Tests

set_option Elab.async false

open Sys2Proof.Machine Sys2Proof.Claims

/-! ### Well-formed commands -/

/-- A packet of an OP with one byte of payload. -/
def pktOf (op : BitVec 8) : Packet := { Packet.zero with op := op, payLen := 1, payload := [0] }

theorem test_wf_good :
    [Instr.waitCtr 0 0 0 (.data (List.replicate 8 0)), .waitCtr 0 0 0 .pcieError, .commandRingDoorbell 0 0 0 8 0,
      .sendPacket (pktOf 0x01), .ack (pktOf 0x10), .cadd 183 (pktOf 0x24), .packetUndefinedOp (pktOf 0x2A), .stagingFlush .rxp 7,
      .stagingFlush .ltx 127, .mbxRelease 0 0 8 8 0, .xbrChipWrite 0x3FF 0, .xbrChipWrite 0x801 0, .routeDecision 183 25,
      .xbrConfigWrite 0x800 0x80BFFF8 0, .dataFrame 127 ⟨0, pktOf 0x02, 0, false⟩, .faultOccurrence 187 (.core 135) true,
      .spareInService (.rdu 35), .restartComplete 116, .restartComplete 141, .stickyClear 0x800 false 2 0, .scrub 187 0 0, .brownOut 5,
      .domainSwitchOff 211, .clockMonitorWindow 387 true, .evcCtlWrite 0x800 1535 0, .evcPageEnWrite 0x800 23 0, .pcieLinkUp 7 6 16].all
      Instr.wf = true := by decide +kernel

/-- Reads that return the wrong number of bytes, and too many. -/
theorem test_wf_reads :
    [Instr.waitCtr 0 0 0 (.data []), .entryFetch 0 0 (.data (List.replicate 63 0)), .keytabDescriptorRead 0 0 (.data []),
      .walkEntryRead 0 (.data (List.replicate 9 0)), .contextFetchComplete 0 (.data []), .atomicUpdateReadComplete 0 0 (.data []),
      .paramBlockReadComplete 0 (.data (List.replicate 257 0))].all (fun i => !i.wf) = true := by decide +kernel

theorem test_wf_reads_too_long (bs : List Byte) (h : bs.length = 4097) :
    Instr.wf (.hostDataReadComplete 0 0 true (.data bs)) = false ∧ Instr.wf (.copSend 0 (.data bs)) = false ∧
    Instr.wf (.copMcast 0 (.data bs)) = false ∧ Instr.wf (.copPlace 0 (.data bs)) = false := by
  have e : decide (bs.length ≤ 4096) = false := by simp [h]
  exact ⟨e, e, e, e⟩

/-- Widths that no access has. -/
theorem test_wf_widths :
    [Instr.commandRingDoorbell 0 0 0 3 0, .arrivalRingDoorbell 0 0 0 0 0, .lckAcq 0 0 5, .lckRel 0 0 6, .lckCancel 0 0 7, .lckStatRead 0 0 ⟨0, 9⟩,
      .mbxRelease 0 0 4 8 0, .mbxRelease 0 0 0 16 0].all (fun i => !i.wf) = true := by decide +kernel

/-- Packets of another OP, of a defined OP where an undefined one is due, and of a payload that PAYLEN does not give. -/
theorem test_wf_packets :
    [Instr.sendPacket, .writePacket, .readReq, .readResp, .atomicReq, .atomicResp, .counterAddPacket, .ack, .nak, .colData, .colCredit, .colAck,
      .colAbort, .cadd 0, .caddAck 0, .tmsg, .tmsgAck, .mgtLocal 0, .mgtRouted 0].all
      (fun c => !(c (pktOf 0x42)).wf && !(c Packet.zero).wf) = true ∧
    Instr.wf (.packetUndefinedOp (pktOf 0x25)) = false ∧ Instr.wf (.sendPacket { pktOf 0x01 with payLen := 2 }) = false ∧
    Instr.wf (.dataFrame 0 ⟨0, { pktOf 0x01 with payload := [] }, 0, false⟩) = false := by decide +kernel

/-- Masters that write no register: 0x400 to 0x7FF and those from 0x802 on. -/
theorem test_wf_masters :
    [fun m => Instr.qpcRangeWrite m 0 0, (.mbxAllocWrite · 0 0), (.tprUnfreeze · 0), (.xbrChipWrite · 0), (.xbrConfigWrite · 0x80B0000 0),
      (.linkRestore · 0), (.linkReneg · 0), (.adminUpSet · 0), (.adminUpClear · 0), (.gtimeLoad ·), (.tmuModeWrite · 0),
      (.gclWord0Write · 0 0 0), (.gclWord1Write · 0 0 0), (.histClear ·), (.lckForce · 0), (.lckAllocWrite · 0 0), (.unitRestore · 0),
      (.fcuInjectWrite · 0), (.stickyClear · false 0 0), (.pstateToP0 ·), (.pstateToP1 ·), (.pstateToP2 ·), (.pstateToP3 ·),
      (.clkP1KeepWrite · 0 0)].all (fun c => !(c 0x400).wf && !(c 0x802).wf) = true ∧
    [fun m => Instr.provision m 0, (.addOwnerKey · 0), (.revokeOwnerKey · 0), (.seal_ · 0), (.rma · 0), (.svnAdvance · 0), (.debugUnlock ·),
      (.debugLower ·), (.attest ·), (.nonce ·), (.secUnfreeze · 0), (.evcCtlWrite · 0 0), (.evcCntWrite · 0 0 0), (.evcPageEnWrite · 0 0),
      (.evcFreeze · 0), (.ltnStart ·), (.ltnTrigger ·), (.ltnModeWrite · 0), (.hifWinWrite · 0 0 0), (.hifMgtprivWrite · 0), (.warmReset ·),
      (.mgtRestart ·), (.hostReady ·), (.registerWrite · 0 0 .poisoned)].all (fun c => !(c 0x7FF).wf && !(c 0xFFF).wf) = true := by decide +kernel

/-- Numbers beyond the last of their kind. -/
theorem test_wf_ranges :
    [Instr.cadd 184 (pktOf 0x24), .caddAck 184 (pktOf 0x25), .routeDecision 185 0, .mgtRouted 255 (pktOf 0x41),
      .xbrConfigWrite 0x800 0x80C0000 0, .stagingFlush .htx 8, .stagingFlush .txi 8, .stagingFlush .rxd 8, .stagingFlush .rxp 8,
      .faultOccurrence 188 (.core 0) false, .faultOccurrence 0 (.core 136) false, .spareInService (.rdu 36), .restartComplete 122,
      .selfTestComplete (.restart 0) true, .stickyClear 0x800 false 3 0, .scrub 188 0 0, .brownOut 6, .domainSwitchOff 212,
      .domainSwitchOn 212, .domainRampComplete 212, .clockMonitorWindow 388 true, .evcCtlWrite 0x800 1536 0, .evcCntWrite 0x800 1536 0 0,
      .evcPageEnWrite 0x800 24 0, .pcieLinkUp 0 0 16, .pcieLinkUp 0 7 16, .pcieLinkUp 0 1 3].all (fun i => !i.wf) = true := by
  decide +kernel

/-! ### Instruction words, bit by bit from R235 and R236 -/

/-- Format R: opcode, rd, ra, rb, zero. -/
theorem test_word_r :
    taperDecode 9 0b00000001_0011_0101_1010_000000000000 = some (.tAdd 9 3 5 10) ∧
    taperDecode 9 0b00101010_0001_0010_0100_000000000000 = some (.tAcas 9 1 2 4) ∧
    taperDecode 9 0b01001010_0000_0111_0000_000000000000 = some (.tJr 9 7) ∧
    taperDecode 9 0b01001011_0000_0000_0000_000000000000 = some (.tRet 9) := by decide +kernel

/-- Format I: opcode, rd, ra, imm16; MOVK's lane in bits 17 and 16. -/
theorem test_word_i :
    taperDecode 0 0b00010000_0010_0001_1111111111111110 = some (.tAddi 0 2 1 0xFFFE) ∧
    taperDecode 0 0b00100111_1100_0011_0000000000000101 = some (.tSb 0 12 3 5) ∧
    taperDecode 0 0b00011010_1000_0010_1000000000000001 = some (.tMovk 0 8 2 0x8001) ∧
    taperDecode 0 0b01010000_0110_0000_0000000000010011 = some (.tWaitev 0 6 0x13) := by decide +kernel

/-- Formats B and J: ra, rb, off16; off24. -/
theorem test_word_bj :
    taperDecode 0 0b01000100_0001_1110_1000000000000000 = some (.tBltu 0 1 14 0x8000) ∧
    taperDecode 0 0b01001001_100000000000000000000001 = some (.tCall 0 0x800001) := by decide +kernel

/-- Format V: vd, vb, ra, rb, imm12. -/
theorem test_word_v :
    taperDecode 0 0b00110000_11_00_0101_0000_111111000000 = some (.tVld 0 3 5 0xFC0) ∧
    taperDecode 0 0b00110011_00_10_0000_1001_000000000110 = some (.tVext 0 9 2 6) ∧
    taperDecode 0 0b01100000_00_01_0000_0000_000000000000 = some (.tColop 0 1) ∧
    taperDecode 0 0b01100110_00_11_0000_0100_000000000000 = some (.tNote 0 3 4) := by decide +kernel

/-- A word with a bit set in a field that its operation does not name, and opcodes that the table does not give, stand for no instruction. -/
theorem test_word_illegal :
    [0x01000001#32, 0x14000040, 0x19040000, 0x4A100000, 0x4B000001, 0x30100000, 0x33000008, 0x00000000, 0x0D000000, 0x67000000,
      0xFF000000].all (fun w => taperDecode 0 w == none) = true := by decide +kernel

/-- The table gives no row bits, so that no word spells a command. -/
theorem test_no_table_word : decodeTableWord 32 1 = none ∧ (State.reset.withFetchWord 32 1) = State.reset := ⟨rfl, rfl⟩

/-! ### Taper instructions on values -/

/-- Register `r` of core 0 after an outcome. -/
def wAfter (o : Host.Outcome State Fault Refusal) (r : WReg) : Option (BitVec 64) :=
  match o with
  | .next t =>
    match tget t.tpr.cores 0 with
    | some c => c.act.map (fun a => a.getW r.toNat)
    | none => none
  | _ => none

/-- The activation with two values in w1 and w2. -/
def w12 (x y : BitVec 64) : State := onCore { msgAct with w := #v[0, x, y, 0, 0, 0, 0, 0, 0, 0, 0, 0, 0, 0, 0, 0] }

theorem test_alu :
    wAfter (exec (.tSub 0 3 1 2) (w12 0 1)) 3 = some 0xFFFFFFFFFFFFFFFF ∧
    wAfter (exec (.tMulhu 0 3 1 2) (w12 0x8000000000000000 4)) 3 = some 2 ∧
    wAfter (exec (.tSar 0 3 1 2) (w12 0x8000000000000000 127)) 3 = some 0xFFFFFFFFFFFFFFFF ∧
    wAfter (exec (.tSlt 0 3 1 2) (w12 0xFFFFFFFFFFFFFFFF 0)) 3 = some 1 ∧
    wAfter (exec (.tSltu 0 3 1 2) (w12 0xFFFFFFFFFFFFFFFF 0)) 3 = some 0 ∧
    wAfter (exec (.tAdd 0 0 1 2) (w12 1 2)) 0 = some 0 := by decide +kernel

theorem test_immediates :
    wAfter (exec (.tAddi 0 1 1 0xFFFF) (w12 0 0)) 1 = some 0xFFFFFFFFFFFFFFFF ∧
    wAfter (exec (.tOri 0 1 1 0xFFFF) (w12 0 0)) 1 = some 0xFFFF ∧
    wAfter (exec (.tSltiu 0 1 2 0xFFFF) (w12 0 0xFFFF)) 1 = some 1 ∧
    wAfter (exec (.tMovz 0 1 3 0x1234) (w12 7 0)) 1 = some 0x1234000000000000 ∧
    wAfter (exec (.tMovk 0 1 0 0x1234) (w12 0xFFFFFFFFFFFFFFFF 0)) 1 = some 0xFFFFFFFFFFFF1234 := by decide +kernel

/-! ### Values that the spec gives -/

/-- The check value of CRC-32C. -/
theorem test_crc32c : crc32c [0x31, 0x32, 0x33, 0x34, 0x35, 0x36, 0x37, 0x38, 0x39] = 0xE3069283 := by decide +kernel

/-- The cells that a device with its reset port roles reserves are within those it has (R15, R291). -/
theorem test_cells : bufferCells State.reset = 1048576 ∧ reservedCells State.reset ≤ bufferCells State.reset := by decide +kernel

/-- 07's example: 2^53 + 1 is a tie and rounds to the even 2^53; 2^53 + 2 is exact; the exact sum of 1, 2^53 and 1 rounds to 2^53 + 2. -/
theorem test_exact_sum :
    fp64.add 0x4340000000000000 0x3FF0000000000000 = 0x4340000000000000 ∧
    fp64.add 0x4340000000000000 (fp64.add 0x3FF0000000000000 0x3FF0000000000000) = 0x4340000000000001 ∧
    (((Lac.zero.addF64 0x3FF0000000000000).addF64 0x4340000000000000).addF64 0x3FF0000000000000).round = 0x4340000000000001 := by
  decide +kernel

/-- Rounded sums: +∞ and −∞ give the canonical NaN, and −0 lies below +0 (R209). -/
theorem test_rounded :
    fp32.add 0x7F800000 0xFF800000 = 0x7FC00000 ∧ fp32.minimum 0x00000000 0x80000000 = 0x80000000 ∧
    bf16.maximum 0x3F80 0xFFC1 = 0x7FC0 ∧ fp16.add 0x0001 0x0001 = 0x0002 := by decide +kernel

/-- R500's example: FRX_N of port 90, lane 2, is ball (82, 25). -/
theorem test_ball_example : ballAt 82 25 = some (.frx .n 90 2) ∧ ballAt 43 43 = none := by decide +kernel

/-- A digit of base 65,536 for each group of R499, in the order of its table. -/
def ballDigit : Ball → Nat
  | .ftx .. => 1
  | .frx .. => 1
  | .fref .. => 65536 ^ 1
  | .vddSda => 65536 ^ 2
  | .vddSdh => 65536 ^ 3
  | .ptx .. => 65536 ^ 4
  | .prx .. => 65536 ^ 4
  | .pref .. => 65536 ^ 5
  | .vddPcie => 65536 ^ 6
  | .low _ => 65536 ^ 7
  | .vddAon => 65536 ^ 8
  | .vddio => 65536 ^ 9
  | .vqps => 65536 ^ 10
  | .vddCore => 65536 ^ 11
  | .vddSram => 65536 ^ 12
  | .vss => 65536 ^ 13

/-- The digits of the balls at all the sites, added. -/
def ballTally : Nat :=
  ((List.range 85).map (fun r => ((List.range 85).map (fun c => ((ballAt (r + 1) (c + 1)).map ballDigit).getD 0)).sum)).sum

/-- The numbers of balls of R499, which make 7,200. -/
theorem test_balls :
    (List.range 14).map (fun k => ballTally / 65536 ^ k % 65536) = [2048, 32, 576, 288, 256, 8, 64, 64, 16, 8, 4, 972, 396, 2468] ∧
    [2048, 32, 576, 288, 256, 8, 64, 64, 16, 8, 4, 972, 396, 2468].sum = 7200 := by
  have h : ballTally = 1015278797692570451088986173485816534314075426568968194462603806720 := by decide +kernel
  rw [h]
  decide +kernel

/-- The crossing of R412's example is busy for 5.875 to 8.5 ns of 16 units each. -/
theorem test_crossing_busy (v : Nat) : 94 ≤ pulseTrip (evcCycle 202 0) v ∧ pulseTrip (evcCycle 202 0) v ≤ 136 := by
  simp [pulseTrip, evcCycle]; omega

/-- Five pulses cross in the native mode as they come (R412). -/
theorem test_native_crossing : (pulseCross 202 0 1 4 up).1 + (pulseCross 202 0 1 1 up).1 = 5 := by decide +kernel

/-- A core of cluster 5 that runs for a second above a threshold counts 1.8 * 10^9 cycles (R444); at the threshold it counts none. -/
theorem test_level_counts :
    let busy (thresh : BitVec 64) : State :=
      wrReg (Reg.EVC_CTL + 8) (0x8000000000050000 + thresh * 0x100000000 + 214)
        (setRf (Reg.CLK_DOM_STAT + 16) 22 22 1 { up with tpr := { up.tpr with cores := [(40, { Core.idle with act := some msgAct })] } })
    rf (Reg.EVC_CNT + 8) 47 0 (timePass 16000000000 (busy 0)) = 1800000000 ∧
    rf (Reg.EVC_CNT + 8) 47 0 (timePass 16000000000 (busy 1)) = 0 := by decide +kernel

/-- A rail within its range, out of it and below 90 % of nominal (R508), and the junction temperatures of R515. -/
theorem test_supplies :
    supplyEvent .core 772 = .nothing ∧ supplyEvent .core 773 = .outOfRange ∧ supplyEvent .core 675 = .outOfRange ∧
    supplyEvent .core 674 = .brownOut 0 ∧ supplyEvent .qps 0 = .nothing ∧ thermalEvent 100 = .nothing ∧ thermalEvent 101 = .warning ∧
    thermalEvent 115 = .trip := by decide +kernel

/-- Two of a fuse bit's three copies carry it, and the three then do not agree. -/
theorem test_fuse_vote :
    (⟨true, true, false⟩ : FuseBit).vote = true ∧ (⟨true, true, false⟩ : FuseBit).agrees = false ∧
    (⟨false, true, false⟩ : FuseBit).vote = false ∧ (FuseBit.all true).agrees = true := by decide

/-! ### SHA-384 and P-384 (R423) -/

/-- The example of FIPS 180-4 for "abc": the first eight bytes of its digest. -/
theorem test_sha384_abc : (sha384 [0x61, 0x62, 0x63]).take 8 = [0xcb, 0x00, 0x75, 0x3f, 0x45, 0xa3, 0x5e, 0x8b] := by decide +kernel

/-- The base point lies on the curve and has the order n (FIPS 186-5). -/
theorem test_p384_base :
    (ecPoint (EcPoint.base.bytes)).isSome = true ∧ (EcPoint.base.times 384 n384).z = 0 ∧ (EcPoint.base.times 384 (n384 - 1)).z ≠ 0 := by
  decide +kernel

end Sys2Proof.Tests
end

