-- ==== Sys2Proof/Tests/WitAdmin.lean ====
section
/-! SUPPORT. Witnesses: states and operands that meet the hypotheses of the statements about admin entries, tables and programs. -/

namespace Sys2Proof.Tests

set_option Elab.async false

open Sys2Proof.Machine Sys2Proof.Claims

/-- An admin entry with its block at 0x5000 and X64, alone in the admin ring. -/
def admin (op x64 : Nat) (s : State) : State := oneEntry 0 (ent op 0 0x5000 0 0 x64) s

/-- What every statement about an admin entry asks of it. -/
def asked (op x64 : Nat) (s : State) : Bool :=
  let t := admin op x64 s
  running t && decide (issueOf op 0 0 t = some (refOf 0, ent op 0 0x5000 0 0 x64)) && inWindow 0 0x5000 256 t &&
  decide (eLaddr (ent op 0 0x5000 0 0 x64) = 0x5000) && decide ((eX64 (ent op 0 0x5000 0 0 x64)).toNat = x64)

/-- A VALID descriptor of domain 5 with all rights, and the same INVALID. -/
def dsc (st : KeyState) : Desc := { va := 0, size := 0x1000, gen := 3, pd := 5, btr := 0, state := st, modeBtr := false, rights := 31 }

def withDesc (st : KeyState) (s : State) : State := { s with xlt := { s.xlt with descs := [(descKey 0 255, dsc st)] } }

theorem test_wit_admin_asked :
    (∀ op ∈ [0x38, 0x3A, 0x3B, 0x3C, 0x3D, 0x3E, 0x3F, 0x40, 0x41, 0x42], asked op 0 host = true) ∧ asked 0x39 5 host = true ∧
    asked 0x43 16 host = true ∧ asked 0x29 0 host = true := by decide +kernel

/-! ### DomainsRegionsAndBtrs -/

/-- PD_ALLOC with a ROOT and without; PD_FREE of domain 5, which nothing names. -/
theorem test_wit_domains :
    let s := admin 0x38 0 host
    let b (root : Nat) : BitVec 128 := BitVec.ofNat 128 (root * 2 ^ 64)
    let t := admin 0x39 5 host
    (∀ root ∈ [0, 0x1000], bits 63 48 (b root) = 0 ∧ bits 31 0 (b root) = 0 ∧ ((b root).extractLsb' 64 64).toNat % 4096 = 0) ∧
    inWindow 0 0x1000 4096 s = true ∧ tget s.xlt.pds 0 = none ∧
    pdJudge 0 5 t = none ∧ t.xlt.regions = [] ∧ t.qpc.bound = [] ∧ t.xlt.btrs = [] ∧ t.xlt.locked = [] := by decide +kernel

/-- MR_REGISTER and MR_REVOKE of the last descriptor of the table. -/
theorem test_wit_regions :
    let b : BitVec 256 := BitVec.ofNat 256 (0x1000 * 2 ^ 128 + 255 * 2 ^ 104 + 5 * 2 ^ 80 + 31 * 2 ^ 64)
    let s := admin 0x3A 0 (withDesc .invalid host)
    let r : BitVec 128 := BitVec.ofNat 128 (255 * 2 ^ 104 + 3 * 2 ^ 96)
    let t := admin 0x3B 0 (withDesc .valid host)
    (registerJudge 0 b s = none ∧ bits 127 104 b = 255 ∧ tget s.xlt.descs (descKey 0 255) = some (dsc .invalid)) ∧
    (bits 95 0 r = 0 ∧ keytabActive 0 t = true ∧ r.toNat / 2 ^ 104 = 255 ∧ 255 < 2 ^ keytabLog2 0 t ∧
      tget t.xlt.descs (descKey 0 255) = some (dsc .valid) ∧ (dsc .valid).gen.toNat = r.toNat / 2 ^ 96 % 256 ∧ pdOwned 0 5 t = true) := by
  decide +kernel

/-- BTR_SET of register 255, with VALID and without. -/
theorem test_wit_btr :
    let s := admin 0x3F 0 (writeReg (Reg.XLT_BTR_ALLOC + 8 * 255) 0x1000 host)
    let b (v : Nat) : BitVec 256 := BitVec.ofNat 256 (0x10000 * 2 ^ 192 + 0x20000 * 2 ^ 128 + 0x1000 * 2 ^ 64 + 255 * 2 ^ 56 + v * 2 ^ 48 + 5 * 2 ^ 32 + 3)
    ∀ v ∈ [0, 1], bits 55 49 (b v) = 0 ∧ bits 31 2 (b v) = 0 ∧ bits 63 56 (b v) = 255 ∧ btrOwned 0 255 s = true ∧ btrInUse 255 s = false ∧
      (b v).getLsbD 48 = (v == 1) ∧ pdJudge 0 ((b v).extractLsb' 32 16) s = none ∧ bits 255 192 (b v) % 4096 = 0 ∧ bits 191 128 (b v) % 4096 = 0 ∧
      bits 127 64 (b v) = 0x1000 ∧ bits 191 128 (b v) + bits 127 64 (b v) ≤ 2 ^ 64 ∧
      inWindow 0 ((b v).extractLsb' 128 64) (bits 127 64 (b v)) s = true := by decide +kernel

/-! ### TranslationsAreInvalidatedAndLocked -/

theorem test_wit_invalidate_lock :
    let i : BitVec 256 := BitVec.ofNat 256 (5 * 2 ^ 112 + 0b010011)
    let b : BitVec 128 := BitVec.ofNat 128 ((2 ^ 48 - 1) * 2 ^ 64 + 5 * 2 ^ 48)
    let s := admin 0x3D 0 host
    (bits 255 96 i = ((i.extractLsb' 112 16).toNat * 2 ^ 16 : Nat) ∧ bits 63 0 i = 0b010011 ∧
      pdJudge 0 (i.extractLsb' 112 16) (admin 0x3C 0 host) = none) ∧
    (bits 47 40 b = 0 ∧ bits 31 0 b = 0 ∧ pdJudge 0 (b.extractLsb' 48 16) s = none ∧ b.toNat / 2 ^ 64 < 2 ^ 48 ∧
      lockedSlot (b.extractLsb' 48 16) (b.toNat / 2 ^ 64) s = none ∧ s.xlt.locked.length < 256 ∧
      tget s.xlt.pds 5 = some { owner := 0, root := 0x1000 } ∧ tableOk 0 (walkStart 5 0x1000 (2 ^ 48 - 1) s).table s = true) := by decide +kernel

theorem test_wit_unlock :
    let l : Leaf := { dom := 5, va := 0x1000, log2 := 12, bus := 0x1000, read := true, write := true }
    let b : BitVec 128 := BitVec.ofNat 128 (0x1FFF * 2 ^ 64 + 5 * 2 ^ 48 + 255 * 2 ^ 32)
    let s := admin 0x3E 0 { host with xlt := { host.xlt with locked := [(255, ⟨0, l, false⟩)] } }
    bits 47 40 b = 0 ∧ bits 31 0 b = 0 ∧ pdJudge 0 (b.extractLsb' 48 16) s = none ∧ b.toNat / 2 ^ 32 % 256 = 255 ∧
    tget s.xlt.locked 255 = some ⟨0, l, false⟩ ∧ l.covers (b.extractLsb' 48 16) (b.toNat / 2 ^ 64) = true := by decide +kernel

/-! ### QueuePairsAreAdministered, ContextImageKeepsParameters -/

/-- With Arrival Ring 1, which a queue pair may name. -/
def hostArv : State := putArv 0 1 (newArv 0 6 1 4 0) host

theorem test_wit_qp_create :
    let b : BitVec 128 := BitVec.ofNat 128 (31 * 2 ^ 104 + 5 * 2 ^ 80 + 2 ^ 64)
    createJudge 0 b (admin 0x40 0 hostArv) = none ∧ b.toNat / 2 ^ 104 = 31 := by decide +kernel

/-- The transitions of QP_MODIFY: RESET to INIT with an Arrival Ring, INIT to ACTIVE, ACTIVE to QUIESCED and to ERROR, and one not allowed. -/
theorem test_wit_qp_modify :
    let b (st mask x : Nat) : BitVec 256 := BitVec.ofNat 256 (x + 16 * 2 ^ 104 + st * 2 ^ 100 + mask)
    let s (st : QpState) : State := admin 0x41 0 (withQp (qpIn st) hostArv)
    let ok (v : BitVec 256) (st : QpState) : Bool :=
      modifyFieldsOk v && ctxtabActive 0 (s st) && v.toNat / 2 ^ 104 % 2 ^ 24 == 16 && inRange 0 16 (s st) && decide (getQp 16 (s st) = some (qpIn st))
    (ok (b 2 8 (2 ^ 64)) .reset = true ∧ bits 103 100 (b 2 8 (2 ^ 64)) = 2 ∧
      modifyJudge 0 (b 2 8 (2 ^ 64)) (qpIn .reset) .init (s .reset) = none) ∧
    (ok (b 3 0xE0 0) .init = true ∧ bits 103 100 (b 3 0xE0 0) = 3 ∧ modifyJudge 0 (b 3 0xE0 0) (qpIn .init) .active (s .init) = none) ∧
    (ok (b 4 0 0) .active = true ∧ bits 103 100 (b 4 0 0) = 4 ∧ modifyJudge 0 (b 4 0 0) (qpIn .active) .quiesced (s .active) = none) ∧
    (ok (b 5 0 0) .active = true ∧ bits 103 100 (b 5 0 0) = 5 ∧ modifyJudge 0 (b 5 0 0) (qpIn .active) .error (s .active) = none) ∧
    (ok (b 3 0 0) .reset = true ∧ bits 103 100 (b 3 0 0) = 3) ∧
    (∀ st ∈ [QpState.reset, .init, .active], (qpIn st).trans = none ∧ (qpIn st).par.state = st) := by decide +kernel

theorem test_wit_qp_query_destroy :
    let s (op x : Nat) (st : QpState) : State := admin op x (withQp (qpIn st) hostArv)
    (bits 2047 24 (16 : BitVec 2048) = 0 ∧ (16 : BitVec 2048).toNat % 2 ^ 24 = 16 ∧ ctxtabActive 0 (s 0x42 0 .active) = true ∧
      inRange 0 16 (s 0x42 0 .active) = true ∧ getQp 16 (s 0x42 0 .active) = some (qpIn .active)) ∧
    (∀ st ∈ [QpState.reset, .error, .active], ctxtabActive 0 (s 0x43 16 st) = true ∧ inRange 0 16 (s 0x43 16 st) = true ∧
      getQp 16 (s 0x43 16 st) = some (qpIn st) ∧ (qpIn st).trans = none ∧ (qpIn st).hollow = false) := by decide +kernel

theorem test_wit_image_params :
    let p : QpParam := { (qpIn .active).par with rqPsn := 0xFFFFFFFF, pin := true, egressQ := 15, arvId := 0xFFF }
    (BitVec.ofNat 256 (paramNat 16 p)).toNat = paramNat 16 p := by decide +kernel

/-! ### TablesAreEnabledAndRead -/

/-- Enabling each table with good registers and with bad ones. -/
theorem test_wit_tables_enable :
    let off := setFf 0 Reg.MTE_UXPOOL 4 0 4 (setFf 0 Reg.QPC_CTXTAB_CTRL 1 0 0 (setFf 0 Reg.XLT_KEYTAB_CTRL 1 0 0 host))
    HostWrites 0 off ∧ bit 1 (rdFn 0 Reg.XLT_KEYTAB_CTRL off) = false ∧ bit 1 (rdFn 0 Reg.QPC_CTXTAB_CTRL off) = false ∧
    bit 1 (rdFn 0 Reg.MTE_UXCTRL off) = false ∧ keytabOk 0 off = true ∧ ctxtabOk 0 off = true ∧ uxpoolOk 0 off = true ∧
    keytabOk 0 up = false ∧ ctxtabOk 0 up = false ∧ uxpoolOk 0 up = false ∧ HostWrites 0 up := by decide +kernel

/-- Disabling each; a range of 2^24 queue pairs written by the MGT while the table is not ACTIVE, and one with a size above. -/
theorem test_wit_tables_disable :
    let on := setFf 0 Reg.MTE_UXCTRL 1 0 3 host
    let v : BitVec 64 := 0x98000000
    let bad : BitVec 64 := 0x99000000
    HostWrites 0 on ∧ bit 1 (rdFn 0 Reg.XLT_KEYTAB_CTRL on) = true ∧ bit 1 (rdFn 0 Reg.QPC_CTXTAB_CTRL on) = true ∧
    bit 1 (rdFn 0 Reg.MTE_UXCTRL on) = true ∧
    MgtWritesOff 0x800 up ∧ bits 28 24 v = 24 ∧ bits 23 0 v % 2 ^ bits 28 24 v = 0 ∧ rangeTaken 0 v up = false ∧ ctxtabActive 0 up = false ∧
    24 < bits 28 24 bad ∧ running up = true := by decide +kernel

/-- An access of function 0 whose key is 255, generation 3. -/
def acc : Access :=
  { fn := 0, dom := none, parts := [⟨0xFF03, 0, 8⟩], rights := 1, rd := true, wr := false, testsOnly := false, purpose := .hxfer 1 }

/-- An access that waits for a descriptor; one that waits for a walk, whose entry is a table, a leaf, or invalid. -/
theorem test_wit_reads :
    let k : Walk := { dom := 5, va := 0x1000, level := 1, table := 0x2000, path := [], noFill := false }
    let s (w : Wait) : State := { host with xlt := { host.xlt with waiting := [⟨1, acc, [], w⟩] } }
    running (s (.desc 255)) = true ∧ (s (.desc 255)).xlt.waiting.all (fun j => j.access.fn == 0 && decide (j.wait = .desc 255) && !descAdmin j) = true ∧
    (s (.walk k)).xlt.waiting.find? (fun j => j.serial == 1) = some ⟨1, acc, [], .walk k⟩ ∧ (List.replicate 32 (0 : Byte)).length = 32 ∧
    walkEntry k 0x3003 = .table 0x3000 ∧ tableOk 0 0x3000 (s (.walk k)) = true ∧
    walkEntry k 0x20000D = .leaf { dom := 5, va := 0, log2 := 21, bus := 0x200000, read := true, write := true } ∧
    walkEntry k 0 = .fail 0x12 := by decide +kernel

theorem test_wit_walk_purpose : ∀ ref, acc.purpose ≠ .lockPage ref := by
  intro ref h; cases h

/-- A flushing read held for a notice; the fetch of queue pair 16, its image, and its second try; the Wick cache. -/
theorem test_wit_fetches_contexts :
    let n : Notice := { addr := 0, imm := 0, key := 0, src := 0, bytes := 0, detail := 0, status := 1, kind := 5, qpn := 16 }
    let f : State := { host with xlt := { host.xlt with flushes := [(7, .notice 0 1 .pool n none false)] } }
    let x (r : Bool) : Fetch := { waitSlot := false, second := false, waitRetry := r, jobs := [] }
    let s (r : Bool) : State := { host with qpc := { host.qpc with fetches := [(16, x r)], bound := [(16, ⟨0, 5, 0⟩)] } }
    running f = true ∧ f.xlt.flushes.find? (fun j => j.1 == 7) = some (7, .notice 0 1 .pool n none false) ∧ frozen 0 f = false ∧
    (∀ r ∈ [false, true], tget (s r).qpc.fetches 16 = some (x r) ∧ qpRange 16 (s r) = some (0, 16) ∧
      readable 0 (imageAddr 0 16 16 (s r)) 256 (s r) = true ∧ running (s r) = true) ∧
    tget (s false).qpc.bound 16 ≠ none ∧
    512 ≤ 65536 - wickUsed host := by decide +kernel

set_option maxRecDepth 20000 in
/-- The image of an ACTIVE queue pair is one that can be read. -/
theorem test_wit_image :
    let bs := imageBytes 16 (qpIn .active)
    bs.length = 256 ∧ imageDecode bs = .live (qpIn .active) := by decide +kernel

/-- A full Wick cache, from which the sweep evicts. -/
theorem test_wit_wick_full (l : Tab Qp) (h : l.length = 65536) :
    65536 - wickUsed { host with qpc := { host.qpc with qps := l, fetches := [] } } < 256 := by
  simp [wickUsed, h]

/-! ### ProgramsAreLoaded -/

/-- An image of one RET, with its check code. -/
def image (start : Nat) : List Byte :=
  let code : List Byte := leBytes 4 (((taperEncode (.tRet 0)).getD 0).toNat)
  let head : List Byte := leBytes 4 0x31525054 ++ leBytes 4 4 ++ leBytes 4 0 ++ leBytes 4 start ++ leBytes 4 0xFFFFFFFF ++ leBytes 4 0xFFFFFFFF ++
    leBytes 4 1 ++ List.replicate 32 0
  head ++ leBytes 4 (crc32c (head ++ code)).toNat ++ code

/-- The block of a load of that image into cluster 0 for domain 5, with its flags (bit 0 REPLACE, bit 2 UNLOAD). -/
def loadBlk (flags handle : Nat) : BitVec 512 :=
  BitVec.ofNat 512 (0x8000 * 2 ^ 448 + 68 * 2 ^ 416 + handle * 2 ^ 368 + 5 * 2 ^ 352 + 2 ^ 336 + 2 ^ 320 + 2 ^ 304 + 2 ^ 288 + flags * 2 ^ 256)

theorem test_wit_load :
    let s := hostRead 0 0x5000 64 (markIssued (refOf 0) (admin 0x29 0 host))
    let t := hostRead 0 0x5000 64 (markIssued (refOf 0) (admin 0x29 0 { host with tpr := { host.tpr with progs := [(1, prg)], images := [(1, img)] } }))
    tget (admin 0x29 0 host).tpr.loads 0 = none ∧ loadJudge 0 (loadBlk 0 0) s = none ∧ loadJudge 0 (loadBlk 1 1) t = none ∧
    loadJudge 0 (loadBlk 4 1) t = none ∧ loadJudge 0 (loadBlk 0 0 + 1) s = some St.malformed ∧
    (loadBlk 0 0).getLsbD 256 = false ∧ (loadBlk 0 0).getLsbD 258 = false ∧ (loadBlk 1 1).getLsbD 256 = true ∧
    (loadBlk 1 1).getLsbD 258 = false ∧ (loadBlk 4 1).getLsbD 256 = false ∧ (loadBlk 4 1).getLsbD 258 = true := by decide +kernel

/-- An image that passes, one with a bad check code, one that does not verify, and one that is not of its length. -/
theorem test_wit_program_image :
    let s : State := { admin 0x29 0 host with tpr := { host.tpr with loads := [(0, ⟨refOf 0, loadBlk 0 0⟩)] } }
    let u : State := { s with tpr := { s.tpr with loads := [] } }
    let bad := (image 0).set 64 1
    running s = true ∧ tget s.tpr.loads 0 = some ⟨refOf 0, loadBlk 0 0⟩ ∧ refLive (refOf 0) u = true ∧
    (image 0).length = bits 447 416 (loadBlk 0 0) ∧
    imageShape 68 (image 0) = true ∧ imageCrcOk (image 0) = true ∧ imageVerifies false (image 0) = true ∧ loadJudge 0 (loadBlk 0 0) u = none ∧
    imageShape 68 (image 4) = true ∧ imageCrcOk (image 4) = true ∧ imageVerifies false (image 4) = false ∧
    imageShape 68 bad = true ∧ imageCrcOk bad = false ∧ imageShape 68 ((image 0).set 0 0) = false := by decide +kernel

/-- A descriptor's read in flight for a COL_START and for a TAPER_INVOKE. -/
theorem test_wit_descriptor_reads :
    let e (op : Nat) := ent op 0 0 64 0 0
    let s (op : Nat) := withRing 1 { ring [⟨e op, false, none⟩] with issuing := true, reading := some 3 } host
    ∀ op ∈ [0x20, 0x28], readingEntry 0 1 (s op) = some (refOf 1, e op, 3) ∧ eOpcode (e op) = op ∧ eLength (e op) = 64 ∧ running (s op) = true := by
  decide +kernel

end Sys2Proof.Tests
end

