-- ==== Sys2Proof/Tests/WitCol.lean ====
section
/-! SUPPORT. Witnesses: states and operands that meet the hypotheses of the statements about the collective engine. -/

namespace Sys2Proof.Tests

set_option Elab.async false

open Sys2Proof.Machine Sys2Proof.Claims

/-- An operation: code, peer, count of inputs, first input, output, length. -/
def cop (c peer cnt in0 out len : Nat) : ColOp :=
  ⟨1, BitVec.ofNat 512 (c * 2 ^ 504 + peer * 2 ^ 479 + cnt * 2 ^ 384 + in0 * 2 ^ 256 + out * 2 ^ 240 + len * 2 ^ 192), .queued, []⟩

/-- Instance 9, an allreduce with RES_KIND `k`, holding chunk buffer 3, with one operation. -/
def instOp (k : Nat) (o : ColOp) : ColInst := { inst9 with head := BitVec.ofNat 512 (k * 2 ^ 140), ops := [o] }

/-- The block with that instance. -/
def colWith (x : ColInst) : State := { onInv invAct 9 with col := { up.col with insts := [(9, x)] } }

/-- Its operation of code `c` is taken up and keeps R197 and R198. -/
def takes (c : Nat) (x : ColInst) (o : ColOp) : Bool :=
  decide (TakesUp 9 c x o (colWith x)) && opOk x o.desc (colWith x) && running (colWith x)

/-! ### CollectiveControlOperations -/

/-- Every code with reserved bits set, which breaks R197. -/
theorem test_wit_bad_operations :
    ∀ c ∈ [1, 2, 3, 4, 5, 6, 7, 8, 9, 15],
      let o : ColOp := ⟨1, BitVec.ofNat 512 (c * 2 ^ 504 + 1), .queued, []⟩
      TakesUp 9 c (instOp 0 o) o (colWith (instOp 0 o)) ∧ opOk (instOp 0 o) o.desc (colWith (instOp 0 o)) = false := by decide +kernel

/-- CREDIT of a free chunk buffer and of one held; FREE of a held buffer and of none; ABORT; END alone and with another. -/
theorem test_wit_control_operations :
    let last := cbMax up - 1
    let credit := cop 1 4 0 0 last 0
    let again := cop 1 4 0 0 3 0
    let free := cop 8 0 1 3 0 0
    let none_ := cop 8 0 1 4 0 0
    let abort := cop 9 4 0 0 0 0
    let fin := cop 15 0 0 0 0 0
    let two : ColInst := { instOp 0 fin with ops := [fin, { credit with id := 2, phase := .waiting 1 }] }
    (takes 1 (instOp 0 credit) credit = true ∧ tget (instOp 0 credit).bufs (oOut credit.desc) = none ∧
      buffersHeld (colWith (instOp 0 credit)) < cbMax (colWith (instOp 0 credit))) ∧
    (takes 1 (instOp 0 again) again = true ∧ (tget (instOp 0 again).bufs (oOut again.desc)).isSome = true) ∧
    (takes 8 (instOp 0 free) free = true ∧ (List.range (oCnt free.desc)).map (oIn free.desc) = [3] ∧
      (tget (instOp 0 free).bufs 3).isSome = true) ∧
    (takes 8 (instOp 0 none_) none_ = true ∧ (List.range (oCnt none_.desc)).map (oIn none_.desc) = [4] ∧
      tget (instOp 0 none_).bufs 4 = none) ∧
    takes 9 (instOp 0 abort) abort = true ∧ takes 15 (instOp 0 fin) fin = true ∧ (instOp 0 fin).ops = [fin] ∧
    takes 15 two fin = true ∧ 1 < two.ops.length := by decide +kernel

/-- CADD to this device, which joins the combining; RESULT of each RES_KIND, and with a result done. -/
theorem test_wit_cadd_result :
    let add := cop 6 0 0 0 0 0
    let x := instOp 0 add
    let s := colWith x
    let p := { colPkt x 0x24 (oSched add.desc) (oPeer add.desc) 0 s with
      addr := oHoff add.desc, opx := oValue add.desc, key := oKey add.desc, imm := x.comm, msn := x.seq, msgLen := 1 }
    let res := cop 7 0 0 0 0 0
    (takes 6 x add = true ∧ chipValid s = false) ∧
    (let v := writeReg Reg.XBR_CHIP 0x80000000 s
     chipValid v = true ∧ getInst 9 v = some x ∧ caddEgress 184 p v = some 184 ∧ (combJoin 184 2 p (.op 9 add.id) v).isSome = true) ∧
    (caddEgress 184 p s = some 184 ∧ (combJoin 184 2 p (.op 9 add.id) s).isSome = true) ∧
    (∀ k ∈ [0, 1, 2], takes 7 (instOp k res) res = true ∧ (instOp k res).resultDone = false ∧ hResKind (instOp k res).head = k ∧
      placesFirst 9 (instOp k res) res (colWith (instOp k res)) = false) ∧
    (let place : ColOp := { cop 5 0 0 3 0xFFFF 2 with id := 0, phase := .checking }
     let y : ColInst := { instOp 1 res with ops := [place, res] }
     takes 7 y res = true ∧ placesFirst 9 y res (colWith y) = true) ∧
    takes 7 { instOp 1 res with resultDone := true } res = true := by decide +kernel

/-! ### CollectiveDataOperations -/

/-- An operation with data: code 2, 3 or 5, from SRC or a buffer. MCAST has HOST set. -/
def dataOp (c in0 len : Nat) : ColOp := { cop c 0 0 in0 0 len with
  desc := (cop c 0 0 in0 0 len).desc + (if c = 3 then 2 ^ 502 else 0) }

/-- The instance with a credit of endpoint 0 for TAG and CHUNK 0. -/
def credited (x : ColInst) : ColInst := { x with credits := [{ peer := 0, psn := 0, buf := 7, used := false }] }

/-- Instance 9 with chunk buffer 3: complete or not, an exact partial or not. -/
def instBuf (o : ColOp) (full part : Bool) : ColInst :=
  { credited (instOp 0 o) with bufs := [(3, { peer := 4, psn := 5, full := full, part := 0, parts := 1, data := [9, 9], isPartial := some part })] }

theorem test_wit_data_operations :
    ∀ c ∈ [2, 3, 5],
      takes c (credited (instOp 0 (dataOp c 0xFFFE 1))) (dataOp c 0xFFFE 1) = true ∧
      lacksCredit (credited (instOp 0 (dataOp c 0xFFFE 1))) (dataOp c 0xFFFE 1) = false ∧ hostBuf (oIn (dataOp c 0xFFFE 1).desc 0) = true ∧
      oLen (dataOp c 0xFFFE 1).desc ≠ 0 ∧ mcastsInFlight (colWith (instOp 0 (dataOp c 0xFFFE 1))) < 64 ∧
      unitFenced 116 (colWith (instOp 0 (dataOp c 0xFFFE 1))) = false ∧
      (∀ part ∈ [true, false], takes c (instBuf (dataOp c 3 2) true part) (dataOp c 3 2) = true ∧
        lacksCredit (instBuf (dataOp c 3 2) true part) (dataOp c 3 2) = false ∧
        (tget (instBuf (dataOp c 3 2) true part).bufs 3).any (fun b => b.full && b.ownPartial == part &&
          decide (oLen (dataOp c 3 2).desc ≤ b.data.length)) = true) ∧
      takes c (instOp 0 (dataOp c 4 2)) (dataOp c 4 2) = true ∧ tget (instOp 0 (dataOp c 4 2)).bufs 4 = none ∧ hostBuf 4 = false := by
  decide +kernel

/-- A SEND of SRC or of a chunk that has no credit, and operations on a chunk that is not complete, wait; a later SEND that has its credit
does not wait for them. -/
theorem test_wit_send_waits :
    let x (in0 : Nat) : ColInst := { instBuf (dataOp 2 in0 1) true false with credits := [] }
    let w (c : Nat) : ColInst := instBuf (if c = 4 then cop 4 0 1 3 5 2 else dataOp c 3 2) false false
    let y : ColInst := { instBuf (dataOp 2 3 2) false false with ops := [dataOp 2 3 2, { dataOp 2 0xFFFE 2 with id := 2 }] }
    (∀ n ∈ [3, 0xFFFE], getInst 9 (colWith (x n)) = some (x n) ∧ opNext 2 (x n) (colWith (x n)) = none) ∧
    (∀ c ∈ [2, 3, 4, 5], getInst 9 (colWith (w c)) = some (w c) ∧ opNext c (w c) (colWith (w c)) = none) ∧
    opNext 2 y (colWith y) = some { dataOp 2 0xFFFE 2 with id := 2 } := by decide +kernel

/-- MCAST with the CND fenced, and with 64 in flight. -/
theorem test_wit_mcast_stops :
    let o := dataOp 3 0xFFFE 1
    let x := instOp 0 o
    let y : ColInst := { x with ops := List.replicate 64 { o with id := 2, phase := .waiting 1 } ++ [o] }
    let s := setRf Reg.SNF_FENCED_UNIT 0 0 1 (colWith x)
    unitFenced 116 s = true ∧ TakesUp 9 3 x o s ∧ opOk x o.desc s = true ∧
    takes 3 y o = true ∧ unitFenced 116 (colWith y) = false ∧ 64 ≤ mcastsInFlight (colWith y) := by decide +kernel

/-- REDUCE of a held chunk, of SRC, and of a buffer that is not held; the RDU is the first. -/
theorem test_wit_reduce :
    let r (in0 : Nat) : ColOp := cop 4 0 1 in0 5 2
    let x (in0 : Nat) : ColInst := instBuf (r in0) true false
    (∀ n ∈ [3, 0xFFFE, 4], takes 4 (x n) (r n) = true ∧ anyRdu (colWith (x n)) = true ∧ freeRdu (colWith (x n)) = some 0) ∧
    (tget (x 3).bufs 3).any (fun c => chunkWhole (x 3) c) = true ∧ (reduceInputs (r 3).desc).filter (fun n => !hostBuf n) = [3] ∧
    reduceHost (x 3) (r 3).desc = [] ∧ reduceHost (x 0xFFFE) (r 0xFFFE).desc ≠ [] ∧ tget (x 4).bufs 4 = none := by decide +kernel

/-- No RDU is left; a REDUCE at work, of an operation that is exact and of one that is not. -/
theorem test_wit_reduce_ends :
    let o := cop 4 0 1 3 5 2
    let x : ColInst := instBuf o true false
    let s := (List.range 32).foldl (fun s r => setRf (Reg.SNF_MAP_RDU + 8 * r) 8 8 1 s) (colWith x)
    let w : ColOp := { o with phase := .reducing 0 none }
    let y (op : Nat) : ColInst := { x with ops := [w], head := BitVec.ofNat 512 (op * 2 ^ 132) }
    anyRdu s = false ∧ TakesUp 9 4 x o s ∧ opOk x o.desc s = true ∧
    (∀ op ∈ [0, 5, 6, 7], getInst 9 (colWith (y op)) = some (y op) ∧ (y op).ops.find? (fun o => o.id == 1) = some w ∧
      reduceHost (y op) w.desc = [] ∧ bit 8 (rdReg (Reg.SNF_MAP_RDU + 8 * 0) (colWith (y op))) = false ∧ hOp (y op).head = op) := by
  decide +kernel

/-! ### CollectivePacketsAreTaken -/

/-- A packet for instance 9 of endpoint 0, with its check code. -/
def colIn (op : BitVec 8) : Packet :=
  let p : Packet := { Packet.zero with op := op, cls := 3, srcEp := 4, psn := 5, opx := 0x0000000100020001, addr := 3 }
  { p with crc := e2eCrc p }

theorem test_wit_col_packets :
    let x : ColInst := { inst9 with bufs := [(3, { peer := 4, psn := 5, full := false, part := 0, parts := 1, data := [], isPartial := none })] }
    let s := colWith x
    let none_ : State := { s with col := { s.col with insts := [] } }
    [0x20, 0x21, 0x22, 0x23, 0x24, 0x25].all (fun (op : BitVec 8) =>
      let p := colIn op
      decide (e2eCrc p = p.crc) && decide (p.op = op) && decide (e2eCrc { p with crc := p.crc + 1 } ≠ p.crc + 1)) = true ∧
    unitFenced 117 s = false ∧ running s = true ∧
    (bit 63 (colIn 0x20).addr = false ∧ pktInst (colIn 0x20) (colAnswer (colIn 0x20) s) = some (9, x) ∧ (tget x.bufs 3).isSome = true ∧
      pktInst (colIn 0x20) (colAnswer (colIn 0x20) none_) = none) ∧
    (pktInst (colIn 0x21) s = some (9, x) ∧ x.credits = [] ∧ pktInst (colIn 0x21) none_ = none ∧ none_.col.insts = [] ∧
      getEarly 0 1 2 none_ = none ∧ none_.col.early.length < 4096 ∧ s.col.tx = [] ∧ pktInst (colIn 0x23) s = some (9, x) ∧
      (leaveTomb 0 1 2 none_).isSome = true) := by decide +kernel

/-- The COL_ACK of a COL_CREDIT that is waited for and of one that is not, with a further packet of the operation unacknowledged and without;
of a packet of no operation, and of one whose instance has ended; a COL_ABORT that meets a tombstone, and one that leaves one. -/
theorem test_wit_col_ack :
    let w (op : Option Nat) (id : Nat) : ColTx :=
      { id := id, inst := 9, op := op, hp := 0, pkt := { colIn 0x21 with srcEp := 0, dstEp := 4 }, tries := 0, sentAt := 0, rto := 0 }
    let o : ColOp := { cop 1 4 0 0 3 0 with phase := .waiting 1 }
    let x : ColInst := instOp 0 o
    let s (ts : List ColTx) : State := { colWith x with col := { (colWith x).col with tx := ts } }
    let p := colIn 0x22
    let acks (w : ColTx) : Bool := w.pkt.dstEp == p.srcEp && w.hp == epPort p.dstEp && pktComm w.pkt == pktComm p &&
      pktSeq w.pkt == pktSeq p && w.pkt.psn == p.psn && (if w.pkt.op == 0x20 then w.pkt.imm.toNat / 65536 else 0) == p.imm.toNat
    let left (ts : List ColTx) : State := withCol (fun c => { c with tx := c.tx.filter (fun y => y.id != 7) }) (s ts)
    let a := colIn 0x23
    let e : Early := { hp := 0, comm := 1, seq := 2, credits := [], combs := [], tomb := some 50 }
    let none_ : State := { s [] with col := { (s []).col with insts := [] } }
    let held : State := { none_ with col := { none_.col with early := [e] } }
    e2eCrc p = p.crc ∧ unitFenced 117 (s []) = false ∧ (s [w none 7]).col.tx.find? acks = some (w none 7) ∧ (∀ w ∈ (s []).col.tx, acks w = false) ∧
    (∀ ts ∈ [[w (some 1) 7], [w (some 1) 7, w (some 1) 8]], (s ts).col.tx.find? acks = some (w (some 1) 7) ∧
      getInst 9 (left ts) = some x ∧ x.ops.find? (fun o => o.id == 1) = some o) ∧
    opAcked 9 o (left [w (some 1) 7]) = true ∧ opAcked 9 o (left [w (some 1) 7, w (some 1) 8]) = false ∧
    getInst 9 (withCol (fun c => { c with tx := [] }) none_) = none ∧
    pktInst a none_ = none ∧ (getEarly 0 1 2 none_).bind (·.tomb) = none ∧ (leaveTomb 0 1 2 none_).isSome = true ∧
    pktInst a held = none ∧ ((getEarly 0 1 2 held).bind (·.tomb)).isSome = true ∧ epPort a.dstEp = 0 ∧ pktComm a = 1 ∧ pktSeq a = 2 := by
  decide +kernel

/-- A CADD new to its combining, one acknowledged before, and the CADD_ACK of a combined CADD. -/
theorem test_wit_cadd_packets :
    let p := colIn 0x24
    let c : Comb := { egress := 5, pkt := p, budget := 2, custody := [.hop 7 5 4], phase := .sent, since := 0, wait := 0 }
    let d : State := { up with col := { up.col with done := [(7, 5)] } }
    let s : State := { up with col := { up.col with combs := [(2047, { c with pkt := { p with psn := 5 } })] } }
    let v := writeReg Reg.XBR_CHIP 0x80000000 up
    (chipValid v = true ∧ portRole 7 v = 1 ∧ caddEgress 7 p v = some 184 ∧ (combJoin 184 (intraBudget 7 p v) p (.hop 7 p.psn p.srcEp) v).isSome = true) ∧
    chipValid up = false ∧ portRole 124 up = 4 ∧
    (7, p.psn) ∉ up.col.done ∧ up.col.combs = [] ∧ caddEgress 7 p up = some 184 ∧ (combJoin 184 (intraBudget 7 p up) p (.hop 7 p.psn p.srcEp) up).isSome = true ∧
    (7, p.psn) ∈ d.col.done ∧
    s.col.combs.find? (fun (_, y) => y.phase == .sent && y.egress == 5 && y.pkt.psn == (colIn 0x25).psn) = some (2047, c) := by decide +kernel

/-! ### CollectiveTimersAndMailboxes -/

/-- A packet that waits for its COL_ACK: with no attempt made and with the last one made. -/
theorem test_wit_col_timers :
    let w (n : Nat) : ColTx := { id := 7, inst := 9, op := none, hp := 0, pkt := colIn 0x20, tries := n, sentAt := 0, rto := 5 }
    let s (n : Nat) : State := { up with col := { up.col with tx := [w n] } }
    let t (n : Nat) : State := advanceTo 5 (s n)
    let y (ph : CombPhase) (e : Nat) : Comb := { egress := e, pkt := colIn 0x24, budget := 2, custody := [], phase := ph, since := 0, wait := 5 }
    let c (ph : CombPhase) (e : Nat) : State := { up with col := { up.col with combs := [(2047, y ph e)] } }
    let e : Early := { hp := 0, comm := 1, seq := 2, credits := [], combs := [], tomb := some 50 }
    let u : State := { up with col := { up.col with early := [e] } }
    (∀ n ∈ [0, 255], (s n).col.tx.find? (fun t => t.id == 7) = some (w n) ∧ (w n).pkt.op = 0x20) ∧ 0 < nz (rf Reg.COL_CFG 23 16 (t 0)) ∧
    nz (rf Reg.COL_CFG 23 16 (t 255)) ≤ 255 ∧
    (∀ q ∈ [(CombPhase.sent, 5), (.open_, 184), (.open_, 5)], getComb 2047 (c q.1 q.2) = some (y q.1 q.2)) ∧
    getEarly 0 1 2 u = some e := by decide +kernel

/-- A FULL mailbox of function 0 with its generation; a mailbox of nobody; MBX_ALLOC of an EMPTY and of a FULL one. -/
theorem test_wit_mailbox_release :
    let s : State := { writeReg (Reg.MBX_ALLOC + 8 * 4095) 0x1000 up with mbx := [(4095, ⟨.full, 0xFFFF, 1, 0, 0, 0⟩)] }
    HostWrites 0 s ∧ mbxOwned 4095 0 s = true ∧ (getMbx 4095 s).state = .full ∧ (getMbx 4095 s).gen = 0xFFFF ∧ mbxOwned 0 0 s = false ∧
    unitFenced 137 s = false ∧ unitFenced 137 (setRf Reg.SNF_FENCED_UNIT 21 21 1 s) = true ∧
    HostWrites 0 (setRf Reg.SNF_FENCED_UNIT 21 21 1 s) ∧
    MgtWrites 0x800 s ∧ (getMbx 0 s).state = .empty ∧ bits 12 0 (0x1000 : BitVec 64) ≠ rf (Reg.MBX_ALLOC + 8 * 0) 12 0 s ∧
    bits 12 0 (0x1000 : BitVec 64) = rf (Reg.MBX_ALLOC + 8 * 4095) 12 0 s ∧ running s = true := by decide +kernel

end Sys2Proof.Tests
end

