-- ==== Sys2Proof/Tests/WitNet.lean ====
section
/-! SUPPORT. Witnesses: states and operands that meet the hypotheses of the statements about the switch core and the links. -/

namespace Sys2Proof.Tests

set_option Elab.async false

open Sys2Proof.Machine Sys2Proof.Claims

/-- Chip 0 of group 0, whose ROW port 4 leads to chip 1 and is up. -/
def chip0 : State := setRf (Reg.XBR_PORT + 8 * 4) 31 29 1 (setRf (Reg.XBR_PORT + 8 * 4) 16 16 1 (writeReg Reg.XBR_CHIP 0x80000000 up))

/-- A packet of a class that came from attachment 128, for an endpoint, with its check code. -/
def inPkt (op : BitVec 8) (cls : BitVec 3) (ep : BitVec 17) : InPkt :=
  let p : Packet := { Packet.zero with op := op, cls := cls, dstEp := ep }
  { inp := 128, idx := 0, up := 0, pkt := { p with crc := e2eCrc p }, budget := 2, decided := false, queue := 0, ser := 0, since := 0, till := 0,
    out := none, copy := 0, demoted := false }

/-- The block with such a packet at the head of its input VC. -/
def headed (i : InPkt) (s : State) : State := { s with xbr := { s.xbr with inq := [i] } }

/-- Is the outcome a port, and which? -/
def outPort : RouteOut → Option Nat
  | .port out _ => some out
  | _ => none

/-! ### RoutesTakeTheLeastCost, RouteDecisionsQueueOrDeliver -/

theorem test_wit_route :
    let i := inPkt 2 0 4
    begun i (headed i chip0) = (i, headed i chip0) ∧ i.out = none ∧
    outPort (routeOnce i i.pkt chip0).1 = some 4 ∧ outPort (routePlain i chip0).1 = some 4 ∧ nextIn 128 0 (headed i chip0) = some i ∧
    cellsFree i (headed i chip0) = true ∧ chipValid (headed i chip0) = true ∧ i.pkt.cls ≠ 4 ∧ i.pkt.op ≠ 0x24 ∧ i.pkt.op ≠ 0x25 ∧ running (headed i chip0) = true ∧
    outPort (routePlain (inPkt 2 0 8) up).1 = none ∧ chipValid (headed i up) = false := by decide +kernel

/-- What the device's own units have given a port: MGT_LOCAL to a port that is up, a copy to one that is usable and one to a port that is
not. -/
theorem test_wit_own :
    let own (op : BitVec 8) (cls : BitVec 3) (out : Nat) : InPkt := { inPkt op cls 4 with inp := 184, out := some out }
    (∀ i ∈ [own 0x40 5 4, own 0x20 3 4, own 0x20 3 5], begun i (headed i chip0) = (i, headed i chip0) ∧ cellsFree i (headed i chip0) = true) ∧
    portUp 4 chip0 = true ∧ portUsable 4 chip0 = true ∧ portUsable 5 chip0 = false ∧
    (hopHeader (own 0x20 3 4) (own 0x20 3 4).pkt 4 chip0).isSome = true ∧ chipValid chip0 = true := by decide +kernel

/-- A packet in the acknowledgement lane comes before its VC's; one whose reservation is full while the pool has no cell waits. -/
theorem test_wit_lane_and_cells :
    let a : InPkt := { inPkt 0x20 3 4 with idx := 18 }
    let j : InPkt := { inPkt 0x22 3 4 with idx := 26 }
    let s : State := { chip0 with xbr := { chip0.xbr with inq := [a, j] } }
    let e : EgPkt := { port := 4, q := 3, idx := 0, pkt := Packet.zero, src := inPkt 2 0 4, since := 0, ready := 0, fixed := false }
    let none_ := (List.range 4).foldl (fun s k => wrReg (Reg.SNF_FENCED_BANKGRP + 8 * k) (BitVec.allOnes 64) s) (headed (inPkt 2 0 4) chip0)
    let full : State := { none_ with xbr := { none_.xbr with egq := List.replicate 17 e } }
    nextIn 128 18 s = some j ∧ inputHead 128 26 s = some j ∧ nextIn 128 0 full = some (inPkt 2 0 4) ∧ cellsFree (inPkt 2 0 4) full = false ∧
    running full = true := by decide +kernel

/-- A packet at its chip, one without a candidate, a scheduled one with an entry and one without, a CADD taken. -/
theorem test_wit_decisions :
    let lost := inPkt 2 0 8
    let alone := writeReg Reg.XBR_CHIP 0x80000000 up
    let here := inPkt 2 0 3
    let sch := inPkt 0x20 4 4
    let cadd := inPkt 0x24 3 0
    let s := writeReg (Reg.LLT_PORT + 8 * 4) 0 (writeReg (Reg.XBR_SCH + 8 * 129) 0x84 chip0)
    here.pkt.dstEp.toNat / 4 = chipId chip0 ∧
    (match routePlain lost alone with | (.unroutable, _) => true | _ => false) = true ∧
    (sch.pkt.cls = 4 ∧ sch.pkt.dstEp.toNat / 4 ≠ chipId s ∧ (schRoute sch s).map (·.1) = some 4 ∧ schTurnedAway 4 s = false ∧
      schRoute sch chip0 = none) ∧
    (caddCome 128 cadd.pkt chip0).1 = true := by decide +kernel

/-- A table that lists one value at `n` numbers from `lo`. -/
def listed {α : Type} (x : α) : Nat → Nat → Tab α
  | _, 0 => []
  | lo, n + 1 => (lo, x) :: listed x (lo + 1) n

theorem tget_listed {α : Type} (x : α) : ∀ (n lo k : Nat), lo ≤ k → k < lo + n → tget (listed x lo n) k = some x
  | 0, lo, k, h, h' => by omega
  | n + 1, lo, k, h, h' => by
    simp only [listed, tget]
    by_cases e : lo = k
    · simp [e]
    · simp [e, Nat.not_lt.mpr h, tget_listed x n (lo + 1) k (by omega) (by omega)]

theorem mem_listed {α : Type} (x : α) : ∀ (n lo : Nat) (y : Nat × α), y ∈ listed x lo n → y.2 = x
  | 0, _, _, h => by cases h
  | n + 1, lo, y, h => by
    rcases List.mem_cons.mp h with rfl | h
    · rfl
    · exact mem_listed x n (lo + 1) y h

theorem tfree_listed {α : Type} (x : α) (m : Nat) : ∀ (n lo : Nat), tfree (listed x 0 m) m lo n = none
  | 0, _ => rfl
  | n + 1, lo => by
    simp only [tfree]
    by_cases h : m ≤ lo
    · simp [h]
    · simp [h, tget_listed x m 0 lo (by omega) (by omega), tfree_listed x m n (lo + 1)]

/-- A combining that waits for its CADD_ACK at port 5. -/
def sentComb : Comb := { egress := 5, pkt := (inPkt 0x24 3 8).pkt, budget := 2, custody := [], phase := .sent, since := 0, wait := 0 }

theorem cadd_waits (t : Tab Comb) (h : ∀ y ∈ t, y.2 = sentComb) (f : tfree t 2048 0 2048 = none) (base : State)
    (b : base.col.done.contains (128, (inPkt 0x24 3 0).pkt.psn) = false)
    (e : ((inPkt 0x24 3 0).pkt.dstEp.toNat / 4 == chipId base) = true) :
    caddCome 128 (inPkt 0x24 3 0).pkt { base with col := { base.col with combs := t } } =
      (false, { base with col := { base.col with combs := t } }) := by
  have a : (e2eCrc (inPkt 0x24 3 0).pkt != (inPkt 0x24 3 0).pkt.crc) = false := by decide +kernel
  have c : t.any (fun (_, x) => x.custody.any (isHop 128 (inPkt 0x24 3 0).pkt.psn)) = false := by
    rw [List.any_eq_false]
    intro y hy
    simp [h y hy, sentComb]
  have d : caddEgress 128 (inPkt 0x24 3 0).pkt { base with col := { base.col with combs := t } } = some 184 := by
    have g : chipId { base with col := { base.col with combs := t } } = chipId base := rfl
    simp only [caddEgress, g, e, if_true]
  have e : t.find? (fun (_, x) => combMatches 184 (inPkt 0x24 3 0).pkt x) = none := by
    rw [List.find?_eq_none]
    intro y hy
    simp [h y hy, sentComb, combMatches]
  simp only [caddCome, a, b, c, d, combJoin, e, f]
  simp

/-- A CADD is decided next for its input: the State without it. -/
def decided (s : State) : State := withXbr (fun x => { x with inq := x.inq.erase (inPkt 0x24 3 0) }) (advanceTo (inPkt 0x24 3 0).since s)

/-- With every combining slot in use a CADD waits. -/
theorem test_wit_cadd_waits :
    ∃ s, running s = true ∧ chipValid s = true ∧ nextIn 128 0 s = some (inPkt 0x24 3 0) ∧
      (caddCome 128 (inPkt 0x24 3 0).pkt (decided s)).1 = false := by
  let base := headed (inPkt 0x24 3 0) chip0
  have r : running base = true := by decide +kernel
  have v : chipValid base = true := by decide +kernel
  have n : nextIn 128 0 base = some (inPkt 0x24 3 0) := by decide +kernel
  have b : (decided base).col.done.contains (128, (inPkt 0x24 3 0).pkt.psn) = false := by decide +kernel
  have e : ((inPkt 0x24 3 0).pkt.dstEp.toNat / 4 == chipId (decided base)) = true := by decide +kernel
  have all (t : Tab Comb) (h : ∀ y ∈ t, y.2 = sentComb) (f : tfree t 2048 0 2048 = none) :
      ∃ s, running s = true ∧ chipValid s = true ∧ nextIn 128 0 s = some (inPkt 0x24 3 0) ∧
        (caddCome 128 (inPkt 0x24 3 0).pkt (decided s)).1 = false :=
    ⟨{ base with col := { base.col with combs := t } }, r, v, n, congrArg Prod.fst (cadd_waits t h f (decided base) b e)⟩
  exact all (listed sentComb 0 2048) (mem_listed sentComb 2048 0) (tfree_listed sentComb 2048 2048 0)

/-! ### RoutingIsConfiguredAndManaged -/

/-- XBR_CHIP while VALID is 0 and 1; writes of each routing register, taken and rejected. -/
theorem test_wit_routing_writes :
    let base (off : Nat) : Option (Nat × Nat) := (regFind false off).map (fun d => (d.base, d.index off))
    MgtWritesOff 0x800 chip0 ∧ MgtWritesOff 0x800 up ∧ chipValid up = false ∧ chipValid chip0 = true ∧ bit 31 (0x80000000 : BitVec 32) = true ∧
    bit 31 (0 : BitVec 32) = false ∧
    base (Reg.XBR_PORT + 8 * 127) = some (Reg.XBR_PORT, 127) ∧ portRejected 127 0x500 chip0 = true ∧ portRejected 127 0x400 chip0 = false ∧
    base (Reg.XBR_SCH + 8 * 383) = some (Reg.XBR_SCH, 383) ∧ portRole 127 chip0 = 4 ∧ bit 7 (0xFF : BitVec 64) = true ∧
    bits 6 0 (0xFF : BitVec 64) = 127 ∧ bit 7 (0x7F : BitVec 64) = false ∧
    base (Reg.XBR_GW + 8 * 3) = some (Reg.XBR_GW, 3) ∧ 3 / 4 = chipGroup chip0 ∧ base (Reg.XBR_GW + 8 * 4) = some (Reg.XBR_GW, 4) ∧
    4 / 4 ≠ chipGroup chip0 ∧ base Reg.XBR_VCMIN = some (Reg.XBR_VCMIN, 0) ∧ base Reg.XBR_GRPVALID = some (Reg.XBR_GRPVALID, 0) ∧
    base Reg.XBR_ROUTE = some (Reg.XBR_ROUTE, 0) := by decide +kernel

/-- Management packets: for this chip, for another, before the chip ID is set; one that waits at its port. -/
theorem test_wit_management :
    let p (op : BitVec 8) (ep : BitVec 17) : Packet := (inPkt op 5 ep).pkt
    let e : EgPkt := { port := 127, q := 3, idx := 25, pkt := p 0x41 4, src := inPkt 0x41 5 4, since := 0, ready := 0, fixed := false }
    let s : State := { chip0 with xbr := { chip0.xbr with egq := [e] } }
    (portRole 127 chip0 = 4 ∧ portRole 4 chip0 = 1 ∧ ({ p 0x40 0 with viaGroup := 4 } : Packet).viaGroup.toNat = 4) ∧ portUp 4 chip0 = true ∧ (p 0x40 0).op = 0x40 ∧ (p 0x41 0).dstEp.toNat / 4 = chipId chip0 ∧ (p 0x41 4).dstEp.toNat / 4 ≠ chipId chip0 ∧
    (let none_ := (List.range 4).foldl (fun s k => wrReg (Reg.SNF_FENCED_BANKGRP + 8 * k) (BitVec.allOnes 64) s) chip0
     let full : State := { none_ with xbr := { none_.xbr with egq := List.replicate 17 { e with src := { inPkt 0x41 5 4 with idx := 25 } } } }
     chip0.xbr.inq = [] ∧ cellsFree (newIn 128 25 0 (p 0x41 4) chip0) chip0 = true ∧ cellsFree (newIn 128 25 0 (p 0x41 4) full) full = false ∧
     cellsFree (newIn 184 25 0 (p 0x40 4) chip0) chip0 = true ∧ cellsFree (newIn 184 25 0 (p 0x40 4) full) full = false) ∧
    chipValid up = false ∧ (0 : Input).toNat < 128 ∧ 128 ≤ (128 : Input).toNat ∧
    e2eCrc (p 0x41 0) = (p 0x41 0).crc ∧ s.xbr.egq.find? (fun e => e.port == 127 && e.pkt.cls == 5) = some e := by decide +kernel

/-! ### LinkBringUp -/

/-- The link of port 127, which negotiated with lanes 0 to 3 allowed, all of them usable. -/
def lnk : Link :=
  { getLink 127 up with adv := (rdReg (Reg.LNK_ADV + 8 * 127) (setRf (Reg.LNK_ADV + 8 * 127) 3 0 15 up)).setWidth 16, usable := 15 }

/-- Port 127 with LSTATE `n`, its lanes 0 to 3 allowed and in use. -/
def linkAt (n : Nat) (l : Link) : State := putLink 127 l (setLstat 127 39 36 15 (setLstate 127 n (setRf (Reg.LNK_ADV + 8 * 127) 3 0 15 up)))

/-- The block's own capability page of a lane, with ACK set. -/
def page (lane : Nat) : BitVec 64 := ownPage 127 lane (linkAt 1 { lnk with three := 15, pages := [(0, (0, 3)), (1, (0, 3)), (2, (0, 3)), (3, (0, 3))] })

theorem test_wit_bring_up :
    let l := lnk
    let s (n : Nat) : State := linkAt n l
    ((getLink 127 (linkAt 1 { l with pages := [(0, (0, 1))] })).pages ≠ [] ∧ lstate 127 (linkAt 1 { l with pages := [(0, (0, 1))] }) = 1) ∧
    (∀ n ∈ [1, 2, 3, 4, 7], lstate 127 (s n) = n ∧ getLink 127 (s n) = l ∧ running (s n) = true) ∧ l.downHold = false ∧
    (getLink 127 (linkAt 7 { l with downHold := true })).downHold = true ∧
    pageValid (page 0) = true ∧ pageValid (page 0 + 1) = false ∧ lstat 127 39 36 (s 2) = 15 ∧ Nat.land 15 15 = 15 ∧ 15 - Nat.land 15 7 ≠ 0 := by
  decide +kernel

/-- A first page on lane 0, after which no peer is known; and the third in a row, after which every lane is usable. -/
theorem test_wit_pages :
    let l := lnk
    let two : Link := { l with pages := [(0, (page 0, 2)), (1, (page 1, 3)), (2, (page 2, 3)), (3, (page 3, 3))] }
    let runs (l : Link) : Nat := match tget l.pages 0 with
      | some (old, n) => if old = page 0 then n + 1 else 1
      | none => 1
    let next (l : Link) : Link := { l with
      pages := tset l.pages 0 (page 0, runs l), three := if 3 ≤ runs l then setBits 0 0 1 l.three else l.three
      stepDue := some (l.stepDue.getD (0 + us 10000)) }
    let t (l : Link) : State := setLstat 127 31 31 (b2n (connected (next l)).2) (setLstat 127 35 32 (laneMask (connected (next l)).1)
      (putLink 127 (next l) (linkAt 1 l)))
    peerPage (next l) = none ∧ peerPage (next two) = some (page 0) ∧ usableLanes 127 (t two) = (15, 0) := by decide +kernel

/-! ### LinkFramesAreTaken -/

/-- A control frame of a type, with its LCRC. -/
def ctl (ct : Nat) : BitVec 256 :=
  let raw : BitVec 256 := BitVec.ofNat 256 (0xA * 2 ^ 252 + ct * 2 ^ 248)
  raw + BitVec.ofNat 256 (crc32c ((leBytes 32 (bits 255 32 raw * 2 ^ 32)).drop 4)).toNat

theorem test_wit_control_frames : ∀ ct ∈ [0, 1, 2, 3, 4, 5, 6], GoodControl 127 ct (ctl ct) (linkAt 5 lnk) := by decide +kernel

/-- A data frame in sequence and out of sequence, with its LCRC and without, with no replay awaited and with one. -/
theorem test_wit_data_frames :
    let s := linkAt 5 lnk
    let l := getLink 127 s
    let h (seq : Nat) : BitVec 64 := BitVec.ofNat 64 (5 * 2 ^ 60 + seq * 2 ^ 48 + 64 * 2 ^ 30)
    let f (seq : Nat) : DataFrame := { lhdr := h seq, pkt := Packet.zero, lcrc := frameCrc (h seq) Packet.zero, fecBad := false }
    linkLive 127 s = true ∧ running s = true ∧ (∀ n ∈ [0, 1], bits 63 60 (f n).lhdr = 5 ∧ bits 42 30 (f n).lhdr = 64 ∧ bits 59 48 (f n).lhdr = n) ∧
    l.rxSeq = 0 ∧ l.rxWait = false ∧ l.resync = false ∧ (getLink 127 (linkAt 5 { l with resync := true })).resync = true ∧ (getLink 127 (linkAt 5 { l with rxWait := true })).rxWait = true ∧ linkLive 127 up = false ∧
    bits 63 60 ({ f 0 with lhdr := 0 } : DataFrame).lhdr ≠ 5 ∧ lstat 127 21 20 (setLstat 127 21 20 1 s) ≠ 0 ∧
    frameCrc (h 0) Packet.zero ≠ frameCrc (h 0) Packet.zero + 1 := by decide +kernel

/-! ### LinkLanesAndCommands -/

theorem test_wit_lanes :
    let l := lnk
    let s := linkAt 5 l
    let r : Reconf := { lanes := 7, ll := false, seq := 1, since := 0, sentAt := 0 }
    let most := nz (rf Reg.LNK_CFG2 31 16 s)
    let fit (used : Nat) : State := setLstat 127 39 36 used (linkAt 5 { l with usable := 7, retrain := 8 })
    let three := setLstat 127 22 22 1 (setLstat 127 23 23 1 (setLstat 127 39 36 7 s))
    (10 * 0 < most ∧ most < 100000 ∧ nz (rf Reg.LNK_CFG2 15 8 s) < 100000) ∧
    (let v (used : Nat) : State := setRf (Reg.LNK_CTRL + 8 * 127) 2 2 0 (putLink 127 { l with usable := 15, retrain := 0, healthy := 15 } (fit used))
     widestLanes 127 15 (v 15) = lstat 127 39 36 (v 15) ∧ widestLanes 127 15 (v 3) ≠ lstat 127 39 36 (v 3)) ∧
    linkLive 127 s = true ∧ lstat 127 39 36 s / 2 ^ 3 % 2 = 1 ∧ lstat 127 39 36 three / 2 ^ 3 % 2 = 0 ∧ lstat 127 23 23 three = 1 ∧
    (getLink 127 (linkAt 5 { l with rc := some r })).rc = some r ∧ bit 3 (getLink 127 (linkAt 5 { l with retrain := 8 })).retrain = true ∧
    bit 3 l.retrain = false ∧ MgtWritesOff 0x800 s ∧ izl3 127 three = true ∧ izl3 127 s = false ∧
    (∀ n ∈ [0, 5, 7], lstate 127 (linkAt n l) = n ∧ MgtWritesOff 0x800 (linkAt n l) ∧ running (linkAt n l) = true) := by decide +kernel

/-- A spare lane under IZL-3: one in service with the peer and out of use here. -/
theorem test_wit_spare :
    let s := setLstat 127 35 32 15 (setLstat 127 22 22 1 (setLstat 127 39 36 7 (linkAt 5 lnk)))
    linkLive 127 s = true ∧ izl3 127 s = true ∧ spareLanes 127 s ≠ 0 ∧ spareLanes 127 (linkAt 5 lnk) = 0 := by decide +kernel

end Sys2Proof.Tests
end

