-- ==== Sys2Proof/Tests/WitRings.lean ====
section
/-! SUPPORT. Witnesses: states and operands that meet the hypotheses of the statements about Command Rings and their entries. -/

namespace Sys2Proof.Tests

set_option Elab.async false

open Sys2Proof.Machine Sys2Proof.Claims

/-! ### EntriesWithoutQueuePairsIssue -/

/-- A NOP, a FENCE alone in its ring, and a FENCE behind an issued entry. -/
theorem test_wit_nop_fence :
    let nop : BitVec 512 := 0
    let fence : BitVec 512 := 0x10
    let x : Entry := ⟨ent 1 16 0 4 0 0, true, none⟩
    let g := ring [x, ⟨fence, false, none⟩]
    [nop, fence].all (fun e => getRing 0 1 (oneEntry 1 e up) == some (ring [⟨e, false, none⟩]) && !eFence e && running (oneEntry 1 e up) &&
      !frozen 0 (oneEntry 1 e up)) = true ∧
    eOpcode nop = 0 ∧ eOpcode fence = 0x10 ∧ getRing 0 1 (withRing 1 g up) = some g ∧ x.issued = true ∧ x.result = none ∧
    running (withRing 1 g up) = true := by decide +kernel

/-- WAIT_CTR and SIGNAL, aligned, and SIGNAL misaligned; COL_START and TAPER_INVOKE with descriptors of 64 and 65,536 bytes, and of 8. -/
theorem test_wit_counter_entries :
    (∀ op ∈ [0x11, 0x12], issueOf op 0 1 (oneEntry 1 (ent op 0 8 0 0 0) up) = some (refOf 1, ent op 0 8 0 0 0) ∧
      (eLaddr (ent op 0 8 0 0 0)).toNat % 8 = 0 ∧ running (oneEntry 1 (ent op 0 8 0 0 0) up) = true) ∧
    (issueOf 0x12 0 1 (oneEntry 1 (ent 0x12 0 1 0 0 0) up) = some (refOf 1, ent 0x12 0 1 0 0 0) ∧ (eLaddr (ent 0x12 0 1 0 0 0)).toNat % 8 ≠ 0) ∧
    (∀ n ∈ [64, 65536], ∀ op ∈ [0x20, 0x28], issueOf op 0 1 (oneEntry 1 (ent op 0 0 n 0 0) up) = some (refOf 1, ent op 0 0 n 0 0) ∧
      eLength (ent op 0 0 n 0 0) = n ∧ descRoom (ent op 0 0 n 0 0) (oneEntry 1 (ent op 0 0 n 0 0) up) = true) ∧
    (issueOf 0x28 0 1 (oneEntry 1 (ent 0x28 0 0 8 0 0xFFFF) up) = some (refOf 1, ent 0x28 0 0 8 0 0xFFFF) ∧
      bits 63 16 (eX64 (ent 0x28 0 0 8 0 0xFFFF)) = 0 ∧ descRoom (ent 0x28 0 0 8 0 0xFFFF) up = true) := by decide +kernel

/-- COLL_ABORT of an active instance; a WAIT_CTR that waits with a time. -/
theorem test_wit_abort_timeout :
    let e := ent 0x21 0 0 0 0 (2 ^ 32 + 2 * 2 ^ 16)
    let s : State := { oneEntry 1 e up with col := { up.col with insts := [(9, inst9)] } }
    let w : Entry := ⟨ent 0x11 0 8 1 0 0, true, none⟩
    let t := withRing 1 (ring [w]) up
    (issueOf 0x21 0 1 s = some (refOf 1, e) ∧ findInst 0 ((eX64 e).extractLsb' 32 32) ((eX64 e).extractLsb' 16 16) s = some (9, inst9) ∧
      running s = true) ∧
    (running t = true ∧ getRing 0 1 t = some (ring [w]) ∧ refEntry (refOf 1) t = some (ring [w], 0, w) ∧ w.issued = true ∧ w.result = none ∧
      eOpcode w.raw = 0x11 ∧ eLength w.raw ≠ 0) := by decide +kernel

/-! ### QueuePairEntriesIssue -/

/-- Entries for an ACTIVE queue pair: SEND, WRITE (with data, INLINE and of no length), READ, ATOMIC of 16 bytes, COUNTER_ADD, POST_RECV. -/
theorem test_wit_qp_entries :
    let s (e : BitVec 512) : State := oneEntry 1 e (withQp (qpIn .active) host)
    [ent 1 16 0 1 0 0, ent (1 + 2 ^ 35) 16 0 1 0 0, ent 2 16 0 1 0 0, ent (2 + 2 ^ 35) 16 0 1 0 0, ent 2 16 0 0 0 0, ent 3 16 0 1 0 0,
        ent 4 16 16 16 0 0, ent 5 16 0 8 8 0, ent 6 16 0 0 0 0].all (fun e =>
      issueOf (eOpcode e) 0 1 (s e) == some (refOf 1, e) && !eIndirect e &&
      decide (qpGate 0 (eQpn e) (eOpcode e == 6) (s e) = .ok (qpIn .active)) && running (s e)) = true := by decide +kernel

/-- What else the clauses ask of those entries: lengths, INLINE, alignments; and the threshold of a rendezvous, none and 1,024. -/
theorem test_wit_qp_entry_fields :
    eInline (ent 1 16 0 1 0 0) = false ∧ eLength (ent 1 16 0 1 0 0) = 1 ∧ eInline (ent (1 + 2 ^ 35) 16 0 1 0 0) = true ∧
    eLength (ent 2 16 0 0 0 0) = 0 ∧ eInline (ent (2 + 2 ^ 35) 16 0 1 0 0) = true ∧
    (eRaddr (ent 4 16 16 16 0 0)).toNat % 2 ^ bits 143 136 (ent 4 16 16 16 0 0) = 0 ∧ (eLaddr (ent 4 16 16 16 0 0)).toNat % 16 = 0 ∧
    (eRaddr (ent 5 16 0 8 8 0)).toNat % 8 = 0 ∧
    (let s := setRf Reg.MTE_CFG 31 16 1 (oneEntry 1 (ent 1 16 0 1025 0 0) (withQp (qpIn .active) host))
     rndvThresh s = 1024 ∧ rndvThresh s < eLength (ent 1 16 0 1025 0 0) ∧ issueOf 1 0 1 s = some (refOf 1, ent 1 16 0 1025 0 0) ∧
     qpGate 0 16 false s = .ok (qpIn .active)) ∧
    rndvThresh (setRf Reg.MTE_CFG 31 16 0 host) = 0 := by decide +kernel

/-- A queue pair in ERROR, one in INIT, one of another function, and one whose context is not on chip. -/
theorem test_wit_qp_turned_away :
    let e := ent 1 16 0 1 0 0
    let out : State := { withQp (qpIn .active) host with qpc := { up.qpc with bound := [(16, { fn := 0, pd := 5, arvId := 0 })] } }
    issueOf 1 0 1 (oneEntry 1 e (withQp (qpIn .error) host)) = some (refOf 1, e) ∧
    qpGate 0 16 false (oneEntry 1 e (withQp (qpIn .error) host)) = .status St.flushed ∧
    qpGate 0 16 false (oneEntry 1 e (withQp (qpIn .init) host)) = .status St.qpState ∧
    qpGate 0 32 false (oneEntry 1 e host) = .status St.notPermitted ∧
    issueOf 1 0 1 (oneEntry 1 e out) = some (refOf 1, e) ∧ qpGate 0 16 false (oneEntry 1 e out) = .fetch ∧
    tget (oneEntry 1 e out).qpc.fetches 16 = none := by decide +kernel

/-! ### DoorbellsFetchesAndMirrors -/

/-- A tail one and 64 beyond the head, and 65; an Arrival Ring with one slot written, of which one and two are returned. -/
theorem test_wit_doorbells :
    let g := { ring [] with tail := 0 }
    let s : State := setPage 0 1 (.ring 1) (withRing 1 g up)
    let a : Arv := { newArv 0 6 1 4 0 with written := [.pool], produced := 1 }
    let t : State := setPage 0 1 (.arv 1) (putArv 0 1 a up)
    HostWrites 0 s ∧ running s = true ∧ tget s.cmp.pages (ringKey 0 1) = some (.ring 1) ∧ getRing 0 1 s = some g ∧ g.state ≠ .stoppedDevice ∧
    0 < ((1 : BitVec 32) - g.tail).toInt ∧ 0 < ((64 : BitVec 32) - g.tail).toInt ∧ 0 < ((65 : BitVec 32) - g.tail).toInt ∧ ((64 : BitVec 32) - g.head).toNat ≤ 2 ^ g.log2size ∧
    2 ^ g.log2size < ((65 : BitVec 32) - g.head).toNat ∧
    HostWrites 0 t ∧ tget t.cmp.pages (ringKey 0 1) = some (.arv 1) ∧ getArv 0 1 t = some a ∧ a.fenced = false ∧
    1 ≠ a.consumed ∧ 2 ≠ a.consumed ∧ ((1 : BitVec 32) - a.consumed).toNat ≤ (a.produced - a.consumed).toNat ∧
    (a.produced - a.consumed).toNat < ((2 : BitVec 32) - a.consumed).toNat ∧
    tget up.cmp.pages (ringKey 0 1) = none ∧ HostWrites 0 up := by decide +kernel

/-- An entry that is posted and one that is not; a ring that waits to read again; a mirror that is behind. -/
theorem test_wit_fetches :
    let s := withRing 1 (ring []) host
    let w := withRing 1 { ring [] with waitOwn := true } host
    let m := withRing 1 { ring [] with head := 1 } host
    fetchIndex 0 (ring []) s = some 0 ∧ readable 0 (entryAddr (ring []) 0) 64 s = true ∧
    ownTest 6 0 0x10000 = true ∧ decodeStatus false 0x10000 = none ∧ ownTest 6 0 0 = false ∧
    getRing 0 1 w = some { ring [] with waitOwn := true } ∧ frozen 0 w = false ∧ running w = true ∧
    getRing 0 1 m = some { ring [] with head := 1 } ∧ ({ ring [] with head := 1 } : Ring).head ≠ (ring []).published := by decide +kernel

/-! ### RingsAreCreatedAndDestroyed -/

/-- RING_CREATE of 64 entries under identifier 1 while the admin ring alone exists. -/
theorem test_wit_ring_create :
    let e := ent 0x30 0 0x5000 0 0 0
    let s := oneEntry 0 e host
    let blk : BitVec 256 := BitVec.ofNat 256 (6 + 2 * 2 ^ 64 + 0x10000 * 2 ^ 128 + 0x20000 * 2 ^ 192)
    running s = true ∧ issueOf 0x30 0 0 s = some (refOf 0, e) ∧ inWindow 0 (eLaddr e) 32 s = true ∧ bits 127 112 blk = 0 ∧ bits 95 76 blk = 0 ∧
    bits 31 9 blk = 0 ∧ bits 7 5 blk = 0 ∧ ringShapeOk (blk.toNat % 2 ^ 5) (blk.getLsbD 8) (blk.extractLsb' 128 64) (blk.extractLsb' 192 64) = true ∧
    blk.toNat / 2 ^ 64 % 2 ^ 12 = 2 ∧ pageUsed 0 2 s = false ∧
    ringInWindow 0 6 false (blk.extractLsb' 128 64) (blk.extractLsb' 192 64) s = true ∧ ringCount s < 32768 ∧ ringCountOf 0 s < 4095 ∧
    getRing 0 1 (markIssued (refOf 0) s) = none := by decide +kernel

/-- RING_DESTROY and RING_RESUME of ring 4,095, which is stopped, frozen, running or stopped by the device. -/
theorem test_wit_ring_resume :
    let s (op : Nat) (st : RingState) : State := withRing 4095 { ring [] with state := st } (oneEntry 0 (ent op 0 0 0 0 4095) host)
    ∀ op ∈ [0x31, 0x32], ∀ st ∈ [RingState.stoppedFetch, .frozen, .running, .stoppedDevice],
      running (s op st) = true ∧ issueOf op 0 0 (s op st) = some (refOf 0, ent op 0 0 0 0 4095) ∧ (eX64 (ent op 0 0 0 0 4095)).toNat = 4095 ∧
      getRing 0 4095 (markIssued (refOf 0) (s op st)) = some { ring [] with state := st } := by decide +kernel

/-- ARV_CREATE of 64 slots, 56 of them for receives; ARV_DESTROY of that Arrival Ring with nothing bound to it. -/
theorem test_wit_arv :
    let e := ent 0x33 0 0x5000 0 0 0
    let s := oneEntry 0 e host
    let blk : BitVec 256 := BitVec.ofNat 256 (6 + 56 * 2 ^ 12 + 2 * 2 ^ 64 + 0x10000 * 2 ^ 128)
    let d := ent 0x34 0 0 0 0 1
    let t := putArv 0 1 (newArv 0 6 1 4 0) (oneEntry 0 d host)
    (running s = true ∧ issueOf 0x33 0 0 s = some (refOf 0, e) ∧ inWindow 0 (eLaddr e) 32 s = true ∧ bits 255 192 blk = 0 ∧ bits 127 112 blk = 0 ∧
      bits 95 76 blk = 0 ∧ bits 11 5 blk = 0 ∧ (blk.extractLsb' 128 64).toNat % 4096 = 0 ∧ pageUsed 0 2 s = false ∧
      bits 31 12 blk + 8 ≤ 2 ^ 6 ∧ inWindow 0 (blk.extractLsb' 128 64) (32 * 2 ^ 6) s = true ∧ s.cmp.arvs.length < 32768 ∧
      arvCountOf 0 s < 4095 ∧ freeArv 0 s = some 1) ∧
    (issueOf 0x34 0 0 t = some (refOf 0, d) ∧ (eX64 d).toNat = 1 ∧ getArv 0 1 t = some (newArv 0 6 1 4 0) ∧ arvBound 0 1 t = false) := by
  decide +kernel

/-- The admin ring enabled with good registers and with bad ones, and disabled. -/
theorem test_wit_admin_ring :
    let s := setFf 0 Reg.CMR_ADMIN_MIRROR 63 0 0x20000 (setFf 0 Reg.CMR_ADMIN_RING 63 0 0x10006 host)
    let bad := setFf 0 Reg.CMR_ADMIN_RING 63 0 0x10000 host
    let on := setFf 0 Reg.CMR_ADMIN_CTRL 1 0 3 host
    let reg (s : State) : State := setFf 0 Reg.CMR_ADMIN_CTRL 0 0 1 (setFf 0 Reg.CMR_ADMIN_CTRL 63 32 0 s)
    HostWrites 0 s ∧ bit 1 (rdFn 0 Reg.CMR_ADMIN_CTRL s) = false ∧ (rdFn 0 Reg.CMR_ADMIN_RING (reg s)).toNat = 0x10006 ∧
    ringShapeOk 6 false 0x10000 0x20000 = true ∧ ringInWindow 0 6 false 0x10000 0x20000 (reg s) = true ∧
    HostWrites 0 bad ∧ bit 1 (rdFn 0 Reg.CMR_ADMIN_CTRL bad) = false ∧ (rdFn 0 Reg.CMR_ADMIN_RING (reg bad)).toNat = 0x10000 ∧
    ringShapeOk 0 false 0x10000 0 = false ∧
    HostWrites 0 on ∧ bit 1 (rdFn 0 Reg.CMR_ADMIN_CTRL (setFf 0 Reg.CMR_ADMIN_CTRL 0 0 0 on)) = true := by decide +kernel

end Sys2Proof.Tests
end

