-- ==== Sys2Proof/Tests/WitTaper.lean ====
section
/-! SUPPORT. Witnesses: states and operands that meet the hypotheses of the statements about Taper instructions. -/

namespace Sys2Proof.Tests

set_option Elab.async false

open Sys2Proof.Machine Sys2Proof.Claims

/-! ### StepExecutesFront, TaperComputesIntoRd, TaperVectorMoves -/

theorem test_wit_front : ({ up with pending := [.epochStart, .servoRun] } : State).pending = .epochStart :: [.servoRun] := by decide +kernel

/-- The premise of every statement about a running core, with a message activation and with an activation of an invocation. -/
theorem test_wit_runs : Runs 0 wAct (onCore wAct) ∧ Runs 0 invAct (onInv invAct 0) ∧ Runs 0 invAct (onInv invAct 9) := by decide +kernel

/-! ### TaperLoadsAndStores, TaperAtomicUpdates -/

/-- Loads of every width at the end of LDM and in the code; stores there and in the heap. -/
theorem test_wit_loads_stores :
    let s := onCore wAct
    Runs 0 wAct s ∧ Safe s ∧
    (∀ n ∈ [1, 2, 4, 8, 64], (wAct.getW 1 + (64 - BitVec.ofNat 64 n)).toNat % n = 0 ∧
      tAddr 0 wAct (wAct.getW 1 + (64 - BitVec.ofNat 64 n)) n false false s = some (.ldm (0x8000 - n)) ∧
      tAddr 0 wAct (wAct.getW 1 + (64 - BitVec.ofNat 64 n)) n true false s = some (.ldm (0x8000 - n)) ∧
      tAddr 0 wAct (wAct.getW 4) n false false s = some (.csm 0x200000) ∧
      tAddr 0 wAct (wAct.getW 3 + 64 - BitVec.ofNat 64 n) n true false s = some (.csm (0x2C0080 - n))) := by decide +kernel

theorem test_wit_atomics :
    let s := onCore wAct
    Runs 0 wAct s ∧ Safe s ∧ (wAct.getW 2).toNat % 8 = 0 ∧ tAddr 0 wAct (wAct.getW 2) 8 true true s = some (.csm 0x2C0000) ∧
    (wAct.getW 3 + 56).toNat % 8 = 0 ∧ tAddr 0 wAct (wAct.getW 3 + 56) 8 true true s = some (.csm 0x2C0078) := by decide +kernel

/-! ### TaperBranches -/

/-- The first and the last instruction of the image are places to go to; the word behind it is not. -/
theorem test_wit_branches :
    let s := onCore wAct
    Runs 0 wAct s ∧ codeAddr 0 wAct (wAct.getW 4) s = true ∧ codeAddr 0 wAct (wAct.pc + 4 * (15 : BitVec 16).signExtend 64) s = true ∧
    codeAddr 0 wAct (wAct.pc + 4 * (15 : BitVec 24).signExtend 64) s = true ∧ codeAddr 0 wAct 0x200040 s = false ∧
    -- each condition holds of a pair of registers and fails of another
    wAct.getW 1 = wAct.getW 1 ∧ wAct.getW 1 ≠ wAct.getW 2 ∧ (wAct.getW 1).toInt < (wAct.getW 2).toInt ∧
    (wAct.getW 1).toInt ≤ (wAct.getW 1).toInt ∧ (wAct.getW 1).toNat < (wAct.getW 2).toNat ∧ (wAct.getW 1).toNat ≤ (wAct.getW 1).toNat := by
  decide +kernel

/-! ### TaperEventsEndsAndExceptions -/

/-- An event of KIND 15 behind one that the mask does not name; then none that the mask names. -/
theorem test_wit_events :
    let a : Act := { msgAct with evq := { EvQueue.empty with words := [ev 0, ev 15], slots := 2 } }
    let s := onCore a
    let q := actQueue a s
    let hit (mask : BitVec 16) (w : BitVec 64) : Bool := eventKind w < 16 && mask.getLsbD (eventKind w)
    Runs 0 a s ∧ q.words = [ev 0] ++ ev 15 :: [] ∧ hit 0x8000 (ev 0) = false ∧ hit 0x8000 (ev 15) = true ∧
    hit 0x7FFE (ev 0) = false ∧ hit 0x7FFE (ev 15) = false := by
  decide +kernel

/-- An activation of an invocation, of no collective instance; a message activation without a host access; a word that is no
instruction. -/
theorem test_wit_ends :
    let s := onInv invAct 0
    let t := onCore msgAct
    ((getCore 0 s).act = some invAct ∧ invAct.wait = none ∧ coreHalted 0 s = false ∧ invAct.inv = some 1 ∧
      getInvoc 1 s = some (inv1 0) ∧ (inv1 0).inst = 0) ∧
    ((getCore 0 t).act = some msgAct ∧ msgAct.wait = none ∧ coreHalted 0 t = false ∧ msgAct.inv = none ∧
      ∀ h ∈ t.tpr.hxfers, h.2.owner ≠ .act 0 msgAct.uid) ∧
    taperDecode 0 0xFFFFFFFF = none := by decide +kernel

/-! ### TaperObjectsAndOperations -/

/-- A trigger object read at 0, and the chunk buffer 3 of an invocation of a collective instance, which CWR may write up to 4,095. -/
theorem test_wit_objects :
    let ra : BitVec 64 := 0xFFFF000000000000
    let a : Act := { msgAct with w := #v[0, ra, 0x7FFD, 3, 0, 0, 0, 0, 0, 0, 0, 0, 0, 0, 0, 0] }
    let b : Act := { invAct with w := #v[0, 0x0003000000000FC0, 0, 0, 0, 0, 0, 0, 0, 0, 0, 0, 0, 0, 0, 0] }
    let s := onCore a
    let t := onInv b 9
    (Runs 0 a s ∧ objBytes a (ra.toNat / 2 ^ 48) s = some [1, 2, 3] ∧ ra.toNat / 2 ^ 32 % 2 ^ 16 = 0 ∧ ra.toNat % 2 ^ 32 % 64 = 0 ∧ Safe s ∧
      tAddr 0 a (a.getW 2) (a.getW 3).toNat true false s = some (.ldm 0x7FFD) ∧ a.inv = none) ∧
    (Runs 0 b t ∧ objBytes b ((b.getW 1).toNat / 2 ^ 48) t = some [9, 9] ∧ (b.getW 1).toNat / 2 ^ 32 % 2 ^ 16 = 0 ∧
      (b.getW 1).toNat % 2 ^ 32 % 64 = 0 ∧ b.inv = some 1 ∧ getInvoc 1 t = some (inv1 9) ∧ (b.getW 1).toNat / 2 ^ 48 ≠ 0xFFFF ∧
      (b.getW 1).toNat % 2 ^ 32 < 4096) := by decide +kernel

/-- COLOP with code 1 and 9, the queue holding 62 and 63 slots. -/
theorem test_wit_colop :
    let s (n : Nat) : State := { onInv invAct 9 with
      tpr := { (onInv invAct 9).tpr with invocs := [(1, { inv1 9 with evq := { EvQueue.empty with slots := n } })] } }
    ∀ p ∈ [(1, 62, 2), (9, 63, 1)],
      let x : BitVec 512 := BitVec.ofNat 512 (p.1 * 2 ^ 504)
      let t := s p.2.1
      (getCore 0 t).act = some invAct ∧ invAct.wait = none ∧ coreHalted 0 t = false ∧
      getInvoc 1 t = some { inv1 9 with evq := { EvQueue.empty with slots := p.2.1 } } ∧ getInst 9 t = some inst9 ∧ inst9.failed = none ∧
      1 ≤ oCop x ∧ oCop x ≤ 9 ∧ (actQueue invAct t).slots + p.2.2 ≤ 64 := by decide +kernel

/-- MSG of class 1 with 4,096 bytes of LDM, and with none, the queue holding 63 slots; HXFER of 65,536 bytes is longer than LDM, so 64 bytes. -/
theorem test_wit_msg_hxfer :
    let a : Act := { msgAct with evq := { EvQueue.empty with slots := 63 } }
    let s := onCore a
    let m (len : Nat) : BitVec 512 := BitVec.ofNat 512 (1 * 2 ^ 364 + len * 2 ^ 320 + 0x7000 * 2 ^ 256)
    let h (dir : Nat) : BitVec 512 := BitVec.ofNat 512 (64 * 2 ^ 320 + 0x7FC0 * 2 ^ 256 + dir * 2 ^ 238)
    ((getCore 0 s).act = some a ∧ a.wait = none ∧ coreHalted 0 s = false ∧ (actQueue a s).slots < 64) ∧
    (∀ len ∈ [0, 4096], bits 366 364 (m len) < 4 ∧ bits 335 320 (m len) ≤ 4096 ∧ bits 399 384 (m len) = 0 ∧ bits 363 352 (m len) = 0 ∧
      bits 255 0 (m len) = 0 ∧ msgClassOk a (bits 366 364 (m len)) s = true ∧
      tAddr 0 a ((m len).extractLsb' 256 64) (bits 335 320 (m len)) true false s ≠ none) ∧
    (∀ dir ∈ [0, 1], bits 239 238 (h dir) < 2 ∧ bits 237 0 (h dir) = 0 ∧ bits 351 320 (h dir) ≠ 0 ∧ bits 351 320 (h dir) ≤ 65536 ∧
      bits 447 384 (h dir) = 0 ∧ ((h dir).extractLsb' 256 64).toNat % 8 = 0 ∧
      tAddr 0 a ((h dir).extractLsb' 256 64) (bits 351 320 (h dir)) true false s ≠ none) := by decide +kernel

/-! ### TaperMailboxesSemaphoresNotices -/

/-- Mailbox 4,095 of function 0 empty, full and armed. -/
theorem test_wit_mailboxes :
    let a : Act := { msgAct with w := #v[0, 0xFFF, 0x3FF, 0, 0, 0, 0, 0, 0, 0, 0, 0, 0, 0, 0, 0] }
    let s := writeReg (Reg.MBX_ALLOC + 8 * 4095) 0x1000 (onCore a)
    let box (k : MbxState) : State := { s with mbx := [(4095, ⟨k, 0, 0, 0, 0, 0⟩)] }
    ∀ k ∈ [MbxState.empty, .full, .armed], Runs 0 a (box k) ∧
      mbxOwned ((a.getW 1).toNat % 4096) (actOwner a (box k)) (box k) = true ∧ (getMbx 4095 (box k)).state = k ∧ a.inv = none := by
  decide +kernel

/-- Semaphore 1,023 of function 0 free, held by the core, with a waiter and without, and held by another. -/
theorem test_wit_semaphores :
    let a : Act := { msgAct with w := #v[0, 0xFFF, 0x3FF, 0, 0, 0, 0, 0, 0, 0, 0, 0, 0, 0, 0, 0] }
    let s := writeReg (Reg.LCK_ALLOC + 8 * 1023) 0x1FFF0000 (onCore a)
    let sem (h : Option (BitVec 12)) : State := { s with sems := [(1023, ⟨h, [], 0, false, none⟩)] }
    let good (h : Option (BitVec 12)) : Bool := decide (Runs 0 a (sem h)) && semAllowed ((a.getW 2).toNat % 1024) (actOwner a (sem h)) (sem h) &&
      (getSem 1023 (sem h)).excused.isNone && (getSem 1023 (sem h)).holder == h && (getSem 1023 (sem h)).queue.isEmpty
    let held : State := { s with sems := [(1023, ⟨some (coreMaster 0), 5 :: [], 0, false, none⟩)] }
    good none = true ∧ good (some (coreMaster 0)) = true ∧ good (some 5) = true ∧ coreMaster 0 ≠ 5 ∧ semWaiters (sem none) = 0 ∧
    (Runs 0 a held ∧ semAllowed 1023 (actOwner a held) held = true ∧ (getSem 1023 held).excused = none ∧
      (getSem 1023 held).holder = some (coreMaster 0) ∧ (getSem 1023 held).queue = 5 :: []) := by
  decide +kernel

/-- NOTE for an Arrival Ring that does not exist, a fenced one, one without a free pool slot, and one with one. -/
theorem test_wit_notes :
    let s (pool : Nat) : State := { onCore msgAct with cmp := { up.cmp with arvs := [(1, newArv 0 6 1 pool 0)] } }
    Runs 0 msgAct (s 0) ∧ getArv (actOwner msgAct (onCore msgAct)) 1 (onCore msgAct) = none ∧
    (∀ pool ∈ [0, 1], getArv (actOwner msgAct (s pool)) 1 (s pool) = some (newArv 0 6 1 pool 0) ∧
      (newArv 0 6 1 pool 0).fenced = false ∧ (newArv 0 6 1 pool 0).free .pool = pool) ∧
    (let g := { newArv 0 6 1 1 0 with fenced := true }
     let t : State := { onCore msgAct with cmp := { up.cmp with arvs := [(1, g)] } }
     Runs 0 msgAct t ∧ getArv (actOwner msgAct t) 1 t = some g ∧ g.fenced = true) := by decide +kernel

/-! ### ClusterEvents, TaperMessages -/

/-- A transfer from host memory whose read is in flight; a timer armed; core 127's watchdog. -/
theorem test_wit_cluster_events :
    let h : Hxfer := { owner := .inv 1, fn := 0, dir := 0, core := 0, laddr := 0, len := 2, tag := 0, bytes := [], serial := some 4, outcome := none }
    let v : Invoc := { inv1 0 with evq := { EvQueue.empty with timer := some 100 } }
    let s : State := { onInv invAct 0 with tpr := { (onInv invAct 0).tpr with hxfers := [(7, h)], invocs := [(1, v)] } }
    let r : Ready := .inv 1 true
    let t : State := { up with tpr := { (onInv invAct 0).tpr with cores := [], ready := [(0, [r])] }, snf := { up.snf with tests := [] } }
    let frz : State := { up with tpr := { up.tpr with progs := [(1023, { prg with state := .frozen })] } }
    (running s = true ∧ tget s.tpr.hxfers 7 = some h ∧ h.serial = some 4 ∧ h.owner ≠ .none ∧ [1, 2].length = h.len) ∧
    (getInvoc 1 s = some v ∧ v.evq.timer = some 100 ∧ (getCore 0 s).act = some invAct) ∧
    (running t = true ∧ 0 ∉ t.snf.clusters ∧ tget t.tpr.ready 0 = some [r] ∧ mayDispatch 0 r t = true ∧ coreFree 0 t = true) ∧
    (MgtWritesOff 0x800 frz ∧ Open 48 frz ∧ getProg (0xFFFF % 1024) frz = some { prg with state := .frozen }) ∧
    (let two (u : Option EntryRef) : State := { frz with tpr := { frz.tpr with progs := [(1023, { prg with state := .frozen, unload := u })] } }
     getProg 1023 (two (some (refOf 0))) = some { prg with state := .frozen, unload := some (refOf 0) } ∧ prg.unload = none) := by decide +kernel

/-- The packet of a message for handler `h` with key 7, with its check code. -/
def tmsgPkt (h : Nat) : Packet :=
  let p : Packet := { Packet.zero with op := 0x30, cls := 1, addr := BitVec.ofNat 64 h, key := 7, srcEp := 4 }
  { p with crc := e2eCrc p }

/-- A message for no program; for a LIVE one, with its key and with another, new and accepted before; for a FROZEN one; for one that is
UNLOADING; a message with a wrong check code; one for which no cluster has room. -/
theorem test_wit_messages :
    let im : Image := { img with msge := 0 }
    let s (st : ProgState) (acc : List (Nat × BitVec 32 × Nat)) : State := { up with tpr := { up.tpr with
      progs := [(1, { prg with state := st })], images := [(1, im)], accept := acc } }
    let p := tmsgPkt 1
    running up = true ∧ p.op = 0x30 ∧ e2eCrc p = p.crc ∧ getProg 1 up = none ∧
    (∀ st ∈ [ProgState.live, .frozen], ∀ acc ∈ [[], [(1, 0, 5)]],
      running (s st acc) = true ∧ getProg (p.addr.toNat % 65536) (s st acc) = some { prg with state := st } ∧ st ≠ .unloading ∧
      prg.owner / 256 = p.dstEp.toNat % 4 ∧ getImage 1 (s st acc) = some im ∧ im.msge ≠ 0xFFFFFFFF ∧ prg.hkey = p.key ∧
      frozen prg.owner (s st acc) = false) ∧
    (e2eCrc { p with key := 8, crc := e2eCrc { p with key := 8 } } = ({ p with key := 8, crc := e2eCrc { p with key := 8 } } : Packet).crc ∧
      prg.hkey ≠ 8) ∧
    msgCluster { prg with state := .live } (s .live []) = some 0 ∧ msgQueue 0 (s .live []) < 256 ∧
    objCells (s .live []) + cellsOf p ≤ objLimit (s .live []) ∧ p.srcEp.toNat / 4 = 1 ∧ p.psn = 0 ∧
    getProg (p.addr.toNat % 65536) (s .unloading []) = some { prg with state := .unloading } ∧
    e2eCrc { p with crc := p.crc + 1 } ≠ ({ p with crc := p.crc + 1 } : Packet).crc ∧
    msgCluster { prg with state := .live } { s .live [] with snf := { up.snf with clusters := List.range 16 } } = none := by
  decide +kernel

/-- A message that waits for its acknowledgement: with no attempt made, and with the last one made (TM_RETRY 1). -/
theorem test_wit_message_answers :
    let m (n : Nat) : TmsgTx := { att := 168, pkt := tmsgPkt 1, owner := .none, tag := 0, tries := n, sentAt := 0, rto := 5 }
    let s (n : Nat) : State := { up with tpr := { up.tpr with tmsgs := [m n], accept := [(5, 6, 7)] } }
    let a : Packet := { Packet.zero with op := 0x31, cls := 2 }
    let p : Packet := { a with crc := e2eCrc a }
    let retry := max 1 ((rdReg Reg.TPR_CFG up).toNat / 2 ^ 32 % 256)
    (∀ n ∈ [0, retry - 1, retry], running (s n) = true ∧ (s n).tpr.tmsgs.find? (fun m => m.pkt.psn == p.psn) = some (m n)) ∧
    p.op = 0x31 ∧ e2eCrc p = p.crc ∧ 0 < retry ∧ (5, 6, 7) ∈ (s 0).tpr.accept ∧
    ∀ u ∈ (s 0).tpr.accept, u.1 = 5 → u.2.1 = 6 → u.2.2 = 7 := by decide +kernel

end Sys2Proof.Tests
end

