-- ==== Sys2Proof/Tests/WitTime.lean ====
section
/-! SUPPORT. Witnesses: states and operands that meet the hypotheses of the statements about time, gates, locks and faults. -/

namespace Sys2Proof.Tests

set_option Elab.async false

open Sys2Proof.Machine Sys2Proof.Claims

/-! ### TimeUnitCommands, ServoSlewsOnceLocked -/

/-- The block with MODE `m` and STATE `st`. -/
def timed (m st : Nat) : State := setRf Reg.TMU_STAT 1 0 st (setRf Reg.TMU_CTRL 1 0 m up)

/-- MODE 1 with and without a sample; MODE 3 with an edge captured; MODE 0 and 2. -/
theorem test_wit_servo :
    let s := timed 1 0
    let port := setRf Reg.TMU_PORTMASK 63 0 1 s
    let link := setLstat 0 21 20 1 (setRf Reg.XBR_PORT 31 29 1 port)
    let t : State := { link with tmu := { link.tmu with kept := [(0, (32, 2))] } }
    let r : State := { timed 3 0 with tmu := { up.tmu with pps := some 5 } }
    tmuMode s = 1 ∧ followSample s = none ∧ tmuMode t = 1 ∧ (followSample t).isSome = true ∧ tmuMode r = 3 ∧ r.tmu.pps = some 5 ∧
    tmuMode (timed 0 0) = 0 ∧ tmuMode (timed 2 0) = 2 ∧ running s = true := by decide +kernel

/-- A load: refused once STATE has left FREE, and of 2^62; waiting for an edge; taken. -/
theorem test_wit_gtime_load :
    let v (n : Nat) : State := writeReg Reg.TMU_SET (BitVec.ofNat 64 n) up
    let wait := setRf Reg.TMU_STAT 6 6 1 (setRf Reg.TMU_REF 0 0 1 (v 5))
    (let w : State := { v 5 with tmu := { (v 5).tmu with loadWaits := true } }
     w.tmu.loadWaits = true ∧ tmuState w = 0 ∧ (rdReg Reg.TMU_SET w).toNat < 2 ^ 62 ∧ MgtWrites 0x800 w) ∧
    MgtWrites 0x800 up ∧ up.tmu.loadWaits = false ∧ tmuState (timed 0 1) ≠ 0 ∧ tmuState up = 0 ∧ 2 ^ 62 ≤ (rdReg Reg.TMU_SET (v (2 ^ 62))).toNat ∧
    (rdReg Reg.TMU_SET (v (2 ^ 62 - 1))).toNat < 2 ^ 62 ∧ rf Reg.TMU_REF 0 0 wait = 1 ∧ rf Reg.TMU_STAT 6 6 wait = 1 ∧ tmuState wait = 0 ∧
    (rdReg Reg.TMU_SET wait).toNat < 2 ^ 62 ∧ rf Reg.TMU_REF 0 0 up = 0 := by decide +kernel

/-- An edge that is captured, one that lies too far from GTIME once locked, one of the other direction; a reference lost; HOLDOVER. -/
theorem test_wit_edges :
    let s := setRf Reg.TMU_REF 0 0 1 (timed 0 0)
    let far : State := { setRf Reg.TMU_REF 0 0 1 (setRf Reg.TMU_STAT 7 7 1 (timed 3 2)) with gtime := 8000000000 }
    let lost (m : Nat) : State := { setRf Reg.TMU_STAT 6 6 1 (timed m 0) with tmu := { up.tmu with lastEdge := some 0 } }
    let h : State := { timed 0 3 with tmu := { up.tmu with holdSince := some 0 } }
    (∀ st ∈ [0, 1],
      let w : State := { setRf Reg.TMU_REF 0 0 1 (timed 0 st) with tmu := { up.tmu with loadWaits := true } }
      bit 0 (rdReg Reg.TMU_REF w) = true ∧ bit 3 (rdReg Reg.TMU_REF w) = false ∧ w.tmu.loadWaits = true ∧ tmuMode w ≠ 3 ∧ tmuState w = st ∧
      (rdReg Reg.TMU_SET w).toNat < 2 ^ 62 ∧ 0 ≤ ((rdReg Reg.TMU_SET w).toNat : Int) + ppsDelay w ∧
      ((rdReg Reg.TMU_SET w).toNat : Int) + ppsDelay w < 2 ^ 62) ∧
    bit 0 (rdReg Reg.TMU_REF s) = true ∧ bit 3 (rdReg Reg.TMU_REF s) = false ∧ s.tmu.loadWaits = false ∧ tmuMode s ≠ 3 ∧
    bit 0 (rdReg Reg.TMU_REF far) = true ∧ bit 3 (rdReg Reg.TMU_REF far) = false ∧ tmuMode far = 3 ∧ everLocked far = true ∧
    8000000 < (refOffset far.gtime far).natAbs ∧ bit 0 (rdReg Reg.TMU_REF up) = false ∧
    (∀ m ∈ [0, 3], rf Reg.TMU_STAT 6 6 (lost m) = 1 ∧ (lost m).tmu.lastEdge = some 0) ∧
    tmuMode (setRf Reg.TMU_STAT 6 6 0 (advanceTo (us 1500000) (lost 3))) = 3 ∧
    tmuState h = 3 ∧ h.tmu.holdSince = some 0 ∧ HostReaches 0 up := by decide +kernel

theorem test_wit_slew : (∃ t, exec .servoRun (timed 0 0) = .next t) ∧ everLocked (setRf Reg.TMU_STAT 7 7 1 up) = true := by
  have h : DoesOnly .servoRun (timed 0 0) (timed 0 0) → running (timed 0 0) = true → ∃ t, exec .servoRun (timed 0 0) = .next t :=
    fun d r => ⟨_, d r⟩
  exact ⟨⟨_, rfl⟩, by decide +kernel⟩

/-! ### ScheduleEpochs, GateEntryWritesAreJudged, GatesAndHistograms -/

/-- BASE 1,600 and the instants before and at it. -/
theorem test_wit_epochs :
    let s := writeReg Reg.LLT_SCHED_BASE 1600 up
    schedBase s = 1600 ∧ schedBase s ≤ 1600 ∧ 1599 < schedBase s := by decide +kernel

/-- Entry 255 of port 127: word 1 with OPEN 0 and CLOSE 1; a good word 0, one that breaks each rule, and one whose range has passed. -/
theorem test_wit_gate_entries :
    let w1 := gclOff 127 255 1
    let w0 := gclOff 127 255 0
    let s := wrReg w1 0x0000000100000000 up
    let valid := wrReg w0 0x8000000000000000 up
    let gates (q : Nat) : BitVec 64 := BitVec.ofNat 64 (2 ^ 63 + 2 ^ (32 + q))
    let past : State := { s with gtime := BitVec.ofNat 64 (48 * schedPeriod s) }
    MgtWritesOff 0x800 s ∧ running s = true ∧ bit 63 (rdReg w0 s) = false ∧ bit 63 (rdReg w0 valid) = true ∧ MgtWritesOff 0x800 valid ∧
    bits 31 0 (rdReg w1 s) = 0 ∧ bits 63 32 (rdReg w1 s) = 1 ∧ 1 ≤ schedPeriod s ∧ bits 63 32 (rdReg w1 up) ≤ bits 31 0 (rdReg w1 up) ∧
    schedPeriod s < bits 63 32 (rdReg w1 (wrReg w1 0xFFFFFFFF00000000 up)) ∧ 32767 < bits 31 16 (0x8000000080000000 : BitVec 64) ∧
    bits 31 16 (0x800000007FFF0000 : BitVec 64) = 32767 ∧
    (∀ q ∈ [0, 2, 3], bit 63 (gates q) = true ∧ (gates q).getLsbD (32 + q) = true) ∧
    (∀ q ∈ [1, 4, 5], bit 63 (gates q) = true ∧ ∀ r ∈ [0, 2, 3], (gates q).getLsbD (32 + r) = false) ∧
    gclCond (setBits 62 48 0 (gates 1)) ((epochAt s.gtime.toNat s).map (·.1)) ≠ .expired ∧
    gclCond (setBits 62 48 0 0x8000000200010001) ((epochAt past.gtime.toNat past).map (·.1)) = .expired := by decide +kernel

/-- Q1 of port 4 gated and open with its closing soon; a packet that waits in Q1 with the gate closed, and open. -/
theorem test_wit_gates :
    let k : EgPkt := { port := 4, q := 1, idx := 0, pkt := Packet.zero, since := 0, ready := 0, fixed := false
                       src := { inp := 128, idx := 0, up := 0, pkt := Packet.zero, budget := 2, decided := false, queue := 0, ser := 0, since := 0, till := 0, out := none, copy := 0, demoted := false } }
    let w (opens closes : Nat) (s : State) : State := wrReg (gclOff 4 0 0) 0x8000000200000000 (wrReg (gclOff 4 0 1) (BitVec.ofNat 64 (closes * 2 ^ 32 + opens)) s)
    let base := setRf (Reg.XBR_PORT + 8 * 4) 28 24 1 (timed 0 2)
    let s : State := w 0 1 { base with xbr := { up.xbr with egq := [k] } }
    let open_ : State := writeReg (Reg.LLT_PORT + 8 * 4) 0 s
    let t (s : State) : State := advanceTo (16 * rf Reg.LLT_SCHED 31 16 s) s
    gated 4 1 s = true ∧ scheduled s = true ∧ gateOpen 4 1 s.gtime.toNat s = true ∧ closingSoon 4 1 s.gtime.toNat s = true ∧
    s.xbr.egq.find? (fun e => e.port == 4 && e.q == 1) = some k ∧
    (let c : State := w 0 1 { s with gtime := 160 }
     gated 4 1 (t c) = true ∧ gateOpen 4 1 (t c).gtime.toNat (t c) = false) ∧ gateOpen 4 1 (t open_).gtime.toNat (t open_) = true ∧
    MgtWritesOff 0x800 up ∧ rf Reg.LLT_HIST_CFG 1 1 up = 1 ∧ rf Reg.LLT_HIST_CFG 1 1 (setRf Reg.LLT_HIST_CFG 1 1 0 up) = 0 := by decide +kernel

/-! ### SemaphoresAreGrantedInOrder, LockUnitKeepsOrder -/

/-- Semaphore 1,023 of every function: free, held by function 5, held by 0 with one that waits, with 0 waiting; of no function. -/
def semState (h : Option (BitVec 12)) (q : List (BitVec 12)) : State :=
  { writeReg (Reg.LCK_ALLOC + 8 * 1023) 0x10000000 up with sems := [(1023, ⟨h, q, 0, false, none⟩)] }

theorem test_wit_locks :
    [(none, []), (some 5, []), (some 0, []), (some 0, [7]), (some 5, [0])].all (fun (x : Option (BitVec 12) × List (BitVec 12)) =>
      let s := semState x.1 x.2
      decide (HostReaches 0 s) && !frozen 0 s && !unitFenced 136 s && semAllowed 1023 0 s && decide ((getSem 1023 s).holder = x.1) && decide ((getSem 1023 s).queue = x.2) &&
      decide ((getSem 1023 s).excused = none) && decide (MgtWrites 0x800 s) && running s) = true ∧
    (let s := setRf Reg.SNF_FENCED_UNIT 20 20 1 up
     unitFenced 136 s = true ∧ HostReaches 0 s ∧ frozen 0 s = false) ∧
    isCore 0 = false ∧ semWaiters (semState (some 5) []) < 4096 ∧ semAllowed 0 0 up = false ∧
    (getSem 1023 { semState none [] with sems := [(1023, ⟨none, [], 0, true, some 0⟩)] }).excused = some 0 ∧
    bit 10 (0x7FF : BitVec 32) = true ∧ bits 9 0 (0x7FF : BitVec 32) = 1023 ∧ bit 10 (0x3FF : BitVec 32) = false ∧
    (getSem 1023 (setRf Reg.LCK_FORCE 9 0 1023 (semState none []))).holder = none ∧
    (getSem 1023 (setRf Reg.LCK_FORCE 9 0 1023 (semState (some 5) []))).holder = some 5 := by decide +kernel

/-- All 4,096 waiter entries are in use. -/
theorem test_wit_waiters_full : 4096 ≤ semWaiters { up with sems := [(0, ⟨some 1, List.replicate 4096 2, 0, false, none⟩)] } := by
  simp [semWaiters, -List.reduceReplicate]

theorem test_wit_ordered : LocksOrdered up ∧ LocksOrdered (semState (some 5) [7]) := by
  constructor
  · intro n
    have h : getSem n up = getSem 0 State.reset := by simp [getSem, up, setRf, wrReg, State.reset, tget]
    rw [h]
    decide +kernel
  · intro n
    by_cases h : n = 1023
    · subst h; decide +kernel
    · have e : getSem n (semState (some 5) [7]) = getSem 0 State.reset := by
        simp only [getSem, semState, State.reset, tget]
        split <;> simp_all
      rw [e]; decide +kernel

/-! ### FaultsReact, UnitsAreRestoredAndInjected -/

/-- The block with no self-test left. -/
def tested : State := { up with snf := { up.snf with tests := [] } }

/-- Occurrences of a staging queue, of the TMU, of sources that are only captured, and of sources that strike their units; one in a unit
that is fenced. -/
theorem test_wit_faults :
    (∀ k ∈ [122, 132, 135, 164, 187], captureSource k = true ∧ canOccur k (.tile 0) tested = true) ∧
    (canOccur 0 (.tile 0) tested = true ∧ captureSource 0 = false) ∧ (canOccur 160 (.bank 255) tested = true ∧ captureSource 160 = false) ∧
    canOccur 0 (.tile 0) (setRf Reg.SNF_FENCED_TILE 0 0 1 tested) = false ∧ running tested = true ∧
    hasCompare 0 = true ∧ hasCompare 160 = false ∧ wordWrong 160 tested = (true, tested) ∧
    (∀ k ∈ [0, 79, 122, 135, 160], inReplay k (.tile 0) tested = false) ∧
    (let r : State := { tested with ltn := { tested.ltn with replaying := true, replayed := [0] } }
     canOccur 0 (.tile 0) r = true ∧ inReplay 0 (.tile 0) r = true) := by decide +kernel

/-- INJECT armed for source 0 in each MODE, with FULL and without, and for a staging queue. -/
theorem test_wit_injected :
    captureSource 0 = false ∧
    (let s := setRf Reg.FCU_INJECT 33 32 3 (setRf Reg.FCU_INJECT 31 31 1 (setRf Reg.FCU_INJECT 7 0 122 tested))
     canOccur 122 (.tile 0) s = true ∧ bit 31 (rdReg Reg.FCU_INJECT s) = true ∧ bits 7 0 (rdReg Reg.FCU_INJECT s) = 122 ∧
     bits 33 32 (rdReg Reg.FCU_INJECT s) ≠ 1) ∧
    ∀ mode ∈ [1, 2, 3], ∀ full ∈ [0, 1],
      let s := setRf Reg.FCU_INJECT 34 34 full (setRf Reg.FCU_INJECT 33 32 mode (setRf Reg.FCU_INJECT 31 31 1 tested))
      let v := rdReg Reg.FCU_INJECT s
      canOccur 0 (.tile 0) s = true ∧ bit 31 v = true ∧ bits 7 0 v = 0 ∧ bits 33 32 v = mode ∧ bit 34 v = (full == 1) := by decide +kernel

/-- A spare core that waits to serve core 0; a unit being restarted; a scrub with one correction an hour too many, and as many as allowed. -/
theorem test_wit_spares_scrub :
    let on := setRf (Reg.CLK_DOM_STAT + 16) 33 33 1 tested
    let s : State := { on with snf := { on.snf with spares := [(.core 128, 0, 16)], restarting := [116] } }
    let allowed := nz (bits 31 16 (rdReg Reg.SNF_SCRUB up))
    s.snf.spares.find? (fun x => x.1 == .core 128) = some (.core 128, 0, 16) ∧ domOn (unitDomain (.core 128)) s = true ∧ 116 ∈ s.snf.restarting ∧
    (BitVec.ofNat 32 allowed).toNat ≤ allowed ∧
    allowed < (BitVec.ofNat 32 (allowed + 1)).toNat := by decide +kernel

/-- SNF_CTRL: busy; written without GO; GO for a unit that does not exist, one not fenced, one fenced, one fenced in a domain kept off. -/
theorem test_wit_restore :
    let busy := setRf Reg.SNF_CTRL 31 31 1 tested
    let going (v : BitVec 64) (s : State) : State :=
      setRf Reg.SNF_CTRL 33 32 0 (setRf Reg.SNF_CTRL 31 31 1 (setRf Reg.SNF_CTRL 15 0 (bits 15 0 v) (setRf Reg.SNF_CTRL 26 24 (bits 26 24 v) s)))
    let port : BitVec 64 := 0x82000000
    let fenced := setRf Reg.SNF_FENCED_PORT 0 0 1 tested
    MgtWrites 0x800 tested ∧ rf Reg.SNF_CTRL 31 31 busy = 1 ∧ rf Reg.SNF_CTRL 31 31 tested ≠ 1 ∧ bit 31 (0 : BitVec 64) = false ∧ bit 31 port = true ∧
    ctrlUnit (rdReg Reg.SNF_CTRL (going 0x87000000 tested)) = none ∧ (ctrlUnit (rdReg Reg.SNF_CTRL (going port tested))).isSome = true ∧
    (ctrlUnit (rdReg Reg.SNF_CTRL (going port tested))).any (fun u => !isFenced u (going port tested)) = true ∧
    (ctrlUnit (rdReg Reg.SNF_CTRL (going port fenced))).any (fun u => isFenced u (going port fenced) &&
      stateKeeps (effState (going port fenced)) (unitDomain u) (going port fenced)) = true ∧
    (let p2 := setRf Reg.CLK_PSTATE 5 4 2 fenced
     (ctrlUnit (rdReg Reg.SNF_CTRL (going port p2))).any (fun u => isFenced u (going port p2) &&
      !stateKeeps (effState (going port p2)) (unitDomain u) (going port p2)) = true) := by decide +kernel

/-- FCU_INJECT refused, taken, and disarmed; the words of FCU_STICKY; the self-test of a unit under restore. -/
theorem test_wit_inject_write :
    let on := setRf Reg.CLK_DOM_STAT 1 1 1 tested
    let r : State := { on with snf := { on.snf with restore := some (.port 0) } }
    let v : BitVec 64 := 0x0000010100000000
    (∃ v : BitVec 64, bits 47 40 v ≠ 0 ∧ injectRefused v tested = true ∧ bit 30 v = false) ∧
    bits 47 40 v = 1 ∧ injectRefused v tested = false ∧ bit 30 v = false ∧ bits 47 40 (0 : BitVec 64) = 0 ∧
    r.snf.restore = some (.port 0) ∧ domOn (unitDomain (.port 0)) r = true := by
  refine ⟨⟨0x00000100000000FF, by decide +kernel⟩, by decide +kernel⟩

end Sys2Proof.Tests
end

