-- ==== Sys2Proof/Tests/WitTransport.lean ====
section
/-! SUPPORT. Witnesses: states and operands that meet the hypotheses of the statements about the transport. -/

namespace Sys2Proof.Tests

set_option Elab.async false

open Sys2Proof.Machine Sys2Proof.Claims

/-- A packet with its check code. -/
def crced (p : Packet) : Packet := { p with crc := e2eCrc p }

/-- A packet of an OP from the peer of queue pair 16. -/
def fromPeer9 (op : BitVec 8) (cls : BitVec 3) : Packet :=
  { Packet.zero with op := op, cls := cls, srcEp := 4, srcQpn := 9, dstQpn := 16 }

/-- What `Arrives` asks, as a value. -/
def arrives (p : Packet) (x : Qp) (s : State) : Bool :=
  decide (e2eCrc p = p.crc) && decide (p.dstQpn = 16) && decide (qpRange 16 s = some (0, 16)) && !frozen 0 s &&
  decide (getQp 16 s = some x) && accepting x && fromPeer x p

theorem arrives_of {p : Packet} {x : Qp} {s : State} (h : arrives p x s = true) : Arrives p 16 0 x s := by
  simp only [arrives, Bool.and_eq_true, decide_eq_true_eq, Bool.not_eq_true'] at h
  obtain ⟨⟨⟨⟨⟨⟨a, b⟩, c⟩, d⟩, e⟩, f⟩, g⟩ := h
  exact ⟨a, by simp [b], ⟨16, c⟩, d, e, f, g⟩

/-- An ACTIVE queue pair 16 of function 0. -/
def live : State := withQp (qpIn .active) host

/-! ### RequestsAreTakenOrRefused -/

/-- The WRITE, READ_REQ, ATOMIC_REQ and COUNTER_ADD packets that agree with themselves, at the ends of the reach of R137. -/
theorem test_wit_requests :
    let x : Qp := { qpIn .active with used := true, changed := true, counted := 1 }
    let body (op : BitVec 8) : List Byte := if op = 5 then List.replicate 21 0 ++ [2, 0, 0] else if op = 3 then List.replicate 8 0 else []
    [0x02, 0x03, 0x05, 0x07].all (fun op => [(255 : BitVec 32), BitVec.ofInt 32 (-(2 ^ 30))].all (fun psn =>
      let p := crced { fromPeer9 op 0 with psn := psn, payload := body op }
      let s := noteSource p (rxTake p live)
      decide (p.cls.toNat ≤ 1) && running live && !rxeDown (rxTake p live) && arrives p (qpIn .active) s && decide (InReach (qpIn .active) p) &&
      headerAgrees x p && decide (p.op = op))) = true := by decide +kernel

/-- A SEND packet received before, and one of a message with a bound receive. -/
theorem test_wit_sends :
    let old := crced { fromPeer9 1 0 with psn := 0xFFFFFFFF }
    let new := crced (fromPeer9 1 0)
    let r : Recv := { id := 0, fn := 0, arv := 1, pd := 5, qpn := 16, user := 0, matchBits := 0, ignore := 0, source := 0, laddr := 0, len := 0
                      parts := [], indirect := false, spent := false }
    let b : BoundRecv := { recv := r, qpn := 16, psn0 := 0, msgLen := 0, src := 4, immV := false, imm := 0, written := 0, seen := []
                           flushed := false, pulls := 0, skey := 0, sva := 0 }
    let s : State := { live with mte := { live.mte with bound := [b] } }
    arrives old (qpIn .active) (noteSource old live) = true ∧ psnReceived (qpIn .active) old.psn = true ∧ InReach (qpIn .active) old ∧
    headerAgrees { qpIn .active with used := true, changed := true, counted := 1 } old = true ∧ rxTake old live = live ∧ rxTake new s = s ∧
    arrives new (qpIn .active) (noteSource new s) = true ∧ psnReceived (qpIn .active) new.psn = false ∧ InReach (qpIn .active) new ∧
    headerAgrees { qpIn .active with used := true, changed := true, counted := 1 } new = true ∧ rxeDown s = false ∧
    (markCount 16 new (touched 16 (qpIn .active) (noteSource new s))).mte.bound.find?
      (fun b => b.qpn == 16 && b.psn0 == new.psn - BitVec.ofNat 32 (new.addr.toNat % 2 ^ 32 / 4096)) = some b := by decide +kernel

/-- A WRITE packet that says its message is shorter than it is. -/
theorem test_wit_disagrees :
    let x : Qp := { qpIn .active with used := true, changed := true, counted := 1 }
    let p := crced { fromPeer9 2 0 with payload := [1], payLen := 1 }
    rxTake p live = live ∧ arrives p (qpIn .active) (noteSource p live) = true ∧ InReach (qpIn .active) p ∧ headerAgrees x p = false ∧ rxeDown live = false := by
  decide +kernel

/-- A packet with a bad check code; one for no queue pair; for a frozen function; for a queue pair in ERROR or RESET; from elsewhere. -/
theorem test_wit_refused :
    let p := crced (fromPeer9 2 0)
    let bad : Packet := { p with crc := p.crc + 1 }
    let other := crced { fromPeer9 2 0 with dstQpn := 32 }
    let from5 := crced { fromPeer9 2 0 with srcEp := 5 }
    let frz := setRf Reg.SEC_FROZEN 0 0 1 live
    let s (st : QpState) : State := noteSource p (withQp (qpIn st) host)
    [bad, other, p, from5].all (fun p => decide (rxTake p live = live)) = true ∧ e2eCrc bad ≠ bad.crc ∧ e2eCrc other = other.crc ∧ qpRange other.dstQpn.toNat (noteSource other live) = none ∧
    e2eCrc p = p.crc ∧ qpRange p.dstQpn.toNat (noteSource p frz) = some (0, 16) ∧ frozen 0 (noteSource p frz) = true ∧
    frozen 0 (s .error) = false ∧ getQp 16 (s .error) = some (qpIn .error) ∧ getQp 16 (s .reset) = some (qpIn .reset) ∧
    p.dstIncarn = (qpIn .reset).par.incarn ∧ getQp 16 (noteSource from5 live) = some (qpIn .active) ∧ e2eCrc from5 = from5.crc ∧
    accepting (qpIn .active) = true ∧ fromPeer (qpIn .active) from5 = false ∧ rxeDown frz = false := by decide +kernel

/-! ### ResponsesAreTaken -/

/-- A packet sent with PSN 0 and 1 outstanding. -/
def txPkt : TxPkt := { pkt := Packet.zero, left := [0, 1], sentAt := 0, charge := 4096, half1 := false }

/-- A message of two packets, sent. -/
def txMsg (k : TxKind) : TxMsg :=
  { kind := k, ref := none, recv := 0, msn := 0, psn0 := 0, npsn := 2, len := 4098, raddr := 0, rkey := 0, opx := 0, parts := [⟨0xFF03, 0, 4098⟩]
    inline := [], immV := false, imm := 0, notify := false, sentPsns := 2, placed := 0, pkts := [txPkt], lastAt := 0 }

def qpWith (ms : List TxMsg) : Qp := { qpIn .active with msgs := ms }

/-- An ACK that covers PSN 0 and one that covers nothing; a NAK of PSN 1 with each code; a READ_RESP and an ATOMIC_RESP of PSN 0. -/
theorem test_wit_acks :
    let x := qpWith [txMsg .send]
    let s := withQp x host
    let ack := crced { fromPeer9 0x10 2 with psn := 1, payload := List.replicate 32 0 }
    let none_ := crced { fromPeer9 0x10 2 with psn := 0, payload := List.replicate 32 0 }
    rxTake ack s = s ∧ rxTake none_ s = s ∧ rxeDown s = false ∧ running s = true ∧ arrives ack x s = true ∧ ¬ack.cls.toNat ≤ 1 ∧ txMsg .send ∈ x.msgs ∧ txPkt ∈ (txMsg .send).pkts ∧
    0 ∈ txPkt.left ∧ ackCovers ack 0 = true ∧
    arrives none_ x s = true ∧ ackCovers none_ 0 = false ∧ ackCovers none_ 1 = false ∧ x.msgs = [txMsg .send] ∧ (txMsg .send).pkts = [txPkt] ∧
    txPkt.left = [0, 1] ∧ waitsRelease (txMsg .send) = false := by decide +kernel

theorem test_wit_naks :
    let x := qpWith [txMsg .send]
    let s := withQp x host
    [0x0D, 0x0E, 0x0F, 0x80, 0x81].all (fun (code : Nat) =>
      let p := crced { fromPeer9 0x11 2 with psn := 1, opx := BitVec.ofNat 64 (code * 2 ^ 56) }
      decide (rxTake p s = s) && arrives p x s && decide (¬p.cls.toNat ≤ 1) && decide (nakOwner { x with used := true, changed := true } p.psn = some (txMsg .send)) &&
      decide (p.opx.toNat / 2 ^ 56 = code)) = true := by decide +kernel

theorem test_wit_data_responses :
    let r := qpWith [txMsg .read]
    let a := qpWith [{ txMsg .atomic with npsn := 1 }]
    let p := crced { fromPeer9 0x04 2 with msgLen := 4098, opx := 4096, psn := 1, payload := [7, 7] }
    let q := crced { fromPeer9 0x06 2 with psn := 0, payload := List.replicate 8 0 }
    rxTake p (withQp r host) = withQp r host ∧ rxTake q (withQp a host) = withQp a host ∧ arrives p r (withQp r host) = true ∧ ownerOf r p.psn = some (txMsg .read) ∧ respAgrees (txMsg .read) p = true ∧ ¬p.cls.toNat ≤ 1 ∧
    arrives q a (withQp a host) = true ∧ ownerOf a q.psn = some { txMsg .atomic with npsn := 1 } ∧ q.addr = 0 ∧ ¬q.cls.toNat ≤ 1 := by
  decide +kernel

/-- The first and last OP of every undefined range, the last with a good check code. -/
theorem test_wit_undefined_ops :
    [0x26, 0x2F, 0x32, 0x37, 0x42, 0x4F, 0x50, 0xFF].all (fun (op : BitVec 8) =>
      let p := crced { Packet.zero with op := op }
      !opKnown p.op.toNat && decide (e2eCrc p = p.crc)) = true := by decide +kernel

/-! ### TransmissionAndItsTimers -/

/-- An ACK owed since 0; a packet unacknowledged since 0, with no retry made and with the last; a back-off of PSN 1. -/
theorem test_wit_transport_timers :
    let a : Qp := { qpIn .active with ackFirst := some ⟨5, 0, 0⟩ }
    let m := txMsg .send
    let x (n : Nat) : Qp := { qpWith [m] with retries := n }
    let b : Qp := { qpWith [m] with backoff := [(1, 20)] }
    let s (n : Nat) : State := withQp (x n) host
    let u (n : Nat) : State := advanceTo (nsPoint (rtoOf (getDest 0 (x n).par.peerEp (s n)) (x n).retries (s n))) (s n)
    getQp 16 (withQp a host) = some a ∧
    (∀ n ∈ [0, 1], getQp 16 (s n) = some (x n) ∧ oldestSent (x n) (s n) = some 0 ∧ oldestMsg (x n) (s n) = some m ∧
      frozen (qpFn 16 (u n)) (u n) = false ∧ qpFn 16 (s n) / 256 = 0) ∧
    (x 0).retries + 1 ≤ (x 0).par.retryLimit.toNat ∧ (x 1).par.retryLimit.toNat < (x 1).retries + 1 ∧
    getQp 16 (withQp b host) = some b ∧ waitsRelease m = false ∧
    (let v := advanceTo 20 (putQp 16 { b with backoff := [] } (withQp b host))
     frozen (qpFn 16 v) v = false) := by decide +kernel

/-- The TXE, the RXE and the MTE in service and fenced. -/
theorem test_wit_units_down :
    let fenced (n : Nat) : State := setRf Reg.SNF_FENCED_UNIT (n - 116) (n - 116) 1 host
    txeDown host = false ∧ rxeDown host = false ∧ unitFenced 133 host = false ∧ txeDown (fenced 128) = true ∧ rxeDown (fenced 130) = true ∧
    unitFenced 133 (fenced 133) = true := by decide +kernel

/-- Eight queue pairs more whose packets of 4,096 bytes fill HTX of attachment 0. -/
def htxFull (m : TxMsg) (s : State) : State :=
  let x : Qp := { qpWith [m] with built := some (0, []) }
  { s with qpc := { s.qpc with qps := s.qpc.qps ++ (List.range 8).map (fun k => (17 + k, x)) } }

/-- A SEND to be sent that needs data and one of INLINE data that does not; a destination; an announced SEND that waits. -/
theorem test_wit_transmit :
    let m : TxMsg := { txMsg .send with sentPsns := 0, pkts := [] }
    let i : TxMsg := { m with inline := [1, 2], len := 2, npsn := 1, parts := [] }
    let w : TxMsg := { txMsg .announce with sentPsns := 1, pkts := [], npsn := 1 }
    let s (m : TxMsg) : State := writeReg Reg.XBR_CHIP 0x80000001 (withQp (qpWith [m]) host)
    let t := putDest 0 4 (newDest 4 host) host
    [m, i].all (fun m => decide (getQp 16 (s m) = some (qpWith [m])) && !unitFenced 128 (s m) && !unitFenced 126 (s m) &&
      txOpen (qpWith [m]) (s m) && !frozen (qpFn 16 (s m)) (s m) && decide (nextMsg (s m) (qpWith [m]).msgs 0 = some (0, m)) &&
      mayStart (qpWith [m]) 0 m && running (s m)) = true ∧
    needsData m = true ∧ needsData i = false ∧ htxRoom 16 0 m (s m) = true ∧ htxRoom 16 0 m (htxFull m (s m)) = false ∧
    txOpen (qpWith [m]) (htxFull m (s m)) = true ∧ nextMsg (htxFull m (s m)) (qpWith [m]).msgs 0 = some (0, m) ∧ (qpWith [m]).built = none ∧ (qpWith [m]).building = none ∧
    getDest 0 4 t = some (newDest 4 host) ∧
    (liveMsgs (qpWith [w]) (s w)).find? (fun m => waitsRelease m && m.psn0 == 0) = some w := by decide +kernel

/-! ### DataAndAtomicsComplete -/

theorem test_wit_placement :
    let p : Placing := { qpn := 16, pkt := fromPeer9 2 0, kind := .write, serial := 3, half1 := false, since := 0, ser := 9 }
    let s : State := { live with rxe := { live.rxe with placing := [p] } }
    running s = true ∧ s.rxe.placing.find? (fun a => a.qpn == 16 && a.pkt.psn == 0 && (a.kind == .readResp) == false) = some p := by
  decide +kernel

/-- The data of a packet of 4,096 bytes; the answer to a READ_REQ; a copy of one byte; an atomic update of the last word of the window. -/
theorem test_wit_data :
    let m : TxMsg := { txMsg .send with sentPsns := 0, pkts := [] }
    let x : Qp := { qpWith [m] with building := some (0, 5) }
    let s := withQp x host
    let req : Packet := { fromPeer9 3 0 with payload := leBytes 4 0 ++ leBytes 4 1 }
    let r : RespJob := { qpn := 16, resp := fromPeer9 4 2, req := req, serial := 3 }
    let t : State := { live with rxe := { live.rxe with resps := [r] } }
    getQp 16 s = some x ∧ buildingMsg x 0 s = some m ∧ pieceLen m = 4096 ∧ running s = true ∧
    t.rxe.resps.find? (fun a => a.qpn == 16 && a.resp.psn == 0) = some r ∧ r.req.psn = 0 ∧ reqLen r.req = 1 := by decide +kernel

theorem test_wit_copy :
    let v : Recv := { id := 0, fn := 0, arv := 1, pd := 5, qpn := 16, user := 0, matchBits := 0, ignore := 0, source := 0, laddr := 0, len := 1
                      parts := [⟨0xFF03, 0, 1⟩], indirect := false, spent := false }
    let u : Unexp := { fn := 0, arv := 1, pd := 5, qpn := 16, psn0 := 0, src := 4, m := 0, msgLen := 2, immV := false, imm := 0, announce := false
                       sva := 0, skey := 0, pieces := [0], complete := true, eligible := true, order := 0, bound := some v }
    let s : State := { live with mte := { live.mte with unexp := [u] } }
    copying 16 0 s = some (u, v) ∧ min u.msgLen v.len = 1 ∧ s.xlt.waiting = [] ∧ running s = true := by decide +kernel

theorem test_wit_atomic_word :
    let j : AtomJob := { kind := .counterAdd 16 (fromPeer9 7 0) 0, fn := 0, bus := 0xFFFFFFFFF8, serial := 3, reading := true, pcie := false, barred := false }
    let s : State := { live with rxe := { live.rxe with atoms := [j] } }
    let mine (a : AtomJob) : Bool := a.reading && a.fn == 0 && wordOf a.bus == wordOf 0xFFFFFFFFF8
    s.rxe.atoms.find? mine = some j ∧
    (let e : AtomResult := { qpn := 16, incarn := 0, psn := 7, old := 0, since := 0 }
     ({ live with rxe := { live.rxe with results := [e] } }).rxe.results.find? (fun e => e.qpn == 16 && e.psn == 7) = some e) ∧
    frozen 0 (withRxe (fun e => { e with atoms := dropFirst mine e.atoms }) s) = false ∧
    ({ j with barred := true }).barred = true ∧
    running s = true := by decide +kernel

end Sys2Proof.Tests
end

