-- ==== Sys2Proof/Tests/WitUnits.lean ====
section
/-! SUPPORT. Witnesses: states and operands that meet the hypotheses of the statements about power, security, debug, counters, the host
interface, start-up and the whole block. -/

namespace Sys2Proof.Tests

set_option Elab.async false

open Sys2Proof.Machine Sys2Proof.Claims

/-! ### DomainsAndSupplies, PowerStatesAreTaken -/

/-- A domain that is on and not wanted, one that is off and wanted (alone, and with four that ramp), and one that ramps. -/
theorem test_wit_domains_follow :
    let want := setRf (Reg.LNK_CTRL + 8 * 0) 0 0 1 up
    let on := setRf Reg.CLK_DOM_STAT 1 1 1 up
    let ramp (l : List Nat) (s : State) : State := { s with clk := { s.clk with ramping := l } }
    (domOn 1 on = true ∧ domWanted 1 on = false ∧ running on = true) ∧
    (∀ l ∈ [[], [2, 3, 4], [2, 3, 4, 5]], domOn 1 (ramp l want) = false ∧ domWanted 1 (ramp l want) = true ∧ 1 ∉ (ramp l want).clk.ramping ∧
      mustWait 1 (ramp l want) = false) ∧
    (domWanted 1 (ramp [1] want) = true ∧ 1 ∈ (ramp [1] want).clk.ramping ∧ domWanted 1 (ramp [1] up) = false) := by decide +kernel

/-- Islands of every kind of unit that run, one of a tile that is fenced, and one whose domain is off. -/
theorem test_wit_supplies :
    MgtWrites 0x800 up ∧ running up = true ∧ (∀ i ∈ [0, 31, 288, 312, 348, 355, 356, 370, 371, 387], islandRuns i up = true) ∧
    islandRuns 0 (setRf Reg.SNF_FENCED_TILE 0 0 1 up) = false ∧ islandRuns 304 up = false ∧ islandRuns 32 up = false := by decide +kernel

/-- Crossings that are shut, of a unit that restarts, of one whose island is in its snapshot's pause, and of a domain that is off, for a write
by management and by a function; a thermal trip that has come, and P3. -/
theorem test_wit_crossings :
    let off (k : Nat) : State := { up with snf := { up.snf with restarting := [k] } }
    let snap : State := { up with ltn := { up.ltn with todo := [356] } }
    let p3 : State := { up with clk := { up.clk with off := true } }
    let tripped : State := { up with clk := { up.clk with trip := some 0 } }
    (∀ k ∈ [118, 123, 125, 126, 133, 134, 136, 137, 138], crossingShut k (off k) = true) ∧ crossingShut 123 snap = true ∧
    (∀ k ∈ [0, 48, 123], crossingShut k up = false) ∧ crossingShut 0 (wrReg (Reg.CLK_DOM_STAT + 16) 0 up) = true ∧
    MgtWritesOff 0x800 (off 136) ∧ secReg Reg.LCK_FORCE = false ∧ (0x800 : BitVec 12) ≠ 0x801 ∧
    (let h : State := { host with snf := { host.snf with restarting := [125, 126, 133, 123] } }
     HostWrites 0 h ∧ ∀ k ∈ [125, 126, 133, 123], crossingShut k h = true) ∧
    up.clk.trip = none ∧ tripped.clk.trip ≠ none ∧ p3.clk.off = true ∧ p3.clk.testEn = false ∧ p3.clk.brown = [] := by decide +kernel

/-- A GO while one is in progress, to the present state, while a core is halted, to P2 that is not quiet and that is, and from P2 to P1. -/
theorem test_wit_power :
    let asked (n : Nat) (s : State) : State := setRf Reg.CLK_PSTATE 11 10 0 (setRf Reg.CLK_PSTATE 1 0 n s)
    let busy := setRf Reg.CLK_PSTATE 9 9 1 up
    let p2 := setRf Reg.CLK_PSTATE 5 4 2 up
    let halted := setRf Reg.SEC_STATE 9 9 1 up
    let loud := oneEntry 1 0 up
    MgtWrites 0x800 up ∧ rf Reg.CLK_PSTATE 9 9 busy = 1 ∧ rf Reg.CLK_PSTATE 9 9 up ≠ 1 ∧ powerState up = 0 ∧
    rf Reg.SEC_STATE 9 9 (asked 1 halted) = 1 ∧ quiet (asked 2 up) = true ∧ quiet (asked 2 loud) = false ∧
    rf Reg.SEC_STATE 9 9 (asked 2 up) ≠ 1 ∧ rf Reg.SEC_CMD 16 16 (asked 2 up) ≠ 1 ∧ powerState p2 = 2 ∧ rf Reg.CLK_PSTATE 9 9 p2 ≠ 1 ∧
    MgtWrites 0x800 p2 := by decide +kernel

/-- The end of a step of a path that goes on, of one that ends, and of the path to P3 with and without an operation of the flash. -/
theorem test_wit_transitions :
    let s (t : PTrans) (ops : List XOp) : State := { up with clk := { up.clk with trans := some t }, mgt := { up.mgt with xops := ops } }
    running (s ⟨1, [0, 1]⟩ []) = true ∧ (s ⟨1, [0, 1]⟩ []).clk.trans = some ⟨1, [0, 1]⟩ ∧ (s ⟨1, [1]⟩ []).clk.trans = some ⟨1, [1]⟩ ∧
    domainsReady (s ⟨1, [1]⟩ []) = true ∧ domainsReady (setRf (Reg.LNK_CTRL + 8 * 0) 0 0 1 (s ⟨0, [0]⟩ [])) = false ∧
    (s ⟨3, [3]⟩ []).sec.job = none ∧
    (s ⟨3, [3]⟩ []).clk.trans = some ⟨3, [3]⟩ ∧ (s ⟨3, [3]⟩ []).mgt.xops = [] ∧ (s ⟨3, [3]⟩ [.erase 0]).mgt.xops ≠ [] := by decide +kernel

/-! ### SecurityCommandsRun, DebugPortAndFreezes -/

/-- On a blank device: PROVISION and NONCE that run, DEBUG_LOWER with a good and a bad argument, DEBUG_UNLOCK that is not authorised, and
ADD_OWNER_KEY that is not permitted; a command that runs, with its end before and after now. -/
theorem test_wit_security :
    let t (op : Nat) : State := setRf Reg.SEC_CMD 7 0 op up
    SecWrites 0x800 up ∧ running up = true ∧ (10 : BitVec 12).toNat < 0x400 ∧
    (∀ op ∈ [1, 8, 10], secPermitted op (t op) = true ∧ authOk op (t op) = true ∧ secBad op (t op) = false) ∧
    (let bad := setRf Reg.SEC_CMD 7 0 8 (putSecBuf (List.replicate 32 0 ++ [2]) up)
     secPermitted 8 bad = true ∧ secBad 8 bad = true) ∧
    (let low := setRf Reg.SEC_CMD 7 0 7 (putSecBuf [0, 1] (setRf Reg.SEC_STATE 1 0 0 up))
     secPermitted 7 low = true ∧ secBad 7 low = false ∧ authOk 7 low = false) ∧
    secPermitted 2 (t 2) = false ∧ rf Reg.SEC_CMD 16 16 up ≠ 1 ∧ rf Reg.SEC_CMD 16 16 (setRf Reg.SEC_CMD 16 16 1 up) = 1 ∧
    (∀ due ∈ [up.now, up.now + 1], let s : State := { up with sec := { up.sec with job := some ⟨1, 5, due⟩ } }
      s.sec.job = some ⟨1, 5, due⟩ ∧ (due ≤ s.now ∨ s.now < due)) := by decide +kernel

theorem test_wit_debug_port :
    let pub := setRf Reg.SEC_STATE 1 0 0 up
    let run := setRf Reg.SEC_STATE 1 0 2 up
    let down := run
    debugLevel (jtagOther pub) = 0 ∧ debugLevel (jtagOther run) = 2 ∧ unitFenced 140 (jtagOther run) = false ∧ running run = true ∧
    blockOff (0x08000000 / 8 * 8) (jtagOther run) = false ∧ powerState (jtagOther run) = 0 ∧ rf Reg.CLK_PSTATE 9 9 (jtagOther run) = 0 ∧
    quiet (jtagOther run) = true ∧ (∀ p < 128, adminUp p (jtagOther down) = false) := by decide +kernel

/-- A frozen function and one that is not; accesses that freeze it, by a write and by a read, and one that does not. -/
theorem test_wit_freezes :
    let frz := setRf Reg.SEC_FROZEN 0 0 1 up
    SecWrites 0x800 frz ∧ frozen 0 frz = true ∧ frozen 0 up = false ∧ 0x3FF < bits 11 0 ((0x400 : BitVec 32).setWidth 64) ∧ HostWrites 0 up ∧
    (windowCause 0 0x08000000 true up).any (fun c => c.2 != 2) = true ∧ (windowCause 0 0x08000000 false up).any (fun c => c.2 != 2) = true ∧
    windowCause 0 0 false up = none ∧ secReg 0x08120000 = true ∧ secReg 0x08129000 = false ∧
    (let own := wrReg Reg.EVC_PAGE_EN 0x1000 up
     pageMisread 0 0x04000200 own = true ∧ pageMisread 0 0x040001F8 own = false) := by decide +kernel

/-! ### CountersAndRecording -/

theorem test_wit_counters :
    let going := setRf Reg.LTN_CTRL 6 6 1 (setRf Reg.LTN_CTRL 4 4 1 up)
    let s : State := { up with ltn := { up.ltn with todo := [0, 1] } }
    let one : State := { up with ltn := { up.ltn with todo := [0] } }
    let r : State := { up with ltn := { up.ltn with replaying := true } }
    MgtWrites 0x800 up ∧ (1535 : BitVec 11).toNat < 1536 ∧ 1536 ≤ (1536 : BitVec 11).toNat ∧ (23 : BitVec 5).toNat < 24 ∧
    0x3FF < bits 11 0 (0x400 : BitVec 64) ∧ bits 11 0 (0x3FF : BitVec 64) ≤ 0x3FF ∧
    bits 12 0 (0x13FF : BitVec 64) ≠ rf (Reg.EVC_PAGE_EN + 8 * 23) 12 0 up ∧ bits 12 0 (0 : BitVec 64) = rf (Reg.EVC_PAGE_EN + 8 * 23) 12 0 up ∧
    startRefused up = true ∧ startRefused (setRf Reg.LTN_CTRL 1 0 1 up) = false ∧ (⟨0, 0, []⟩ : LtnFrame).words.length ≤ 8184 ∧
    (let sel := wrReg Reg.LTN_SEL 1 up
     (selected sel).filter (fun i => islandOn i sel) = 0 :: []) ∧
    evcRefused 0 0 up = false ∧ rf Reg.LTN_CTRL 6 6 up = 0 ∧ rf Reg.LTN_CTRL 6 6 going = 1 ∧ rf Reg.LTN_CTRL 4 4 going = 1 ∧
    s.ltn.todo = 0 :: [1] ∧ one.ltn.todo = 0 :: [] ∧ rf Reg.LTN_CTRL 7 7 going = 0 ∧
    rf Reg.LTN_CTRL 7 7 (setRf Reg.LTN_CTRL 7 7 1 going) ≠ 0 ∧ r.ltn.replaying = true ∧ running r = true := by decide +kernel

/-! ### HostInterfaceCommands -/

theorem test_wit_hif :
    let cfg (c : FnCfg) : State := { up with hif := { up.hif with cfg := [(0, c)] } }
    let hot := cfg { FnCfg.reset with d3hot := true }
    let priv := setRf Reg.HIF_MGTPRIV 0 0 1 up
    (((tget hot.hif.cfg 0).getD FnCfg.reset).d3hot = true ∧ ((tget up.hif.cfg 0).getD FnCfg.reset).d3hot = false) ∧
    (6 : BitVec 3).toNat % 2 = 0 ∧ (7 : BitVec 3).toNat % 2 = 1 ∧ MgtWrites 0x800 up ∧ winBad 0x4B = true ∧ winBad 0x4C = false ∧
    bit 0 (0 : BitVec 32) = false ∧ bit 0 (1 : BitVec 32) = true ∧ MgtWrites 0 priv ∧ (0 : BitVec 12) ≠ 0x800 ∧
    rf Reg.HIF_MGTPRIV 0 0 up ≠ 1 ∧ MgtWrites 0x801 (setRf Reg.SEC_STATE 1 0 2 up) ∧ HostWrites 0 up ∧ presented 0 up = true ∧ presented 1 up = false ∧
    readFor (.flush 7) { up with xlt := { up.xlt with flushes := [(7, .drain ⟨0, 0, 0, 0⟩)] } } = some 768 ∧ readFor (.flush 7) up = none := by
  decide +kernel

/-- PERST_N released: within the second of R488 and past it; a link that trains; a link that is up in P2 with L1 enabled. -/
theorem test_wit_hif_links :
    let p (e : List Nat) : State := { up with mgt := { up.mgt with perst := [(3, 0)], expired := e } }
    let l := setRf (Reg.HIF_LINK + 8 * 0) 2 2 1 (p [])
    let q := setRf (Reg.HIF_LINK + 8 * 0) 15 15 1 (setRf Reg.CLK_PSTATE 5 4 2 up)
    let q2 : State := { q with hif := { q.hif with cfg := [(0, { FnCfg.reset with l1Enable := true })] } }
    tget (p []).mgt.perst 3 = some 0 ∧ 3 ∉ (advanceTo 16000000000 (p [])).mgt.expired ∧ 3 ∈ (advanceTo 16000000000 (p [3])).mgt.expired ∧
    linkTrains 0 { l with mgt := { l.mgt with perst := [(0, 0)] } } = true ∧ linkTrains 7 up = false ∧
    powerState q2 = 2 ∧ rf (Reg.HIF_LINK + 8 * 0) 15 15 q2 = 1 ∧ (linkCfg 0 0 q2).l1Enable = true ∧ q2.xlt.flushes = [] ∧ running q2 = true ∧
    l0pFits 0 6 16 l = false ∧ auxPresent 0 up = false ∧ auxPresent 0 (setRf (Reg.HIF_LINK + 8 * 1) 3 3 1 up) = true ∧ reaches 0 up = true ∧
    (let z : State := { up with hif := { up.hif with cfg := [(0, { FnCfg.reset with l0pEnable := true })], lanes := [(0, 16)] } }
     let z := setRf (Reg.HIF_LINK + 8 * 0) 15 14 3 (setRf (Reg.HIF_LINK + 8 * 0) 13 11 6 z)
     linkTrains 0 z = true ∧ l0pFits 0 6 4 z = true ∧ l0pFits 0 6 3 z = false ∧ running z = true) := by decide +kernel

/-! ### StartUpCommands -/

theorem test_wit_start_up :
    let b : State := { up with clk := { up.clk with brown := [0] } }
    let t : State := { up with snf := { up.snf with tests := [.tile 0] } }
    let x (r : Option Nat) : State := { up with mgt := { up.mgt with xops := [.erase 0, .program 0 [1]], restart := r } }
    let rec_ := setRf Reg.MGT_BOOT 3 2 2 up
    up.clk.brown = [] ∧ bit 9 (0x1FF : BitVec 10) = false ∧ bit 9 (0x200 : BitVec 10) = true ∧ b.clk.brown ≠ [] ∧ b.clk.testEn = false ∧
    MgtWrites 0x800 up ∧ (0x800 : BitVec 12) ≠ 0x801 ∧ up.mgt.xops = [] ∧ (x none).mgt.xops = .erase 0 :: [.program 0 [1]] ∧
    (x none).mgt.restart = none ∧ SUnit.tile 0 ∈ t.snf.tests ∧ rf Reg.MGT_BOOT 3 2 rec_ = 2 ∧ rf Reg.MGT_STRAP 6 6 rec_ = 0 ∧
    rf Reg.MGT_BOOT 3 2 up ≠ 2 ∧ running (x none) = true := by decide +kernel

/-! ### Whole-block rules -/

/-- A plain register, found, with the first and the last byte enabled. -/
theorem test_wit_register_write :
    plainRegs.all (fun o => (regFind false o).any (fun d => plainRegs.contains d.base && d.bytes == 8)) = true ∧ MgtWrites 0x800 up ∧
    (0x800 : BitVec 12) ≠ 0x801 ∧ (1 : BitVec 8) ≠ 0 ∧ (0x80 : BitVec 8) ≠ 0 := by decide +kernel

/-- An access that passes its check: function 0 reads under a key of descriptor 255, which maps a page that is cached. -/
theorem test_wit_checked_access :
    let d : Desc := { va := 0, size := 0x1000, gen := 3, pd := 5, btr := 0, state := .valid, modeBtr := false, rights := 31 }
    let l : Leaf := { dom := 5, va := 0, log2 := 12, bus := 0x7000, read := true, write := true }
    let s : State := { host with xlt := { host.xlt with descs := [(descKey 0 255, d)], xtc := [l] } }
    let a : Access := { fn := 0, dom := none, parts := [⟨0xFF03, 0xFF8, 8⟩], rights := 1, rd := true, wr := false, testsOnly := false, purpose := .hxfer 1 }
    (match checkParts a [] s a.parts [] with
      | .pass g => decide (g = [⟨0x7FF8, 8⟩])
      | _ => false) = true := by decide +kernel

/-- A block held in P3, with a command in its queue that does not wake it. -/
theorem test_wit_held :
    let s : State := { up with clk := { up.clk with off := true }, pending := [.epochStart] }
    running s = false ∧ (∀ c ∈ s.pending, wakes c = false) ∧ (∀ c ∈ s.pending.head?, reachesHeld c = false) ∧
    (match step s with
      | .next t => t == { s with pending := [] }
      | _ => false) = true := by decide +kernel

theorem test_wit_safe : Safe State.reset := by decide

theorem test_wit_encodes : taperEncode (.tRet 0) ≠ none ∧ ∃ i, taperDecode 0 ((taperEncode (.tRet 0)).getD 0) = some i := by
  exact ⟨by decide, ⟨.tRet 0, by decide⟩⟩

end Sys2Proof.Tests
end

/-! ## Register writes: from REGISTER_WRITE down to the bits that a register keeps (R7, R471, R473) -/

namespace Sys2Proof.Machine

open Sys2Proof.Claims

/-! ### The form of an effect, and who may write -/

/-- The form in which `Does` asks for the answer of a command whose meaning is an `act`. -/
theorem act_running {f : State → State} {s : State} (hr : running s = true) : act f s = .next (goOn (f s)) := by
  simp [act, goOn, hr]

theorem hostWr_taken {f src : Nat} {inP2 : Bool} {k : State → State} {s : State} (h : HostWrites f s) :
    hostWr f src inP2 k s = k s := by
  obtain ⟨⟨hreach, hready⟩, hp2, hfrozen⟩ := h
  simp [hostWr, hreach, hready, hp2, hfrozen]

theorem mgtWr_taken {m : Master} {k : State → State} {s : State} (h : MgtWrites m s) : mgtWr m k s = k s := by
  obtain ⟨rfl, hfence, hhalt⟩ | ⟨rfl, hlevel⟩ | ⟨rfl, hhost, hpriv⟩ := h
  · simp [mgtWr, hfence, hhalt]
  · simp [mgtWr, hlevel]
  · simp [mgtWr, hostWr_taken hhost, hpriv]

theorem exec_registerWrite (m : Master) (off : BitVec 28) (be : BitVec 8) (w : WriteData) (s : State) :
    exec (.registerWrite m off be w) s = execRegisterWrite m off be w s := by
  rfl

/-- Offsets of management space outside the SEC: REGISTER_WRITE by a master other than JTAG is the block's own write. -/
theorem exec_registerWrite_mgmt {m : Master} {off : BitVec 28} {be : BitVec 8} {v : BitVec 64} {s : State}
    (hr : running s = true) (hm : MgtWrites m s) (hj : m ≠ 0x801) (hlo : 0x08000000 ≤ off.toNat)
    (hsec : secReg off.toNat = false) :
    exec (.registerWrite m off be (.data v)) s = .next (goOn (mgmtWrite m off.toNat be v s)) := by
  rw [exec_registerWrite, execRegisterWrite, act_running hr]
  have hjtag : (m == 0x801) = false := beq_eq_false_iff_ne.mpr hj
  simp only [Nat.not_lt.mpr hlo, hsec, hjtag, mgtWr_taken hm, if_false, Bool.and_false, Bool.false_and, Bool.false_eq_true]

/-! ### Offsets -/

theorem blockSrc_align (off : Nat) : blockSrc (off / 8 * 8) = blockSrc off := by
  have hblock : off / 8 * 8 / 0x10000 = off / 0x10000 := by omega
  have hcol : off / 8 * 8 < 0x08098000 ↔ off < 0x08098000 := by omega
  simp only [blockSrc, hblock, hcol]

/-- An access and the aligned 8-byte part that it touches are for the same unit. -/
theorem regUnit_align (off : Nat) : regUnit (off / 8 * 8) = regUnit off := by
  have hlo (a : Nat) (h : a % 8 = 0) : a ≤ off / 8 * 8 ↔ a ≤ off := by omega
  have hhi (a : Nat) (h : a % 8 = 0) : off / 8 * 8 < a ↔ off < a := by omega
  have hwin (a : Nat) (h : a % 8 = 0) : (off / 8 * 8 - a) / 32 = (off - a) / 32 := by omega
  have hlink (a : Nat) (h : a % 8 = 0) : (off / 8 * 8 - a) / 16 = (off - a) / 16 := by omega
  simp only [regUnit, blockSrc_align, Bool.and_eq_true, decide_eq_true_eq, hlo Reg.HIF_WIN rfl, hlo Reg.HIF_LINK rfl,
    hhi (Reg.HIF_WIN + 32 * 1024) rfl, hhi (Reg.HIF_LINK + 64) rfl, hwin Reg.HIF_WIN rfl, hlink Reg.HIF_LINK rfl]

theorem regFind_mem {perFn : Bool} {off : Nat} {d : RegDef} (h : regFind perFn off = some d) : d ∈ regDefs :=
  List.mem_of_find?_eq_some h

theorem regFind_holds {perFn : Bool} {off : Nat} {d : RegDef} (h : regFind perFn off = some d) :
    d.base ≤ off ∧ off < d.base + d.stride * d.count := by
  have := List.find?_some h
  simp only [RegDef.holds, Bool.and_eq_true, decide_eq_true_eq] at this
  obtain ⟨-, ⟨hlo, hhi⟩, -⟩ := this
  exact ⟨hlo, hhi⟩

/-! ### The bits that byte enables and access codes leave -/

/-- The bytes below byte `n` that byte enables select: `beMask`'s sum, as a recursion on the number of bytes. -/
def enabledBytes (be : BitVec 8) : Nat → Nat
  | 0 => 0
  | n + 1 => 2 ^ (8 * n) * (if be.getLsbD n then 255 else 0) + enabledBytes be n

theorem beMask_eq (be : BitVec 8) : beMask be = BitVec.ofNat 64 (enabledBytes be 8) := by
  have fold : ∀ n, (List.range n).foldl (fun a k => if bit k be then a + 255 * 2 ^ (8 * k) else a) 0 = enabledBytes be n := by
    intro n
    induction n with
    | zero => rfl
    | succ n ih =>
      rw [List.range_succ, List.foldl_append, ih, enabledBytes, List.foldl_cons, List.foldl_nil, bit_eq_getLsbD]
      split <;> omega
  rw [beMask, fold]

theorem enabledBytes_lt (be : BitVec 8) (n : Nat) : enabledBytes be n < 2 ^ (8 * n) := by
  induction n with
  | zero => simp [enabledBytes]
  | succ n ih =>
    have : 2 ^ (8 * (n + 1)) = 2 ^ (8 * n) * 256 := by rw [Nat.mul_succ, Nat.pow_add]
    rw [enabledBytes]
    split <;> omega

theorem testBit_enabledBytes (be : BitVec 8) (n i : Nat) (h : i < 8 * n) :
    (enabledBytes be n).testBit i = be.getLsbD (i / 8) := by
  induction n with
  | zero => omega
  | succ n ih =>
    rw [enabledBytes, Nat.testBit_two_pow_mul_add _ (enabledBytes_lt be n)]
    split
    next hlow => exact ih hlow
    next htop =>
      have hbyte : i / 8 = n := by omega
      have hin : i - 8 * n < 8 := by omega
      have hones : Nat.testBit 255 (i - 8 * n) = true := by
        rw [show 255 = 2 ^ 8 - 1 from rfl, Nat.testBit_two_pow_sub_one]; simpa using hin
      rw [hbyte]
      split <;> simp [*]

/-- Byte enables select a bit when they select its byte. -/
theorem getLsbD_beMask (be : BitVec 8) {i : Nat} (h : i < 64) : (beMask be).getLsbD i = be.getLsbD (i / 8) := by
  rw [beMask_eq, BitVec.getLsbD_ofNat, testBit_enabledBytes be 8 i h]
  simp [h]

theorem getLsbD_merged (d : RegDef) (be : BitVec 8) (old v : BitVec 64) {i : Nat} (h : i < 64) :
    (merged d be old v).getLsbD i =
      (v.getLsbD i && be.getLsbD (i / 8) || old.getLsbD i && !be.getLsbD (i / 8) && (accMask [.rw] d.fields).getLsbD i) := by
  simp only [merged, BitVec.getLsbD_or, BitVec.getLsbD_and, BitVec.getLsbD_not, getLsbD_beMask be h, h, decide_true, Bool.true_and]

/-- One bit of what a write of all 8 bytes leaves in a register (R7). -/
theorem getLsbD_applyWrite_whole (d : RegDef) (old v : BitVec 64) {i : Nat} (h : i < 64) :
    (applyWrite d 255 old v).getLsbD i =
      (((old.getLsbD i && !(accMask [.rw] d.fields).getLsbD i) || (v.getLsbD i && (accMask [.rw] d.fields).getLsbD i)) &&
          !((accMask [.w1c] d.fields).getLsbD i && v.getLsbD i) ||
        (accMask [.w1s] d.fields).getLsbD i && v.getLsbD i) := by
  have hon : (255 : BitVec 8).getLsbD (i / 8) = true := by
    have : i / 8 < 8 := by omega
    interval_cases i / 8 <;> rfl
  simp only [applyWrite, BitVec.getLsbD_or, BitVec.getLsbD_and, BitVec.getLsbD_not, getLsbD_beMask _ h, hon, h, decide_true,
    Bool.true_and, Bool.and_true]

/-! ### Registers without a rule of their own -/

/-- The register arrays to whose writes `writeOne` gives a rule of their own, beside the staging queues and the blocks of `ruledBlocks`. -/
def ruledRegs : List Nat :=
  [Reg.XLT_BTR_ALLOC, Reg.QPC_RANGE, Reg.LNK_ADV, Reg.LNK_CTRL, Reg.HIF_WIN, Reg.HIF_MGTPRIV, Reg.MBX_ALLOC, Reg.TPR_UNFREEZE, Reg.XBR_CHIP,
    Reg.LLT_GCL, Reg.LLT_HIST_CFG, Reg.TMU_CTRL, Reg.LCK_ALLOC, Reg.LCK_FORCE, Reg.FCU_INJECT, Reg.FCU_CFG, Reg.SNF_CTRL, Reg.CLK_PSTATE,
    Reg.CLK_P1_KEEP, Reg.SEC_CMD, Reg.SEC_UNFREEZE, Reg.EVC_CTL, Reg.EVC_PAGE_EN, Reg.LTN_CTRL, Reg.LTN_SEL, Reg.LTN_SPILL]

/-- The blocks of 64 KiB to whose other registers `writeOne` gives a rule: XBR, LLT and MGT. -/
def ruledBlocks : List Nat := [0x80B, 0x80C, 0x816]

theorem writeOne_unruled {m : Master} {d : RegDef} {off : Nat} {be : BitVec 8} {v : BitVec 64} {s : State}
    (hbase : d.base ∉ ruledRegs) (hstg : stgOfReg d.base = none) (hblock : off / 0x10000 ∉ ruledBlocks) :
    writeOne m d off be v s = writeReg off v s := by
  simp only [ruledRegs, ruledBlocks, List.mem_cons, List.not_mem_nil, or_false, not_or] at hbase hblock
  simp [writeOne, hbase, hstg, hblock]

theorem regRead_unruled {off : Nat} {d : RegDef} {s : State} (hf : regFind false off = some d)
    (hbase : d.base ∉ [Reg.LLT_HIST, Reg.XBR_PORT]) (hstg : stgOfReg d.base = none) (hwo : accMask [.wo] d.fields = 0) :
    regRead off s = rdReg off s := by
  simp only [List.mem_cons, List.not_mem_nil, or_false, not_or] at hbase
  simp only [regRead, hf, hstg, hwo, beq_iff_eq, hbase.1, hbase.2, if_false]
  exact BitVec.and_allOnes

theorem mgmtGo_wide {m : Master} {off : Nat} {be : BitVec 8} {v : BitVec 64} {d : RegDef} {s : State}
    (hf : regFind false (off / 8 * 8) = some d) (h8 : d.bytes = 8) :
    mgmtGo m off be v s = mgmtReg m (off / 8 * 8) be v s := by
  simp [mgmtGo, hf, h8]

theorem mgmtReg_found {m : Master} {o : Nat} {be : BitVec 8} {v : BitVec 64} {d : RegDef} {s : State}
    (hf : regFind false o = some d) (hbe : be ≠ 0) :
    mgmtReg m o be v s = writeOne m d o be (merged d be (regRead o s) v) s := by
  rw [mgmtReg, if_neg (by simpa using hbe), hf]

theorem writeReg_found {o : Nat} {v : BitVec 64} {d : RegDef} {s : State} (hf : regFind false o = some d) :
    writeReg o v s = wrReg o (applyWrite d 255 (rdReg o s) v) s := by
  simp [writeReg, hf]

/-! ### The plain registers -/

/-- What a write with byte enables leaves in a plain register that holds `old`. -/
def writtenWord (d : RegDef) (be : BitVec 8) (old v : BitVec 64) : BitVec 64 := applyWrite d 255 old (merged d be old v)

theorem plainRegs_unruled : ∀ b ∈ plainRegs, b ∉ ruledRegs ∧ b ∉ [Reg.LLT_HIST, Reg.XBR_PORT] ∧ stgOfReg b = none := by
  decide

theorem plainRegs_place : ∀ b ∈ plainRegs, b / 0x10000 ∈ [0x806, 0x809, 0x80D, 0x80F] ∧ b % 0x10000 < 0x1000 := by
  decide

theorem plainRegs_shape : ∀ d ∈ regDefs, d.base ∈ plainRegs → d.stride * d.count ≤ 24 ∧ accMask [.wo] d.fields = 0 := by
  decide +kernel

/-- Every plain register lies in the LNK, the COL, the TMU or the FCU. -/
theorem plain_block {o : Nat} {d : RegDef} (hf : regFind false o = some d) (hp : d.base ∈ plainRegs) :
    o / 0x10000 ∈ [0x806, 0x809, 0x80D, 0x80F] := by
  obtain ⟨hlo, hhi⟩ := regFind_holds hf
  obtain ⟨hlen, -⟩ := plainRegs_shape d (regFind_mem hf) hp
  obtain ⟨hblock, hlow⟩ := plainRegs_place d.base hp
  rwa [show o / 0x10000 = d.base / 0x10000 by omega]

/-- A plain register takes what its access codes leave, and nothing else changes. -/
theorem mgmtGo_plain {m : Master} {off : Nat} {be : BitVec 8} {v : BitVec 64} {d : RegDef} {s : State}
    (hf : regFind false (off / 8 * 8) = some d) (hp : d.base ∈ plainRegs) (h8 : d.bytes = 8) (hbe : be ≠ 0) :
    mgmtGo m off be v s = wrReg (off / 8 * 8) (writtenWord d be (rdReg (off / 8 * 8) s) v) s := by
  obtain ⟨hrule, hview, hstg⟩ := plainRegs_unruled d.base hp
  obtain ⟨-, hwo⟩ := plainRegs_shape d (regFind_mem hf) hp
  have hblock : off / 8 * 8 / 0x10000 ∉ ruledBlocks := by
    have := plain_block hf hp
    simp only [ruledBlocks, List.mem_cons, List.not_mem_nil, or_false] at this ⊢
    omega
  rw [mgmtGo_wide hf h8, mgmtReg_found hf hbe, regRead_unruled hf hview hstg hwo, writeOne_unruled hrule hstg hblock,
    writeReg_found hf, writtenWord]

/-- REGISTER_WRITE of a plain register, by a master that may make it and with the crossing open. -/
theorem does_registerWrite_plain {m : Master} {off : BitVec 28} {be : BitVec 8} {v : BitVec 64} {d : RegDef} {s : State}
    (hm : MgtWrites m s) (hj : m ≠ 0x801) (hopen : Open (regUnit (off.toNat / 8 * 8)) s)
    (hf : regFind false (off.toNat / 8 * 8) = some d) (hp : d.base ∈ plainRegs) (h8 : d.bytes = 8) (hbe : be ≠ 0) :
    Does (.registerWrite m off be (.data v)) s
      (wrReg (off.toNat / 8 * 8) (writtenWord d be (rdReg (off.toNat / 8 * 8) s) v) s) := by
  intro hr
  have hblock := plain_block hf hp
  simp only [List.mem_cons, List.not_mem_nil, or_false] at hblock
  have hsec : secReg off.toNat = false := by simp [secReg]; omega
  rw [regUnit_align] at hopen
  rw [exec_registerWrite_mgmt hr hm hj (by omega) hsec, mgmtWrite, cross_open hopen, mgmtGo_plain hf hp h8 hbe]

/-! ### One bit of the written word, by its access code (R7) -/

section AccessCodes

variable {d : RegDef} (be : BitVec 8) (old v : BitVec 64) {i : Nat} (hi : i < 64)
include hi

theorem writtenWord_rw (hrw : (accMask [.rw] d.fields).getLsbD i = true) (hc : (accMask [.w1c] d.fields).getLsbD i = false)
    (hs : (accMask [.w1s] d.fields).getLsbD i = false) :
    (writtenWord d be old v).getLsbD i = if be.getLsbD (i / 8) then v.getLsbD i else old.getLsbD i := by
  rw [writtenWord, getLsbD_applyWrite_whole d _ _ hi, getLsbD_merged d be _ _ hi, hrw, hc, hs]
  cases be.getLsbD (i / 8) <;> simp

theorem writtenWord_w1c (hc : (accMask [.w1c] d.fields).getLsbD i = true) (hrw : (accMask [.rw] d.fields).getLsbD i = false)
    (hs : (accMask [.w1s] d.fields).getLsbD i = false) :
    (writtenWord d be old v).getLsbD i = (old.getLsbD i && !(be.getLsbD (i / 8) && v.getLsbD i)) := by
  rw [writtenWord, getLsbD_applyWrite_whole d _ _ hi, getLsbD_merged d be _ _ hi, hrw, hc, hs]
  simp [Bool.and_comm]

theorem writtenWord_w1s (hs : (accMask [.w1s] d.fields).getLsbD i = true) (hrw : (accMask [.rw] d.fields).getLsbD i = false)
    (hc : (accMask [.w1c] d.fields).getLsbD i = false) :
    (writtenWord d be old v).getLsbD i = (old.getLsbD i || (be.getLsbD (i / 8) && v.getLsbD i)) := by
  rw [writtenWord, getLsbD_applyWrite_whole d _ _ hi, getLsbD_merged d be _ _ hi, hrw, hc, hs]
  simp [Bool.and_comm]

theorem writtenWord_kept (hrw : (accMask [.rw] d.fields).getLsbD i = false) (hc : (accMask [.w1c] d.fields).getLsbD i = false)
    (hs : (accMask [.w1s] d.fields).getLsbD i = false) :
    (writtenWord d be old v).getLsbD i = old.getLsbD i := by
  rw [writtenWord, getLsbD_applyWrite_whole d _ _ hi, hrw, hc, hs]
  simp

end AccessCodes

/-- Settles O55: the register takes `writtenWord`, whose bits follow their access codes. -/
theorem registerWritesFollowAccessCodes : Obligations.RegisterWritesFollowAccessCodes := by
  intro m off be v d s o hm hj hopen hf hp h8 hbe
  refine ⟨writtenWord d be (rdReg o s) v, does_registerWrite_plain hm hj hopen hf hp h8 hbe, fun i hi => ⟨?_, ?_, ?_, ?_⟩⟩
  · exact writtenWord_rw be (rdReg o s) v hi
  · exact writtenWord_w1c be (rdReg o s) v hi
  · exact writtenWord_w1s be (rdReg o s) v hi
  · exact writtenWord_kept be (rdReg o s) v hi

end Sys2Proof.Machine

/-! ## Route decisions: the packet at the head of an input VC and where it goes (R282, R286, R287, R294, R295, R299) -/

namespace Sys2Proof.Machine

open Sys2Proof.Claims

/-! ### The packet that is decided, and the State in which it is -/

/-- The State in which the switch core has begun packet `h` of an input (R165). -/
def headBegun (h : InPkt) (s : State) : State := advanceTo (begun h s).1.since (begun h s).2

/-- That State once the packet has left its input. -/
def headTaken (h : InPkt) (s : State) : State := withXbr (fun x => { x with inq := x.inq.erase h }) (headBegun h s)

theorem does_routeDecision {inp : Input} {idx : BitVec 5} {s t : State} (h : routeHead inp.toNat idx.toNat s = t) :
    Does (.routeDecision inp idx) s t := by
  intro hr
  change act (routeHead inp.toNat idx.toNat) s = .next (goOn t)
  rw [act_running hr, h]

/-- One in the acknowledgement lane of a COL VC comes first (R294). -/
theorem nextIn_of_lane {inp idx : Nat} {s : State} {j : InPkt} (hlo : 18 ≤ idx) (hhi : idx < 24)
    (hj : inputHead inp (idx + 8) s = some j) : nextIn inp idx s = some j := by
  simp [nextIn, hlo, hhi, hj]

/-! ### Waiting at the ingress (R15, R276) -/

theorem ingressWaits_of_no_chip {h : InPkt} {s : State} (hin : 128 ≤ h.inp) (hc : chipValid s = false) (hop : h.pkt.op ≠ 0x40) :
    ingressWaits h s = true := by
  simp only [ingressWaits, hin, hc, bne_iff_ne.mpr hop, decide_true, Bool.not_false, Bool.and_self, Bool.true_or]

theorem ingressWaits_of_no_cell {h : InPkt} {s : State} (hf : cellsFree h s = false) : ingressWaits h s = true := by
  simp [ingressWaits, hf]

theorem ingressWaits_eq_false {h : InPkt} {s : State} (hgo : h.inp < 128 ∨ chipValid s = true ∨ h.pkt.op = 0x40)
    (hf : cellsFree h s = true) : ingressWaits h s = false := by
  rcases hgo with hport | hchip | hlocal
  · simp [ingressWaits, hf, Nat.not_le.mpr hport]
  · simp [ingressWaits, hf, hchip]
  · simp [ingressWaits, hf, hlocal]

/-! ### What `routeHead` does with the packet -/

section Head

variable {inp idx : Nat} {s : State} {h : InPkt} (hn : nextIn inp idx s = some h)
include hn

theorem routeHead_waits (hw : ingressWaits h s = true) : routeHead inp idx s = s := by
  simp [routeHead, hn, hw]

variable (hw : ingressWaits h s = false)
include hw

theorem routeHead_own {out : Nat} (ho : (begun h s).1.out = some out) :
    routeHead inp idx s = ownOut out (begun h s).1 (headTaken h s) := by
  simp [routeHead, hn, hw, ho, headTaken, headBegun]

variable (ho : (begun h s).1.out = none)
include ho

theorem routeHead_cadd_taken (hop : (begun h s).1.pkt.op = 0x24) {u : State}
    (hc : caddCome inp (begun h s).1.pkt (headTaken h s) = (true, u)) :
    routeHead inp idx s = creditBack (begun h s).1 u := by
  unfold headTaken headBegun at hc
  simp [routeHead, hn, hw, ho, hop, hc]

theorem routeHead_cadd_waits (hop : (begun h s).1.pkt.op = 0x24) {u : State}
    (hc : caddCome inp (begun h s).1.pkt (headTaken h s) = (false, u)) : routeHead inp idx s = headBegun h s := by
  unfold headTaken headBegun at hc
  simp [routeHead, hn, hw, ho, hop, hc, headBegun]

theorem routeHead_caddAck (hop : (begun h s).1.pkt.op = 0x25) :
    routeHead inp idx s = deliver (begun h s).1 (headTaken h s) := by
  simp [routeHead, hn, hw, ho, hop, headTaken, headBegun]

theorem routeHead_routed (hcadd : (begun h s).1.pkt.op ≠ 0x24) (hack : (begun h s).1.pkt.op ≠ 0x25) :
    routeHead inp idx s =
      noteRate (headTaken h s).xbr.egq.length (begun h s).1 (routePacket (begun h s).1 (headTaken h s)) := by
  simp only [routeHead, hn, hw, ho, beq_false_of_ne hcadd, beq_false_of_ne hack, Bool.false_eq_true, if_false, headTaken, headBegun]

end Head

/-! ### What the device's own units have given a port (R296, R299) -/

section Own

variable {i : InPkt} {out : Nat} {t : State}

theorem ownOut_local (hop : i.pkt.op = 0x40) (hup : portUp out t = true) : ownOut out i t = enqueue i i.pkt out true t := by
  simp [ownOut, hop, hup]

theorem ownOut_unusable (hop : i.pkt.op ≠ 0x40) (hu : portUsable out t = false) : ownOut out i t = decideAgain false i t := by
  simp only [ownOut, beq_false_of_ne hop, hu, Bool.not_false, Bool.false_eq_true, if_false, if_true]

theorem ownOut_hop {q : Packet} (hop : i.pkt.op ≠ 0x40) (hu : portUsable out t = true) (hcls : i.pkt.cls ≠ 4)
    (hh : hopHeader i i.pkt out t = some q) : ownOut out i t = enqueue i q out true t := by
  simp only [ownOut, beq_false_of_ne hop, hu, beq_false_of_ne hcls, hh, Bool.not_true, Bool.false_and, Bool.false_eq_true, if_false]

end Own

/-! ### The decision for any other packet (R282 to R287, R295) -/

section Routed

variable {i : InPkt} {t u : State} {out : Nat} {q : Packet}

theorem routePacket_unscheduled (hcls : i.pkt.cls ≠ 4) : routePacket i t = routeOut i t := by
  simp only [routePacket, beq_false_of_ne hcls, Bool.false_and, Bool.false_eq_true, if_false]

theorem routePacket_here (hh : i.pkt.dstEp.toNat / 4 = chipId t) : routePacket i t = deliver i t := by
  simp [routePacket, routeOut, routePlain, hh]

theorem routeOut_port (hr : routePlain i t = (.port out q, u)) : routeOut i t = enqueue i q out false u := by
  simp [routeOut, hr]

theorem routeOut_unroutable (hr : routePlain i t = (.unroutable, u)) :
    routeOut i t = creditBack i (evcPulse 218 (inputTile i.inp) u) := by
  simp [routeOut, hr]

variable (hcls : i.pkt.cls = 4) (hh : ¬i.pkt.dstEp.toNat / 4 = chipId t)
include hcls hh

theorem routePacket_scheduled (hs : schRoute i t = some (out, q)) (ha : schTurnedAway out t = false) :
    routePacket i t = enqueue i q out false t := by
  simp [routePacket, hcls, hh, hs, ha]

theorem routePacket_demoted (hs : schRoute i t = none) :
    routePacket i t = routeOut i.demote (evcPulse 223 (bits 6 0 (schEntry i.pkt t)) t) := by
  simp [routePacket, hcls, hh, hs]

end Routed

/-- Settles O32: ROUTE_DECISION is `routeHead`, which leaves a waiting packet where it is, sends one that has its port by `ownOut`, and
decides any other by its OP, its destination and its class. -/
theorem routeDecisionsQueueOrDeliver : Obligations.RouteDecisionsQueueOrDeliver := by
  intro inp idx h out q s u hn i v t n row here
  refine ⟨fun hlo hhi j hj => ?lane, fun hin hchip hop => ?chip, fun hcell => ?cell, fun hgo hcell => ?goes⟩
  case lane => exact Option.some.inj (hn.symm.trans (nextIn_of_lane hlo hhi hj))
  case chip => exact does_routeDecision (routeHead_waits hn (ingressWaits_of_no_chip hin hchip hop))
  case cell => exact does_routeDecision (routeHead_waits hn (ingressWaits_of_no_cell hcell))
  case goes =>
    have hw : ingressWaits h s = false := ingressWaits_eq_false hgo hcell
    refine ⟨fun ho => ?own, fun ho => ⟨fun hop hc => ?taken, fun hop hc => ?waits, fun hop => ?ack, fun hcadd hack => ?routed⟩⟩
    case own =>
      have hhead := routeHead_own hn hw ho
      refine ⟨fun hop hup => ?_, fun hop hu => ?_, fun hop hu hcls hq => ?_⟩
      · exact does_routeDecision (hhead.trans (ownOut_local hop hup))
      · exact does_routeDecision (hhead.trans (ownOut_unusable hop hu))
      · exact does_routeDecision (hhead.trans (ownOut_hop hop hu hcls hq))
    case taken => exact does_routeDecision (routeHead_cadd_taken hn hw ho hop hc)
    case waits => exact does_routeDecision (routeHead_cadd_waits hn hw ho hop hc)
    case ack => exact does_routeDecision (routeHead_caddAck hn hw ho hop)
    case routed =>
      have hdoes {r : State} (hr : routePacket i t = r) : Does row s (noteRate n i r) :=
        does_routeDecision (hr ▸ routeHead_routed hn hw ho hcadd hack)
      refine ⟨fun hh => ?_, fun hcls hr => ?_, fun hcls hr => ?_, fun hcls hh hs ha => ?_, fun hcls hh hs => ?_⟩
      · exact hdoes (routePacket_here hh)
      · exact hdoes ((routePacket_unscheduled hcls).trans (routeOut_port hr))
      · exact hdoes ((routePacket_unscheduled hcls).trans (routeOut_unroutable hr))
      · exact hdoes (routePacket_scheduled hcls hh hs ha)
      · exact hdoes (routePacket_demoted hcls hh hs)

end Sys2Proof.Machine

/-! ## Command Rings: how an entry is issued and finishes (R31 to R41, R47) -/

namespace Sys2Proof.Machine

open Sys2Proof.Claims

/-! ### From a command's meaning to its effect -/

/-- A command whose meaning is an `act` does what the act's effect says. -/
theorem does_of_exec {i : Instr} {f : State → State} {s t : State} (he : exec i s = act f s) (h : f s = t) : Does i s t := by
  intro hr
  rw [he, act_running hr, h]

/-! ### Rings in the State -/

@[simp] theorem getRing_putRing_same (f r : Nat) (g : Ring) (s : State) : getRing f r (putRing f r g s) = some g :=
  tget_tset_same _ _ _

@[simp] theorem putRing_pages (f r : Nat) (g : Ring) (s : State) : (putRing f r g s).cmp.pages = s.cmp.pages := rfl
@[simp] theorem putRing_arvs (f r : Nat) (g : Ring) (s : State) : (putRing f r g s).cmp.arvs = s.cmp.arvs := rfl

theorem refEntry_ring {ref : EntryRef} {s : State} {g : Ring} {i : Nat} {x : Entry} (h : refEntry ref s = some (g, i, x)) :
    getRing ref.fn ref.ring s = some g := by
  unfold refEntry at h
  split at h
  next g' hg =>
    dsimp only at h
    split at h
    · split at h
      · cases h; exact hg
      · cases h
    · cases h
  next => cases h

/-- The entry at the head of a ring. -/
theorem refEntry_head {f r : Nat} {g : Ring} {x : Entry} {xs : List Entry} {s : State} (hg : getRing f r s = some g)
    (hx : g.entries = x :: xs) : refEntry ⟨f, r, g.uid, g.head⟩ s = some (g, 0, x) := by
  simp [refEntry, hg, hx]

/-! ### An entry that is marked issued -/

/-- All that `markIssued` can change is one ring that exists. -/
theorem markIssued_cases (ref : EntryRef) (s : State) :
    markIssued ref s = s ∨ ∃ g g', getRing ref.fn ref.ring s = some g ∧ markIssued ref s = putRing ref.fn ref.ring g' s := by
  unfold markIssued
  split
  next h => exact .inr ⟨_, _, refEntry_ring h, rfl⟩
  next => exact .inl rfl

/-- What a write of any ring leaves as it is, `markIssued` leaves as it is. -/
theorem markIssued_keeps {β : Type} (p : State → β) (hp : ∀ f r g s, p (putRing f r g s) = p s) (ref : EntryRef) (s : State) :
    p (markIssued ref s) = p s := by
  obtain h | ⟨_, _, _, h⟩ := markIssued_cases ref s
  · rw [h]
  · rw [h, hp]

@[simp] theorem markIssued_regs (ref : EntryRef) (s : State) : (markIssued ref s).regs = s.regs :=
  markIssued_keeps (·.regs) (fun _ _ _ _ => rfl) ref s
@[simp] theorem markIssued_qpc (ref : EntryRef) (s : State) : (markIssued ref s).qpc = s.qpc :=
  markIssued_keeps (·.qpc) (fun _ _ _ _ => rfl) ref s
@[simp] theorem markIssued_pages (ref : EntryRef) (s : State) : (markIssued ref s).cmp.pages = s.cmp.pages :=
  markIssued_keeps (·.cmp.pages) (fun _ _ _ _ => rfl) ref s
@[simp] theorem markIssued_arvs (ref : EntryRef) (s : State) : (markIssued ref s).cmp.arvs = s.cmp.arvs :=
  markIssued_keeps (·.cmp.arvs) (fun _ _ _ _ => rfl) ref s

/-- A write at a key that is listed keeps the keys. -/
theorem tset_keys {α : Type} {t : Tab α} {i : Nat} {y : α} (x : α) (h : tget t i = some y) :
    (tset t i x).map Prod.fst = t.map Prod.fst := by
  induction t with
  | nil => cases h
  | cons z t ih =>
    obtain ⟨k, v⟩ := z
    by_cases hk : k = i
    · simp [tset, hk]
    · by_cases hlt : i < k
      · simp [tget, hk, hlt] at h
      · simp only [tget, hk, hlt, beq_iff_eq, if_false] at h
        simp [tset, hk, hlt, ih h]

@[simp] theorem markIssued_ringKeys (ref : EntryRef) (s : State) :
    (markIssued ref s).cmp.rings.map Prod.fst = s.cmp.rings.map Prod.fst := by
  obtain h | ⟨_, _, hg, h⟩ := markIssued_cases ref s
  · rw [h]
  · rw [h]; exact tset_keys _ hg

theorem markIssued_head {f r : Nat} {g : Ring} {x : Entry} {xs : List Entry} {s : State} (hg : getRing f r s = some g)
    (hx : g.entries = x :: xs) :
    markIssued ⟨f, r, g.uid, g.head⟩ s =
      putRing f r { g with entries := { x with issued := true } :: xs, issuing := false, reading := none } s := by
  simp [markIssued, refEntry_head hg hx, hx, setAt]

/-- The only entry of a ring finishes with SUCCESS: its ownership word is written and the head passes it (R41, R47). -/
theorem finishEntry_alone {f r : Nat} {g : Ring} {x : Entry} {s : State} (hg : getRing f r s = some g) (hx : g.entries = [x])
    (hlive : x.result = none) :
    finishEntry ⟨f, r, g.uid, g.head⟩ St.success 0 s =
      putRing f r { g with head := g.head + 1, entries := [] }
        (ringWrite f (entryAddr g g.head) (leBytes 8 (finishedWord g.log2size g.head x.raw St.success 0)) s) := by
  simp [finishEntry, refEntry_head hg hx, hlive, hx, setAt, advanceHead, finishedPrefix]

/-! ### The entry that is issued next (R36) -/

theorem issuable_ring {f r : Nat} {ref : EntryRef} {e : BitVec 512} {s : State} (h : issuable f r s = some (ref, e)) :
    ∃ g, getRing f r s = some g ∧ ref = ⟨f, r, g.uid, ref.idx⟩ := by
  unfold issuable at h
  split at h
  next g hg =>
    split at h
    · split at h
      · dsimp only at h
        split at h
        · cases h; exact ⟨g, hg, rfl⟩
        · cases h
      · cases h
    · cases h
  next => cases h

/-- The entry that is issued next belongs to the ring that was asked. -/
theorem issueOf_ring {op f r : Nat} {ref : EntryRef} {e : BitVec 512} {s : State} (h : issueOf op f r s = some (ref, e)) :
    ∃ g, getRing f r s = some g ∧ ref = ⟨f, r, g.uid, ref.idx⟩ := by
  unfold issueOf at h
  split at h
  next hi =>
    split at h
    · cases h; exact issuable_ring hi
    · cases h
  next => cases h

theorem issueOf_fn {op f r : Nat} {ref : EntryRef} {e : BitVec 512} {s : State} (h : issueOf op f r s = some (ref, e)) :
    ref.fn = f := by
  obtain ⟨_, _, href⟩ := issueOf_ring h
  rw [href]

section Alone

variable {f r : Nat} {g : Ring} {s : State} (hg : getRing f r s = some g)
include hg

/-- An entry alone in a RUNNING ring has nothing to wait for. -/
theorem issueOf_alone {e : BitVec 512} (hrun : g.state = .running) (hf : frozen f s = false) (hi : g.issuing = false)
    (hx : g.entries = [⟨e, false, none⟩]) : issueOf (eOpcode e) f r s = some (⟨f, r, g.uid, g.head⟩, e) := by
  simp [issueOf, issuable, hg, hrun, hf, hi, hx, firstUnissued]

/-- A FENCE behind an entry that has been issued and has not gone is not issued (R36). -/
theorem issueOf_fence_behind {op : Nat} {x : Entry} {e : BitVec 512} (hx : g.entries = [x, ⟨e, false, none⟩])
    (hissued : x.issued = true) (hop : eOpcode e = 0x10) : issueOf op f r s = none := by
  simp [issueOf, issuable, hg, hx, firstUnissued, hissued, hop]

end Alone

theorem issueFree_next {op f r : Nat} {ref : EntryRef} {e : BitVec 512} {s : State} (h : issueOf op f r s = some (ref, e)) :
    issueFree op f r s = issueFinish ref St.success 0 s := by
  simp [issueFree, h]

theorem issueFree_none {op f r : Nat} {s : State} (h : issueOf op f r s = none) : issueFree op f r s = s := by
  simp [issueFree, h]

/-- An entry alone in its ring that is issued and finishes with SUCCESS at once. -/
theorem issueFinish_alone {f r : Nat} {g : Ring} {e : BitVec 512} {s : State} (hg : getRing f r s = some g)
    (hx : g.entries = [⟨e, false, none⟩]) :
    issueFinish ⟨f, r, g.uid, g.head⟩ St.success 0 s =
      putRing f r { g with head := g.head + 1, entries := [], issuing := false, reading := none }
        (ringWrite f (entryAddr g g.head) (leBytes 8 (finishedWord g.log2size g.head e St.success 0))
          (markIssued ⟨f, r, g.uid, g.head⟩ s)) := by
  have hg' : getRing f r (markIssued ⟨f, r, g.uid, g.head⟩ s) =
      some { g with entries := [⟨e, true, none⟩], issuing := false, reading := none } := by
    rw [markIssued_head hg hx, getRing_putRing_same]
  simpa only [issueFinish, entryAddr] using finishEntry_alone hg' rfl rfl

/-! ### Entries that name no queue pair (R33, R36, R194, R196, R261) -/

theorem nopAndFenceFinish : NopAndFenceFinish := by
  intro f r g e s hg hrun hf hi
  refine ⟨fun hx _ => ?alone, fun x hx hissued _ hop => ?behind⟩
  case alone =>
    have hfree {op : Nat} (hop : eOpcode e = op) :=
      (issueFree_next (hop ▸ issueOf_alone hg hrun hf hi hx)).trans (issueFinish_alone hg hx)
    exact ⟨fun hop => does_of_exec rfl (hfree hop), fun hop => does_of_exec rfl (hfree hop)⟩
  case behind => exact does_of_exec rfl (issueFree_none (issueOf_fence_behind hg hx hissued hop))

section Next

variable {f r : Nat} {ref : EntryRef} {e : BitVec 512} {s : State}

theorem waitCtrLook_issues {w : ReadResult} (hat : issueOf 0x11 f r s = some (ref, e)) (ha : (eLaddr e).toNat % 8 = 0) :
    waitCtrLook f r ref.idx w s = xltStart (counterAccess ref e false (.waitCtr ref w)) (markIssued ref s) := by
  obtain ⟨g, hg, href⟩ := issueOf_ring hat
  simp [waitCtrLook, hg, hat, ← href, ha]

theorem issueSignal_aligned (hat : issueOf 0x12 f r s = some (ref, e)) (ha : (eLaddr e).toNat % 8 = 0) :
    issueSignal f r s = xltStart (counterAccess ref e true (.signal ref)) (markIssued ref s) := by
  simp [issueSignal, hat, ha]

theorem issueSignal_misaligned (hat : issueOf 0x12 f r s = some (ref, e)) (ha : (eLaddr e).toNat % 8 ≠ 0) :
    issueSignal f r s = issueFinish ref St.misaligned 0 s := by
  simp [issueSignal, hat, ha]

theorem issueColStart_asks (hat : issueOf 0x20 f r s = some (ref, e)) (hcol : unitFenced 117 s = false)
    (hmbx : unitFenced 137 s = false) (hlo : 64 ≤ eLength e) (hhi : eLength e ≤ 65536) (h8 : eLength e % 8 = 0)
    (hroom : descRoom e s = true) : issueColStart f r s = askEntry ref (descAccess ref e) s := by
  simp [issueColStart, hat, hcol, hmbx, h8, hroom, Nat.not_lt.mpr hlo, Nat.not_lt.mpr hhi]

theorem issueInvoke_asks (hat : issueOf 0x28 f r s = some (ref, e)) (hlo : 0 < eLength e) (hhi : eLength e ≤ 65536)
    (h8 : eLength e % 8 = 0) (hx : bits 63 16 (eX64 e) = 0) (hroom : descRoom e s = true) :
    issueInvoke f r s = askEntry ref (descAccess ref e) s := by
  simp [issueInvoke, hat, h8, hx, hroom, Nat.not_lt.mpr hhi, Nat.ne_of_gt hlo]

theorem issueCollAbort_active {i : Nat} {x : ColInst} (hat : issueOf 0x21 f r s = some (ref, e))
    (hi : findInst (hostPort f) (hComm e) (hSeq e) s = some (i, x)) :
    issueCollAbort f r s = finishEntry ref St.success 0 (instAbort i Cd.aborted (markIssued ref s)) := by
  simp [issueCollAbort, hat, hi]

end Next

/-- A WAIT_CTR with a timeout that is issued and not finished finishes with WAIT_TIMEOUT (R33). -/
theorem does_waitCtrTimeout {f : Fn} {r : BitVec 12} {idx : BitVec 32} {g : Ring} {k : Nat} {x : Entry} {s : State}
    (hg : getRing f.toNat r.toNat s = some g) (hx : refEntry ⟨f.toNat, r.toNat, g.uid, idx⟩ s = some (g, k, x))
    (hissued : x.issued = true) (hlive : x.result = none) (hop : eOpcode x.raw = 0x11) (hlen : eLength x.raw ≠ 0) :
    Does (.waitCtrTimeout f r idx) s (finishEntry ⟨f.toNat, r.toNat, g.uid, idx⟩ St.waitTimeout 0 s) := by
  intro hr
  change execWaitCtrTimeout f r idx s = _
  rw [execWaitCtrTimeout, act_running hr]
  simp [hg, hx, hissued, hlive, hop, hlen]

theorem counterCollectiveAndTaperEntriesIssue : CounterCollectiveAndTaperEntriesIssue := by
  intro f r idx w ref e i x g k y s at_ desc word
  refine ⟨fun hat hidx ha => ?wait, fun hat ha => ?signal, fun hat ha => ?misaligned,
    fun hat hcol hmbx hlo hhi h8 hroom => ?colStart, fun hat hlo hhi h8 hx hroom => ?invoke, fun hat hi => ?abort,
    fun hg hy hissued hlive hop hlen => ?timeout⟩
  case wait => exact does_of_exec rfl (hidx ▸ waitCtrLook_issues hat ha)
  case signal => exact does_of_exec rfl (issueSignal_aligned hat ha)
  case misaligned => exact does_of_exec rfl (issueSignal_misaligned hat ha)
  case colStart => exact does_of_exec rfl (issueColStart_asks hat hcol hmbx hlo hhi h8 hroom)
  case invoke => exact does_of_exec rfl (issueInvoke_asks hat hlo hhi h8 hx hroom)
  case abort => exact does_of_exec rfl (issueCollAbort_active hat hi)
  case timeout => exact does_waitCtrTimeout hg hy hissued hlive hop hlen

/-- Settles O12: each of these entries is the one that its ring issues next, and its meaning is then one branch of its issue. -/
theorem entriesWithoutQueuePairsIssue : Obligations.EntriesWithoutQueuePairsIssue :=
  ⟨nopAndFenceFinish, counterCollectiveAndTaperEntriesIssue⟩

/-! ### Entries that name a queue pair (R34, R35, R115, R125, R375) -/

section Gate

variable {op f r : Nat} {post : Bool} {go : EntryRef → Nat → Qp → BitVec 512 → State → State} {ref : EntryRef} {e : BitVec 512}
  {s : State} (hat : issueOf op f r s = some (ref, e))
include hat

theorem issueQp_ok {x : Qp} (hq : qpGate f (eQpn e) post s = .ok x) : issueQp op post go f r s = go ref (eQpn e) x e s := by
  simp [issueQp, hat, hq]

theorem issueQp_status {st : BitVec 8} (hq : qpGate f (eQpn e) post s = .status st) :
    issueQp op post go f r s = issueFinish ref st 0 s := by
  simp [issueQp, hat, hq]

theorem issueQp_fetch (hq : qpGate f (eQpn e) post s = .fetch) (hnone : tget s.qpc.fetches (eQpn e) = none) :
    issueQp op post go f r s = startFetch (eQpn e) none s := by
  simp [issueQp, hat, hq, hnone]

end Gate

section Messages

variable {ref : EntryRef} {q : Nat} {x : Qp} {e : BitVec 512} {s : State}

theorem issueSend_inline (hin : eInline e = true) : issueSend ref q x e s = issueMsg ref q (sendMsg ref e []) s := by
  simp [issueSend, hin]

theorem issueWrite_inline (hin : eInline e = true) : issueWrite ref q x e s = issueMsg ref q (writeMsg ref e []) s := by
  simp [issueWrite, hin]

theorem issueRead_direct (hind : eIndirect e = false) : issueRead ref q x e s = issueMsg ref q (readMsg ref e (directPart e)) s := by
  simp [issueRead, hind]

theorem issuePostRecv_direct (hind : eIndirect e = false) : issuePostRecv ref q x e s = askRecv ref q x (directPart e) s := by
  simp [issuePostRecv, hind]

theorem issueAtomic_aligned (hr : (eRaddr e).toNat % 2 ^ bits 143 136 e = 0) (hl : (eLaddr e).toNat % 16 = 0) :
    issueAtomic ref q x e s = issueMsg ref q (atomicMsg ref e) s := by
  simp [issueAtomic, hr, hl]

theorem issueCounterAdd_aligned (hr : (eRaddr e).toNat % 8 = 0) :
    issueCounterAdd ref q x e s = issueMsg ref q (counterAddMsg ref e) s := by
  simp [issueCounterAdd, hr]

variable (hplain : eInline e = false ∧ eIndirect e = false)
include hplain

theorem issueSend_eager (hlen : eLength e ≠ 0) (ht : rndvThresh s = 0 ∨ eLength e ≤ rndvThresh s) :
    issueSend ref q x e s = issueMsg ref q (sendMsg ref e (directPart e)) s := by
  obtain ⟨hin, hind⟩ := hplain
  have hsmall : ¬(rndvThresh s ≠ 0 ∧ rndvThresh s < eLength e) := by omega
  simp [issueSend, hin, hind, hlen, hsmall]

theorem issueSend_rendezvous (ht : rndvThresh s ≠ 0) (hlen : rndvThresh s < eLength e) :
    issueSend ref q x e s =
      askEntry ref (entryAccess ref q x (directPart e) 0b00101 true false true (.sendTest ref)) s := by
  obtain ⟨hin, hind⟩ := hplain
  simp [issueSend, hin, hind, ht, hlen]

theorem issueWrite_data (hlen : eLength e ≠ 0) :
    issueWrite ref q x e s = issueMsg ref q (writeMsg ref e (directPart e)) s := by
  obtain ⟨hin, hind⟩ := hplain
  simp [issueWrite, hin, hind, hlen]

theorem issueWrite_empty (hlen : eLength e = 0) : issueWrite ref q x e s = askZero ref q x e s := by
  obtain ⟨hin, hind⟩ := hplain
  simp [issueWrite, hin, hind, hlen]

end Messages

/-- The commands that issue an entry that names a queue pair, with the entry's opcode and whether it posts a receive. -/
def qpEntries (f : Fn) (r : BitVec 12) : List (Instr × Nat × Bool) :=
  [(.send f r, 0x01, false), (.write f r, 0x02, false), (.read f r, 0x03, false), (.atomic f r, 0x04, false),
    (.counterAdd f r, 0x05, false), (.postRecv f r, 0x06, true)]

/-- They differ in what follows the judgement of the queue pair alone. -/
theorem exec_qpEntries {f : Fn} {r : BitVec 12} (s : State) :
    ∀ i ∈ qpEntries f r, ∃ go, exec i.1 s = act (issueQp i.2.1 i.2.2 go f.toNat r.toNat) s := by
  simp only [qpEntries, List.forall_mem_cons, List.not_mem_nil, false_implies, implies_true, and_true]
  exact ⟨⟨issueSend, rfl⟩, ⟨issueWrite, rfl⟩, ⟨issueRead, rfl⟩, ⟨issueAtomic, rfl⟩, ⟨issueCounterAdd, rfl⟩,
    ⟨issuePostRecv, rfl⟩⟩

/-- Settles O13: the queue pair is judged first (`issueQp`); where it takes the entry, the entry's flags and length choose between the
message and a check. -/
theorem queuePairEntriesIssue : Obligations.QueuePairEntriesIssue := by
  intro f r ref e x s q at_ direct queued asked plain_
  refine ⟨fun ⟨hat, hq⟩ hp hlen ht => ?eager, fun ⟨hat, hq⟩ hp ht hlen => ?rendezvous, fun ⟨hat, hq⟩ hin => ?sendInline,
    fun ⟨hat, hq⟩ hp hlen => ?write, fun ⟨hat, hq⟩ hin => ?writeInline, fun ⟨hat, hq⟩ hp hlen => ?writeEmpty,
    fun ⟨hat, hq⟩ hind => ?read, fun ⟨hat, hq⟩ hr hl => ?atomic, fun ⟨hat, hq⟩ hr => ?counterAdd,
    fun ⟨hat, hq⟩ hind => ?postRecv, fun i hi hat => ?away⟩
  case eager => exact does_of_exec rfl ((issueQp_ok hat hq).trans (issueSend_eager hp hlen ht))
  case rendezvous => exact does_of_exec rfl ((issueQp_ok hat hq).trans (issueSend_rendezvous hp ht hlen))
  case sendInline => exact does_of_exec rfl ((issueQp_ok hat hq).trans (issueSend_inline hin))
  case write => exact does_of_exec rfl ((issueQp_ok hat hq).trans (issueWrite_data hp hlen))
  case writeInline => exact does_of_exec rfl ((issueQp_ok hat hq).trans (issueWrite_inline hin))
  case writeEmpty => exact does_of_exec rfl ((issueQp_ok hat hq).trans (issueWrite_empty hp hlen))
  case read => exact does_of_exec rfl ((issueQp_ok hat hq).trans (issueRead_direct hind))
  case atomic => exact does_of_exec rfl ((issueQp_ok hat hq).trans (issueAtomic_aligned hr hl))
  case counterAdd => exact does_of_exec rfl ((issueQp_ok hat hq).trans (issueCounterAdd_aligned hr))
  case postRecv => exact does_of_exec rfl ((issueQp_ok hat hq).trans (issuePostRecv_direct hind))
  case away =>
    obtain ⟨go, he⟩ := exec_qpEntries s i hi
    refine ⟨fun st hst => ?status, fun hfetch hnone => ?fetch⟩
    case status => exact does_of_exec he (issueQp_status hat hst)
    case fetch => exact does_of_exec he (issueQp_fetch hat hfetch hnone)

end Sys2Proof.Machine

/-! ## Command Rings: doorbells, fetches and mirrors (R40 to R50, R64, R65) -/

namespace Sys2Proof.Machine

open Sys2Proof.Claims

/-! ### Values in host memory -/

@[simp] theorem fitBytes_leBytes (k v : Nat) : fitBytes k (leBytes k v) = leBytes k v := by
  simpa using fitBytes_self (leBytes k v)

/-- A bit vector that is read back from its bytes, at any width. -/
theorem ofBytes_leBytes {n k : Nat} (m : Nat) (v : BitVec n) (h : n ≤ 8 * k) : ofBytes m (leBytes k v.toNat) = v.setWidth m := by
  have hv : v.toNat < 256 ^ k := calc
    v.toNat < 2 ^ n := v.isLt
    _ ≤ 2 ^ (8 * k) := Nat.pow_le_pow_right (by decide) h
    _ = 256 ^ k := by rw [Nat.pow_mul]
  rw [ofBytes, leNat_leBytes, Nat.mod_eq_of_lt hv, BitVec.ofNat_toNat]

theorem entry_ofBytes_leBytes (e : BitVec 512) : ofBytes 512 (leBytes 64 e.toNat) = e := by
  rw [ofBytes_leBytes 512 e (by decide), BitVec.setWidth_eq]

/-! ### Doorbells (R42 to R45, R64, R65) -/

theorem doorbellForm_eq {off : BitVec 12} {n : BitVec 4} {v : BitVec 64} (hoff : off = 0)
    (hn : n = 4 ∨ n = 8 ∧ v.toNat < 2 ^ 32) : doorbellForm off n v = some (v.extractLsb' 0 32) := by
  subst hoff
  obtain rfl | ⟨rfl, hv⟩ := hn
  · simp [doorbellForm]
  · have hhigh : bits 63 32 v = 0 := by simp only [bits]; omega
    simp [doorbellForm, hhigh]

section Doorbell

variable {f : Fn} {page off : BitVec 12} {n : BitVec 4} {v : BitVec 64} {id : Nat} {t : BitVec 32} {s : State}
  (hw : HostWrites f.toNat s)
include hw

theorem doorbell_ring (huse : tget s.cmp.pages (ringKey f.toNat page.toNat) = some (.ring id))
    (hform : doorbellForm off n v = some t) : doorbell f page off n v s = ringTail f.toNat page.toNat id t s := by
  simp [doorbell, hostWr_taken hw, huse, hform]

theorem doorbell_arv (huse : tget s.cmp.pages (ringKey f.toNat page.toNat) = some (.arv id))
    (hform : doorbellForm off n v = some t) : doorbell f page off n v s = arvReturn f.toNat id t s := by
  simp [doorbell, hostWr_taken hw, huse, hform]

theorem doorbell_unassigned (huse : tget s.cmp.pages (ringKey f.toNat page.toNat) = none) (hpage : page.toNat ≠ 0) :
    doorbell f page off n v s = doorbellRejected f.toNat page.toNat 2 s := by
  simp [doorbell, hostWr_taken hw, huse, hpage]

end Doorbell

section Tail

variable {f page id : Nat} {t : BitVec 32} {g : Ring} {s : State} (hg : getRing f id s = some g)
  (hst : g.state ≠ .stoppedDevice) (hahead : 0 < (t - g.tail).toInt)
include hg hst hahead

theorem ringTail_moves (hroom : (t - g.head).toNat ≤ 2 ^ g.log2size) :
    ringTail f page id t s = putRing f id { g with tail := t } s := by
  simp only [ringTail, hg, beq_false_of_ne hst, i32, Int.not_le.mpr hahead, Nat.not_lt.mpr hroom, Bool.false_eq_true, if_false]

theorem ringTail_overrun (hfar : 2 ^ g.log2size < (t - g.head).toNat) :
    ringTail f page id t s = doorbellRejected f page 1 s := by
  simp only [ringTail, hg, beq_false_of_ne hst, i32, Int.not_le.mpr hahead, hfar, Bool.false_eq_true, if_false, if_true]

end Tail

section Return

variable {f id : Nat} {c : BitVec 32} {a : Arv} {s : State} (ha : getArv f id s = some a) (hfence : a.fenced = false)
  (hne : c ≠ a.consumed)
include ha hfence hne

theorem arvReturn_gives (hin : (c - a.consumed).toNat ≤ (a.produced - a.consumed).toNat) :
    arvReturn f id c s = putArv f id { a.giveBack (c - a.consumed).toNat with consumed := c } s := by
  simp only [arvReturn, ha, hfence, beq_false_of_ne hne, hin, Bool.or_self, Bool.false_eq_true, if_false, if_true]

theorem arvReturn_inconsistent (hout : (a.produced - a.consumed).toNat < (c - a.consumed).toNat) :
    arvReturn f id c s = arvFence f id a s := by
  simp only [arvReturn, ha, hfence, beq_false_of_ne hne, Nat.not_le.mpr hout, Bool.or_self, Bool.false_eq_true, if_false]

end Return

/-! ### Fetches (R40, R48) -/

/-- An entry that decodes joins its ring and waits to be issued. -/
theorem takeEntry_decoded {f r : Nat} {g : Ring} {i : BitVec 32} {e : BitVec 512} {s : State}
    (hd : decodeStatus (r == 0) e = none) :
    takeEntry f r g i e s = putRing f r { g with entries := g.entries ++ [⟨e, false, none⟩] } s := by
  unfold takeEntry
  rw [hd]

section Fetch

variable {f r : Nat} {g : Ring} {i : BitVec 32} {s : State} (hg : getRing f r s = some g) (hi : fetchIndex f g s = some i)
  (hw : g.waitOwn = false)
include hg hi hw

theorem entryCome_unseen {d : ReadResult} (hs : readable f (entryAddr g i) 64 s = false) :
    entryCome f r d s = setRingState f r .stoppedFetch s := by
  simp [entryCome, hg, hi, hw, hs]

theorem entryCome_pcieError :
    entryCome f r .pcieError s = setRingState f r .stoppedFetch
      (if readable f (entryAddr g i) 64 s then hostRead f (entryAddr g i) 64 s else s) := by
  simp [entryCome, hg, hi, hw]

variable (hs : readable f (entryAddr g i) 64 s = true) {raw : BitVec 512}
include hs

theorem entryCome_posted (hown : ownTest g.log2size i raw = true) :
    entryCome f r (.data (leBytes 64 raw.toNat)) s = takeEntry f r g i raw (hostRead f (entryAddr g i) 64 s) := by
  simp [entryCome, hg, hi, hw, hs, entry_ofBytes_leBytes, hown]

theorem entryCome_notPosted (hown : ownTest g.log2size i raw = false) :
    entryCome f r (.data (leBytes 64 raw.toNat)) s = putRing f r { g with waitOwn := true } (hostRead f (entryAddr g i) 64 s) := by
  simp [entryCome, hg, hi, hw, hs, entry_ofBytes_leBytes, hown]

end Fetch

/-! ### Reading again, and mirrors (R40, R50) -/

theorem does_ownershipReread {f : Fn} {r : BitVec 12} {g : Ring} {s : State} (hg : getRing f.toNat r.toNat s = some g)
    (hw : g.waitOwn = true) (hrun : g.state = .running) (hf : frozen f.toNat s = false) :
    Does (.ownershipReread f r) s (evcPulse 194 f.toNat (putRing f.toNat r.toNat { g with waitOwn := false } s)) := by
  intro hr
  change execOwnershipReread f r s = _
  rw [execOwnershipReread, act_running hr]
  simp [hg, hw, hrun, hf]

theorem publish_some {f r : Nat} {g : Ring} {s : State} (hg : getRing f r s = some g) :
    publish f r s = ringWrite f g.mirror (mirrorBytes g g.state.code) (putRing f r { g with published := g.head } s) := by
  simp [publish, hg, writeMirror]

theorem does_headMirrorPublish {f : Fn} {r : BitVec 12} {g : Ring} {s : State} (hg : getRing f.toNat r.toNat s = some g)
    (hmoved : g.head ≠ g.published) : Does (.headMirrorPublish f r) s (publish f.toNat r.toNat s) := by
  intro hr
  change execHeadMirrorPublish f r s = _
  rw [execHeadMirrorPublish, act_running hr]
  simp [hg, hmoved]

/-- Settles O14: what the page is assigned to and the index that is written decide a doorbell; the window and the ownership test decide
a fetch. -/
theorem doorbellsFetchesAndMirrors : Obligations.DoorbellsFetchesAndMirrors := by
  intro f page off r n v g a id raw s fn pg t use
  refine ⟨fun hw hoff hn => ?assigned, fun hw huse hpage => ?unassigned, fun hg hi hx hown => ?fetch,
    fun hg hown hrun hf => does_ownershipReread hg hown hrun hf, fun hg hmoved => ?mirror⟩
  case assigned =>
    have hform := doorbellForm_eq hoff hn
    refine ⟨fun huse hg hst hahead => ⟨fun hroom => ?moves, fun hfar => ?overrun⟩,
      fun huse ha hfence hne => ⟨fun hin => ?gives, fun hout => ?inconsistent⟩⟩
    case moves => exact does_of_exec rfl ((doorbell_ring hw huse hform).trans (ringTail_moves hg hst hahead hroom))
    case overrun => exact does_of_exec rfl ((doorbell_ring hw huse hform).trans (ringTail_overrun hg hst hahead hfar))
    case gives => exact does_of_exec rfl ((doorbell_arv hw huse hform).trans (arvReturn_gives ha hfence hne hin))
    case inconsistent => exact does_of_exec rfl ((doorbell_arv hw huse hform).trans (arvReturn_inconsistent ha hfence hne hout))
  case unassigned => exact ⟨does_of_exec rfl (doorbell_unassigned hw huse hpage), does_of_exec rfl (doorbell_unassigned hw huse hpage)⟩
  case fetch =>
    intro seen read
    have hread : seen = true → read = hostRead fn (entryAddr g g.head) 64 s := fun hs => if_pos hs
    refine ⟨fun hs hpost hd => ?posted, fun hs hpost => ?notPosted, fun hs d => ?unseen, ?pcieError⟩
    case posted =>
      have htaken := (entryCome_posted hg hi hown hs hpost).trans (takeEntry_decoded hd)
      rw [hx, List.nil_append, ← hread hs] at htaken
      exact does_of_exec rfl htaken
    case notPosted => exact does_of_exec rfl (hread hs ▸ entryCome_notPosted hg hi hown hs hpost)
    case unseen => exact does_of_exec rfl (entryCome_unseen hg hi hown hs)
    case pcieError => exact does_of_exec rfl (entryCome_pcieError hg hi hown)
  case mirror => exact publish_some hg ▸ does_headMirrorPublish hg hmoved

end Sys2Proof.Machine

/-! ## Admin entries: the parameter block that is read, and rings that begin and end (R54 to R57, R66, R522) -/

namespace Sys2Proof.Machine

open Sys2Proof.Claims

/-! ### Fields of a block -/

theorem bits_setWidth {n m : Nat} (hi lo : Nat) (v : BitVec n) (h : n ≤ m) : bits hi lo (v.setWidth m) = bits hi lo v := by
  rw [bits, bits, BitVec.toNat_setWidth_of_le h]

theorem bit_setWidth {n m : Nat} (i : Nat) (v : BitVec n) (h : n ≤ m) : bit i (v.setWidth m) = bit i v := by
  rw [bit, bit, BitVec.toNat_setWidth_of_le h]

theorem bits_from_zero {n : Nat} (hi : Nat) (v : BitVec n) : bits hi 0 v = v.toNat % 2 ^ (hi + 1) := by
  simp [bits]

/-- A field that ends at the top bit needs no mask. -/
theorem bits_to_top {n hi : Nat} (lo : Nat) (v : BitVec n) (h : n = hi + 1) (hlo : lo ≤ n) : bits hi lo v = v.toNat / 2 ^ lo := by
  have hv : v.toNat < 2 ^ lo * 2 ^ (n - lo) := by
    rw [← Nat.pow_add, Nat.add_sub_cancel' hlo]; exact v.isLt
  rw [bits, ← h, Nat.mod_eq_of_lt (Nat.div_lt_of_lt_mul hv)]

/-! ### What a read of host memory leaves as it is -/

/-- A read wakes its link and is sent: what an output leaves as it is, the read leaves as the wake-up leaves it. -/
theorem hostRead_eq_wakeLink {β : Type} (p : State → β) (hemit : ∀ o s, p (emit o s) = p s) (f : Nat) (a : BitVec 64) (n : Nat)
    (s : State) : p (hostRead f a n s) = p (wakeLink (fnLink f) s) := by
  have along (g : State → Nat × Nat → Output) (l : List (Nat × Nat)) (s : State) :
      p (l.foldl (fun s x => emit (g s x) s) s) = p s := by
    induction l generalizing s with
    | nil => rfl
    | cons x l ih => rw [List.foldl_cons, ih, hemit]
  exact along (fun s x => .hostRead (requester (fnLink f) f) (BitVec.ofNat 64 x.1) x.2 (false && relaxedOn f s) (fnLink f)) _ _

theorem wakeLink_keeps {β : Type} (p : State → β) (hw : ∀ o v s, p (wrReg o v s) = p s) (l : Nat) (s : State) :
    p (wakeLink l s) = p s := by
  simp only [wakeLink]
  split
  · rw [setRf, hw, setRf, hw]
  · rfl

@[simp] theorem hostRead_cmp (f : Nat) (a : BitVec 64) (n : Nat) (s : State) : (hostRead f a n s).cmp = s.cmp :=
  (hostRead_eq_wakeLink (·.cmp) (fun _ _ => rfl) f a n s).trans (wakeLink_keeps (·.cmp) (fun _ _ _ => rfl) _ s)
@[simp] theorem hostRead_qpc (f : Nat) (a : BitVec 64) (n : Nat) (s : State) : (hostRead f a n s).qpc = s.qpc :=
  (hostRead_eq_wakeLink (·.qpc) (fun _ _ => rfl) f a n s).trans (wakeLink_keeps (·.qpc) (fun _ _ _ => rfl) _ s)

/-- The registers of the windows lie above those of the links. -/
theorem rdReg_wakeLink_win (f k : Nat) (s : State) :
    rdReg (Reg.HIF_WIN + 32 * f + 8 * k) (wakeLink (fnLink f) s) = rdReg (Reg.HIF_WIN + 32 * f + 8 * k) s := by
  have hne : Reg.HIF_WIN + 32 * f + 8 * k ≠ Reg.HIF_LINK + 8 * fnLink f := by simp only [Reg.HIF_WIN, Reg.HIF_LINK, fnLink]; omega
  simp only [wakeLink]
  split
  · rw [rdReg_setRf_ne _ _ _ _ hne, rdReg_setRf_ne _ _ _ _ hne]
  · rfl

/-! ### What the windows of a function depend on (R468) -/

theorem winReach_congr {f lo : Nat} {s t : State} (h : ∀ k, winRange f k s = winRange f k t) : winReach f lo s = winReach f lo t := by
  simp only [winReach, h]

theorem winCovers_congr {f : Nat} {s t : State} (h : ∀ k, winRange f k s = winRange f k t) (n lo hi : Nat) :
    winCovers f s n lo hi = winCovers f t n lo hi := by
  induction n generalizing lo with
  | zero => rfl
  | succ n ih => simp only [winCovers, winReach_congr h, ih]

theorem inWindow_congr {f : Nat} {s t : State} (h : ∀ k, winRange f k s = winRange f k t) (a : BitVec 64) (n : Nat) :
    inWindow f a n s = inWindow f a n t := by
  simp only [inWindow, winReach_congr h, winCovers_congr h]

theorem winRange_hostRead (f k : Nat) (a : BitVec 64) (n : Nat) (s : State) : winRange f k (hostRead f a n s) = winRange f k s := by
  rw [hostRead_eq_wakeLink (winRange f k) (fun _ _ => rfl), winRange, winRange, rdReg_wakeLink_win]

/-! ### Rings and Arrival Rings as their counts and identifiers see them (R56, R66) -/

theorem length_filter_keys {α : Type} (p : Nat → Bool) {t u : Tab α} (h : t.map Prod.fst = u.map Prod.fst) :
    (t.filter (fun x => p x.1)).length = (u.filter (fun x => p x.1)).length := by
  have count (v : Tab α) : (v.filter (fun x => p x.1)).length = (v.map Prod.fst).countP p := by
    rw [List.countP_map, List.countP_eq_length_filter]
    rfl
  rw [count, count, h]

/-- The lowest free key is the one that `tfree` finds, if it is within reach. -/
theorem tfree_eq_some {α : Type} {t : Tab α} {hi i : Nat} (hhi : i < hi) (hfree : tget t i = none) {n lo : Nat} (hlo : lo ≤ i)
    (hn : i < lo + n) (hused : ∀ j, lo ≤ j → j < i → tget t j ≠ none) : tfree t hi lo n = some i := by
  induction n generalizing lo with
  | zero => omega
  | succ n ih =>
    rw [tfree, if_neg (by omega)]
    by_cases he : lo = i
    · simp [he, hfree]
    · have hlisted : (tget t lo).isNone = false := 
        Option.isNone_eq_false_iff.mpr (Option.isSome_iff_ne_none.mpr (hused lo (Nat.le_refl _) (by omega)))
      rw [hlisted]
      exact ih (by omega) (by omega) (fun j hj => hused j (by omega))

theorem tfree_ring {f id : Nat} {s : State} (hlo : 1 ≤ id) (hhi : id < 4096) (hfree : getRing f id s = none)
    (hused : ∀ k, 1 ≤ k → k < id → getRing f k s ≠ none) :
    tfree s.cmp.rings (ringKey f 4096) (ringKey f 1) 4095 = some (ringKey f id) := by
  refine tfree_eq_some ?_ hfree ?_ ?_ fun j hj hji => ?_
  · simp only [ringKey]; omega
  · simp only [ringKey]; omega
  · simp only [ringKey]; omega
  · simp only [ringKey] at hj hji
    have hkey : ringKey f (j - f * 4096) = j := by simp only [ringKey]; omega
    exact hkey ▸ hused (j - f * 4096) (by omega) (by omega)

theorem ringKey_mod (f : Nat) {id : Nat} (h : id < 4096) : ringKey f id % 4096 = id := by
  simp only [ringKey]; omega

@[simp] theorem getArv_markIssued (f a : Nat) (ref : EntryRef) (s : State) : getArv f a (markIssued ref s) = getArv f a s := by
  simp [getArv]

@[simp] theorem arvBound_markIssued (f a : Nat) (ref : EntryRef) (s : State) : arvBound f a (markIssued ref s) = arvBound f a s := by
  simp [arvBound]

/-! ### The State in which the block of an admin entry has been read (R522) -/

/-- An admin entry has been issued, and the read of its block of `n` bytes sent. -/
def blockRead (f : Nat) (ref : EntryRef) (e : BitVec 512) (n : Nat) (s : State) : State :=
  hostRead f (eLaddr e) n (markIssued ref s)

section BlockRead

variable (f : Nat) (ref : EntryRef) (e : BitVec 512) (n : Nat) (s : State)

@[simp] theorem blockRead_cmp : (blockRead f ref e n s).cmp = (markIssued ref s).cmp := hostRead_cmp ..
@[simp] theorem blockRead_qpc : (blockRead f ref e n s).qpc = s.qpc := (hostRead_qpc ..).trans (markIssued_qpc ..)

theorem winRange_blockRead (k : Nat) : winRange f k (blockRead f ref e n s) = winRange f k s := by
  rw [blockRead, winRange_hostRead, winRange, winRange, rdReg_congr (markIssued_regs ref s)]

@[simp] theorem inWindow_blockRead (a : BitVec 64) (k : Nat) : inWindow f a k (blockRead f ref e n s) = inWindow f a k s :=
  inWindow_congr (winRange_blockRead f ref e n s) a k

@[simp] theorem ringInWindow_blockRead (log2 : Nat) (fmt : Bool) (base mirror : BitVec 64) :
    ringInWindow f log2 fmt base mirror (blockRead f ref e n s) = ringInWindow f log2 fmt base mirror s := by
  simp [ringInWindow]

@[simp] theorem pageUsed_blockRead (p : Nat) : pageUsed f p (blockRead f ref e n s) = pageUsed f p s := by
  simp [pageUsed]

@[simp] theorem ringCount_blockRead : ringCount (blockRead f ref e n s) = ringCount s :=
  length_filter_keys (fun k => k % 4096 != 0) (by simp)

@[simp] theorem ringCountOf_blockRead : ringCountOf f (blockRead f ref e n s) = ringCountOf f s :=
  length_filter_keys (fun k => k / 4096 == f && k % 4096 != 0) (by simp)

@[simp] theorem arvCountOf_blockRead : arvCountOf f (blockRead f ref e n s) = arvCountOf f s := by
  simp [arvCountOf]

@[simp] theorem freeArv_blockRead : freeArv f (blockRead f ref e n s) = freeArv f s := by
  simp [freeArv, getArv, arvBound]

end BlockRead

/-! ### An admin entry whose block is not to be read, or is read (R522) -/

section AdminRun

variable {op f : Nat} {go : AdminGo} {ref : EntryRef} {e : BitVec 512} {s : State} (hat : issueOf op f 0 s = some (ref, e))
include hat

theorem adminRun_noBlock {d : ReadResult} (h : adminBlockLen op = 0) : adminRun op f d go s = go ref e 0 (markIssued ref s) := by
  simp [adminRun, hat, h]

theorem adminRun_block {n k : Nat} (blk : BitVec n) (hk : adminBlockLen op = k) (h0 : k ≠ 0) (hn : n ≤ 8 * k)
    (hwin : inWindow f (eLaddr e) k s = true) :
    adminRun op f (.data (toBytes k blk)) go s = go ref e (blk.setWidth 2048) (blockRead f ref e k s) := by
  simp [adminRun, hat, hk, h0, hwin, toBytes, ofBytes_leBytes 2048 blk hn, blockRead]

end AdminRun

/-! ### Rings begin and end (R56, R57, R66) -/

section Create

variable {ref : EntryRef} {f : Nat} {e : BitVec 512} {blk : BitVec 256} {id : Nat} {s : State} (hfn : ref.fn = f)
include hfn

theorem ringCreateGo_creates {page log2 : Nat} {fmt : Bool} {base mirror : BitVec 64} (hp : bits 75 64 blk = page)
    (hl : bits 4 0 blk = log2) (hf : bit 8 blk = fmt) (hb : blk.extractLsb' 128 64 = base) (hm : blk.extractLsb' 192 64 = mirror)
    (hz : bits 127 112 blk = 0 ∧ bits 95 76 blk = 0 ∧ bits 31 9 blk = 0 ∧ bits 7 5 blk = 0)
    (hshape : ringShapeOk log2 fmt base mirror = true) (hpage : page ≠ 0 ∧ pageUsed f page s = false)
    (hwin : ringInWindow f log2 fmt base mirror s = true) (hcount : ringCount s < 32768 ∧ ringCountOf f s < 4095)
    (hid : tfree s.cmp.rings (ringKey f 4096) (ringKey f 1) 4095 = some (ringKey f id)) (hhi : id < 4096) :
    ringCreateGo ref e (blk.setWidth 2048) s = finishEntry ref St.success 0
      (hostWrite f (eLaddr e + 12) (leBytes 2 id) (newRing f id page log2 fmt base mirror (blk.extractLsb' 32 32) s)) := by
  have hw : 256 ≤ 2048 := by decide
  obtain ⟨hz1, hz2, hz3, hz4⟩ := hz
  simp [ringCreateGo, hfn, blkWrite, zeroBits, bits_setWidth _ _ blk hw, bit_setWidth _ blk hw, BitVec.extractLsb'_setWidth_of_le,
    hp, hl, hf, hb, hm, hz1, hz2, hz3, hz4, hshape, hpage, hwin, Nat.not_le.mpr hcount.1, Nat.not_le.mpr hcount.2, hid, ringKey_mod f hhi]

theorem arvCreateGo_creates {page log2 : Nat} {base : BitVec 64} (hp : bits 75 64 blk = page) (hl : bits 4 0 blk = log2)
    (hb : blk.extractLsb' 128 64 = base)
    (hz : bits 255 192 blk = 0 ∧ bits 127 112 blk = 0 ∧ bits 95 76 blk = 0 ∧ bits 11 5 blk = 0)
    (hshape : 6 ≤ log2 ∧ log2 ≤ 20 ∧ base.toNat % 4096 = 0) (hpage : page ≠ 0 ∧ pageUsed f page s = false)
    (hpool : bits 31 12 blk + 8 ≤ 2 ^ log2) (hwin : inWindow f base (32 * 2 ^ log2) s = true)
    (hcount : s.cmp.arvs.length < 32768 ∧ arvCountOf f s < 4095) (hid : freeArv f s = some id) :
    arvCreateGo ref e (blk.setWidth 2048) s = finishEntry ref St.success 0
      (hostWrite f (eLaddr e + 12) (leBytes 2 id) (setPage f page (.arv id)
        (putArv f id (newArv base log2 page (bits 31 12 blk) (blk.extractLsb' 32 32)) s))) := by
  have hw : 256 ≤ 2048 := by decide
  obtain ⟨hz1, hz2, hz3, hz4⟩ := hz
  simp [arvCreateGo, hfn, blkWrite, zeroBits, bits_setWidth _ _ blk hw, BitVec.extractLsb'_setWidth_of_le, hp, hl, hb, hz1, hz2, hz3, hz4,
    hshape, hpage, Nat.not_lt.mpr hpool, hwin, Nat.not_le.mpr hcount.1, Nat.not_le.mpr hcount.2, hid, newArv]

end Create

section Destroy

variable {ref : EntryRef} {f : Nat} {e : BitVec 512} {b : BitVec 2048} {id : Nat} {s : State} (hfn : ref.fn = f)
  (hid : (eX64 e).toNat = id)
include hfn hid

theorem arvDestroyGo_frees {a : Arv} (hhi : id < 4096) (ha : getArv f id s = some a)
    (hun : arvBound f id s = false ∨ a.fenced = true) :
    arvDestroyGo ref e b s = finishEntry ref St.success 0
      (setPage f a.page .gone { s with cmp := { s.cmp with arvs := tdel s.cmp.arvs (ringKey f id) } }) := by
  have hheld : (arvBound f id s && !a.fenced) = false := by
    rcases hun with h | h <;> simp [h]
  simp [arvDestroyGo, hfn, hid, Nat.not_le.mpr hhi, ha, hheld]

variable (hlo : 1 ≤ id) (hhi : id < 4096)
include hlo hhi

theorem ringDestroyGo_drops (hg : getRing f id s ≠ none) :
    ringDestroyGo ref e b s = finishEntry ref St.success 0 (dropRing f id s) := by
  simp [ringDestroyGo, hfn, hid, Nat.ne_of_gt hlo, Nat.not_le.mpr hhi, hg]

theorem ringResumeGo_resumes {g : Ring} (hg : getRing f id s = some g) (hst : g.state = .stoppedFetch ∨ g.state = .frozen) :
    ringResumeGo ref e b s = finishEntry ref St.success 0 (setRingState f id .running s) := by
  simp [ringResumeGo, hfn, hid, Nat.ne_of_gt hlo, Nat.not_le.mpr hhi, hg, hst]

theorem ringResumeGo_refuses {g : Ring} (hg : getRing f id s = some g) (hst : g.state = .running ∨ g.state = .stoppedDevice) :
    ringResumeGo ref e b s = finishEntry ref St.invalidParam 0 s := by
  rcases hst with h | h <;> simp [ringResumeGo, hfn, hid, Nat.ne_of_gt hlo, Nat.not_le.mpr hhi, hg, h]

end Destroy

/-! ### The admin ring's registers (R54, R55) -/

/-- A write of a function's own register that is taken, with the crossing into its block open. -/
theorem hostWr_cross_taken {f src : Nat} {inP2 : Bool} {r : HeldReq} {k : State → State} {s : State} (hw : HostWrites f s)
    (hopen : Open src s) : hostWr f src inP2 (cross src r k) s = k s :=
  (hostWr_taken hw).trans (cross_open hopen)

theorem adminEnable_off {f : Nat} {start : BitVec 32} {s : State} (hoff : bit 1 (rdFn f Reg.CMR_ADMIN_CTRL s) = false) :
    adminEnable f start s =
      let t := setFf f Reg.CMR_ADMIN_CTRL 0 0 1 (setFf f Reg.CMR_ADMIN_CTRL 63 32 start.toNat s)
      let w := rdFn f Reg.CMR_ADMIN_RING t
      let b : BitVec 64 := BitVec.ofNat 64 (w.toNat / 4096 * 4096)
      let m : BitVec 64 := BitVec.ofNat 64 ((rdFn f Reg.CMR_ADMIN_MIRROR t).toNat / 4 * 4)
      let l := w.toNat % 32
      if ringShapeOk l (w.getLsbD 5) b m && ringInWindow f l (w.getLsbD 5) b m t then
        setFf f Reg.CMR_ADMIN_CTRL 1 1 1 (newRing f 0 0 l (w.getLsbD 5) b m start t)
      else setFf f Reg.CMR_STATUS 1 1 1 t := by
  have hlow (v : BitVec 64) : bits 4 0 v = v.toNat % 32 := bits_from_zero 4 v
  have hbase (v : BitVec 64) : bits 63 12 v = v.toNat / 4096 := bits_to_top 12 v rfl (by decide)
  have hmirror (v : BitVec 64) : bits 63 2 v = v.toNat / 4 := bits_to_top 2 v rfl (by decide)
  simp only [adminEnable, hoff, ff, hlow, hbase, hmirror, bit_eq_getLsbD, Bool.false_eq_true, if_false]

theorem adminDisable_on {f : Nat} {s : State} (hon : bit 1 (rdFn f Reg.CMR_ADMIN_CTRL (setFf f Reg.CMR_ADMIN_CTRL 0 0 0 s)) = true) :
    adminDisable f s = setFf f Reg.CMR_ADMIN_CTRL 1 1 0 (dropRing f 0 (setFf f Reg.CMR_ADMIN_CTRL 0 0 0 s)) := by
  simp [adminDisable, hon]

/-- Settles O15: the admin entry is run with its block, which passes the tests of R56 and R66; the admin ring's registers decide its
enabling. -/
theorem ringsAreCreatedAndDestroyed : Obligations.RingsAreCreatedAndDestroyed := by
  intro f blk ref e g a id start s fn at_ s0 s1 page log2 fmt base mirror head gone
  have hp : bits 75 64 blk = page := rfl
  have hlog : bits 4 0 blk = log2 := bits_from_zero 4 blk
  have hfn {op : Nat} (hat : at_ op) : ref.fn = f.toNat := issueOf_fn hat
  refine ⟨fun hat hwin hz1 hz2 hz3 hz4 hshape hpage hunused hring hcount hcountOf hlo hhi hfree hused => ?ringCreate,
    fun hat hid hlo hhi hg => ?ringDestroy, fun hat hid hlo hhi hg => ⟨fun hst => ?resumes, fun hst => ?refuses⟩,
    fun hat hwin hz1 hz2 hz3 hz4 hlo hhi hbase hpage hunused hpool hin hcount hcountOf hid => ?arvCreate,
    fun hat hid hhi ha hun => ?arvDestroy, fun hw hopen hoff => ?enable, fun hw hopen hon => ?disable⟩
  case ringCreate =>
    have hid : tfree (blockRead fn ref e 32 s).cmp.rings (ringKey fn 4096) (ringKey fn 1) 4095 = some (ringKey fn id) := by
      rw [blockRead_cmp]
      exact tfree_ring hlo hhi hfree hused
    have hcreates := ringCreateGo_creates (e := e) (hfn hat) hp hlog (bit_eq_getLsbD 8 blk) rfl rfl ⟨hz1, hz2, hz3, hz4⟩ hshape
      ⟨hpage, (pageUsed_blockRead fn ref e 32 s page).trans hunused⟩
      ((ringInWindow_blockRead fn ref e 32 s log2 fmt base mirror).trans hring)
      ⟨(ringCount_blockRead fn ref e 32 s).trans_lt hcount, (ringCountOf_blockRead fn ref e 32 s).trans_lt hcountOf⟩ hid hhi
    exact does_of_exec rfl ((adminRun_block hat blk rfl (by decide) (by decide) hwin).trans hcreates)
  case ringDestroy => exact does_of_exec rfl ((adminRun_noBlock hat rfl).trans (ringDestroyGo_drops (hfn hat) hid hlo hhi hg))
  case resumes => exact does_of_exec rfl ((adminRun_noBlock hat rfl).trans (ringResumeGo_resumes (hfn hat) hid hlo hhi hg hst))
  case refuses => exact does_of_exec rfl ((adminRun_noBlock hat rfl).trans (ringResumeGo_refuses (hfn hat) hid hlo hhi hg hst))
  case arvCreate =>
    have hlen : (blockRead fn ref e 32 s).cmp.arvs.length < 32768 := by
      rw [blockRead_cmp, markIssued_arvs]
      exact hcount
    have hcreates := arvCreateGo_creates (e := e) (hfn hat) hp hlog rfl ⟨hz1, hz2, hz3, hz4⟩ ⟨hlo, hhi, hbase⟩
      ⟨hpage, (pageUsed_blockRead fn ref e 32 s page).trans hunused⟩ hpool
      ((inWindow_blockRead fn ref e 32 s base (32 * 2 ^ log2)).trans hin)
      ⟨hlen, (arvCountOf_blockRead fn ref e 32 s).trans_lt hcountOf⟩ ((freeArv_blockRead fn ref e 32 s).trans hid)
    exact does_of_exec rfl ((adminRun_block hat blk rfl (by decide) (by decide) hwin).trans hcreates)
  case arvDestroy =>
    have hfrees := arvDestroyGo_frees (e := e) (b := 0) (hfn hat) hid hhi ((getArv_markIssued fn id ref s).trans ha)
      (hun.imp_left (arvBound_markIssued fn id ref s).trans)
    exact does_of_exec rfl ((adminRun_noBlock hat rfl).trans hfrees)
  case enable =>
    intro t w b m l
    have hmeans := (hostWr_cross_taken (r := .fn fn Reg.CMR_ADMIN_CTRL 0xFF (start ++ (1 : BitVec 32))) (inP2 := false) hw hopen).trans
      (adminEnable_off (start := start) hoff)
    refine ⟨fun hshape hring => does_of_exec rfl (hmeans.trans (if_pos ?_)), fun hbad => does_of_exec rfl (hmeans.trans (if_neg ?_))⟩
    · exact Bool.and_eq_true_iff.mpr ⟨hshape, hring⟩
    · exact ne_true_of_eq_false (Bool.and_eq_false_iff.mpr hbad)
  case disable => exact does_of_exec rfl ((hostWr_cross_taken hw hopen).trans (adminDisable_on hon))

end Sys2Proof.Machine

/-! ## Access checks: what an access that passes has met (R80, R88, R90, R469) -/

namespace Sys2Proof.Machine

/-! ### Tests that fail an access -/

/-- An access passes one test if the test does not fail and what follows passes. -/
theorem ite_fail_eq_pass {c : Bool} {d : Nat} {r : PartOut} {segs : List Seg} :
    (if c = true then PartOut.fail d else r) = .pass segs ↔ c = false ∧ r = .pass segs := by
  cases c <;> simp

/-- Tests 7 to 9 (R84 to R91): every page that is admitted lies in the window. -/
theorem checkPages_inWindow {acc : Access} {dom : BitVec 16} {root : BitVec 64} {own : List Leaf} {s : State} {n a e : Nat}
    {segs : List Seg} (h : checkPages acc dom root own s n a e = .pass segs) : ∀ g ∈ segs, inWindow acc.fn g.bus g.len s = true := by
  induction n generalizing a segs with
  | zero =>
    cases h
    simp
  | succ n ih =>
    rw [checkPages] at h
    split at h
    next =>
      cases h
      simp
    next =>
      split at h
      next => cases h
      next l _ =>
        simp only [ite_fail_eq_pass] at h
        obtain ⟨-, hwin, hrest⟩ := h
        rw [Bool.or_eq_false_iff, Bool.not_eq_false'] at hwin
        split at hrest
        next more hmore =>
          cases hrest
          exact List.forall_mem_cons.mpr ⟨hwin.1, ih hmore⟩
        next hno => exact absurd hrest (hno _)

/-- What R80 asks of the descriptor that a part's key names, with the generation, the rights, the domain and the bytes. -/
def KeyAdmits (acc : Access) (p : Part) (d : Desc) (s : State) : Prop :=
  d.state = .valid ∧ d.gen.toNat = p.key.toNat % 256 ∧ d.rights &&& acc.rights = acc.rights ∧ pdOwned acc.fn d.pd s = true ∧
    (∀ x, acc.dom = some x → x = d.pd) ∧
    (acc.testsOnly = false → d.va.toNat ≤ p.addr.toNat ∧ p.addr.toNat + p.len ≤ d.va.toNat + d.size.toNat)

/-- A part that passes: its key names a descriptor that admits it, and what a BTR or the pages of its domain translate it to lies in the
window. -/
theorem checkPart_pass {acc : Access} {p : Part} {own : List Leaf} {s : State} {segs : List Seg}
    (h : checkPart acc p own s = .pass segs) :
    keytabActive acc.fn s = true ∧
    (∃ d, tget s.xlt.descs (descKey acc.fn (p.key.toNat / 256)) = some d ∧ KeyAdmits acc p d s) ∧
    ∀ g ∈ segs, inWindow acc.fn g.bus g.len s = true := by
  rw [checkPart, ite_fail_eq_pass] at h
  obtain ⟨htab, h⟩ := h
  split at h
  next => cases h
  next d hd =>
    simp only [ite_fail_eq_pass] at h
    obtain ⟨-, hgen, hvalid, hdom, hrights, h⟩ := h
    simp only [Bool.or_eq_false_iff, Bool.not_eq_false', Option.any_eq_false, bne_eq_false_iff_eq] at htab hgen hvalid hdom hrights
    have hadmits (hin : acc.testsOnly = false → d.va.toNat ≤ p.addr.toNat ∧ p.addr.toNat + p.len ≤ d.va.toNat + d.size.toNat) :
        KeyAdmits acc p d s := ⟨hvalid, hgen, hrights, hdom.1, hdom.2, hin⟩
    refine ⟨htab.1.1, ?_⟩
    split at h
    next htests =>
      cases h
      exact ⟨⟨d, hd, hadmits (by simp [htests])⟩, by simp⟩
    next =>
      obtain ⟨hin, h⟩ := ite_fail_eq_pass.mp h
      rw [Bool.not_eq_false', Bool.and_eq_true, decide_eq_true_eq, decide_eq_true_eq] at hin
      refine ⟨⟨d, hd, hadmits fun _ => hin⟩, ?_⟩
      split at h
      next =>
        cases h
        simp
      next =>
        split at h
        next =>
          split at h
          next => cases h
          next b _ =>
            simp only [ite_fail_eq_pass] at h
            obtain ⟨-, -, hwin, h⟩ := h
            cases h
            simpa using hwin
        next =>
          split at h
          next => cases h
          next => exact checkPages_inWindow (ite_fail_eq_pass.mp h).2

/-- A check of parts passes if each part's check does, and its segments are those of its parts. -/
theorem checkParts_pass {acc : Access} {own : List Leaf} {s : State} {ps : List Part} {before segs : List Seg}
    (h : checkParts acc own s ps before = .pass segs) :
    (∀ p ∈ ps, ∃ more, checkPart acc p own s = .pass more) ∧
    ∀ g ∈ segs, g ∈ before ∨ ∃ p ∈ ps, ∃ more, checkPart acc p own s = .pass more ∧ g ∈ more := by
  induction ps generalizing before with
  | nil =>
    cases h
    simp
  | cons p ps ih =>
    rw [checkParts] at h
    split at h
    next more hp =>
      obtain ⟨hall, hsegs⟩ := ih h
      refine ⟨List.forall_mem_cons.mpr ⟨⟨more, hp⟩, hall⟩, fun g hg => ?_⟩
      rcases hsegs g hg with hg | ⟨q, hq, hlater⟩
      · rcases List.mem_append.mp hg with hg | hg
        · exact .inl hg
        · exact .inr ⟨p, List.mem_cons_self .., more, hp, hg⟩
      · exact .inr ⟨q, List.mem_cons_of_mem p hq, hlater⟩
    next hno => exact absurd h (hno _)

/-- Settles O56: each part's check passes its key's tests (R80), and each of its segments has been tested against the window (R88, R90). -/
theorem checkedAccessesStayInside : Obligations.CheckedAccessesStayInside := by
  intro a own s segs h
  obtain ⟨hparts, hsegs⟩ := checkParts_pass h
  refine ⟨fun g hg => ?window, fun p hp => ?key⟩
  case window =>
    obtain hg | ⟨p, -, more, hp, hg⟩ := hsegs g hg
    · cases hg
    · exact (checkPart_pass hp).2.2 g hg
  case key =>
    obtain ⟨more, hp⟩ := hparts p hp
    obtain ⟨hactive, hkey, -⟩ := checkPart_pass hp
    exact ⟨hactive, hkey⟩

end Sys2Proof.Machine

/-! ## Invalidation and locks (R95 to R98) -/

namespace Sys2Proof.Machine

open Sys2Proof.Claims

/-! ### Fields inside fields -/

/-- A field that lies inside another one is a field of that one's number. -/
theorem bits_of_bits {n hi lo top bot x : Nat} {v : BitVec n} (h : bits top bot v = x) (hbot : bot ≤ lo) (htop : hi ≤ top)
    (hle : lo ≤ hi + 1) : bits hi lo v = x / 2 ^ (lo - bot) % 2 ^ (hi + 1 - lo) := by
  have hlen : 2 ^ (top + 1 - bot) = 2 ^ (lo - bot) * 2 ^ (top + 1 - lo) := by rw [← Nat.pow_add]; congr 1; omega
  have hlow : 2 ^ lo = 2 ^ bot * 2 ^ (lo - bot) := by rw [← Nat.pow_add]; congr 1; omega
  have hdvd : 2 ^ (hi + 1 - lo) ∣ 2 ^ (top + 1 - lo) := Nat.pow_dvd_pow 2 (by omega)
  subst h
  rw [bits, bits, hlen, Nat.mod_mul_right_div_self, Nat.mod_mod_of_dvd _ hdvd, hlow, Nat.div_div_eq_div_mul]

theorem bit_of_bits {n i top bot x : Nat} {v : BitVec n} (h : bits top bot v = x) (hbot : bot ≤ i) (htop : i ≤ top) :
    bit i v = (x / 2 ^ (i - bot) % 2 == 1) := by
  have hbit : bit i v = (bits i i v == 1) := by simp [bit, bits]
  rw [hbit, bits_of_bits h hbot htop (by omega), Nat.add_sub_cancel_left, Nat.pow_one]

/-! ### What the read of a block leaves of the translation unit's State -/

/-- Reading host memory can change no register but that of the link that it wakes. -/
theorem rdReg_wakeLink_ne {o l : Nat} (s : State) (h : o ≠ Reg.HIF_LINK + 8 * l) : rdReg o (wakeLink l s) = rdReg o s := by
  simp only [wakeLink]
  split
  · rw [rdReg_setRf_ne _ _ _ _ h, rdReg_setRf_ne _ _ _ _ h]
  · rfl

section BlockRead

variable (f : Nat) (ref : EntryRef) (e : BitVec 512) (n : Nat) (s : State)

@[simp] theorem blockRead_xlt : (blockRead f ref e n s).xlt = s.xlt :=
  ((hostRead_eq_wakeLink (·.xlt) (fun _ _ => rfl) ..).trans (wakeLink_keeps (·.xlt) (fun _ _ _ => rfl) ..)).trans
    (markIssued_keeps (·.xlt) (fun _ _ _ _ => rfl) ..)

@[simp] theorem blockRead_hif : (blockRead f ref e n s).hif = s.hif :=
  ((hostRead_eq_wakeLink (·.hif) (fun _ _ => rfl) ..).trans (wakeLink_keeps (·.hif) (fun _ _ _ => rfl) ..)).trans
    (markIssued_keeps (·.hif) (fun _ _ _ _ => rfl) ..)

theorem rdReg_blockRead_ne {o : Nat} (h : o ≠ Reg.HIF_LINK + 8 * fnLink f) : rdReg o (blockRead f ref e n s) = rdReg o s :=
  ((hostRead_eq_wakeLink (rdReg o) (fun _ _ => rfl) ..).trans (rdReg_wakeLink_ne _ h)).trans (rdReg_congr (markIssued_regs ref s) o)

@[simp] theorem pdJudge_blockRead (g : Nat) (pd : BitVec 16) : pdJudge g pd (blockRead f ref e n s) = pdJudge g pd s := by
  simp [pdJudge]

@[simp] theorem lockedSlot_blockRead (pd : BitVec 16) (va : Nat) : lockedSlot pd va (blockRead f ref e n s) = lockedSlot pd va s := by
  simp [lockedSlot]

@[simp] theorem walkStart_blockRead (pd : BitVec 16) (root : BitVec 64) (va : Nat) :
    walkStart pd root va (blockRead f ref e n s) = walkStart pd root va s := by
  simp [walkStart, walkHit]

/-- The excluded ranges stand in registers below those of the links. -/
@[simp] theorem excluded_blockRead (a k : Nat) : excluded a k (blockRead f ref e n s) = excluded a k s := by
  have hreg (i : Nat) (hi : i ∈ List.range 16) :
      rdReg (Reg.XLT_BAR_EXCL + 8 * i) (blockRead f ref e n s) = rdReg (Reg.XLT_BAR_EXCL + 8 * i) s := by
    have := List.mem_range.mp hi
    refine rdReg_blockRead_ne f ref e n s ?_
    simp only [Reg.XLT_BAR_EXCL, Reg.HIF_LINK]
    omega
  have hbars (j : Nat) : touchesBars j a k (blockRead f ref e n s) = touchesBars j a k s := by simp [touchesBars]
  rw [Bool.eq_iff_iff]
  simp only [excluded, hbars, Bool.or_eq_true, List.any_eq_true]
  refine or_congr (exists_congr fun i => and_congr_right fun hi => ?_) Iff.rfl
  rw [hreg i hi]

@[simp] theorem tableOk_blockRead (a : BitVec 64) : tableOk f a (blockRead f ref e n s) = tableOk f a s := by
  simp [tableOk]

end BlockRead

/-- `adminRun_block` with a name for the State in which the block has been read. -/
theorem adminRun_read {op f n k : Nat} {go : AdminGo} {ref : EntryRef} {e : BitVec 512} {blk : BitVec n} {s t : State}
    (ht : blockRead f ref e k s = t) (hat : issueOf op f 0 s = some (ref, e)) (hwin : inWindow f (eLaddr e) k s = true)
    (hk : adminBlockLen op = k) (h0 : k ≠ 0) (hn : n ≤ 8 * k) :
    adminRun op f (.data (toBytes k blk)) go s = go ref e (blk.setWidth 2048) t :=
  ht ▸ adminRun_block hat blk hk h0 hn hwin

/-! ### XLT_INVALIDATE of a domain (R95, R96) -/

theorem InvScope.hits_domain {v : InvScope} (h : v.scope = 1) (s : State) (dom : BitVec 16) (a n : Nat) :
    v.hits s dom a n = (dom == v.pd) := by
  simp [InvScope.hits, h]

/-- The caches without what they hold of a domain, and the walks of it in progress marked. -/
def emptyDomain (dom : BitVec 16) (s : State) : State :=
  let t := stopFills (fun w => w.dom == dom) (fun l => l.dom == dom) s
  { t with xlt := { t.xlt with
    xtc := t.xlt.xtc.filter (fun k => !(k.dom == dom)), walks := t.xlt.walks.filter (fun w => !(w.dom == dom)) } }

/-- SCOPE 1, LEAF and WALK. -/
theorem xltInvalidateGo_domain {f : Nat} {ref : EntryRef} {e : BitVec 512} {b : BitVec 256} {dom : BitVec 16} {s : State}
    (hfn : ref.fn = f) (hdom : b.extractLsb' 112 16 = dom) (hhigh : bits 255 96 b = dom.toNat * 2 ^ 16) (hlow : bits 63 0 b = 0b010011)
    (hpd : pdJudge f dom s = none) :
    xltInvalidateGo ref e (b.setWidth 2048) s = startDrain ref .other (caughtWalks (fun w => w.dom == dom) s)
      (hostWrite f (eLaddr e + 8) (leBytes 4 (s.xlt.locked.filter (fun x => x.2.leaf.dom == dom)).length) (emptyDomain dom s)) := by
  have hw : 256 ≤ 2048 := by decide
  have hd := dom.isLt
  have hscope : bits 5 4 b = 1 := bits_of_bits hlow (by decide) (by decide) (by decide)
  have hleaf : bit 0 b = true := bit_of_bits hlow (by decide) (by decide)
  have hwalk : bit 1 b = true := bit_of_bits hlow (by decide) (by decide)
  have hz : bits 111 96 b = 0 ∧ bits 63 6 b = 0 ∧ bits 3 2 b = 0 ∧ bits 255 128 b = 0 := by
    refine ⟨?_, bits_of_bits hlow (by decide) (by decide) (by decide), bits_of_bits hlow (by decide) (by decide) (by decide), ?_⟩
    all_goals
      rw [bits_of_bits hhigh (by decide) (by decide) (by decide)]
      omega
  obtain ⟨hz1, hz2, hz3, hz4⟩ := hz
  simp [xltInvalidateGo, hfn, InvScope.hits_domain, zeroBits, blkWrite, emptyDomain, bits_setWidth _ _ b hw, bit_setWidth _ b hw,
    BitVec.extractLsb'_setWidth_of_le, hdom, hscope, hleaf, hwalk, hz1, hz2, hz3, hz4, hpd]

/-! ### XLT_LOCK and XLT_UNLOCK (R97) -/

theorem xltLockGo_walks {ref : EntryRef} {e : BitVec 512} {b : BitVec 128} {pd : BitVec 16} {va : Nat} {s : State}
    (hpdb : b.extractLsb' 48 16 = pd) (hvab : bits 127 64 b = va) (hz : bits 47 40 b = 0 ∧ bits 31 0 b = 0) :
    xltLockGo ref e (b.setWidth 2048) s = lockWalk ref pd va s := by
  have hw : 128 ≤ 2048 := by decide
  simp [xltLockGo, zeroBits, bits_setWidth _ _ b hw, BitVec.extractLsb'_setWidth_of_le, hpdb, hvab, hz]

theorem lockWalk_walks {f : Nat} {ref : EntryRef} {pd : BitVec 16} {va : Nat} {p : Pd} {w : Walk} {s : State} (hfn : ref.fn = f)
    (hpd : pdJudge f pd s = none) (hp : tget s.xlt.pds pd.toNat = some p) (hroot : p.root ≠ 0) (hva : va < 2 ^ 48)
    (hslot : lockedSlot pd va s = none) (hroom : s.xlt.locked.length < 256) (hstart : walkStart pd p.root va s = w)
    (htable : tableOk f w.table s = true) :
    lockWalk ref pd va s = suspend
      { fn := f, dom := some pd, parts := [], rights := 0, rd := false, wr := false, testsOnly := true, purpose := .lockPage ref }
      [] (.walk w) (hostRead f (w.table + BitVec.ofNat 64 (8 * tableIndex w.level va)) 8 s) := by
  have hlockable : (p.root == 0 || decide (2 ^ 48 ≤ va) || (lockedSlot pd va s).isSome) = false := by
    rw [beq_false_of_ne hroot, decide_eq_false (Nat.not_le.mpr hva), hslot]
    rfl
  simp only [lockWalk, hfn, hpd, hp, Option.map_some, Option.getD_some, hlockable, hstart, htable, Nat.not_le.mpr hroom, Bool.not_true,
    Bool.false_eq_true, if_false]

theorem xltUnlockGo_frees {f : Nat} {ref : EntryRef} {e : BitVec 512} {b : BitVec 128} {pd : BitVec 16} {slot va : Nat} {l : Locked}
    {s : State} (hfn : ref.fn = f) (hpdb : b.extractLsb' 48 16 = pd) (hvab : bits 127 64 b = va) (hslotb : bits 39 32 b = slot)
    (hz : bits 47 40 b = 0 ∧ bits 31 0 b = 0) (hpd : pdJudge f pd s = none) (hl : tget s.xlt.locked slot = some l)
    (howner : l.owner = f) (hcovers : l.leaf.covers pd va = true) :
    xltUnlockGo ref e (b.setWidth 2048) s =
      startDrain ref .other [] { s with xlt := { s.xlt with locked := tdel s.xlt.locked slot } } := by
  have hw : 128 ≤ 2048 := by decide
  simp [xltUnlockGo, hfn, zeroBits, bits_setWidth _ _ b hw, BitVec.extractLsb'_setWidth_of_le, hpdb, hvab, hslotb, hz, hpd, hl, howner,
    hcovers]

/-- Settles O17: the block of each of these entries passes its tests, and what the tests ask of the State is what they asked before the
block was read. -/
theorem translationsAreInvalidatedAndLocked : Obligations.TranslationsAreInvalidatedAndLocked := by
  intro f b16 b32 ref e slot l s fn at_ read dom pd va
  have hread (n : Nat) : blockRead fn ref e n s = read n := rfl
  have hxlt (n : Nat) : (read n).xlt = s.xlt := hread n ▸ blockRead_xlt ..
  have hjudge (n : Nat) (x : BitVec 16) : pdJudge fn x (read n) = pdJudge fn x s := hread n ▸ pdJudge_blockRead ..
  have hslots (n : Nat) : lockedSlot pd va (read n) = lockedSlot pd va s := hread n ▸ lockedSlot_blockRead ..
  have hstart (n : Nat) (root : BitVec 64) : walkStart pd root va (read n) = walkStart pd root va s := hread n ▸ walkStart_blockRead ..
  have htables (n : Nat) (a : BitVec 64) : tableOk fn a (read n) = tableOk fn a s := hread n ▸ tableOk_blockRead ..
  -- From here on the State that has been read is a name: no term about it is unfolded.
  clear_value read
  have hva : bits 127 64 b16 = va := bits_to_top 64 b16 rfl (by decide)
  refine ⟨fun ⟨hat, hwin⟩ hhigh hlow hpd => ?invalidate, fun ⟨hat, hwin⟩ hz1 hz2 hpd hcanon hslot hroom p hp hroot => ?lock,
    fun ⟨hat, hwin⟩ hz1 hz2 hpd hslot hl howner hcovers => ?unlock⟩
  case invalidate =>
    have hempties := xltInvalidateGo_domain (e := e) (issueOf_fn hat) rfl hhigh hlow ((hjudge 32 dom).trans hpd)
    rw [hxlt] at hempties
    exact does_of_exec rfl ((adminRun_read (hread 32) hat hwin rfl (by decide) (by decide)).trans hempties)
  case lock =>
    intro w htable
    have hwalks := lockWalk_walks (issueOf_fn hat) ((hjudge 16 pd).trans hpd) (hxlt 16 ▸ hp) hroot hcanon ((hslots 16).trans hslot)
      (hxlt 16 ▸ hroom) (hstart 16 p.root) ((htables 16 w.table).trans htable)
    have hlocks := (xltLockGo_walks (e := e) rfl hva ⟨hz1, hz2⟩).trans hwalks
    exact does_of_exec rfl ((adminRun_read (hread 16) hat hwin rfl (by decide) (by decide)).trans hlocks)
  case unlock =>
    have hslotb : bits 39 32 b16 = slot := hslot
    have hfrees := xltUnlockGo_frees (e := e) (issueOf_fn hat) rfl hva hslotb ⟨hz1, hz2⟩ ((hjudge 16 pd).trans hpd) (hxlt 16 ▸ hl)
      howner hcovers
    exact does_of_exec rfl ((adminRun_read (hread 16) hat hwin rfl (by decide) (by decide)).trans hfrees)

end Sys2Proof.Machine

/-! ## The tables of a function: enabling, disabling and what their reads return (03, 04, 06) -/

namespace Sys2Proof.Machine

open Sys2Proof.Claims

/-! ### Control registers (R74, R110, R189) -/

theorem enableTable_off {f ctrl : Nat} {ok : Bool} {s : State} (h : bit 1 (rdFn f ctrl s) = false) :
    enableTable f ctrl ok s = setFf f ctrl (if ok then 1 else 2) (if ok then 1 else 2) 1 (setFf f ctrl 0 0 1 s) := by
  cases ok <;> simp [enableTable, h]

theorem disableTable_on {f ctrl : Nat} {held : Bool} {s : State} (h : bit 1 (rdFn f ctrl s) = true) :
    disableTable f ctrl held s = if held then setFf f ctrl 2 2 1 s else setFf f ctrl 1 0 0 s := by
  simp [disableTable, h]

/-! ### QPC_RANGE (R108) -/

theorem mgtWrOff_taken {m : Master} {k : State → State} {s : State} (h : MgtWritesOff m s) : mgtWrOff m k s = k s := by
  obtain ⟨hwrites, hp2⟩ := h
  have hoff : (m == 0x801 && powerState s == 2) = false :=
    Bool.eq_false_iff.mpr fun hc => by
      rw [Bool.and_eq_true, beq_iff_eq, beq_iff_eq] at hc
      exact hp2 hc.1 hc.2
  rw [mgtWrOff, hoff, if_neg Bool.false_ne_true, mgtWr_taken hwrites]

theorem mgtWrOff_cross_taken {m : Master} {src : Nat} {r : HeldReq} {k : State → State} {s : State} (hw : MgtWritesOff m s)
    (hopen : Open src s) : mgtWrOff m (cross src r k) s = k s :=
  (mgtWrOff_taken hw).trans (cross_open hopen)

theorem writeRange_valid {f : Nat} {v : BitVec 64} {s : State} (hsize : bits 28 24 v ≤ 24) (halign : bits 23 0 v % 2 ^ bits 28 24 v = 0)
    (htaken : v.getLsbD 31 = true → rangeTaken f v s = false) (hoff : ctxtabActive f s = false) :
    writeRange f v s = writeReg (Reg.QPC_RANGE + 8 * f) v s := by
  have hfree : (bit 31 v && rangeTaken f v s) = false := by
    rw [bit_eq_getLsbD]
    cases hv : v.getLsbD 31
    · rfl
    · exact htaken hv
  simp [writeRange, Nat.not_lt.mpr hsize, halign, hfree, hoff]

theorem writeRange_tooLarge {f : Nat} {v : BitVec 64} {s : State} (hsize : 24 < bits 28 24 v) : writeRange f v s = evcPulse 204 0 s := by
  simp [writeRange, hsize]

theorem functionTablesAreEnabled : FunctionTablesAreEnabled := by
  intro f m v s fn tables off
  refine ⟨fun hw => ⟨?enable, fun hopen hon => ?keytab, fun hopen hon => ?ctxtab, fun hopen hon => ?uxpool⟩,
    fun hw hopen hsize halign htaken hinactive => ?range, fun hw hopen hsize => ?tooLarge⟩
  case enable =>
    simp only [tables, List.forall_mem_cons]
    refine ⟨fun hopen hoff => ?_, fun hopen hoff => ?_, fun hopen hoff => ?_, by simp⟩
    all_goals exact does_of_exec rfl ((hostWr_cross_taken hw hopen).trans (enableTable_off hoff))
  case keytab =>
    intro u
    refine does_of_exec rfl ((hostWr_cross_taken hw hopen).trans ?_)
    rw [keytabOff, disableTable_on hon]
  case ctxtab => exact does_of_exec rfl ((hostWr_cross_taken hw hopen).trans (disableTable_on hon))
  case uxpool => exact does_of_exec rfl ((hostWr_cross_taken hw hopen).trans (disableTable_on hon))
  case range => exact does_of_exec rfl ((mgtWrOff_cross_taken hw hopen).trans (writeRange_valid hsize halign htaken hinactive))
  case tooLarge => exact does_of_exec rfl ((mgtWrOff_cross_taken hw hopen).trans (writeRange_tooLarge hsize))

/-! ### Region descriptors (R72, R80) -/

theorem takeWaiting_none {which : Waiting → Bool} {s : State} (h : ∀ j ∈ s.xlt.waiting, which j = false) :
    takeWaiting which s = ([], s) := by
  have hnone : s.xlt.waiting.filter which = [] := List.filter_eq_nil_iff.mpr fun j hj => ne_true_of_eq_false (h j hj)
  have hall : s.xlt.waiting.filter (fun j => !which j) = s.xlt.waiting := List.filter_eq_self.mpr fun j hj => by rw [h j hj]; rfl
  rw [takeWaiting, hnone, hall]

/-- A descriptor that no admin entry waits for is cached, and the accesses that wait for it are checked again. -/
theorem descCome_caches {f idx : Nat} {bs : List Byte} {s : State} (hsome : ∃ j ∈ s.xlt.waiting, j.access.fn = f ∧ j.wait = .desc idx)
    (hplain : ∀ j ∈ s.xlt.waiting, j.access.fn = f → j.wait = .desc idx → descAdmin j = false) (hlen : bs.length = 32) :
    descCome f idx (.data bs) s = setWaits (fun j => j.access.fn == f && j.wait == .desc idx) (fun j => { j with wait := .ready })
      (cacheDesc f idx (Desc.decode (ofBytes 256 bs)) s) := by
  have hany : s.xlt.waiting.any (fun j => j.access.fn == f && j.wait == .desc idx) = true := by simpa using hsome
  have hnone : ∀ j ∈ s.xlt.waiting, (j.access.fn == f && j.wait == .desc idx && descAdmin j) = false := by
    intro j hj
    by_cases hmine : j.access.fn = f ∧ j.wait = .desc idx
    · simp [hplain j hj hmine.1 hmine.2]
    · simp [hmine]
  have hfit : fitBytes 32 bs = bs := hlen ▸ fitBytes_self bs
  simp only [descCome, hany, takeWaiting_none hnone, hfit, Bool.not_true, Bool.false_eq_true, if_false, List.foldl_nil]

/-! ### Walks (R85 to R91) -/

section Walk

variable {serial : Nat} {w : Waiting} {k : Walk} {s : State} (hw : s.xlt.waiting.find? (fun j => j.serial == serial) = some w)
include hw

theorem find_serial : w.serial = serial := by
  simpa using List.find?_some hw

theorem walkAborts_fails (hlock : ∀ ref, w.access.purpose ≠ .lockPage ref) (d : Nat) :
    walkAborts w d s = setWaits (fun j => j.serial == serial) (fun j => { j with wait := .failed d }) s := by
  unfold walkAborts
  split
  next ref href => exact absurd href (hlock ref)
  next => rw [find_serial hw]

variable (hk : w.wait = .walk k)
include hk

theorem walkCome_pcieError : walkCome serial .pcieError s = walkAborts w 0x10 s := by
  simp [walkCome, hw, hk]

variable {e : BitVec 64}

theorem walkCome_fail {d : Nat} (hout : walkEntry k e = .fail d) : walkCome serial (.data (leBytes 8 e.toNat)) s = walkAborts w d s := by
  simp [walkCome, hw, hk, ofBytes_leBytes, hout]

theorem walkCome_table {next : BitVec 64} (hout : walkEntry k e = .table next) (htable : tableOk w.access.fn next s = true) :
    walkCome serial (.data (leBytes 8 e.toNat)) s =
      setWaits (fun j => j.serial == serial) (fun j => { j with wait := .walk (k.down next) })
        (hostRead w.access.fn (next + BitVec.ofNat 64 (8 * tableIndex (k.level - 1) k.va.toNat)) 8 s) := by
  simp [walkCome, hw, hk, ofBytes_leBytes, hout, Walk.down, htable]

theorem walkCome_leaf {l : Leaf} (hout : walkEntry k e = .leaf l) (hlock : ∀ ref, w.access.purpose ≠ .lockPage ref) :
    walkCome serial (.data (leBytes 8 e.toNat)) s =
      setWaits (fun j => j.serial == serial) (fun j => { j with wait := .ready, leaves := l :: j.leaves }) (fillCaches k l s) := by
  have hentry : ofBytes 64 (fitBytes 8 (leBytes 8 e.toNat)) = e := by
    rw [fitBytes_leBytes, ofBytes_leBytes 64 e (by decide), BitVec.setWidth_eq]
  -- `hlock` leaves the branch of every purpose but XLT_LOCK's.
  simp only [walkCome, hw, hk, hentry, hout]

end Walk

/-! ### Flushing reads (R105, R141) -/

theorem flushCome_writes {link f a : Nat} {b : Budget} {n : Notice} {c : Option BoundRecv} {release : Bool} {bs : List Byte} {s : State}
    (hfind : s.xlt.flushes.find? (fun j => j.1 == link) = some (link, .notice f a b n c release)) (hf : frozen f s = false) :
    flushCome link (.data bs) s = endRelease c release (writeNotice f a b n
      { s with xlt := { s.xlt with flushes := dropFirst (fun j => j.1 == link) s.xlt.flushes } }) := by
  simp only [flushCome, hfind]
  exact if_neg (ne_true_of_eq_false hf)

/-! ### Contexts (R114, R124 to R127) -/

section Fetch

variable {q f first : Nat} {x : Fetch} {s : State} (hx : tget s.qpc.fetches q = some x) (hq : qpRange q s = some (f, first))
include hx hq

theorem fetchCome_live {bs : List Byte} {y : Qp} (hslot : x.waitSlot = false) (hretry : x.waitRetry = false) (hlen : bs.length = 256)
    (hlive : imageDecode bs = .live y) :
    fetchCome q (.data bs) s =
      if (tget s.qpc.bound q).isNone then
        issueWaiting (serveFetch q (fun s => x.jobs.foldl (fun s j => jobUnbound q y j s) s) (endFetch q s))
      else issueWaiting (serveFetch q (jobsGo q y.par.incarn x.jobs) (installFetched q f y (endFetch q s))) := by
  have hfit : fitBytes 256 bs = bs := hlen ▸ fitBytes_self bs
  simp [fetchCome, hx, hq, hslot, hretry, hfit, hlive, endFetch]

theorem fetchCome_firstError (hslot : x.waitSlot = false) (hretry : x.waitRetry = false) (hfirst : x.second = false) :
    fetchCome q .pcieError s = putFetch q { x with waitRetry := true } s := by
  simp [fetchCome, hx, hq, hslot, hretry, hfirst]

theorem fetchRetry_issues (hretry : x.waitRetry = true) (hread : readable f (imageAddr f q first s) 256 s = true) :
    fetchRetry q s = issueFetch q { x with waitRetry := false, second := true } s := by
  simp [fetchRetry, hx, hq, hretry, hread]

end Fetch

theorem eviction_stops {s : State} (h : 512 ≤ 65536 - wickUsed s) : eviction s = { s with qpc := { s.qpc with evicting := false } } := by
  have hoff : (decide (65536 - wickUsed s < 256) || (s.qpc.evicting && decide (65536 - wickUsed s < 512))) = false := by
    simp; omega
  simp only [eviction, hoff, Bool.false_eq_true, if_false]

theorem eviction_evicts {s : State} (h : 65536 - wickUsed s < 256) :
    eviction s = evictOne { s with qpc := { s.qpc with evicting := true } } := by
  simp only [eviction, decide_eq_true h, Bool.true_or, if_true]

theorem tableReadsReturn : TableReadsReturn := by
  intro f idx serial link q bs raw w k l next d n g a b c release x first y s fn sr mine
  refine ⟨fun hsome hplain hlen => does_of_exec rfl (descCome_caches hsome hplain hlen), fun hw hk hlock => ⟨fun hout htable => ?table,
      fun hout => ?leaf, fun hout => ?fail, ?pcieError⟩,
    fun hfind hf => does_of_exec rfl (flushCome_writes hfind hf), fun hx hq hslot => ⟨fun hretry hlen hlive hbound => ?live,
      fun hretry hlen hlive hbound => ?unbound, fun hretry hfirst => ?again, fun hretry hread => ?retry⟩,
    fun h => does_of_exec rfl (eviction_stops h), fun h => does_of_exec rfl (eviction_evicts h)⟩
  case table => exact does_of_exec rfl (walkCome_table hw hk hout htable)
  case leaf => exact does_of_exec rfl (walkCome_leaf hw hk hout hlock)
  case fail => exact does_of_exec rfl ((walkCome_fail hw hk hout).trans (walkAborts_fails hw hlock d))
  case pcieError => exact does_of_exec rfl ((walkCome_pcieError hw hk).trans (walkAborts_fails hw hlock 0x10))
  case live =>
    have hlives := fetchCome_live hx hq hslot hretry hlen hlive
    rw [if_neg (by simpa using hbound)] at hlives
    exact does_of_exec rfl hlives
  case unbound =>
    have hlives := fetchCome_live hx hq hslot hretry hlen hlive
    rw [if_pos (by simpa using hbound)] at hlives
    exact does_of_exec rfl hlives
  case again => exact does_of_exec rfl (fetchCome_firstError hx hq hslot hretry hfirst)
  case retry => exact does_of_exec rfl (fetchRetry_issues hx hq hretry hread)

/-- Settles O20: each control register's write is taken and finds its table ACTIVE or not, and each read returns to what waits for it. -/
theorem tablesAreEnabledAndRead : Obligations.TablesAreEnabledAndRead := ⟨functionTablesAreEnabled, tableReadsReturn⟩

end Sys2Proof.Machine

/-! ## MR_REGISTER, and the ring whose entry indices wrap (R77, R78) -/

namespace Sys2Proof.Machine

open Sys2Proof.Claims

/-! ### What a registration does (R77, R78) -/

/-- A block that is read into the 2,048 bits of an admin entry's comes back from them. -/
theorem extractLsb'_block {n : Nat} (b : BitVec n) (h : n ≤ 2048) : (b.setWidth 2048).extractLsb' 0 n = b := by
  rw [BitVec.extractLsb'_setWidth_of_le (by omega), BitVec.extractLsb'_eq_self]

theorem leBytes_byte (v : Byte) : leBytes 1 v.toNat = [v] := by
  simp [leBytes, Nat.mod_eq_of_lt v.isLt]

/-- A registration that succeeds, with the generation returned in a block at `a`. -/
def registerEnd (f : Nat) (ref : EntryRef) (b : BitVec 256) (d : Desc) (a : BitVec 64) (s : State) : State :=
  let n : Desc := { va := b.extractLsb' 192 64, size := b.extractLsb' 128 64, gen := d.gen + 1, pd := b.extractLsb' 80 16,
                    btr := b.extractLsb' 72 8, state := .valid, modeBtr := b.getLsbD 69, rights := b.extractLsb' 64 5 }
  let r : Region := { pd := n.pd, btr := if n.modeBtr then some n.btr else none }
  finishEntry ref 1 0 (hostWrite f (a + 12) [d.gen + 1] (writeDesc f (bits 127 104 b) n
    { s with xlt := { s.xlt with regions := tset s.xlt.regions (descKey f (bits 127 104 b)) r } }))

/-- The generation is returned in the block of the entry that the ring holds under the reference. -/
theorem registerGo_registers {ref : EntryRef} {b : BitVec 256} {d : Desc} {s : State} (hjudge : registerJudge ref.fn b s = none)
    (hd : tget s.xlt.descs (descKey ref.fn (bits 127 104 b)) = some d) (hinv : d.state = .invalid) :
    registerGo ref b s = registerEnd ref.fn ref b d (eLaddr (refRaw ref s)) s := by
  have hfree : ¬(d.state == .valid || d.state == .revoking) = true := by simp [hinv]
  simp only [registerGo, hjudge, hd, if_neg hfree, blkWrite, leBytes_byte, bit_eq_getLsbD]
  rfl

theorem does_mrRegister {f : Fn} {ref : EntryRef} {e : BitVec 512} {b : BitVec 256} {d : Desc} {s : State}
    (hat : issueOf 0x3A f.toNat 0 s = some (ref, e)) (hwin : inWindow f.toNat (eLaddr e) 32 s = true)
    (hjudge : registerJudge f.toNat b (blockRead f.toNat ref e 32 s) = none)
    (hd : tget (blockRead f.toNat ref e 32 s).xlt.descs (descKey f.toNat (bits 127 104 b)) = some d) (hinv : d.state = .invalid) :
    Does (.mrRegister f b) s
      (registerEnd f.toNat ref b d (eLaddr (refRaw ref (blockRead f.toNat ref e 32 s))) (blockRead f.toNat ref e 32 s)) := by
  refine does_of_exec rfl ((adminRun_block hat b rfl (by decide) (by decide) hwin).trans ?_)
  rw [mrRegisterGo, extractLsb'_block _ (by decide)]
  rw [← issueOf_fn hat] at hjudge hd ⊢
  exact registerGo_registers hjudge hd hinv

/-! ### The entry that is issued next, by its place in the ring (R36) -/

/-- The first entry not issued is issued next where its ring runs and it is not fenced. -/
theorem issueOf_first {f r i : Nat} {g : Ring} {x : Entry} {s : State} (hg : getRing f r s = some g)
    (hi : firstUnissued g.entries = some i) (hx : g.entries[i]? = some x) (hrun : g.state = .running) (hf : frozen f s = false)
    (hissuing : g.issuing = false) (hplain : eFence x.raw = false ∧ eOpcode x.raw ≠ 0x10 ∧ eOpcode x.raw ≠ 0x12) :
    issueOf (eOpcode x.raw) f r s = some (⟨f, r, g.uid, g.head + BitVec.ofNat 32 i⟩, x.raw) := by
  simp [issueOf, issuable, hg, hi, hx, hrun, hf, hissuing, hplain]

theorem getElem?_replicate_concat {α : Type} (x y : α) (n : Nat) : (List.replicate n x ++ [y])[n]? = some y := by
  simp

theorem firstUnissued_replicate {x y : Entry} (hx : x.issued = true) (hy : y.issued = false) (n : Nat) :
    firstUnissued (List.replicate n x ++ [y]) = some n := by
  induction n with
  | zero => simp [firstUnissued, hy]
  | succ n ih => simp [List.replicate_succ, firstUnissued, hx, ih]

/-! ### The counterexample to O16 -/

/-- An MR_REGISTER entry with its block at `a`. -/
def registerEntry (a : Nat) : BitVec 512 := BitVec.ofNat 512 (0x3A + a * 2 ^ 256)

/-- 2^32 entries that have finished, and one that has not been issued: its index is that of the first. -/
def wrappedEntries : List Entry :=
  List.replicate (2 ^ 32) ⟨registerEntry 0x6000, true, some (1, 0)⟩ ++ [⟨registerEntry 0x5000, false, none⟩]

def wrappedRing : Ring :=
  { uid := 1, base := 0x10000, log2size := 6, mirror := 0x20000, fmt8520 := false, page := 1, head := 0, tail := 1, state := .running,
    errcnt := 0, published := 0, entries := wrappedEntries, waitOwn := false, issuing := false, reading := none, readPd := 0 }

/-- A descriptor not in use, of generation 3. -/
def unusedDesc : Desc := { va := 0, size := 0, gen := 3, pd := 0, btr := 0, state := .invalid, modeBtr := false, rights := 0 }

/-- Function 0 with the window [0, 2^40), an ACTIVE key table of 256 descriptors with the last one not in use, and domain 5. -/
def registering : State :=
  let s := setFf 0 Reg.XLT_KEYTAB_CTRL 1 0 3 (setFf 0 Reg.XLT_KEYTAB 4 0 8 (writeReg Reg.HIF_WIN 0x68 State.reset))
  { s with xlt := { s.xlt with pds := [(5, { owner := 0, root := 0x1000 })], descs := [(descKey 0 255, unusedDesc)] } }

/-- Function 0's admin ring holds the entries. -/
def wrapped : State := putRing 0 0 wrappedRing registering

/-- The reference of the last entry, and of the first. -/
def wrappedRef : EntryRef := ⟨0, 0, 1, 0⟩

/-- The block that asks for descriptor 255, in domain 5, with all rights. -/
def registerBlock : BitVec 256 := BitVec.ofNat 256 (0x1000 * 2 ^ 128 + 255 * 2 ^ 104 + 5 * 2 ^ 80 + 31 * 2 ^ 64)

theorem firstUnissued_wrappedEntries : firstUnissued wrappedEntries = some (2 ^ 32) := by
  rw [wrappedEntries]
  exact firstUnissued_replicate rfl rfl (2 ^ 32)

theorem getElem?_wrappedEntries : wrappedEntries[2 ^ 32]? = some ⟨registerEntry 0x5000, false, none⟩ := by
  rw [wrappedEntries]
  exact getElem?_replicate_concat _ _ (2 ^ 32)

theorem issueOf_wrapped : issueOf 0x3A 0 0 wrapped = some (wrappedRef, registerEntry 0x5000) := by
  have hring : getRing 0 0 wrapped = some wrappedRing := getRing_putRing_same ..
  have hop : eOpcode (registerEntry 0x5000) = 0x3A := by decide +kernel
  have hissue := issueOf_first (i := 2 ^ 32) (x := ⟨registerEntry 0x5000, false, none⟩) hring firstUnissued_wrappedEntries
    getElem?_wrappedEntries rfl (by decide +kernel) rfl (by decide +kernel)
  rw [hop] at hissue
  exact hissue

/-- Refutes O16: the statement does not bound the entries that the admin ring holds (R37 allows 2^20), and an entry's index has 32 bits.
The MR_REGISTER behind 2^32 entries has the index of the first of them, so the model returns the generation in the block of that entry, at
0x6000, and not in its own, at 0x5000. -/
theorem not_domainsRegionsAndBtrs : ¬ Obligations.DomainsRegionsAndBtrs := by
  intro h
  have hrun : running wrapped = true := by decide +kernel
  have hwin : inWindow (0 : Fn).toNat (eLaddr (registerEntry 0x5000)) 32 wrapped = true := by decide +kernel
  have hstated : Does (.mrRegister 0 registerBlock) wrapped
      (registerEnd (0 : Fn).toNat wrappedRef registerBlock unusedDesc (eLaddr (registerEntry 0x5000))
        (blockRead (0 : Fn).toNat wrappedRef (registerEntry 0x5000) 32 wrapped)) := by
    obtain ⟨-, -, hregister, -⟩ := h 0 0 registerBlock wrappedRef (registerEntry 0x5000) 0 (bits 127 104 registerBlock)
      unusedDesc wrapped
    have hdoes := hregister ⟨issueOf_wrapped, .inr hwin⟩ (by decide +kernel) rfl (by decide +kernel) rfl
    dsimp only at hdoes
    rw [registerEnd, blockRead]
    with_reducible exact hdoes
  have hmodel := does_mrRegister (f := 0) (b := registerBlock) (d := unusedDesc) issueOf_wrapped hwin
    (by decide +kernel) (by decide +kernel) rfl
  have hsame := congrArg (fun s => s.xlt.dirty) (Host.Outcome.next.inj ((hstated hrun).symm.trans (hmodel hrun)))
  exact absurd hsame (by decide +kernel)

end Sys2Proof.Machine

/-! ## Context images (R112) -/

namespace Sys2Proof.Machine

/-! ### Values from their place in a word -/

/-- STATE has four bits (R112). -/
theorem QpState.code_lt (st : QpState) : st.code < 2 ^ 4 := by cases st <;> decide

@[simp] theorem QpState.ofCode_code (st : QpState) : QpState.ofCode st.code = some st := by cases st <;> rfl

theorem b2n_lt (b : Bool) : b2n b < 2 := by cases b <;> decide

/-- A field of a word is the value whose number stands at its place. -/
theorem extractLsb'_eq_of_toNat {n k m : Nat} {w : BitVec n} {x : BitVec m} (h : w.toNat / 2 ^ k % 2 ^ m = x.toNat) :
    w.extractLsb' k m = x := by
  apply BitVec.eq_of_toNat_eq
  rw [BitVec.extractLsb'_toNat, Nat.shiftRight_eq_div_pow, h]

theorem bit_eq_of_toNat {n i : Nat} {w : BitVec n} {b : Bool} (h : w.toNat / 2 ^ i % 2 = b2n b) : bit i w = b := by
  rw [bit, h]
  cases b <;> rfl

/-! ### The parameters of a queue pair and their word (R112) -/

section ParamWord

variable {q : Nat} {p : QpParam} {w : BitVec 256} (h : w.toNat = paramNat q p)
include h

theorem bits_qpn_of_paramNat : bits 23 0 w = q % 2 ^ 24 := by
  rw [bits, h, paramNat]
  omega

theorem bits_state_of_paramNat : bits 27 24 w = p.state.code := by
  have hstate := p.state.code_lt
  rw [bits, h, paramNat]
  omega

/-- Each field stands where R112 puts it, and nothing below it reaches its place. -/
theorem paramDecode_of_paramNat : paramDecode w = some p := by
  have hstate := p.state.code_lt
  have hpin := b2n_lt p.pin
  rw [paramDecode, bits_state_of_paramNat h, QpState.ofCode_code, Option.map_some]
  rw [paramNat] at h
  cases p
  dsimp only at hstate hpin h
  congr 2
  case e_pin => exact bit_eq_of_toNat (by omega)
  all_goals exact extractLsb'_eq_of_toNat (by omega)

end ParamWord

/-- Settles O19: a word of 256 bits whose number is the sum of R112's fields holds each of them. -/
theorem contextImageKeepsParameters : Obligations.ContextImageKeepsParameters := by
  intro q p w h
  exact ⟨h ▸ w.isLt, paramDecode_of_paramNat h, bits_qpn_of_paramNat h⟩

end Sys2Proof.Machine

/-! ## Requests at the RXE (R116, R137, R146, R147, R154, R155, R440) -/

namespace Sys2Proof.Machine

open Sys2Proof.Claims

/-! ### Contexts in the State -/

@[simp] theorem getQp_putQp_same (q : Nat) (x : Qp) (s : State) : getQp q (putQp q x s) = some x := tget_tset_same _ _ _

theorem modQp_resident {q : Nat} {x : Qp} {s : State} (hx : getQp q s = some x) (g : Qp → Qp) : modQp q g s = putQp q (g x) s := by
  simp [modQp, hx]

/-! ### The commands of requests -/

/-- The commands by which a request comes, each with its OP (R133). -/
def requestRows (p : Packet) : List (Instr × BitVec 8) :=
  [(.sendPacket p, 0x01), (.writePacket p, 0x02), (.readReq p, 0x03), (.atomicReq p, 0x05), (.counterAddPacket p, 0x07)]

/-- The OPs that the RXE takes as answers (R133). -/
def answerOps : List (BitVec 8) := [0x10, 0x11, 0x04, 0x06]

section Row

variable {p : Packet} {i : Instr × BitVec 8} {s t : State} (hi : i ∈ requestRows p)
include hi

theorem exec_requestRow : exec i.1 s = rxRow i.2 p s := by
  simp only [requestRows, List.mem_cons, List.not_mem_nil, or_false] at hi
  rcases hi with rfl | rfl | rfl | rfl | rfl <;> rfl

theorem requestRow_not_answer : i.2 ∉ answerOps := by
  simp only [requestRows, List.mem_cons, List.not_mem_nil, or_false] at hi
  rcases hi with rfl | rfl | rfl | rfl | rfl <;> simp [answerOps]

variable (hop : p.op = i.2)
include hop

theorem does_requestRow (hup : rxeDown (rxTake p s) = false) (h : rxArrive p (rxTake p s) = t) : Does i.1 s t := by
  refine does_of_exec (exec_requestRow hi) ?_
  simp only [hop, bne_self_eq_false, hup, Bool.false_eq_true, if_false, h]

theorem does_requestRow_lost (hdown : rxeDown (rxTake p s) = true) : Does i.1 s (rxTake p s) := by
  refine does_of_exec (exec_requestRow hi) ?_
  simp only [hop, bne_self_eq_false, hdown, Bool.false_eq_true, if_false, if_true]

end Row

/-! ### Steps 1 to 3 of R137 and R440: what turns a request away before its context is looked up -/

theorem rxArrive_badCrc {p : Packet} (hcrc : e2eCrc p ≠ p.crc) (s : State) :
    rxArrive p s = evcPulse 208 (p.dstEp.toNat % 4) s := by
  simp [rxArrive, hcrc, epPort]

section Arrive

variable {p : Packet} (hcls : p.cls.toNat ≤ 1) (hcrc : e2eCrc p = p.crc) {s : State}
include hcls hcrc

theorem rxArrive_noQp (hq : qpRange p.dstQpn.toNat (noteSource p s) = none) :
    rxArrive p s = sendNak p 0x0F 0 (noteSource p s) := by
  simp [rxArrive, isRequest, hcls, hcrc, hq]

variable {f first : Nat} (hq : qpRange p.dstQpn.toNat (noteSource p s) = some (f, first))
include hq

theorem rxArrive_frozen (hf : frozen f (noteSource p s) = true) :
    rxArrive p s = sendNak p nakContextBusy 0 (noteSource p s) := by
  simp [rxArrive, isRequest, hcls, hcrc, hq, hf]

theorem rxArrive_resident {x : Qp} (hf : frozen f (noteSource p s) = false) (hx : getQp p.dstQpn.toNat (noteSource p s) = some x) :
    rxArrive p s = rxResident p.dstQpn.toNat x p (noteSource p s).now (noteSource p s) := by
  simp [rxArrive, isRequest, hcls, hcrc, hq, hf, hx]

end Arrive

/-! ### Steps 4 and 5 of R137: what the context says (R115, R116) -/

section Resident

variable {p : Packet} {q : Nat} {x : Qp} {since : Nat} {s : State}

theorem rxResident_stranger (ha : accepting x = true) (hp : fromPeer x p = false) : rxResident q x p since s = evcPulse 203 0 s := by
  simp [rxResident, ha, hp]

theorem rxResident_request (ha : accepting x = true) (hp : fromPeer x p = true) (hx : getQp q s = some x) (hop : p.op ∉ answerOps) :
    rxResident q x p since s = rxRequest q { x with used := true, changed := true } p since (touched q x s) := by
  simp only [answerOps, List.mem_cons, List.not_mem_nil, or_false, not_or] at hop
  obtain ⟨hack, hnak, hread, hatomic⟩ := hop
  simp only [rxResident, ha, hp, modQp_resident hx, getQp_putQp_same, beq_false_of_ne hack, beq_false_of_ne hnak,
    beq_false_of_ne hread, beq_false_of_ne hatomic, touched, Bool.not_true, Bool.false_eq_true, if_false]

variable (hcls : p.cls.toNat ≤ 1)
include hcls

theorem rxResident_error (hst : x.par.state = .error) : rxResident q x p since s = sendNak p 0x0F 0 s := by
  simp [rxResident, isRequest, hcls, accepting, hst]

theorem rxResident_reset (hst : x.par.state = .reset) (hinc : p.dstIncarn = x.par.incarn) :
    rxResident q x p since s = sendNak p nakContextBusy 0 s := by
  simp [rxResident, isRequest, hcls, accepting, hst, hinc]

end Resident

/-- A request that its queue pair takes goes on to step 6 of R137 with the context marked as used. -/
theorem rxArrive_request {p : Packet} {q f : Nat} {x : Qp} {s : State} (hcls : p.cls.toNat ≤ 1) (hop : p.op ∉ answerOps)
    (h : Arrives p q f x (noteSource p s)) :
    rxArrive p s =
      rxRequest q { x with used := true, changed := true } p (noteSource p s).now (touched q x (noteSource p s)) := by
  obtain ⟨hcrc, rfl, ⟨first, hq⟩, hf, hx, ha, hp⟩ := h
  rw [rxArrive_resident hcls hcrc hq hf hx, rxResident_request ha hp hx hop]

/-! ### Steps 6 to 8 of R137: the request is counted and its header judged (R138, R146, R155) -/

/-- A context that is used, with one more packet counted toward the next ACK. -/
def countedQp (x : Qp) (p : Packet) : Qp :=
  { x with used := true, changed := true, counted := x.counted + 1, marked := x.marked + (if p.ce then 1 else 0) }

section Request

variable {p : Packet} {q : Nat} {x : Qp} {since : Nat} {s : State}

theorem getQp_markCount_touched : getQp q (markCount q p (touched q x s)) = some (countedQp x p) := by
  rw [markCount, touched, modQp_resident (getQp_putQp_same ..), getQp_putQp_same]
  rfl

variable (hreach : InReach x p)
include hreach

/-- Within the reach of R137 a request is counted, and the counted context judges its header. -/
theorem rxRequest_inReach :
    rxRequest q { x with used := true, changed := true } p since (touched q x s) =
      if !headerAgrees (countedQp x p) p then refuseInvalid q p (markCount q p (touched q x s))
      else if p.op == 0x01 then rxSend q (countedQp x p) p since (markCount q p (touched q x s))
      else xltStart (keyedAccess q (countedQp x p) p since (markCount q p (touched q x s))) (markCount q p (touched q x s)) := by
  obtain ⟨hlo, hhi⟩ := hreach
  simp only [rxRequest, psnDist, i32, hlo, hhi, getQp_markCount_touched, decide_true, Bool.and_self, Bool.not_true,
    Bool.false_eq_true, if_false]

theorem rxRequest_disagrees (hh : headerAgrees (countedQp x p) p = false) :
    rxRequest q { x with used := true, changed := true } p since (touched q x s) =
      enterError q 0x0E 0 (sendNak p 0x0E 0 (markCount q p (touched q x s))) := by
  rw [rxRequest_inReach hreach, hh]
  rfl

variable (hh : headerAgrees (countedQp x p) p = true)
include hh

theorem rxRequest_keyed (hop : p.op ≠ 0x01) :
    rxRequest q { x with used := true, changed := true } p since (touched q x s) =
      xltStart (keyedAccess q (countedQp x p) p since (markCount q p (touched q x s))) (markCount q p (touched q x s)) := by
  rw [rxRequest_inReach hreach, hh, beq_false_of_ne hop]
  rfl

theorem rxRequest_send (hop : p.op = 0x01) :
    rxRequest q { x with used := true, changed := true } p since (touched q x s) =
      rxSend q (countedQp x p) p since (markCount q p (touched q x s)) := by
  rw [rxRequest_inReach hreach, hh, hop]
  rfl

end Request

/-! ### SEND from step 9 of R137 on (R174, R176) -/

section Send

variable {p : Packet} {q : Nat} {x : Qp} {since : Nat} {s : State}

theorem firstPsn_send (hop : p.op = 0x01) :
    firstPsn p (pktOffset p) = p.psn - BitVec.ofNat 32 (p.addr.toNat % 2 ^ 32 / 4096) := by
  simp [firstPsn, pktOffset, hop, bits_from_zero]

theorem rxSend_received (hr : psnReceived x p.psn = true) : rxSend q x p since s = sendAck q (heard p since) s := by
  simp [rxSend, hr]

theorem rxSend_fenced (hr : psnReceived x p.psn = false) (hf : unitFenced 133 s = true) : rxSend q x p since s = s := by
  simp [rxSend, hr, hf]

theorem rxSend_bound {b : BoundRecv} (hop : p.op = 0x01) (hr : psnReceived x p.psn = false) (hf : unitFenced 133 s = false)
    (hb : s.mte.bound.find? (fun b => b.qpn == q && b.psn0 == p.psn - BitVec.ofNat 32 (p.addr.toNat % 2 ^ 32 / 4096)) = some b) :
    rxSend q x p since s = placeSend q p since b s := by
  simp only [rxSend, hr, hf, firstPsn_send hop, hb, Bool.false_eq_true, if_false]

end Send

/-- Settles O22: a request is turned away before or by its context, or is counted, has its header judged, and goes on as a SEND or as an
access. -/
theorem requestsAreTakenOrRefused : Obligations.RequestsAreTakenOrRefused := by
  intro p q f x b s hcls s0 noted x' t rows nak
  refine ⟨fun hup harr hreach hh => ?takes, fun hup harr hreach hh i hi hop => ?disagrees,
    fun hdown i hi hop => does_requestRow_lost hi hop hdown, fun hup i hi hop => ?refused⟩
  case takes =>
    have hreq {op : BitVec 8} (hop : p.op = op) (ho : op ∉ answerOps) := rxArrive_request hcls (hop ▸ ho) harr
    have hsend (hop : p.op = 0x01) {u : State} (hu : rxSend q x' p noted.now t = u) : Does (.sendPacket p) s u :=
      does_requestRow (i := (.sendPacket p, 0x01)) (List.mem_cons_self ..) hop hup
        ((hreq hop (by decide)).trans ((rxRequest_send hreach hh hop).trans hu))
    refine ⟨fun i hi hop hne => ?keyed, fun hop hr => ?old, fun hop hr hf => ?fenced, fun hop hr hf hb => ?bound⟩
    case keyed => exact does_requestRow hi hop hup ((hreq hop (requestRow_not_answer hi)).trans (rxRequest_keyed hreach hh hne))
    case old => exact hsend hop (rxSend_received hr)
    case fenced => exact hsend hop (rxSend_fenced hr hf)
    case bound => exact hsend hop (rxSend_bound hop hr hf hb)
  case disagrees =>
    exact does_requestRow hi hop hup
      ((rxArrive_request hcls (hop ▸ requestRow_not_answer hi) harr).trans (rxRequest_disagrees hreach hh))
  case refused =>
    have hdoes {u : State} (hu : rxArrive p s0 = u) : Does i.1 s u := does_requestRow hi hop hup hu
    refine ⟨fun hcrc => hdoes (rxArrive_badCrc hcrc s0), fun hcrc hq => hdoes (rxArrive_noQp hcls hcrc hq),
      fun hcrc first hq => ⟨fun hf => hdoes (rxArrive_frozen hcls hcrc hq hf), fun hf hx => ?resident⟩⟩
    have hres := rxArrive_resident hcls hcrc hq hf hx
    refine ⟨fun hst => ?_, fun hst hinc => ?_, fun ha hp => ?_⟩
    · exact hdoes (hres.trans (rxResident_error hcls hst))
    · exact hdoes (hres.trans (rxResident_reset hcls hst hinc))
    · exact hdoes (hres.trans (rxResident_stranger ha hp))

end Sys2Proof.Machine

/-! ## QP_QUERY, and the ring whose entry indices wrap (R120) -/

namespace Sys2Proof.Machine

open Sys2Proof.Claims

/-! ### What a query of a queue pair on chip does (R120) -/

/-- A QP_QUERY that finds its queue pair on chip, with the image returned in a block at `a` (R120). -/
def queryEnd (f : Nat) (ref : EntryRef) (q : Nat) (x : Qp) (a : BitVec 64) (s : State) : State :=
  finishEntry ref 1 0 (hostWrite f a (imageBytes q x) s)

/-- The image is returned in the block of the entry that the ring holds under the reference. -/
theorem qpQueryGo_returns {ref : EntryRef} {e : BitVec 512} {b : BitVec 2048} {q : Nat} {x : Qp} {s : State}
    (hz : bits 2047 24 b = 0) (hq : bits 23 0 b = q) (hact : ctxtabActive ref.fn s = true) (hr : inRange ref.fn q s = true)
    (hx : getQp q s = some x) : qpQueryGo ref e b s = queryEnd ref.fn ref q x (eLaddr (refRaw ref s)) s := by
  simp only [qpQueryGo, zeroBits, hz, hq, hact, hr, hx, beq_self_eq_true, Bool.not_true, Bool.false_eq_true, if_false]
  rfl

@[simp] theorem getQp_blockRead (q f : Nat) (ref : EntryRef) (e : BitVec 512) (n : Nat) (s : State) :
    getQp q (blockRead f ref e n s) = getQp q s := by
  simp [getQp]

theorem does_qpQuery {f : Fn} {ref : EntryRef} {e : BitVec 512} {b : BitVec 2048} {q : Nat} {x : Qp} {s : State}
    (hat : issueOf 0x42 f.toNat 0 s = some (ref, e)) (hwin : inWindow f.toNat (eLaddr e) 256 s = true)
    (hz : bits 2047 24 b = 0) (hq : bits 23 0 b = q) (hact : ctxtabActive f.toNat (blockRead f.toNat ref e 256 s) = true)
    (hr : inRange f.toNat q (blockRead f.toNat ref e 256 s) = true) (hx : getQp q s = some x) :
    Does (.qpQuery f b) s
      (queryEnd f.toNat ref q x (eLaddr (refRaw ref (blockRead f.toNat ref e 256 s))) (blockRead f.toNat ref e 256 s)) := by
  refine does_of_exec rfl ((adminRun_block hat b rfl (by decide) (by decide) hwin).trans ?_)
  rw [BitVec.setWidth_eq]
  rw [← issueOf_fn hat] at hact hr ⊢
  exact qpQueryGo_returns hz hq hact hr ((getQp_blockRead ..).trans hx)

/-! ### A ring whose last entry has the index of its first -/

/-- 2^32 entries before a last one. -/
def wrappedBy (x y : Entry) : Ring := { wrappedRing with entries := List.replicate (2 ^ 32) x ++ [y] }

/-- The last entry is issued next, under the reference of the first. -/
theorem issueOf_wrappedBy {x y : Entry} (hx : x.issued = true) (hy : y.issued = false)
    (hplain : eFence y.raw = false ∧ eOpcode y.raw ≠ 0x10 ∧ eOpcode y.raw ≠ 0x12) {s : State}
    (hf : frozen 0 (putRing 0 0 (wrappedBy x y) s) = false) :
    issueOf (eOpcode y.raw) 0 0 (putRing 0 0 (wrappedBy x y) s) = some (wrappedRef, y.raw) := by
  have hissue := issueOf_first (i := 2 ^ 32) (getRing_putRing_same 0 0 (wrappedBy x y) s) (firstUnissued_replicate hx hy (2 ^ 32))
    (getElem?_replicate_concat x y (2 ^ 32)) rfl hf rfl hplain
  exact hissue

/-! ### The counterexample to O18 -/

/-- A QP_QUERY entry with its block at `a`. -/
def queryEntry (a : Nat) : BitVec 512 := BitVec.ofNat 512 (0x42 + a * 2 ^ 256)

/-- A queue pair in RESET with nothing in progress. -/
def queriedQp : Qp := Qp.idle { QpParam.zero with state := .reset }

/-- Function 0 with the window [0, 2^40), the queue pairs 16 to 31, an ACTIVE context table, and queue pair 16 on chip. -/
def querying : State :=
  let s := setFf 0 Reg.QPC_CTXTAB_CTRL 1 0 3 (writeReg Reg.QPC_RANGE 0x84000010 (writeReg Reg.HIF_WIN 0x68 State.reset))
  { s with qpc := { s.qpc with qps := [(16, queriedQp)], bound := [(16, { fn := 0, pd := 0, arvId := 0 })] } }

/-- Function 0's admin ring holds 2^32 queries that have finished, and one that has not been issued. -/
def wrappedQuery : State :=
  putRing 0 0 (wrappedBy ⟨queryEntry 0x6000, true, some (1, 0)⟩ ⟨queryEntry 0x5000, false, none⟩) querying

theorem issueOf_wrappedQuery : issueOf 0x42 0 0 wrappedQuery = some (wrappedRef, queryEntry 0x5000) := by
  have hop : eOpcode (queryEntry 0x5000) = 0x42 := by decide +kernel
  have hissue := issueOf_wrappedBy (x := ⟨queryEntry 0x6000, true, some (1, 0)⟩) (y := ⟨queryEntry 0x5000, false, none⟩)
    (s := querying) rfl rfl (by decide +kernel) (by decide +kernel)
  rw [hop] at hissue
  exact hissue

/-- Refutes O18: the statement does not bound the entries that the admin ring holds (R37 allows 2^20), and an entry's index has 32 bits.
The QP_QUERY behind 2^32 entries has the index of the first of them, so the model returns the image in the block of that entry, at 0x6000,
and not in its own, at 0x5000. -/
theorem not_queuePairsAreAdministered : ¬ Obligations.QueuePairsAreAdministered := by
  intro h
  have hrun : running wrappedQuery = true := by decide +kernel
  have hwin : inWindow (0 : Fn).toNat (eLaddr (queryEntry 0x5000)) 256 wrappedQuery = true := by decide +kernel
  have hstated : Does (.qpQuery 0 16) wrappedQuery
      (queryEnd (0 : Fn).toNat wrappedRef 16 queriedQp (eLaddr (queryEntry 0x5000))
        (blockRead (0 : Fn).toNat wrappedRef (queryEntry 0x5000) 256 wrappedQuery)) := by
    obtain ⟨-, -, hquery, -⟩ := h 0 0 0 16 wrappedRef (queryEntry 0x5000) 16 queriedQp wrappedQuery
    exact hquery ⟨issueOf_wrappedQuery, .inr hwin⟩ (by decide +kernel) (by decide +kernel) (by decide +kernel) (by decide +kernel) rfl
  have hmodel := does_qpQuery (f := 0) (b := 16) (q := 16) (x := queriedQp) issueOf_wrappedQuery hwin
    (by decide +kernel) (by decide +kernel) (by decide +kernel) (by decide +kernel) rfl
  have hsame := congrArg (fun s => s.xlt.dirty) (Host.Outcome.next.inj ((hstated hrun).symm.trans (hmodel hrun)))
  exact absurd hsame (by decide +kernel)

end Sys2Proof.Machine

/-! ## Selection at an egress port: the time that passes before it, and what that time counts (R342, R444, R446) -/

namespace Sys2Proof.Machine

/-! ### The counterexample to O37 -/

/-- A packet in queue 4 of port 0, to leave at credit index 0, that may be sent 10 ns from reset on. -/
def uncreditedPkt : EgPkt :=
  { port := 0, q := 4, idx := 0, pkt := Packet.zero, since := 0, ready := 160, fixed := false,
    src := { inp := 1, idx := 0, up := 1, pkt := Packet.zero, budget := 0, decided := true, queue := 0, ser := 0, since := 0, till := 0,
             out := none, copy := 0, demoted := false } }

/-- Counter 0 counts the cycles in which queue 4 of port 0 holds cells (event 222), and wraps with the next one. Its page is function 0's,
which has MSI-X enabled and vector 222 not masked. -/
def countedDepth : State :=
  let s := wrReg Reg.EVC_PAGE_EN 0x1000 (wrReg Reg.EVC_CNT 0xFFFFFFFFFFFF (wrReg Reg.EVC_CTL 0x80000000000400DE State.reset))
  { wrFn 0 (0x80000 + 16 * 222 + 8) 0 s with hif := { s.hif with cfg := tset s.hif.cfg 0 { FnCfg.reset with msixEnable := true } } }

/-- The link of port 0 is ACTIVE and its partner has granted no credit; the packet waits. -/
def uncredited : State := withXbr (fun x => { x with egq := [uncreditedPkt] }) (setLstate 0 5 countedDepth)

/-- The 10 ns until the packet may be sent wrap the counter, which sends function 0 the message of vector 222. -/
theorem out_egressSelect_uncredited : (egressSelect 0 uncredited).out = [.msix 0 222 0 0 0] := by decide +kernel

theorem frameFits_uncredited :
    ∀ e ∈ uncredited.xbr.egq, frameFits 0 e (advanceTo (egressTime 0 uncredited) uncredited) = false := by decide +kernel

/-- Refutes O37: a port that sends nothing still lets time pass until its first packet may be sent, and the statement says that nothing
leaves the block then. A counter of a level may wrap in that time and send its function a message (R444, R446, R479). -/
theorem not_egressSendsWithinCredit : ¬ Obligations.EgressSendsWithinCredit := by
  intro h
  obtain ⟨-, ⟨-, -, hout⟩ | ⟨e, he, -, -, -, hfits, -⟩⟩ := h 0 uncredited
  · exact absurd (out_egressSelect_uncredited.symm.trans hout) (by decide +kernel)
  · exact absurd hfits (by simp [frameFits_uncredited e he])

end Sys2Proof.Machine

/-! ## Answers at the RXE, and OPs that are undefined (R133, R140, R147, R148, R151, R154, R377) -/

namespace Sys2Proof.Machine

open Sys2Proof.Claims

/-- A command whose meaning is `plain` does what its effect says, and nothing else. -/
theorem doesOnly_of_exec {i : Instr} {f : State → State} {s t : State} (he : exec i s = plain f s) (h : f s = t) : DoesOnly i s t := by
  intro hr
  rw [he, plain_running hr, h]

/-- The ranges of queue pairs lie in registers (R108). -/
theorem qpRange_congr {s t : State} (h : s.regs = t.regs) (q : Nat) : qpRange q s = qpRange q t := by simp only [qpRange, h]

theorem frozen_congr {s t : State} (h : s.regs = t.regs) (f : Nat) : frozen f s = frozen f t := by simp only [frozen, rdReg_congr h]

@[simp] theorem putDest_regs (hp : Nat) (ep : BitVec 17) (d : Dest) (s : State) : (putDest hp ep d s).regs = s.regs := rfl

@[simp] theorem respMark_regs (q : Nat) (x : Qp) (p : Packet) (s : State) : (respMark q x p s).regs = s.regs := by
  simp only [respMark]
  split <;> simp

/-! ### An answer for a queue pair that takes it (steps 1 to 5 of R137) -/

/-- A context that a packet has used. -/
def usedQp (x : Qp) : Qp := { x with used := true, changed := true }

section Answer

variable {p : Packet} {q f : Nat} {x : Qp} {s : State}

/-- The function of a packet's queue pair, in every State that has the registers with which the packet came. -/
theorem qpFn_of_arrives (harr : Arrives p q f x s) {t : State} (ht : t.regs = s.regs) : qpFn q t = f := by
  obtain ⟨-, -, ⟨first, hq⟩, -⟩ := harr
  rw [qpFn, qpRange_congr ht, hq]
  rfl

theorem not_frozen_of_arrives (harr : Arrives p q f x s) {t : State} (ht : t.regs = s.regs) : frozen f t = false := by
  obtain ⟨-, -, -, hf, -⟩ := harr
  rw [frozen_congr ht, hf]

/-- The OP of an answer chooses what is done with it. -/
theorem rxArrive_answer (hcls : ¬p.cls.toNat ≤ 1) (harr : Arrives p q f x s) :
    rxArrive p s =
      if p.op == 0x10 then rxAck q (usedQp x) p (touched q x s)
      else if p.op == 0x11 then rxNak q (usedQp x) p (touched q x s)
      else if p.op == 0x04 then rxReadResp q (usedQp x) p (touched q x s)
      else if p.op == 0x06 then rxAtomicResp q (usedQp x) p (touched q x s)
      else rxRequest q (usedQp x) p s.now (touched q x s) := by
  obtain ⟨hcrc, rfl, ⟨first, hq⟩, hf, hx, hacc, hpeer⟩ := harr
  have harrive : rxArrive p s = rxResident p.dstQpn.toNat x p s.now s := by simp [rxArrive, isRequest, hcls, hcrc, hq, hx]
  rw [harrive]
  simp only [rxResident, hacc, hpeer, modQp_resident hx, getQp_putQp_same, Bool.not_true, Bool.false_eq_true, if_false]
  rfl

/-- A packet's command hands it to the RXE when it has the command's OP. -/
theorem does_rxRow {i : Instr} {op : BitVec 8} {t : State} (he : exec i s = rxRow op p s) (hop : p.op = op)
    (hup : rxeDown (rxTake p s) = false) (h : rxArrive p (rxTake p s) = t) : Does i s t := by
  refine does_of_exec he ?_
  simp only [hop, bne_self_eq_false, hup, Bool.false_eq_true, if_false, h]

end Answer

/-! ### ACK (R148, R151, R154) -/

section Ack

variable {p : Packet} {q : Nat} {x : Qp} {s : State}

theorem rxAck_outstanding (h : ∃ m ∈ x.msgs, ∃ k ∈ m.pkts, ∃ n ∈ k.left, ackCovers p n = true) :
    rxAck q x p s = ackWhere q ackable (ackCovers p) (destAck q p true s) := by
  have hany : x.msgs.any (fun m => m.pkts.any (fun t => t.left.any (ackCovers p)) || (waitsRelease m && ackCovers p m.psn0)) = true := by
    obtain ⟨m, hm, k, hk, n, hn, hcovers⟩ := h
    refine List.any_eq_true.mpr ⟨m, hm, Bool.or_eq_true_iff.mpr (.inl ?_)⟩
    exact List.any_eq_true.mpr ⟨k, hk, List.any_eq_true.mpr ⟨n, hn, hcovers⟩⟩
  simp only [rxAck, hany, if_true]

theorem rxAck_nothing (h : ∀ m ∈ x.msgs, (∀ k ∈ m.pkts, ∀ n ∈ k.left, ackCovers p n = false) ∧ waitsRelease m = false) :
    rxAck q x p s = ignored 130 s := by
  have hany : x.msgs.any (fun m => m.pkts.any (fun t => t.left.any (ackCovers p)) || (waitsRelease m && ackCovers p m.psn0)) = false := by
    refine List.any_eq_false.mpr fun m hm => ?_
    obtain ⟨hleft, hwaits⟩ := h m hm
    simp only [hwaits, Bool.false_and, Bool.or_false, List.any_eq_true, not_exists, not_and, Bool.not_eq_true]
    exact hleft
  simp only [rxAck, hany, Bool.false_eq_true, if_false]

end Ack

/-! ### NAK (R147, R148) -/

/-- What the code of a NAK does to the message that it refuses. -/
theorem rxNak_owned {p : Packet} {q : Nat} {x : Qp} {m : TxMsg} {s : State} (hm : nakOwner x p.psn = some m) :
    rxNak q x p s =
      if p.opx.toNat / 2 ^ 56 == 0x80 || p.opx.toNat / 2 ^ 56 == 0x81 then busyNak q x m p.psn (destAck q p false s)
      else if p.opx.toNat / 2 ^ 56 == 0x0D then failMsg q m 0x0D (p.opx.extractLsb' 48 8) (destAck q p false s)
      else if p.opx.toNat / 2 ^ 56 == 0x0E then failMsg q m 0x0E 0 (destAck q p false s)
      else if p.opx.toNat / 2 ^ 56 == 0x0F then failMsg q m 0x0F 0 (destAck q p false s)
      else ignored 130 s := by
  have hdetail : BitVec.ofNat 8 (bits 55 48 p.opx) = p.opx.extractLsb' 48 8 := by
    apply BitVec.eq_of_toNat_eq
    simp [bits, Nat.shiftRight_eq_div_pow]
  simp only [rxNak, hm, hdetail, bits_to_top 56 p.opx rfl (by decide)]
  rfl

/-! ### READ_RESP and ATOMIC_RESP (R140, R377) -/

theorem rxReadResp_placed {p : Packet} {q f : Nat} {x : Qp} {m : TxMsg} {s : State} (hm : ownerOf x p.psn = some m) (hk : m.kind = .read)
    (ha : respAgrees m p = true) (hq : qpFn q (respMark q x p s) = f) (hf : frozen f (respMark q x p s) = false) :
    rxReadResp q x p s = xltStart
      { fn := f, dom := some x.par.pd, parts := respParts m p, rights := 0b00010, rd := false, wr := true, testsOnly := false,
        purpose := .rxKeyed p (respMark q x p s).now } (respMark q x p s) := by
  have hread : isRead m = true := by simp [isRead, hk]
  have hpull : pullDiscards m (respMark q x p s) = false := by simp [pullDiscards, hk]
  have hrelease : (m.kind == .release) = false := by rw [hk]; rfl
  simp only [rxReadResp, hm, hread, ha, hq, hf, hpull, hrelease, Bool.not_true, Bool.or_false, Bool.false_eq_true, if_false]

/-- The PSN is acknowledged, and the ATOMIC of a message with no result record is done. -/
theorem rxAtomicResp_noRecord {p : Packet} {q : Nat} {x : Qp} {m : TxMsg} {s : State} (hm : ownerOf x p.psn = some m)
    (hk : m.kind = .atomic) (ha : p.addr = 0) :
    let pk := respPkts p.psn 0 m.pkts
    let m' : TxMsg := { m with pkts := pk.1 }
    rxAtomicResp q x p s = atomicDone q m' (afterAck q pk.2 none
      (putQp q { x with msgs := x.msgs.map (fun k => if k.psn0 == m.psn0 && k.kind == .atomic then m' else k) } s)) := by
  have hkind : (m.kind != .atomic) = false := by rw [hk]; rfl
  simp only [rxAtomicResp, hm, hkind, ha, beq_self_eq_true, Bool.true_or, Bool.false_eq_true, if_false, if_true]

/-! ### OPs that are undefined (R133) -/

/-- The block that an undefined OP reaches counts it; one that reaches the RXE has its check code tested first. -/
theorem undefinedOp_unknown {p : Packet} {s : State} (hop : opKnown p.op.toNat = false) :
    undefinedOp p s =
      if 0x26 ≤ p.op.toNat ∧ p.op.toNat ≤ 0x2F then evcPulse 193 117 s
      else if 0x32 ≤ p.op.toNat ∧ p.op.toNat ≤ 0x37 then evcPulse 193 48 s
      else if 0x42 ≤ p.op.toNat ∧ p.op.toNat ≤ 0x4F then xbrDrop s
      else if e2eCrc p ≠ p.crc then evcPulse 208 (epPort p.dstEp) s
      else evcPulse 193 130 s := by
  simp only [undefinedOp, hop, Bool.false_eq_true, if_false, Bool.and_eq_true, decide_eq_true_eq, bne_iff_ne, ignored]

/-- Settles O23: an answer goes by its OP to the rule for ACKs, NAKs, READ_RESPs or ATOMIC_RESPs, and an OP that none has goes to the
block that counts it. -/
theorem responsesAreTaken : Obligations.ResponsesAreTaken := by
  intro p q f x m s s0 x' t code placing
  refine ⟨fun hup harr hcls => ?answer, fun hop => ?undefined⟩
  case answer =>
    have harrive := rxArrive_answer hcls harr
    refine ⟨fun hop hout => ?ack, fun hop hnone => ?ackOfNothing, fun hop hm => ?nak, fun hop hm hk ha => ?read, fun hop hm hk ha => ?atomic⟩
    case ack => exact does_rxRow rfl hop hup (harrive.trans (by rw [hop]; exact rxAck_outstanding hout))
    case ackOfNothing => exact does_rxRow rfl hop hup (harrive.trans (by rw [hop]; exact rxAck_nothing hnone))
    case nak =>
      have hnak {u : State} (hu : rxNak q x' p t = u) : Does (.nak p) s u := does_rxRow rfl hop hup (harrive.trans (by rw [hop]; exact hu))
      have howned := rxNak_owned (q := q) (s := t) hm
      refine ⟨fun hc => ?_, fun hc => ?_, fun hc => ?_, fun hc => ?_⟩
      · exact hnak (howned.trans (by simp only [show p.opx.toNat / 2 ^ 56 = 0x0D from hc]; rfl))
      · exact hnak (howned.trans (by simp only [show p.opx.toNat / 2 ^ 56 = 0x0E from hc]; rfl))
      · exact hnak (howned.trans (by simp only [show p.opx.toNat / 2 ^ 56 = 0x0F from hc]; rfl))
      · refine hnak (howned.trans ?_)
        rcases hc with hc | hc <;> simp only [show p.opx.toNat / 2 ^ 56 = _ from hc] <;> rfl
    case read =>
      have hregs : (respMark q x' p t).regs = s0.regs := respMark_regs ..
      refine does_rxRow rfl hop hup (harrive.trans ?_)
      rw [hop]
      exact rxReadResp_placed hm hk ha (qpFn_of_arrives harr hregs) (not_frozen_of_arrives harr hregs)
    case atomic => exact does_rxRow rfl hop hup (harrive.trans (by rw [hop]; exact rxAtomicResp_noRecord hm hk ha))
  case undefined =>
    have hdoes {u : State} (hu : undefinedOp p s0 = u) : DoesOnly (.packetUndefinedOp p) s u :=
      doesOnly_of_exec (f := fun s => undefinedOp p (rxTake p s)) rfl hu
    have hcases := undefinedOp_unknown (s := s0) hop
    refine ⟨fun hlo hhi => hdoes (hcases.trans ?_), fun hlo hhi => hdoes (hcases.trans ?_), fun hlo hhi => hdoes (hcases.trans ?_),
      fun hlo hcrc => hdoes (hcases.trans ?_)⟩
    · rw [if_pos ⟨hlo, hhi⟩]
    · rw [if_neg (by omega), if_pos ⟨hlo, hhi⟩]
    · rw [if_neg (by omega), if_neg (by omega), if_pos ⟨hlo, hhi⟩]
    · rw [if_neg (by omega), if_neg (by omega), if_neg (by omega), if_neg (not_not_intro hcrc)]

end Sys2Proof.Machine

/-! ## Transmission, its timers, and what runs on destination entries (R149 to R157, R166, R184) -/

namespace Sys2Proof.Machine

open Sys2Proof.Claims

/-! ### ACKs that are owed (R149) -/

theorem nz_eq_max (x : Nat) : nz x = max 1 x := by
  simp only [nz, beq_iff_eq]
  split <;> omega

theorem ackExpire_owed {q : Nat} {x : Qp} {h : Heard} {s : State} (hx : getQp q s = some x) (hh : x.ackFirst = some h) :
    ackExpire q s = sendAck q h (advanceTo (h.since + 16 * max 1 ((rdReg Reg.RXE_ACK s).toNat / 2 ^ 16 % 2 ^ 16)) s) := by
  simp only [ackExpire, hx, hh, nz_eq_max, rf, bits, Nat.mul_comm 16]

/-! ### RTO (R151) -/

section Rto

variable {q : Nat} {x : Qp} {m : TxMsg} {t rto : Nat} {s u : State} (hx : getQp q s = some x) (ht : oldestSent x s = some t)
  (hm : oldestMsg x s = some m) (hrto : nsPoint (rtoOf (getDest (qpFn q s / 256) x.par.peerEp s) x.retries s) = rto)
  (hu : advanceTo (max t s.xbr.since + rto) s = u) (hf : frozen (qpFn q u) u = false)
include hx ht hm hrto hu hf

/-- Past RETRY_LIMIT the oldest message fails; until then what is older than RTO is sent again. -/
theorem rtoExpire_outstanding :
    rtoExpire q s =
      if x.par.retryLimit.toNat < x.retries + 1 then failMsg q m 0x11 0 u
      else resendWhere q (fun k => k.sentAt + rto ≤ u.now) (putQp q { x with retries := x.retries + 1 } u) := by
  subst hrto hu
  simp only [rtoExpire, hx, ht, hm, hostPort, hf, Bool.false_eq_true, if_false]
  rfl

end Rto

/-! ### Busy back-offs (R152) -/

theorem backoffEnd_resends {q : Nat} {x : Qp} {psn : BitVec 32} {t : Nat} {rest : List (BitVec 32 × Nat)} {s u : State}
    (hx : getQp q s = some x) (hb : x.backoff = (psn, t) :: rest) (hu : advanceTo t (putQp q { x with backoff := rest } s) = u)
    (hf : frozen (qpFn q u) u = false) (hw : ∀ m ∈ x.msgs, waitsRelease m = false) :
    backoffEnd q s = resendWhere q (fun k => k.left.contains psn) u := by
  have hnone : (liveMsgs x u).find? (fun m => waitsRelease m && m.psn0 == psn) = none := by
    refine List.find?_eq_none.mpr fun m hm => ?_
    simp [hw m (List.mem_of_mem_filter hm)]
  simp only [backoffEnd, hx, hb, hu, hf, hnone, Bool.false_eq_true, if_false]

/-! ### The next packet (R145, R153, R166) -/

section Next

variable {q i : Nat} {x : Qp} {m : TxMsg} {s : State} (hx : getQp q s = some x) (ho : txOpen x s = true)
  (hf : frozen (qpFn q s) s = false) (hm : nextMsg s x.msgs 0 = some (i, m)) (hs : mayStart x i m = true)
include hx ho hf hm hs

theorem txNext_plain (hd : needsData m = false) : txNext q s = txSend q x i m (plainPayload m) s := by
  simp only [txNext, hx, ho, hf, hm, hs, hd, Bool.not_true, Bool.not_false, Bool.or_false, Bool.false_eq_true, if_false, if_true]

/-- A packet whose data has not been asked for asks for it when HTX has room for it. -/
theorem txNext_data (hd : needsData m = true) (hbuilt : x.built = none) (hbuilding : x.building = none) :
    txNext q s =
      if htxRoom q (m.psn0 + BitVec.ofNat 32 m.sentPsns) m s then
        xltStart
          { fn := qpFn q s, dom := some x.par.pd, parts := sliceParts m.parts (nextOff m) (pieceLen m), rights := 1, rd := true,
            wr := false, testsOnly := false, purpose := .txData q (m.psn0 + BitVec.ofNat 32 m.sentPsns) }
          (putQp q { x with building := some (m.psn0 + BitVec.ofNat 32 m.sentPsns, 0) } s)
      else s := by
  simp only [txNext, hx, ho, hf, hm, hs, hd, hbuilt, hbuilding, Bool.not_true, Bool.or_false, Bool.false_eq_true, if_false,
    Option.filter_none, Option.isSome_none, Bool.false_or]
  cases htxRoom q (m.psn0 + BitVec.ofNat 32 m.sentPsns) m s <;> rfl

end Next

/-! ### Destination entries (R156, R157) -/

theorem destTimer_resident {hp : Nat} {ep : Ep} {d : Dest} {s : State} (hd : getDest hp ep s = some d) (due : Dest → Nat)
    (g : Nat → Dest → Dest) :
    destTimer hp ep due g s = putDest hp ep (g (advanceTo (due d) s).now d) (advanceTo (due d) s) := by
  simp only [destTimer, hd]

theorem exec_rateUpdate (hp : BitVec 2) (ep : Ep) (s : State) : exec (.rateUpdate hp ep) s = execRateUpdate hp ep s := by
  rfl

theorem exec_roundTripUpdate (hp : BitVec 2) (ep : Ep) (s : State) : exec (.roundTripUpdate hp ep) s = execRoundTripUpdate hp ep s := by
  rfl

theorem exec_baseRttWindowRestart (hp : BitVec 2) (ep : Ep) (s : State) :
    exec (.baseRttWindowRestart hp ep) s = execBaseRttWindowRestart hp ep s := by
  rfl

section Dest

variable {hp : BitVec 2} {ep : Ep} {d : Dest} {s : State} (hd : getDest hp.toNat ep s = some d)
include hd

theorem doesOnly_rateUpdate :
    let u := advanceTo (d.updAt + updateTime s) s
    DoesOnly (.rateUpdate hp ep) s (tidyDest hp.toNat ep (putDest hp.toNat ep
      { d.everyUpdate (haiRate s) (aiRate s) (rateMin s) (dTarget s) with updAt := u.now } u)) := by
  refine doesOnly_of_exec (exec_rateUpdate hp ep s) ?_
  simp only [destTimer_resident hd]

theorem doesOnly_roundTripUpdate :
    let u := advanceTo (d.tripAt + tripTime d s) s
    DoesOnly (.roundTripUpdate hp ep) s (putDest hp.toNat ep { d.everyTrip with tripAt := u.now } u) := by
  refine doesOnly_of_exec (exec_roundTripUpdate hp ep s) ?_
  simp only [destTimer_resident hd]

theorem doesOnly_baseRttWindowRestart :
    let u := advanceTo (d.minAt + us 5000) s
    DoesOnly (.baseRttWindowRestart hp ep) s (putDest hp.toNat ep { d.restartMin with minAt := u.now } u) := by
  refine doesOnly_of_exec (exec_baseRttWindowRestart hp ep s) ?_
  simp only [destTimer_resident hd]

end Dest

theorem restartMin_eq (d : Dest) :
    d.restartMin =
      { d with
        base1 := if d.baseTurn then d.base1 else bigRtt, base2 := if d.baseTurn then bigRtt else d.base2, baseTurn := !d.baseTurn } := by
  cases h : d.baseTurn <;> simp [Dest.restartMin, h]

/-! ### A unit in service, and one that is down (R394, R490) -/

section Unit

variable {i : Instr} {down : State → Bool} {g : State → State} {s t : State}
  (he : exec i s = act (fun s => if down s then s else g s) s)
include he

theorem does_unit_up (hup : down s = false) (h : g s = t) : Does i s t := by
  refine does_of_exec he ?_
  simp only [hup, h, Bool.false_eq_true, if_false]

theorem does_unit_down (hdown : down s = true) : Does i s s := by
  refine does_of_exec he ?_
  simp only [hdown, if_true]

end Unit

theorem exec_ackDelayExpiry (q : Qpn) (s : State) :
    exec (.ackDelayExpiry q) s = act (fun s => if rxeDown s then s else ackExpire q.toNat s) s := by
  rfl

theorem exec_retransmitTimeout (q : Qpn) (s : State) :
    exec (.retransmitTimeout q) s = act (fun s => if txeDown s then s else rtoExpire q.toNat s) s := by
  rfl

theorem exec_busyBackoffExpiry (q : Qpn) (s : State) :
    exec (.busyBackoffExpiry q) s = act (fun s => if txeDown s then s else backoffEnd q.toNat s) s := by
  rfl

theorem exec_packetTransmit (q : Qpn) (s : State) :
    exec (.packetTransmit q) s = act (fun s => if txeDown s then s else txNext q.toNat s) s := by
  rfl

theorem exec_rndvProbeExpiry (q : Qpn) (psn : BitVec 32) (s : State) : exec (.rndvProbeExpiry q psn) s = execRndvProbeExpiry q psn s := by
  rfl

theorem does_rndvProbe_waiting {q : Qpn} {psn : BitVec 32} {x : Qp} {m : TxMsg} {s : State} (hup : txeDown s = false)
    (hx : getQp q.toNat s = some x) (hf : frozen (qpFn q.toNat s) s = false)
    (hm : (liveMsgs x s).find? (fun m => waitsRelease m && m.psn0 == psn) = some m) :
    Does (.rndvProbeExpiry q psn) s (probeAgain q.toNat x m (advanceTo (m.lastAt + us (nz (rf Reg.MTE_CFG 63 48 s))) s)) := by
  refine does_of_exec (exec_rndvProbeExpiry q psn s) ?_
  simp only [hx, hup, hf, hm, Bool.or_self, Bool.false_eq_true, if_false]

theorem does_rndvProbe_down {q : Qpn} {psn : BitVec 32} {s : State} (hdown : txeDown s = true) : Does (.rndvProbeExpiry q psn) s s := by
  refine does_of_exec (exec_rndvProbeExpiry q psn s) ?_
  simp only [hdown, Bool.true_or, if_true]
  split <;> rfl

/-- Settles O24: each timer and the transmission find their unit in service, the queue pair and what is due of it, and then do one step
of R149 to R157, R166 or R184. -/
theorem transmissionAndItsTimers : Obligations.TransmissionAndItsTimers := by
  intro q hp ep psn x m d h t i rest s n regTimer port
  refine ⟨fun hrx hx hh => does_unit_up (exec_ackDelayExpiry q s) hrx (ackExpire_owed hx hh), ?rto, ?backoff, ?transmit, ?dest, ?down,
    fun hrx => does_unit_down (exec_ackDelayExpiry q s) hrx, fun htx hx hf hm => does_rndvProbe_waiting htx hx hf hm⟩
  case rto =>
    intro htx hx ht hm rto u hf
    have hexp := rtoExpire_outstanding hx ht hm rfl rfl hf
    exact ⟨fun hpast => does_unit_up (exec_retransmitTimeout q s) htx (hexp.trans (if_pos hpast)),
      fun hin => does_unit_up (exec_retransmitTimeout q s) htx (hexp.trans (if_neg (Nat.not_lt.mpr hin)))⟩
  case backoff =>
    intro htx hx hb u hf hw
    exact does_unit_up (exec_busyBackoffExpiry q s) htx (backoffEnd_resends hx hb rfl hf hw)
  case transmit =>
    intro htx hx ho hf hm hs
    refine ⟨fun hd => does_unit_up (exec_packetTransmit q s) htx (txNext_plain hx ho hf hm hs hd), ?data⟩
    intro hd hbuilt hbuilding next a
    have hnext := txNext_data hx ho hf hm hs hd hbuilt hbuilding
    exact ⟨fun hroom => does_unit_up (exec_packetTransmit q s) htx (hnext.trans (if_pos hroom)),
      fun hroom => does_unit_up (exec_packetTransmit q s) htx (hnext.trans (if_neg (Bool.eq_false_iff.mp hroom)))⟩
  case dest =>
    intro hd rate trip base
    refine ⟨doesOnly_rateUpdate hd, doesOnly_roundTripUpdate hd, ?_⟩
    have hbase := doesOnly_baseRttWindowRestart hd
    rw [restartMin_eq] at hbase
    exact hbase
  case down =>
    intro hdown
    simp only [List.forall_mem_cons, List.not_mem_nil, false_imp_iff, implies_true, and_true]
    exact ⟨does_unit_down (exec_retransmitTimeout q s) hdown, does_unit_down (exec_busyBackoffExpiry q s) hdown,
      does_unit_down (exec_packetTransmit q s) hdown, does_rndvProbe_down hdown⟩

end Sys2Proof.Machine

/-! ## Data and atomics complete (R136, R140, R166, R167, R179, R378 to R381) -/

namespace Sys2Proof.Machine

open Sys2Proof.Claims

theorem fitBytes_of_length {n : Nat} {bs : List Byte} (h : bs.length = n) : fitBytes n bs = bs := by
  subst h
  exact fitBytes_self bs

/-! ### Placements (R140, R141) -/

/-- The placement writes of a request's packet have been sent. -/
theorem placementDone_request {q : Nat} {psn : BitVec 32} {p : Placing} {s : State}
    (hp : s.rxe.placing.find? (fun a => a.qpn == q && a.pkt.psn == psn && (a.kind == .readResp) == false) = some p) :
    placementDone q psn false s =
      (countPacket q p.pkt p.since p.half1 (drained p.serial
        (withRxe (fun e => { e with placing := dropFirst (fun a => a.qpn == q && a.pkt.psn == psn && (a.kind == .readResp) == false) e.placing })
          (leaveHost .rxp (qpFn q s / 256) (fun e => e.id == p.ser) s)))).1 := by
  simp only [placementDone, hp, Bool.false_eq_true, if_false, hostPort]

/-! ### Data of packets (R136, R166) -/

/-- The read of the data of the packet that is being built has ended. -/
theorem txDataCome_built {q n : Nat} {psn : BitVec 32} {x : Qp} {m : TxMsg} {s : State} (hx : getQp q s = some x)
    (hm : buildingMsg x psn s = some m) (hb : x.building = some (psn, n)) (hn : 0 < n) (d : ReadResult) :
    txDataCome q psn d s =
      match d with
      | .pcieError => failMsg q m 0x13 0 (drained n (putQp q { x with building := none } s))
      | .data bs => modQp q (fun y => { y with built := some (psn, fitBytes (pieceLen m) bs) })
          (drained n (putQp q { x with building := none } s)) := by
  have hzero : (n == 0) = false := beq_false_of_ne (Nat.pos_iff_ne_zero.mp hn)
  cases d with
  | pcieError =>
    simp only [txDataCome, hx, hm, hb, hzero, Bool.false_eq_true, if_false]
    rfl
  | data bs => simp only [txDataCome, hx, hm, hb, hzero, Bool.false_eq_true, if_false]

/-- The data of the first piece that a READ_REQ asks for has come. -/
theorem respDataCome_first {q : Nat} {psn : BitVec 32} {r : RespJob} {bs : List Byte} {s : State}
    (hr : s.rxe.resps.find? (fun a => a.qpn == q && a.resp.psn == psn) = some r) (hpsn : r.req.psn = psn)
    (hlen : reqLen r.req = bs.length) (hmax : bs.length ≤ 4096) :
    respDataCome q psn (.data bs) s =
      respEnd r.serial (sendResp (bits 31 0 r.resp.opx) r.req 0 bs
        (withRxe (fun e => { e with resps := dropFirst (fun a => a.qpn == q && a.resp.psn == psn) e.resps }) s)) := by
  have hpiece : fitBytes (min 4096 (reqLen r.req)) bs = bs := fitBytes_of_length (by omega)
  simp only [respDataCome, hr, hpsn, BitVec.sub_self, BitVec.toNat_zero, Nat.mul_zero, Nat.sub_zero, hpiece]

/-! ### Copies of unexpected messages (R179) -/

section Copy

variable {q : Nat} {psn0 : BitVec 32} {u : Unexp} {v : Recv} {s : State} (hc : copying q psn0 s = some (u, v))
  (hw : ∀ w ∈ s.xlt.waiting, ∀ c, w.access.purpose ≠ .uxCopy q psn0 c)
include hc hw

/-- A message that is not checked already is checked once its pieces have been read, or its receive fails. -/
theorem copyCome_read (d : ReadResult) :
    copyCome q psn0 d s =
      match d with
      | .pcieError => copyFailed u v 0x13 0 s
      | .data bs => xltStart
          { fn := v.fn, dom := some v.pd, parts := sliceParts v.parts 0 (min u.msgLen v.len), rights := 2, rd := false, wr := true,
            testsOnly := false, purpose := .uxCopy q psn0 (fitBytes (min u.msgLen v.len) bs) } s := by
  have hidle : ¬(s.xlt.waiting.any (fun w => match w.access.purpose with
      | .uxCopy k p _ => k == q && p == psn0
      | _ => false) = true) := by
    rw [Bool.not_eq_true]
    refine List.any_eq_false.mpr fun w hmem hcopy => ?_
    split at hcopy
    next k p c hp =>
      simp only [Bool.and_eq_true, beq_iff_eq] at hcopy
      obtain ⟨rfl, rfl⟩ := hcopy
      exact hw w hmem c hp
    next => exact Bool.false_ne_true hcopy
  cases d with
  | pcieError =>
    simp only [copyCome, hc]
    exact if_neg hidle
  | data bs =>
    simp only [copyCome, hc]
    exact if_neg hidle

end Copy

/-! ### The atomic unit (R378 to R381) -/

/-- The updates of a word that are reading it. -/
def updatesWord (f : Nat) (addr : BitVec 64) (j : AtomJob) : Bool := j.reading && j.fn == f && wordOf j.bus == wordOf addr

section Atom

variable {f : Nat} {addr : BitVec 64} {j : AtomJob} {s t : State} (hj : s.rxe.atoms.find? (updatesWord f addr) = some j)
  (ht : withRxe (fun r => { r with atoms := dropFirst (updatesWord f addr) r.atoms }) s = t)
include hj ht

theorem atomCome_error : atomCome f addr .pcieError s = startAtoms (atomFailed j (drained j.serial t)) := by
  subst ht
  unfold updatesWord at hj ⊢
  simp only [atomCome, hj, ite_self]

/-- An update whose request lay outside the window fails whatever the read returns (R469). -/
theorem atomCome_barred (hb : j.barred = true) (d : ReadResult) :
    atomCome f addr d s = startAtoms (atomFailed j (drained j.serial t)) := by
  subst ht
  unfold updatesWord at hj ⊢
  simp only [atomCome, hj, hb, if_true]

variable {bs : List Byte} (hb : j.barred = false) (hlen : bs.length = 8)
include hb hlen

theorem atomCome_frozen (hf : frozen f t = true) (hp : j.pcie = false) :
    atomCome f addr (.data bs) s = startAtoms (atomFrozen j (j.compute (leNat bs)).2.1 (drained j.serial t)) := by
  subst ht
  unfold updatesWord at hj hf ⊢
  simp only [atomCome, hj, hb, hp, hf, fitBytes_of_length hlen, Bool.false_eq_true, if_false, Bool.not_false, Bool.and_self, if_true]

/-- The new value is written where the old one asks for it and the root complex has not written it (R379). -/
theorem atomCome_written (hf : frozen f t = false ∨ j.pcie = true) :
    let c := j.compute (leNat bs)
    atomCome f addr (.data bs) s = startAtoms (atomDone j c.2.1 (drained j.serial
      (if j.writes c.2.1 && !j.pcie then hostWrite f j.bus (leBytes c.1 c.2.2) t else t))) := by
  have hgo : (frozen f t && !j.pcie) = false := by
    rcases hf with hf | hp
    · rw [hf, Bool.false_and]
    · rw [hp, Bool.not_true, Bool.and_false]
  subst ht
  unfold updatesWord at hj hgo ⊢
  simp only [atomCome, hj, hb, hgo, fitBytes_of_length hlen, Bool.false_eq_true, if_false]

end Atom

theorem exec_atomicResultExpiry (q : Qpn) (psn : BitVec 32) (s : State) :
    exec (.atomicResultExpiry q psn) s = execAtomicResultExpiry q psn s := by
  rfl

theorem doesOnly_atomicResultExpiry {q : Qpn} {psn : BitVec 32} {e : AtomResult} {s : State}
    (he : s.rxe.results.find? (fun e => e.qpn == q.toNat && e.psn == psn) = some e) :
    DoesOnly (.atomicResultExpiry q psn) s (withRxe (fun r => { r with
      results := r.results.filter (fun e => !(e.qpn == q.toNat && e.psn == psn)) }) (advanceTo (e.since + holdTime s) s)) := by
  refine doesOnly_of_exec (exec_atomicResultExpiry q psn s) ?_
  simp only [he]

/-! ### From the commands to their effects -/

theorem exec_placementComplete (q : Qpn) (psn : BitVec 32) (resp : Bool) (s : State) :
    exec (.placementComplete q psn resp) s = act (placementDone q.toNat psn resp) s := by
  rfl

theorem exec_packetDataRead (q : Qpn) (psn : BitVec 32) (d : ReadResult) (s : State) :
    exec (.hostDataReadComplete q psn false d) s = act (txDataCome q.toNat psn d) s := by
  rfl

theorem exec_answerDataRead (q : Qpn) (psn : BitVec 32) (d : ReadResult) (s : State) :
    exec (.hostDataReadComplete q psn true d) s = act (respDataCome q.toNat psn d) s := by
  rfl

theorem does_stagingFlush (k : StgKind) (n : BitVec 7) (s : State) : Does (.stagingFlush k n) s (flushStaging k n.toNat s) :=
  does_of_exec (f := flushStaging k n.toNat) (by rfl) rfl

theorem exec_unexpectedCopyComplete (q : Qpn) (psn0 : BitVec 32) (d : ReadResult) (s : State) :
    exec (.unexpectedCopyComplete q psn0 d) s = act (copyCome q.toNat psn0 d) s := by
  rfl

theorem exec_atomicUpdateReadComplete (f : Fn) (addr : BitVec 64) (d : ReadResult) (s : State) :
    exec (.atomicUpdateReadComplete f addr d) s = act (atomCome f.toNat addr d) s := by
  rfl

/-- Settles O25: each completion finds what waits for it, and takes it one step on with the data that has come or with its error. -/
theorem dataAndAtomicsComplete : Obligations.DataAndAtomicsComplete := by
  intro q psn psn0 k f addr bs p x m n r u v j s qn fn own
  refine ⟨fun hp => does_of_exec (exec_placementComplete q psn false s) (placementDone_request hp), ?packet, ?answer,
    ⟨does_stagingFlush .lrx k s, does_stagingFlush .txi k s, does_stagingFlush .rxp k s, does_stagingFlush .rxd k s,
      does_stagingFlush .htx k s, does_stagingFlush .ltx k s⟩, ?copy, ?atomic, fun e he => doesOnly_atomicResultExpiry he⟩
  case packet =>
    intro hx hm hb hn t
    have hcome := txDataCome_built hx hm hb hn
    refine ⟨fun hlen => does_of_exec (exec_packetDataRead q psn (.data bs) s) ((hcome (.data bs)).trans ?_),
      does_of_exec (exec_packetDataRead q psn .pcieError s) (hcome .pcieError)⟩
    simp only [fitBytes_of_length hlen]
    rfl
  case answer =>
    intro hr hpsn hlen hmax
    exact does_of_exec (exec_answerDataRead q psn (.data bs) s) (respDataCome_first hr hpsn hlen hmax)
  case copy =>
    intro hc hlen hw a
    have hcome := copyCome_read hc hw
    refine ⟨does_of_exec (exec_unexpectedCopyComplete q psn0 (.data bs) s) ((hcome (.data bs)).trans ?_),
      does_of_exec (exec_unexpectedCopyComplete q psn0 .pcieError s) (hcome .pcieError)⟩
    simp only [← hlen, fitBytes_self]
    rfl
  case atomic =>
    intro mine t hj
    have hdoes {d : ReadResult} {w : State} (hw : atomCome fn addr d s = w) : Does (.atomicUpdateReadComplete f addr d) s w :=
      does_of_exec (exec_atomicUpdateReadComplete f addr d s) hw
    exact ⟨hdoes (atomCome_error hj rfl), fun hb => hdoes (atomCome_barred hj rfl hb _), fun hb hlen =>
      ⟨fun hf hp => hdoes (atomCome_frozen hj rfl hb hlen hf hp), fun hf => hdoes (atomCome_written hj rfl hb hlen hf)⟩⟩

end Sys2Proof.Machine

/-! ## Collective operations as they are taken up (R195 to R199, R217, R220) -/

namespace Sys2Proof.Machine

open Sys2Proof.Claims

/-! ### An operation that is taken up (R198) -/

section TakenUp

variable {i cop : Nat} {x : ColInst} {o : ColOp} {s : State} (go : Nat → ColInst → ColOp → State → State)

theorem copStep_takesUp (h : TakesUp i cop x o s) :
    copStep cop i go s = if opOk x o.desc s then go i x o s else opFail i o.id St.collError Cd.badOperation s := by
  obtain ⟨hfence, hx, hactive, ho⟩ := h
  simp only [copStep, hx, hactive, hfence, ho, Bool.not_true, Bool.or_self, Bool.false_eq_true, if_false]

theorem copStep_nothing (hx : getInst i s = some x) (ho : opNext cop x s = none) : copStep cop i go s = s := by
  simp only [copStep, hx, ho, ite_self]

theorem oCop_of_takesUp (h : TakesUp i cop x o s) : oCop o.desc = cop := by
  obtain ⟨-, -, -, ho⟩ := h
  have hp := List.find?_some ho
  simp only [Bool.and_eq_true, beq_iff_eq] at hp
  obtain ⟨⟨-, hcop⟩, -⟩ := hp
  exact hcop

end TakenUp

/-- The commands of operations with their codes. -/
def copRows (i : InstId) (d : ReadResult) : List (Nat × Instr) :=
  [(1, .copCredit i), (2, .copSend i d), (3, .copMcast i d), (4, .copReduce i), (5, .copPlace i d), (6, .copCadd i), (7, .copResult i),
    (8, .copFree i), (9, .copAbort i), (15, .copEnd i)]

/-- What an operation that keeps R197 and R198 does, by its code. -/
def copGo (d : ReadResult) (cop : Nat) : Nat → ColInst → ColOp → State → State :=
  match cop with
  | 1 => copCreditGo
  | 3 => copMcastGo d
  | 4 => reduceStart
  | 6 => copCaddGo
  | 7 => copResultGo
  | 8 => copFreeGo
  | 9 => copAbortGo
  | 15 => copEndGo
  | _ => fun i x o s => dataStart i x o d s

theorem exec_copRow {i : InstId} {d : ReadResult} {r : Nat × Instr} (hr : r ∈ copRows i d) (s : State) :
    exec r.2 s = act (copStep r.1 i.toNat (copGo d r.1)) s := by
  simp only [copRows, List.mem_cons, List.not_mem_nil, or_false] at hr
  rcases hr with rfl | rfl | rfl | rfl | rfl | rfl | rfl | rfl | rfl | rfl <;> rfl

section Row

variable {i : InstId} {x : ColInst} {o : ColOp} {d : ReadResult} {r : Nat × Instr} {s t : State} (hr : r ∈ copRows i d)
include hr

theorem does_cop (h : TakesUp i.toNat r.1 x o s) (hok : opOk x o.desc s = true) (ht : copGo d r.1 i.toNat x o s = t) : Does r.2 s t :=
  does_of_exec (exec_copRow hr s) ((copStep_takesUp _ h).trans ((if_pos hok).trans ht))

theorem does_cop_bad (h : TakesUp i.toNat r.1 x o s) (hbad : opOk x o.desc s = false) :
    Does r.2 s (opFail i.toNat o.id St.collError Cd.badOperation s) :=
  does_of_exec (exec_copRow hr s) ((copStep_takesUp _ h).trans (if_neg (by simp [hbad])))

theorem does_cop_nothing (hx : getInst i.toNat s = some x) (ho : opNext r.1 x s = none) : Does r.2 s s :=
  does_of_exec (exec_copRow hr s) (copStep_nothing _ hx ho)

end Row

/-! ### The operations without data (R195 to R199, R217, R220) -/

section Control

variable {i : Nat} {x : ColInst} {o : ColOp} {s : State}

/-- The reservation changes no register, so the packet's source is the endpoint that the device had before it. -/
theorem copCreditGo_reserves (hnone : tget x.bufs (oOut o.desc) = none) (hroom : buffersHeld s < cbMax s) :
    copCreditGo i x o s = colSend i (some o.id) x.hp
      { colPkt x 0x21 (oSched o.desc) (oPeer o.desc) (oPsn o.desc) s with addr := BitVec.ofNat 64 (oOut o.desc) }
      (setPhase i o.id (.waiting 1)
        (putInst i { x with bufs := tset x.bufs (oOut o.desc) (CBuf.held (oPeer o.desc) (oPsn o.desc)) } s)) := by
  simp only [copCreditGo, hnone, Nat.not_le.mpr hroom, Option.isSome_none, decide_false, Bool.or_self, Bool.false_eq_true, if_false]
  rfl

theorem copCreditGo_waits (h : (tget x.bufs (oOut o.desc)).isSome = true ∨ cbMax s ≤ buffersHeld s) : copCreditGo i x o s = s := by
  rw [copCreditGo, if_pos (by simpa using h)]

theorem copCaddGo_no_chip (hc : chipValid s = false) : copCaddGo i x o s = s := by
  simp only [copCaddGo, hc, Bool.not_false, if_true]

/-- The CADD of an operation (R216, R217). -/
def caddOfOp (x : ColInst) (o : ColOp) (s : State) : Packet :=
  { colPkt x 0x24 (oSched o.desc) (oPeer o.desc) 0 s with
    addr := oHoff o.desc, opx := oValue o.desc, key := oKey o.desc, imm := x.comm, msn := x.seq, msgLen := 1 }

theorem copCaddGo_joins {e : Nat} {u : State} (hc : chipValid s = true) (he : caddEgress 184 (caddOfOp x o s) s = some e)
    (hu : combJoin e 2 (caddOfOp x o s) (.op i o.id) s = some u) :
    copCaddGo i x o s = setPhase i o.id (.waiting 1) (meet i (oPeer o.desc) u) := by
  rw [caddOfOp] at he hu
  simp only [copCaddGo, hc, he, hu, Bool.not_true, Bool.false_eq_true, if_false]

theorem copResultGo_again (h : x.resultDone = true ∨ hResKind x.head = 0) :
    copResultGo i x o s = opFail i o.id St.collError Cd.badOperation s := by
  rw [copResultGo, if_pos (by simpa using h)]

/-- The first result of a collective that has one (R195, R220). -/
theorem copResultGo_first (hd : x.resultDone = false) (hk : hResKind x.head ≠ 0) :
    copResultGo i x o s =
      if placesFirst i x o s then s
      else if hResKind x.head = 1 then
        xltStart (recordAccess i x (some o.id) St.success 0 (oValue o.desc)) (setPhase i o.id .checking s)
      else opFinish i o.id St.success 0
        (putInst i { x with resultDone := true } (mbxFill (bits 11 0 (hRes x.head)) St.success 0 (oValue o.desc) s)) := by
  simp only [copResultGo, hd, hk, beq_iff_eq, Bool.false_or, if_false]

theorem copFreeGo_held (h : ∀ b ∈ (List.range (oCnt o.desc)).map (oIn o.desc), (tget x.bufs b).isSome = true) :
    copFreeGo i x o s =
      opFinish i o.id St.success 0 (putInst i (freeBufs x ((List.range (oCnt o.desc)).map (oIn o.desc))) s) := by
  have hall : ((List.range (oCnt o.desc)).map (oIn o.desc)).all (fun b => (tget x.bufs b).isSome) = true := List.all_eq_true.mpr h
  simp only [copFreeGo, hall, Bool.not_true, Bool.false_eq_true, if_false]

theorem copFreeGo_missing (h : ∃ b ∈ (List.range (oCnt o.desc)).map (oIn o.desc), tget x.bufs b = none) :
    copFreeGo i x o s = opFail i o.id St.collError Cd.badOperation s := by
  rw [copFreeGo, if_pos (by simpa using h)]

theorem copEndGo_alone (h : x.ops = [o]) : copEndGo i x o s = conclude x.inv (putInst i { x with ops := [] } s) := by
  simp only [copEndGo, h, List.length_singleton, beq_self_eq_true, if_true]

theorem copEndGo_waits (h : 1 < x.ops.length) : copEndGo i x o s = s := by
  have hne : x.ops.length ≠ 1 := by omega
  simp only [copEndGo, beq_iff_eq, hne, if_false]

end Control

/-- Settles O27: each operation is the oldest of its code that can go on, and does what R195 to R199, R217 or R220 give its code. -/
theorem collectiveControlOperations : Obligations.CollectiveControlOperations := by
  intro i x o d e s u n put takes
  have hdoes {r : Nat × Instr} {t : State} (hr : r ∈ copRows i d) (h : takes r.1) (ht : copGo d r.1 n x o s = t) : Does r.2 s t := by
    obtain ⟨htakes, hok⟩ := h
    exact does_cop hr htakes hok ht
  have hcredit : (1, Instr.copCredit i) ∈ copRows i d := by simp [copRows]
  have hcadd : (6, Instr.copCadd i) ∈ copRows i d := by simp [copRows]
  have hresult : (7, Instr.copResult i) ∈ copRows i d := by simp [copRows]
  have hfree : (8, Instr.copFree i) ∈ copRows i d := by simp [copRows]
  have habort : (9, Instr.copAbort i) ∈ copRows i d := by simp [copRows]
  have hend : (15, Instr.copEnd i) ∈ copRows i d := by simp [copRows]
  refine ⟨fun r hr h hbad => does_cop_bad hr h hbad, fun h hnone hroom => hdoes hcredit h (copCreditGo_reserves hnone hroom),
    fun h hwait => hdoes hcredit h (copCreditGo_waits hwait), fun h hc => hdoes hcadd h (copCaddGo_no_chip hc),
    fun h hc he hu => hdoes hcadd h (copCaddGo_joins hc he hu), ?resultWaits, ?record, ?mailbox,
    fun h hagain => hdoes hresult h (copResultGo_again hagain), ?free, fun h => hdoes habort h rfl, ?last⟩
  case resultWaits =>
    intro h hd hk hp
    exact hdoes hresult h ((copResultGo_first hd hk).trans (if_pos hp))
  case record =>
    intro h hd hk hp
    exact hdoes hresult h (by simp only [copGo, copResultGo_first hd (by omega : hResKind x.head ≠ 0), hp, hk, if_true]; rfl)
  case mailbox =>
    intro h hd hk hp
    exact hdoes hresult h (by simp only [copGo, copResultGo_first hd (by omega : hResKind x.head ≠ 0), hp, hk]; rfl)
  case free =>
    intro h ids
    exact ⟨fun hheld => hdoes hfree h (copFreeGo_held hheld), fun hmissing => hdoes hfree h (copFreeGo_missing hmissing)⟩
  case last =>
    intro h
    exact ⟨fun halone => hdoes hend h (copEndGo_alone halone), fun hmore => hdoes hend h (copEndGo_waits (o := o) hmore)⟩

end Sys2Proof.Machine

/-! ## Collective operations with data (R197, R198, R202 to R204, R211) -/

namespace Sys2Proof.Machine

open Sys2Proof.Claims

/-! ### SEND, MCAST and PLACE start (R198, R204) -/

section Data

variable {i : Nat} {x : ColInst} {o : ColOp} {d : ReadResult} {b : CBuf} {s : State}

theorem copMcastGo_fenced (hf : unitFenced 116 s = true) :
    copMcastGo d i x o s = opFail i o.id St.collError Cd.unitFenced s := by
  simp only [copMcastGo, hf, if_true]

theorem copMcastGo_waits (hf : unitFenced 116 s = false) (hn : 64 ≤ mcastsInFlight s) : copMcastGo d i x o s = s := by
  simp only [copMcastGo, hf, hn, Bool.false_eq_true, if_false, if_true]

theorem copMcastGo_starts (hf : unitFenced 116 s = false) (hn : mcastsInFlight s < 64) : copMcastGo d i x o s = dataStart i x o d s := by
  simp only [copMcastGo, hf, Nat.not_le.mpr hn, Bool.false_eq_true, if_false]

/-- A SEND, an MCAST that may go out and a PLACE start alike. -/
theorem copGo_data {cop : Nat} (hcop : cop ∈ [2, 3, 5]) (hm : cop = 3 → unitFenced 116 s = false ∧ mcastsInFlight s < 64) :
    copGo d cop i x o s = dataStart i x o d s := by
  simp only [List.mem_cons, List.not_mem_nil, or_false] at hcop
  rcases hcop with rfl | rfl | rfl
  · rfl
  · obtain ⟨hf, hn⟩ := hm rfl
    exact copMcastGo_starts hf hn
  · rfl

theorem dataStart_host (hc : lacksCredit x o = false) (hb : hostBuf (oIn o.desc 0) = true) (hlen : oLen o.desc ≠ 0) :
    dataStart i x o d s = xltStart (hostAccess x (oIn o.desc 0) (oLen o.desc) (oHoff o.desc) false (.colRead i o.id d))
      (setPhase i o.id .checking s) := by
  simp only [dataStart, hc, hb, beq_iff_eq, hlen, Bool.false_and, Bool.false_eq_true, if_false, if_true]

theorem dataStart_noBuffer (hb : hostBuf (oIn o.desc 0) = false) (hnone : tget x.bufs (oIn o.desc 0) = none) :
    dataStart i x o d s = opFail i o.id St.collError Cd.badOperation s := by
  simp only [dataStart, hb, hnone, Option.isSome_none, Bool.or_self, Bool.and_false, Bool.false_eq_true, if_false]

theorem chunkBytes_enough {n : Nat} {bs : List Byte} (h : n ≤ bs.length) : chunkBytes n bs s = (bs.take n, s) := by
  simp only [chunkBytes, h, if_true]

section Chunk

variable (hc : lacksCredit x o = false) (hb : hostBuf (oIn o.desc 0) = false) (hget : tget x.bufs (oIn o.desc 0) = some b)
  (hfull : b.full = true)
include hc hb hget hfull

/-- A complete chunk gives LEN bytes; one of exact records made here gives a SEND all of them (R214). -/
theorem dataStart_chunk :
    dataStart i x o d s =
      if b.ownPartial && oCop o.desc == 2 then dataGo i o.id b.data s
      else dataGo i o.id (chunkBytes (oLen o.desc) b.data s).1 (chunkBytes (oLen o.desc) b.data s).2 := by
  simp only [dataStart, hc, hb, hget, hfull, Bool.not_true, Bool.false_and, Bool.false_eq_true, if_false]

theorem dataStart_records (hp : b.ownPartial = true) (hcop : oCop o.desc = 2) : dataStart i x o d s = dataGo i o.id b.data s := by
  rw [dataStart_chunk hc hb hget hfull, if_pos (by simp [hp, hcop])]

theorem dataStart_bytes (hp : b.ownPartial = false ∨ oCop o.desc ≠ 2) (hlen : oLen o.desc ≤ b.data.length) :
    dataStart i x o d s = dataGo i o.id (b.data.take (oLen o.desc)) s := by
  have hno : (b.ownPartial && oCop o.desc == 2) = false := by
    rcases hp with hp | hp <;> simp [hp]
  rw [dataStart_chunk hc hb hget hfull, hno, chunkBytes_enough hlen]
  rfl

end Chunk

end Data

/-! ### REDUCE (R211) -/

/-- The chunk buffers among a REDUCE's inputs. -/
abbrev reduceChunks (o : ColOp) : List Nat := (reduceInputs o.desc).filter (fun n => !hostBuf n)

section Reduce

variable {i r : Nat} {x : ColInst} {o : ColOp} {s : State}

theorem reduceStart_missing (h : ∃ k ∈ reduceChunks o, tget x.bufs k = none) :
    reduceStart i x o s = opFail i o.id St.collError Cd.badOperation s := by
  have hany : ((reduceInputs o.desc).filter (fun n => !hostBuf n)).any (fun n => (tget x.bufs n).isNone) = true := by
    simpa only [List.any_eq_true, Option.isNone_iff_eq_none] using h
  simp only [reduceStart, hany, if_true]

theorem reduceChunks_held (h : ∀ k ∈ reduceChunks o, (tget x.bufs k).isSome = true) :
    ((reduceInputs o.desc).filter (fun n => !hostBuf n)).any (fun n => (tget x.bufs n).isNone) = false := by
  refine List.any_eq_false.mpr fun k hk => ?_
  rw [Option.isNone_iff_eq_none]
  exact Option.isSome_iff_ne_none.mp (h k hk)

theorem reduceStart_no_rdu (h : ∀ k ∈ reduceChunks o, (tget x.bufs k).isSome = true) (hr : anyRdu s = false) :
    reduceStart i x o s = opFail i o.id St.collError Cd.unitFenced s := by
  simp only [reduceStart, reduceChunks_held h, hr, Bool.not_false, Bool.false_eq_true, if_false, if_true]

/-- With every input chunk held and whole, a REDUCE takes the free RDU and asks for its host inputs, if it has any. -/
theorem reduceStart_on_rdu (hr : anyRdu s = true) (hfree : freeRdu s = some r)
    (h : ∀ k ∈ reduceChunks o, ∃ c, tget x.bufs k = some c ∧ chunkWhole x c = true) :
    reduceStart i x o s =
      if (reduceHost x o.desc).isEmpty then setPhase i o.id (.reducing r none) s
      else xltStart (reduceAccess i x o) (setPhase i o.id (.reducing r none) s) := by
  have hheld : ∀ k ∈ reduceChunks o, (tget x.bufs k).isSome = true := fun k hk => by
    obtain ⟨c, hc, -⟩ := h k hk
    rw [hc, Option.isSome_some]
  have hall : ((reduceInputs o.desc).filter (fun n => !hostBuf n)).all (fun n => (tget x.bufs n).any (chunkWhole x)) = true := by
    refine List.all_eq_true.mpr fun k hk => ?_
    obtain ⟨c, hc, hwhole⟩ := h k hk
    rw [hc, Option.any_some, hwhole]
  simp only [reduceStart, reduceChunks_held hheld, hall, hr, hfree, Bool.not_true, Bool.false_eq_true, if_false]

/-! ### An RDU is done (R209, R211, R213) -/

theorem reduceDone_served {op : Nat} {bs : List Byte} (hx : getInst i s = some x) (ho : x.ops.find? (fun o => o.id == op) = some o)
    (hphase : o.phase = .reducing r none) (hhost : reduceHost x o.desc = []) (hserved : bit 8 (rdReg (Reg.SNF_MAP_RDU + 8 * r) s) = false) :
    reduceDone i op (.data bs) s = reduceGo i x o bs s := by
  simp only [reduceDone, hx, ho, hphase, hhost, hserved, List.isEmpty_nil, Bool.not_true, Bool.false_and, Bool.or_self, Bool.false_eq_true,
    if_false]

theorem reduceGo_exact {host : List Byte} {ins : List (Bool × List Byte)} {t : State}
    (hin : gatherInputs (withKept x o) o.desc (reduceInputs o.desc) host s = (ins, t)) (hphase : o.phase = .reducing r none)
    (hop : hOp x.head = 6 ∨ hOp x.head = 7) :
    reduceGo i x o host s =
      outGo i x o (reduceExact (hOp x.head == 7) (oRound o.desc) (oLen o.desc) ins) (some (!oRound o.desc))
        (keepLacs r (exactLacs (hOp x.head == 7) (oLen o.desc) ins) t) := by
  have hexact : (hOp x.head == 6 || hOp x.head == 7) = true := by simpa using hop
  simp only [reduceGo, hin, hexact, hphase, if_true]

theorem reduceGo_rounded {host : List Byte} {ins : List (Bool × List Byte)} {t : State}
    (hin : gatherInputs (withKept x o) o.desc (reduceInputs o.desc) host s = (ins, t)) (hop : hOp x.head < 6) :
    reduceGo i x o host s =
      outGo i x o (reduceRounded (hOp x.head) (hType x.head) (oLen o.desc) (ins.map (·.2))) (some false) t := by
  have hrounded : (hOp x.head == 6 || hOp x.head == 7) = false := by
    simp only [Bool.or_eq_false_iff, beq_eq_false_iff_ne]
    omega
  simp only [reduceGo, hin, hrounded, Bool.false_eq_true, if_false]

end Reduce

theorem exec_reduceComplete (i : InstId) (op : BitVec 32) (d : ReadResult) (s : State) :
    exec (.reduceComplete i op d) s = act (reduceDone i.toNat op.toNat d) s := by
  rfl

/-- Settles O28: a SEND, an MCAST and a PLACE start as their source and its buffer say, a REDUCE as its input chunks and the RDUs say, and a
REDUCE that an RDU has done is rounded or kept exact as the operation of its collective says. -/
theorem collectiveDataOperations : Obligations.CollectiveDataOperations := by
  intro i x o d b s n src
  refine ⟨?data, ?none, ?mcast, ?reduce, ?done⟩
  case data =>
    intro r hr h hok hm
    have hrow : r ∈ copRows i d := by
      simp only [List.mem_cons, List.not_mem_nil, or_false] at hr
      rcases hr with rfl | rfl | rfl <;> simp [copRows]
    have hcode : r.1 ∈ [2, 3, 5] := by
      simp only [List.mem_cons, List.not_mem_nil, or_false] at hr
      rcases hr with rfl | rfl | rfl <;> simp
    have hcop : oCop o.desc = r.1 := oCop_of_takesUp h
    have hdoes {t : State} (ht : dataStart n x o d s = t) : Does r.2 s t := does_cop hrow h hok ((copGo_data hcode hm).trans ht)
    refine ⟨fun hc hb hlen => hdoes (dataStart_host hc hb hlen),
      fun hc hb hget hfull hp h2 => hdoes (dataStart_records hc hb hget hfull hp (hcop.trans h2)),
      fun hc hb hget hfull hp hlen => hdoes (dataStart_bytes hc hb hget hfull ?_ hlen),
      fun hb hnone => hdoes (dataStart_noBuffer hb hnone)⟩
    rwa [hcop]
  case none =>
    intro r hr hx ho
    have hrow : r ∈ copRows i d := by
      simp only [List.mem_cons, List.not_mem_nil, or_false] at hr
      rcases hr with rfl | rfl | rfl | rfl <;> simp [copRows]
    exact does_cop_nothing hrow hx ho
  case mcast =>
    intro h hok
    have hrow : (3, Instr.copMcast i d) ∈ copRows i d := by simp [copRows]
    exact ⟨fun hf => does_cop hrow h hok (copMcastGo_fenced hf), fun hf hn => does_cop hrow h hok (copMcastGo_waits hf hn)⟩
  case reduce =>
    intro h hok ins
    have hrow : (4, Instr.copReduce i) ∈ copRows i d := by simp [copRows]
    have hdoes {t : State} (ht : reduceStart n x o s = t) : Does (.copReduce i) s t := does_cop hrow h hok ht
    refine ⟨fun hmissing => hdoes (reduceStart_missing hmissing), fun hheld => ⟨fun hr => hdoes (reduceStart_no_rdu hheld hr), ?_⟩⟩
    intro r hr hfree hwhole
    have hstart := reduceStart_on_rdu (i := n) hr hfree hwhole
    exact ⟨fun hhost => hdoes (hstart.trans (if_pos (by simp [hhost]))), fun hhost => hdoes (hstart.trans (if_neg (by simp [hhost])))⟩
  case done =>
    intro op r host hx ho hphase hhost hserved
    have hdone {t : State} (ht : reduceGo n x o host s = t) : Does (.reduceComplete i op (.data host)) s t :=
      does_of_exec (exec_reduceComplete i op _ s) ((reduceDone_served hx ho hphase hhost hserved).trans ht)
    exact ⟨fun hop => hdone (reduceGo_exact rfl hphase hop), fun hop => hdone (reduceGo_rounded rfl hop)⟩

end Sys2Proof.Machine

/-! ## Collective packets: two combinings under one key (R218) -/

namespace Sys2Proof.Machine

open Sys2Proof.Claims

/-! ### The counterexample to O29 -/

/-- A CADD_ACK with a good check code. -/
def goodCaddAck : Packet := { Packet.zero with op := 0x25, crc := e2eCrc { Packet.zero with op := 0x25 } }

/-- A CADD sent by port 5 that holds one constituent, which came from an attachment. -/
def sentComb : Comb :=
  { egress := 5, pkt := Packet.zero, budget := 2, custody := [.hop 128 5 4], phase := .sent, since := 0, wait := 0 }

/-- Its slot is listed behind a higher one, so a search by phase, egress and hop sequence finds it and a look-up of its slot does not. -/
def unsortedCombs : State :=
  { State.reset with col := { State.reset.col with combs := [(1, { sentComb with phase := .open_ }), (0, sentComb)] } }

theorem caddAcked_unsortedCombs : caddAcked 5 goodCaddAck unsortedCombs = unsortedCombs := by decide +kernel

theorem exec_caddAck (inp : Input) (p : Packet) (s : State) :
    exec (.caddAck inp p) s = act (fun s => if p.op == 0x25 && !unitFenced 117 s then caddAcked inp.toNat p s else s) s := by
  rfl

theorem does_caddAck_unsortedCombs : Does (.caddAck 5 goodCaddAck) unsortedCombs unsortedCombs := by
  refine does_of_exec (exec_caddAck 5 goodCaddAck unsortedCombs) ?_
  simp only [show (5 : Input).toNat = 5 from rfl, caddAcked_unsortedCombs, ite_self]

/-- The statement's other variables play no part in the clause of a CADD_ACK. -/
def unusedInst : ColInst :=
  { hp := 0, fn := 0, comm := 0, seq := 0, prog := 0, ref := ⟨0, 0, 0, 0⟩, inv := 0, head := 0, pd := 0, failed := none, finished := false,
    resultDone := false, met := [], ops := [], nextOp := 0, bufs := [], credits := [], hostSeen := [] }

/-- Refutes O29: in a table of combinings whose keys do not rise, which the statement admits, the entry that CADD_ACK's search finds is not
the one that is then looked up under its key, so its constituents are not acknowledged. -/
theorem not_collectivePacketsAreTaken : ¬ Obligations.CollectivePacketsAreTaken := by
  intro h
  have hall := h goodCaddAck 0 0 0 5 unusedInst (CBuf.held 0 0) unsortedCombs unsortedCombs unsortedCombs (by decide +kernel)
  obtain ⟨-, -, -, -, hgood⟩ := hall
  obtain ⟨-, -, -, -, -, -, -, -, -, -, -, hack⟩ := hgood (by decide +kernel)
  have hsays := hack rfl sentComb (by decide +kernel) (by decide +kernel)
  have hsame := Host.Outcome.next.inj ((does_caddAck_unsortedCombs (by decide +kernel)).symm.trans hsays)
  exact absurd (congrArg (fun s => s.col.done) hsame) (by decide +kernel)

end Sys2Proof.Machine

/-! ## Collective timers and mailboxes (R196, R201, R217, R218, R223 to R226) -/

namespace Sys2Proof.Machine

open Sys2Proof.Claims

/-! ### Timers (R196, R201, R217, R218) -/

section Timers

variable {s : State}

/-- The packet's attempts are used up, or it is sent again by unicast. -/
theorem colResend_waiting {id : Nat} {w : ColTx} (hf : unitFenced 117 s = false) (hw : s.col.tx.find? (fun t => t.id == id) = some w) :
    let t := advanceTo (w.sentAt + w.rto) s
    colResend id s =
      if nz (rf Reg.COL_CFG 23 16 t) ≤ w.tries then
        instAbort w.inst Cd.peerLost (withCol (fun c => { c with tx := c.tx.filter (fun u => u.id != id) }) t)
      else
        transmit w.hp { w.pkt with msn := if w.pkt.op == 0x20 then 0 else w.pkt.msn } (evcPulse 213 0 (withCol (fun c =>
          { c with tx := c.tx.map (fun u =>
              if u.id == id then { u with tries := u.tries + 1, sentAt := t.now, rto := colRto t } else u) }) t)) := by
  intro t
  simp only [colResend, hw, hf, Bool.false_eq_true, if_false]
  rfl

variable {c : Nat} {y : Comb} (hf : unitFenced 117 s = false) (hy : getComb c s = some y)
include hf hy

theorem combResend_sent (hp : y.phase = .sent) (he : y.egress ≠ 184) :
    let t := evcPulse 213 0 (advanceTo (y.since + y.wait) s)
    combResend c s = combEmit y (putComb c { y with since := t.now, wait := colRto t } t) := by
  have hphase : (y.phase != .sent) = false := by rw [hp]; rfl
  simp only [combResend, hy, hf, hphase, beq_iff_eq, he, Bool.or_self, Bool.false_eq_true, if_false]

/-- A combining that ends is applied on this device, or goes out with the device's own hop sequence. -/
theorem combClose_open (hp : y.phase = .open_) :
    let t := advanceTo (y.since + y.wait) s
    let z := { y with phase := .sent, since := t.now, wait := colRto t, pkt := { y.pkt with psn := t.col.hopSeq + 1 } }
    combClose c s =
      if y.egress = 184 then combApply c t
      else combEmit z (putComb c z (withCol (fun k => { k with hopSeq := t.col.hopSeq + 1 }) t)) := by
  have hphase : (y.phase != .open_) = false := by rw [hp]; rfl
  simp only [combClose, hy, hf, hphase, beq_iff_eq, Bool.or_self, Bool.false_eq_true, if_false]

end Timers

theorem tombExpire_left {hp time : Nat} {comm : BitVec 32} {seq : BitVec 16} {e : Early} {s : State}
    (he : getEarly hp comm seq s = some e) (ht : e.tomb = some time) :
    tombExpire hp comm seq s =
      tidyEarly ((modEarly hp comm seq (fun e => { e with tomb := none }) (advanceTo time s)).getD s) := by
  simp only [tombExpire, he, Option.bind_some, ht]

/-! ### Result mailboxes (R223 to R226, R389, R419) -/

/-- A write by a function that P2 leaves served is taken in P2 too. -/
theorem hostWr_taken_inP2 {f src : Nat} {k : State → State} {s : State}
    (h : HostWrites f s ∨ (HostReaches f s ∧ powerState s = 2 ∧ frozen f s = false)) : hostWr f src true k s = k s := by
  rcases h with hw | ⟨⟨hreach, hready⟩, -, hfrozen⟩
  · exact hostWr_taken hw
  · simp [hostWr, hreach, hready, hfrozen]

section Mailbox

variable {f n : Nat} {off : BitVec 4} {bytes : BitVec 5} {v : BitVec 64} {s : State}

theorem mbxRelease_fenced (hf : unitFenced 137 s = true) :
    mbxRelease f n off bytes v s = holdReq (.mbxRel f n off.toNat bytes.toNat v) s := by
  simp only [mbxRelease, hf, if_true]

theorem mbxRelease_stranger (hf : unitFenced 137 s = false) (ho : mbxOwned n f s = false) :
    mbxRelease f n off bytes v s = violation 162 f 3 s := by
  simp only [mbxRelease, mbxReleaseGo, hf, ho, Bool.not_false, Bool.false_eq_true, if_false, if_true]

/-- The owner's write releases a FULL mailbox of the generation that it names, and is counted otherwise. -/
theorem mbxRelease_owner (hf : unitFenced 137 s = false) (ho : mbxOwned n f s = true) :
    mbxRelease f n off bytes v s =
      if off = 0 ∧ bytes = 8 ∧ (getMbx n s).state = .full ∧ (getMbx n s).gen = v.extractLsb' 0 16 then
        putMbx n { getMbx n s with state := .empty, gen := (getMbx n s).gen + 1 } s
      else evcPulse 193 137 s := by
  by_cases hplace : off = 0 ∧ bytes = 8
  · obtain ⟨rfl, rfl⟩ := hplace
    simp [mbxRelease, mbxReleaseGo, hf, ho, ignored]
  · have helse : (off != 0 || bytes != 8) = true := by
      rwa [Bool.or_eq_true, bne_iff_ne, bne_iff_ne, ← not_and_or]
    rw [if_neg fun ⟨hoff, hbytes, _⟩ => hplace ⟨hoff, hbytes⟩]
    simp only [mbxRelease, mbxReleaseGo, hf, ho, helse, ignored, Bool.not_true, Bool.false_eq_true, if_false, if_true]

theorem writeMbxAlloc_changes (he : (getMbx n s).state = .empty) (hv : bits 12 0 v ≠ rf (Reg.MBX_ALLOC + 8 * n) 12 0 s) :
    writeMbxAlloc n v s = putMbx n { getMbx n s with gen := (getMbx n s).gen + 1 } (writeReg (Reg.MBX_ALLOC + 8 * n) v s) := by
  have hempty : ((getMbx n s).state != .empty) = false := by rw [he]; rfl
  simp only [writeMbxAlloc, hempty, beq_iff_eq, hv, Bool.false_eq_true, if_false]

theorem writeMbxAlloc_keeps (h : (getMbx n s).state ≠ .empty ∨ bits 12 0 v = rf (Reg.MBX_ALLOC + 8 * n) 12 0 s) :
    writeMbxAlloc n v s = s := by
  rcases h with hfull | hsame
  · simp only [writeMbxAlloc, bne_iff_ne.mpr hfull, if_true, ite_self]
  · simp only [writeMbxAlloc, hsame, beq_self_eq_true, if_true]

end Mailbox

theorem exec_colRtoExpiry (id : BitVec 32) (s : State) : exec (.colRtoExpiry id) s = act (colResend id.toNat) s := by
  rfl

theorem exec_caddHopTimeout (c : BitVec 11) (s : State) : exec (.caddHopTimeout c) s = act (combResend c.toNat) s := by
  rfl

theorem exec_combIntExpiry (c : BitVec 11) (s : State) : exec (.combIntExpiry c) s = act (combClose c.toNat) s := by
  rfl

theorem exec_tombTimeExpiry (hp : BitVec 2) (comm : BitVec 32) (seq : BitVec 16) (s : State) :
    exec (.tombTimeExpiry hp comm seq) s = plain (tombExpire hp.toNat comm seq) s := by
  rfl

theorem exec_mbxRelease (f : Fn) (n : BitVec 12) (off : BitVec 4) (bytes : BitVec 5) (v : BitVec 64) (s : State) :
    exec (.mbxRelease f n off bytes v) s = act (hostWr f.toNat 137 true (mbxRelease f.toNat n.toNat off bytes v)) s := by
  rfl

theorem exec_mbxAllocWrite (m : Master) (n : BitVec 12) (v : BitVec 64) (s : State) :
    exec (.mbxAllocWrite m n v) s =
      act (mgtWr m (cross 137 (regReq m (Reg.MBX_ALLOC + 8 * n.toNat) v) (writeMbxAlloc n.toNat v))) s := by
  rfl

/-- Settles O30: each timer finds what it runs for and the COL in service, and each write of a mailbox its owner and its state. -/
theorem collectiveTimersAndMailboxes : Obligations.CollectiveTimersAndMailboxes := by
  intro id c w y hp comm seq e time m f n v off bytes s drop box
  refine ⟨?resend, ?hop, ?close, fun he ht => doesOnly_of_exec (exec_tombTimeExpiry hp comm seq s) (tombExpire_left he ht), ?release, ?alloc⟩
  case resend =>
    intro hf hw t
    have hresend := colResend_waiting hf hw
    exact ⟨fun hlost => does_of_exec (exec_colRtoExpiry id s) (hresend.trans (if_pos hlost)),
      fun hagain hop => does_of_exec (exec_colRtoExpiry id s) (hresend.trans ((if_neg (Nat.not_le.mpr hagain)).trans (by rw [hop]; rfl)))⟩
  case hop =>
    intro hf hy hphase he
    exact does_of_exec (exec_caddHopTimeout c s) (combResend_sent hf hy hphase he)
  case close =>
    intro hf hy hphase
    have hclose := combClose_open hf hy hphase
    exact ⟨fun he => does_of_exec (exec_combIntExpiry c s) (hclose.trans (if_pos he)),
      fun he => does_of_exec (exec_combIntExpiry c s) (hclose.trans (if_neg he))⟩
  case release =>
    intro hw
    have hdoes {t : State} (ht : mbxRelease f.toNat n.toNat off bytes v s = t) : Does (.mbxRelease f n off bytes v) s t :=
      does_of_exec (exec_mbxRelease f n off bytes v s) ((hostWr_taken_inP2 hw).trans ht)
    refine ⟨fun hf => hdoes (mbxRelease_fenced hf), fun hf ho => hdoes (mbxRelease_stranger hf ho),
      fun hf ho hoff hbytes hfull hgen => hdoes ((mbxRelease_owner hf ho).trans (if_pos ⟨hoff, hbytes, hfull, hgen⟩)),
      fun hf ho hnot => hdoes ((mbxRelease_owner hf ho).trans (if_neg ?_))⟩
    rintro ⟨hoff, hbytes, hfull, hgen⟩
    rcases hnot with h | h | h | h
    · exact h hoff
    · exact h hbytes
    · exact h hfull
    · exact h hgen
  case alloc =>
    intro hm hopen
    have hdoes {t : State} (ht : writeMbxAlloc n.toNat v s = t) : Does (.mbxAllocWrite m n v) s t :=
      does_of_exec (exec_mbxAllocWrite m n v s) ((mgtWr_taken hm).trans ((cross_open hopen).trans ht))
    exact ⟨fun he hv => hdoes (writeMbxAlloc_changes he hv), fun hkeep => hdoes (writeMbxAlloc_keeps hkeep)⟩

end Sys2Proof.Machine

/-! ## The reset state (R225, R326, R331, R366, R415, R440, R486) -/

namespace Sys2Proof.Machine

open Sys2Proof.Claims

/-- At reset a register holds the value that its definition gives it. -/
theorem rdReg_reset (off : Nat) : rdReg off State.reset = regReset false off := rfl

theorem frozen_reset {f : Nat} (h : f < 1024) : frozen f State.reset = false := by
  have hregs : ∀ k < 16, regReset false (Reg.SEC_FROZEN + 8 * k) = 0 := by decide +kernel
  rw [frozen, rdReg_reset, hregs (f / 64) (by omega)]
  simp [bit]

theorem linkLive_reset {p : Nat} (h : p < 128) : linkLive p State.reset = false := by
  have hregs : ∀ q < 128, bits 30 28 (regReset false (Reg.LNK_STAT + 8 * q)) = 0 := by decide +kernel
  rw [linkLive, rf, rdReg_reset, hregs p h]
  rfl

/-- Settles O59: registers read as their definitions' reset values, and every table of objects is empty. -/
theorem resetState : Obligations.ResetState :=
  ⟨rfl, by decide +kernel, by decide +kernel, by decide +kernel, fun _ => frozen_reset, fun _ => ⟨rfl, rfl⟩, fun _ => rfl,
    fun _ => linkLive_reset, fun _ _ => rfl, rfl, rfl, by decide⟩

end Sys2Proof.Machine

/-! ## Taper instruction words: the decoder and the encoder agree (R235, R236) -/

namespace Sys2Proof.Machine

/-! ### The fields of a word (R235) -/

theorem extractLsb'_eq_iff {n m : Nat} (lo : Nat) (v : BitVec n) (x : BitVec m) :
    v.extractLsb' lo m = x ↔ v.toNat / 2 ^ lo % 2 ^ m = x.toNat := by
  rw [← BitVec.toNat_inj, BitVec.extractLsb'_toNat, Nat.shiftRight_eq_div_pow]

theorem extractLsb'_eq_zero {n : Nat} (lo m : Nat) (v : BitVec n) : v.extractLsb' lo m = 0 ↔ v.toNat / 2 ^ lo % 2 ^ m = 0 := by
  rw [extractLsb'_eq_iff]; rfl

/-- A field that holds a lane, which is narrower, as its value and as the lane. -/
theorem extractLsb'_lane {k m lo : Nat} {w : BitVec 32} {lane : BitVec k} (hk : k ≤ m)
    (h : w.extractLsb' lo m = lane.zeroExtend m) : w.extractLsb' lo k = lane := by
  rw [extractLsb'_eq_iff, BitVec.toNat_setWidth,
    Nat.mod_eq_of_lt (Nat.lt_of_lt_of_le lane.isLt (Nat.pow_le_pow_right (by decide) hk))] at h
  rw [extractLsb'_eq_iff, ← Nat.mod_mod_of_dvd _ (Nat.pow_dvd_pow 2 hk), h, Nat.mod_eq_of_lt lane.isLt]

/-! The ranges of a word that R236 wants to be zero, by the fields that they span. -/

section ZeroFields

variable (w : BitVec 32)

theorem bits_23_20_eq_zero : bits 23 20 w = 0 ↔ w.extractLsb' 20 4 = 0 := (extractLsb'_eq_zero ..).symm
theorem bits_23_22_eq_zero : bits 23 22 w = 0 ↔ w.extractLsb' 22 2 = 0 := (extractLsb'_eq_zero ..).symm
theorem bits_21_20_eq_zero : bits 21 20 w = 0 ↔ w.extractLsb' 20 2 = 0 := (extractLsb'_eq_zero ..).symm
theorem bits_19_16_eq_zero : bits 19 16 w = 0 ↔ w.extractLsb' 16 4 = 0 := (extractLsb'_eq_zero ..).symm
theorem bits_15_12_eq_zero : bits 15 12 w = 0 ↔ w.extractLsb' 12 4 = 0 := (extractLsb'_eq_zero ..).symm
theorem bits_11_0_eq_zero : bits 11 0 w = 0 ↔ w.extractLsb' 0 12 = 0 := (extractLsb'_eq_zero ..).symm

theorem bits_15_0_eq_zero : bits 15 0 w = 0 ↔ w.extractLsb' 12 4 = 0 ∧ w.extractLsb' 0 12 = 0 := by
  simp only [extractLsb'_eq_zero, bits]; omega

theorem bits_19_0_eq_zero : bits 19 0 w = 0 ↔ w.extractLsb' 16 4 = 0 ∧ w.extractLsb' 12 4 = 0 ∧ w.extractLsb' 0 12 = 0 := by
  simp only [extractLsb'_eq_zero, bits]; omega

theorem bits_21_0_eq_zero : bits 21 0 w = 0 ↔
    w.extractLsb' 20 2 = 0 ∧ w.extractLsb' 16 4 = 0 ∧ w.extractLsb' 12 4 = 0 ∧ w.extractLsb' 0 12 = 0 := by
  simp only [extractLsb'_eq_zero, bits]; omega

theorem bits_23_0_eq_zero : bits 23 0 w = 0 ↔
    w.extractLsb' 20 4 = 0 ∧ w.extractLsb' 16 4 = 0 ∧ w.extractLsb' 12 4 = 0 ∧ w.extractLsb' 0 12 = 0 := by
  simp only [extractLsb'_eq_zero, bits]; omega

theorem bits_23_16_eq_zero : bits 23 16 w = 0 ↔ w.extractLsb' 20 4 = 0 ∧ w.extractLsb' 16 4 = 0 := by
  simp only [extractLsb'_eq_zero, bits]; omega

theorem bits_19_18_eq_zero : bits 19 18 w = 0 ↔ w.extractLsb' 16 4 = (w.extractLsb' 16 2).zeroExtend 4 := by
  simp only [extractLsb'_eq_iff, bits, BitVec.toNat_setWidth, BitVec.extractLsb'_toNat,
    Nat.shiftRight_eq_div_pow]
  omega

theorem bits_11_3_eq_zero : bits 11 3 w = 0 ↔ w.extractLsb' 0 12 = (w.extractLsb' 0 3).zeroExtend 12 := by
  simp only [extractLsb'_eq_iff, bits, BitVec.toNat_setWidth, BitVec.extractLsb'_toNat,
    Nat.shiftRight_eq_div_pow]
  omega

theorem bits_15_3_eq_zero : bits 15 3 w = 0 ↔ w.extractLsb' 12 4 = 0 ∧ w.extractLsb' 0 12 = (w.extractLsb' 0 3).zeroExtend 12 := by
  rw [← bits_15_12_eq_zero, ← bits_11_3_eq_zero]
  simp only [bits]
  omega

theorem bits_15_6_extract : bits 15 6 (w.extractLsb' 0 16) = bits 15 6 w := by
  simp only [bits, BitVec.extractLsb'_toNat, Nat.shiftRight_eq_div_pow]
  omega

end ZeroFields

/-! ### The formats: a word has a format's shape exactly when its fields are the format's (R235) -/

theorem tWord_eq_iff {opc low : Nat} (ho : opc < 256) (hl : low < 2 ^ 24) (w : BitVec 32) :
    tWord opc low = w ↔ bits 31 24 w = opc ∧ w.toNat % 2 ^ 24 = low := by
  have hw := w.isLt
  rw [← BitVec.toNat_inj, tWord, BitVec.toNat_ofNat, bits]
  omega

section Formats

variable {opc : Nat} (ho : opc < 256) {w : BitVec 32}
include ho

theorem fmtR_eq_iff {rd ra rb : WReg} : fmtR opc rd ra rb = w ↔
    bits 31 24 w = opc ∧ w.extractLsb' 20 4 = rd ∧ w.extractLsb' 16 4 = ra ∧ w.extractLsb' 12 4 = rb ∧ w.extractLsb' 0 12 = 0 := by
  have hd := rd.isLt
  have ha := ra.isLt
  have hb := rb.isLt
  rw [fmtR, tWord_eq_iff ho (by omega), extractLsb'_eq_zero]
  simp only [extractLsb'_eq_iff]
  omega

theorem fmtI_eq_iff {rd ra : WReg} {imm : BitVec 16} : fmtI opc rd ra imm = w ↔
    bits 31 24 w = opc ∧ w.extractLsb' 20 4 = rd ∧ w.extractLsb' 16 4 = ra ∧ w.extractLsb' 0 16 = imm := by
  have hd := rd.isLt
  have ha := ra.isLt
  have hi := imm.isLt
  rw [fmtI, tWord_eq_iff ho (by omega)]
  simp only [extractLsb'_eq_iff]
  omega

theorem fmtJ_eq_iff {off : BitVec 24} : fmtJ opc off = w ↔ bits 31 24 w = opc ∧ w.extractLsb' 0 24 = off := by
  rw [fmtJ, tWord_eq_iff ho off.isLt, extractLsb'_eq_iff]
  omega

theorem fmtV_eq_iff {vd vb : VReg} {ra rb : WReg} {imm : BitVec 12} : fmtV opc vd vb ra rb imm = w ↔
    bits 31 24 w = opc ∧ w.extractLsb' 22 2 = vd ∧ w.extractLsb' 20 2 = vb ∧ w.extractLsb' 16 4 = ra ∧ w.extractLsb' 12 4 = rb ∧
      w.extractLsb' 0 12 = imm := by
  have hvd := vd.isLt
  have hvb := vb.isLt
  have ha := ra.isLt
  have hb := rb.isLt
  have hi := imm.isLt
  rw [fmtV, tWord_eq_iff ho (by omega)]
  simp only [extractLsb'_eq_iff]
  omega

end Formats

/-! ### The decoder and the encoder (R236) -/

/-- A guard of the decoder that holds lets its instruction pass. -/
theorem guarded_eq_some {ok : Bool} {i j : Instr} (hok : ok = true) (hij : i = j) : (if ok then some i else none) = some j := by
  rw [if_pos hok, hij]

/-- The fields of an encoded instruction are its operands, and the zeros of its format are what the decoder asks for. -/
theorem taperDecode_of_taperEncode {i : Instr} {w : BitVec 32} (h : taperEncode i = some w) : ∃ c, taperDecode c w = some i := by
  cases i with
  -- format R with three operands
  | tAdd c | tSub c | tAnd c | tOr c | tXor c | tShl c | tShr c | tSar c | tMul c | tMulhu c | tSlt c | tSltu c | tAadd c | tAswp c
  | tAcas c | tCcpy c | tMbxput c =>
    obtain ⟨ho, rfl, rfl, rfl, hz⟩ := (fmtR_eq_iff (by decide)).mp (Option.some.inj h)
    exact ⟨c, by rw [taperDecode, ho]; exact guarded_eq_some (by simp [hz, bits_11_0_eq_zero]) rfl⟩
  -- format R with fewer
  | tRet c | tEnd c | tCfree c | tJr c | tTimer c | tRdtime c | tSemacq c | tSemrel c =>
    obtain ⟨ho, hd, ha, hb, hz⟩ := (fmtR_eq_iff (by decide)).mp (Option.some.inj h)
    exact ⟨c, by
      rw [taperDecode, ho]
      exact guarded_eq_some
        (by simp [hd, ha, hb, hz, bits_23_0_eq_zero, bits_15_0_eq_zero, bits_19_0_eq_zero, bits_23_20_eq_zero]) (by simp only [hd, ha])⟩
  -- formats I and B with two registers
  | tAddi c | tAndi c | tOri c | tXori c | tSlti c | tSltiu c | tLd c | tLw c | tLh c | tLb c | tSt c | tSw c | tSh c | tSb c | tBeq c
  | tBne c | tBlt c | tBge c | tBltu c | tBgeu c =>
    obtain ⟨ho, rfl, rfl, rfl⟩ := (fmtI_eq_iff (by decide)).mp (Option.some.inj h)
    exact ⟨c, by rw [taperDecode, ho]; rfl⟩
  -- format I with fewer
  | tWaitev c | tPollev c | tSys c | tBrk c =>
    obtain ⟨ho, hd, ha, rfl⟩ := (fmtI_eq_iff (by decide)).mp (Option.some.inj h)
    exact ⟨c, by
      rw [taperDecode, ho]
      exact guarded_eq_some (by simp [hd, ha, bits_19_16_eq_zero, bits_23_16_eq_zero]) (by simp only [hd])⟩
  -- format I with an amount to shift by
  | tShli c | tShri c | tSari c =>
    obtain ⟨hsmall, h⟩ := Option.ite_none_right_eq_some.mp h
    obtain ⟨ho, rfl, rfl, rfl⟩ := (fmtI_eq_iff (by decide)).mp (Option.some.inj h)
    rw [bits_15_6_extract] at hsmall
    exact ⟨c, by rw [taperDecode, ho]; exact guarded_eq_some hsmall rfl⟩
  -- format I with a lane in the field of ra
  | tMovz c | tMovk c =>
    obtain ⟨ho, rfl, ha, rfl⟩ := (fmtI_eq_iff (by decide)).mp (Option.some.inj h)
    have hlane := extractLsb'_lane (by decide) ha
    exact ⟨c, by
      rw [taperDecode, ho]
      exact guarded_eq_some (by simp [ha, hlane, bits_19_18_eq_zero]) (by rw [hlane])⟩
  -- format J
  | tJmp c | tCall c =>
    obtain ⟨ho, rfl⟩ := (fmtJ_eq_iff (by decide)).mp (Option.some.inj h)
    exact ⟨c, by rw [taperDecode, ho]; rfl⟩
  -- format V
  | tVld c | tVst c | tVmov c | tVzero c | tCrd c | tCwr c | tColop c | tMsg c | tHxfer c | tNote c =>
    obtain ⟨ho, hvd, hvb, ha, hb, hi⟩ := (fmtV_eq_iff (by decide)).mp (Option.some.inj h)
    exact ⟨c, by
      rw [taperDecode, ho]
      exact guarded_eq_some
        (by simp [hvd, hvb, ha, hb, hi, bits_23_22_eq_zero, bits_21_20_eq_zero, bits_19_16_eq_zero, bits_15_12_eq_zero,
          bits_11_0_eq_zero, bits_19_0_eq_zero, bits_21_0_eq_zero])
        (by simp only [hvd, hvb, ha, hb, hi])⟩
  -- format V with a lane in the field of the immediate
  | tVins c | tVext c =>
    obtain ⟨ho, hvd, hvb, ha, hb, hi⟩ := (fmtV_eq_iff (by decide)).mp (Option.some.inj h)
    have hlane := extractLsb'_lane (by decide) hi
    exact ⟨c, by
      rw [taperDecode, ho]
      exact guarded_eq_some
        (by simp [hvd, hvb, ha, hb, hi, hlane, bits_21_20_eq_zero, bits_15_3_eq_zero, bits_23_22_eq_zero, bits_19_16_eq_zero,
          bits_11_3_eq_zero])
        (by simp only [hvd, hvb, ha, hb, hlane])⟩
  -- no other command is a Taper instruction
  | _ => cases h

/-- For each opcode the guard asks for the zeros that the format's fields lack: with them the word is that of its own fields. -/
theorem taperEncode_of_taperDecode {c : CoreId} {w : BitVec 32} {i : Instr} (h : taperDecode c w = some i) : taperEncode i = some w := by
  unfold taperDecode at h
  dsimp only at h
  split at h
  all_goals
    simp only [bits_23_20_eq_zero, bits_23_22_eq_zero, bits_21_20_eq_zero, bits_19_16_eq_zero, bits_15_12_eq_zero, bits_11_0_eq_zero,
      bits_15_0_eq_zero, bits_19_0_eq_zero, bits_21_0_eq_zero, bits_23_0_eq_zero, bits_23_16_eq_zero, bits_19_18_eq_zero,
      bits_11_3_eq_zero, bits_15_3_eq_zero, Option.ite_none_right_eq_some, Option.some.injEq, reduceCtorEq, beq_iff_eq,
      Bool.and_eq_true] at h
  all_goals
    obtain ⟨hz, rfl⟩ := h
    simp [taperEncode, fmtR_eq_iff, fmtI_eq_iff, fmtJ_eq_iff, fmtV_eq_iff, bits_15_6_extract, *]

/-- Settles O60: a word has a format's shape exactly when its fields are the format's, and the decoder's guards say the same of its zeros. -/
theorem taperDecodesWhatItEncodes : Obligations.TaperDecodesWhatItEncodes :=
  ⟨fun _ _ => taperDecode_of_taperEncode, fun _ _ _ => taperEncode_of_taperDecode⟩

end Sys2Proof.Machine

/-! ## Taper cores: an instruction on a running core, its registers and the arithmetic (R234, R236) -/

namespace Sys2Proof.Machine

open Sys2Proof.Claims

/-! ### A core that runs an instruction -/

section Running

variable {c : Nat} {a : Act} {s : State} (hact : (getCore c s).act = some a) (hwait : a.wait = none) (hhalt : coreHalted c s = false)
include hact hwait hhalt

theorem tprRun_running (k : Act → State → State) : tprRun c k s = k a s := by
  simp [tprRun, hact, hwait, hhalt]

end Running

theorem does_of_tprRun {c : CoreId} {a : Act} {i : Instr} {k : Act → State → State} {s t : State}
    (hact : (getCore c.toNat s).act = some a) (hwait : a.wait = none) (hhalt : coreHalted c.toNat s = false)
    (he : exec i s = act (tprRun c.toNat k) s) (hk : k a s = t) : Does i s t :=
  does_of_exec he ((tprRun_running hact hwait hhalt k).trans hk)

theorem idle_runsNow {c : CoreId} {b : Act} {s : State} (h : Idle s) : Idle (runsNow c b s) := h

section Runs

variable {c : CoreId} {a : Act} {i : Instr} {k : Act → State → State} {s : State} (h : Runs c a s)
  (he : exec i s = act (tprRun c.toNat k) s)
include h he

/-- An instruction on a core that runs `a` is its effect, where that leaves nothing to go on by itself. -/
theorem exec_of_runs {t : State} (hk : k a s = t) (ht : Idle t) : exec i s = .next t := by
  obtain ⟨hrun, -, hact, hwait, hhalt⟩ := h
  have hkt : tprRun c.toNat k s = t := (tprRun_running hact hwait hhalt k).trans hk
  rw [he, act_idle hrun (hkt ▸ ht), hkt]

theorem exec_runsNow {b : Act} (hk : k a s = runsNow c b s) : exec i s = .next (runsNow c b s) :=
  exec_of_runs h he hk (idle_runsNow h.2.1)

end Runs

/-! ### The registers of an activation (R234) -/

theorem getW_setW (a : Act) (rd d : WReg) (v : BitVec 64) :
    (a.setW rd.toNat v).getW d.toNat = if d = rd ∧ d ≠ 0 then v else a.getW d.toNat := by
  have hd : d.toNat < 16 := d.isLt
  by_cases h0 : d = 0
  · simp [h0, Act.getW]
  have hd0 : d.toNat ≠ 0 := fun h => h0 (BitVec.eq_of_toNat_eq h)
  by_cases hrd : rd = 0
  · have hne : d ≠ rd := hrd ▸ h0
    simp [hrd, Act.setW]
  · have hrd0 : rd.toNat ≠ 0 := fun h => hrd (BitVec.eq_of_toNat_eq h)
    have h0' : ¬d = 0#4 := h0
    simp [Act.getW, Act.setW, hd0, hrd0, hd, h0', BitVec.toNat_inj]

theorem getV_setV (a : Act) (vd d : VReg) (v : BitVec 512) :
    (a.setV vd.toNat v).getV d.toNat = if d = vd then v else a.getV d.toNat := by
  have hd : d.toNat < 4 := d.isLt
  simp [Act.getV, Act.setV, hd, BitVec.toNat_inj]

theorem setW_keeps (a : Act) (d : Nat) (v : BitVec 64) : a.setW d v = { a with w := (a.setW d v).w } := by
  unfold Act.setW
  split <;> rfl

theorem wroteW_next (a : Act) (rd : WReg) (v : BitVec 64) : WroteW a (a.setW rd.toNat v).next rd v := by
  refine ⟨?_, fun d => getW_setW a rd d v⟩
  rw [setW_keeps]
  rfl

theorem wroteV_next (a : Act) (vd : VReg) (v : BitVec 512) : WroteV a (a.setV vd.toNat v).next vd v :=
  ⟨rfl, fun d => getV_setV a vd d v⟩

section Puts

variable {c : CoreId} {a : Act} {i : Instr} {k : Act → State → State} {s : State} (h : Runs c a s)
  (he : exec i s = act (tprRun c.toNat k) s)
include h he

theorem putsW_of_writeW {rd : WReg} {v : BitVec 64} (hk : k a s = writeW c.toNat a rd.toNat v s) : PutsW i c a s rd v :=
  ⟨(a.setW rd.toNat v).next, exec_runsNow h he hk, wroteW_next a rd v⟩

theorem putsV_of_writeV {vd : VReg} {v : BitVec 512} (hk : k a s = writeV c.toNat a vd.toNat v s) : PutsV i c a s vd v :=
  ⟨(a.setV vd.toNat v).next, exec_runsNow h he hk, wroteV_next a vd v⟩

end Puts

/-! ### Lanes of words -/

/-- A lane of `k` bits at bit `lo` that is replaced, as a mask. -/
theorem setBits_eq_mask {n k hi lo : Nat} (hk : hi + 1 = lo + k) (hk0 : 0 < k) (hn : hi < n) (x : BitVec k) (v : BitVec n) :
    setBits hi lo x.toNat v = v &&& ~~~((BitVec.allOnes k).zeroExtend n <<< lo) ||| x.zeroExtend n <<< lo := by
  apply BitVec.eq_of_getLsbD_eq
  intro i hi'
  rw [getLsbD_setBits hi lo _ i v (by omega) hn]
  by_cases hin : lo ≤ i ∧ i ≤ hi
  · obtain ⟨hlo, hhi⟩ := hin
    have hlow : ¬i < lo := by omega
    have hlane : i - lo < k := by omega
    simp [hlo, hhi, hi', hlow, hlane, BitVec.testBit_toNat]
  · have hout : i < lo ∨ k ≤ i - lo := by omega
    rcases hout with hlow | htop
    · simp [hlow, hi', hin]
    · have hlane : ¬i - lo < k := by omega
      simp [hi', hin, hlane, BitVec.getLsbD_of_ge x _ htop]

/-! ### Arithmetic and moves (R236) -/

theorem bits_5_0 {n : Nat} (v : BitVec n) : bits 5 0 v = v.toNat % 64 := bits_from_zero 5 v

theorem bits_15_6_of_small (n : BitVec 6) : bits 15 6 (n.zeroExtend 16) = 0 := by
  have hn := n.isLt
  rw [bits_setWidth 15 6 n (by decide), bits]
  omega

theorem bits_5_0_of_small (n : BitVec 6) : bits 5 0 (n.zeroExtend 16) = n.toNat := by
  rw [bits_setWidth 5 0 n (by decide), bits_5_0, Nat.mod_eq_of_lt n.isLt]

theorem mul_eq_ofNat (x y : BitVec 64) : x * y = BitVec.ofNat 64 (x.toNat * y.toNat) := by
  apply BitVec.eq_of_toNat_eq
  rw [BitVec.toNat_mul, BitVec.toNat_ofNat]

theorem taperArithmeticWritesRd : TaperArithmeticWritesRd := by
  intro c rd ra rb a s h x y
  have hputs {i : Instr} {f : BitVec 64 → BitVec 64 → BitVec 64} {v : BitVec 64} (he : exec i s = act (tprAlu c rd ra rb f) s)
      (hv : f x y = v) : PutsW i c a s rd v :=
    putsW_of_writeW h he (by rw [← hv])
  refine ⟨hputs rfl rfl, hputs rfl rfl, hputs rfl rfl, hputs rfl rfl, hputs rfl rfl, hputs rfl ?shl, hputs rfl ?shr, hputs rfl ?sar,
    hputs rfl (mul_eq_ofNat x y), hputs rfl rfl, hputs rfl rfl, hputs rfl rfl⟩
  all_goals rw [bits_5_0]

theorem taperImmediateWritesRd : TaperImmediateWritesRd := by
  intro c rd ra imm lane n a s h x sx zx sh
  have hputs {i : Instr} {f : BitVec 64 → BitVec 64} {v : BitVec 64} (he : exec i s = act (tprImm c rd ra f) s) (hv : f x = v) :
      PutsW i c a s rd v :=
    putsW_of_writeW h he (by rw [← hv])
  have hshift {i : Instr} {f : BitVec 64 → Nat → BitVec 64} (he : exec i s = act (tprShift c rd ra sh f) s) :
      PutsW i c a s rd (f x n.toNat) :=
    putsW_of_writeW h he (by simp only [sh, bits_15_6_of_small, bits_5_0_of_small, bne_self_eq_false, Bool.false_eq_true, if_false, x])
  refine ⟨hputs rfl rfl, hputs rfl rfl, hputs rfl rfl, hputs rfl rfl, hshift rfl, hshift rfl, hshift rfl, hputs rfl rfl, hputs rfl rfl,
    putsW_of_writeW h rfl rfl, putsW_of_writeW h rfl ?movk, putsW_of_writeW h rfl rfl⟩
  case movk =>
    have hlane := lane.isLt
    rw [setBits_eq_mask (k := 16) rfl (by decide) (by omega)]
    rfl

/-- Settles O2: each of these instructions is `writeW` of its result. -/
theorem taperComputesIntoRd : Obligations.TaperComputesIntoRd := ⟨taperArithmeticWritesRd, taperImmediateWritesRd⟩

/-- Settles O3: each of these instructions is `writeV` or `writeW` of its result. -/
theorem taperVectorMoves : Obligations.TaperVectorMoves := by
  intro c vd vb ra rb lane a s h m
  refine ⟨putsV_of_writeV h rfl ?vins, putsW_of_writeW h rfl ?vext, putsV_of_writeV h rfl rfl, putsV_of_writeV h rfl rfl⟩
  case vins =>
    have hlane := lane.isLt
    have hones : (BitVec.allOnes 64).zeroExtend 512 = (0xFFFFFFFFFFFFFFFF : BitVec 512) := by decide +kernel
    rw [setBits_eq_mask (k := 64) rfl (by decide) (by omega), hones]
  case vext => rw [BitVec.setWidth_ushiftRight_eq_extractLsb]

end Sys2Proof.Machine

/-! ## Taper cores: loads, stores and atomics (R231, R232, R236) -/

namespace Sys2Proof.Machine

open Sys2Proof.Claims

/-! ### Bytes in memories -/

/-- The number that bytes spell is the sum of what each is worth at its place. -/
theorem leNat_eq_sum (l : List Byte) : leNat l = ((List.range l.length).map (fun k => (l.getD k 0).toNat * 256 ^ k)).sum := by
  induction l with
  | nil => rfl
  | cons b l ih =>
    simp only [leNat, ih, List.length_cons, List.range_succ_eq_map, List.map_cons, List.map_map, List.sum_cons, List.getD_cons_zero,
      Nat.pow_zero, Nat.mul_one, ← List.sum_map_mul_left]
    congr 3
    funext k
    simp only [Function.comp_apply, Nat.succ_eq_add_one, List.getD_cons_succ, Nat.pow_succ]
    ring

/-- The same, for bytes that are known one by one. -/
theorem leNat_of_getD {l : List Byte} {n : Nat} {f : Nat → Byte} (hlen : l.length = n) (hf : ∀ k < n, l.getD k 0 = f k) :
    leNat l = ((List.range n).map (fun k => (f k).toNat * 256 ^ k)).sum := by
  subst hlen
  rw [leNat_eq_sum]
  exact congrArg _ (List.map_congr_left fun k hk => by rw [hf k (List.mem_range.mp hk)])

@[simp] theorem memRead_length (d : Byte) (m : List Host.Cell) (a n : Nat) : (memRead d m a n).length = n := by
  induction n generalizing a with
  | zero => rfl
  | succ n ih => rw [memRead, List.length_cons, ih]

theorem getD_memRead (d : Byte) (m : List Host.Cell) (a : Nat) {n k : Nat} (h : k < n) :
    (memRead d m a n).getD k 0 = memGet d m (a + k) := by
  induction n generalizing a k with
  | zero => omega
  | succ n ih =>
    cases k with
    | zero => rfl
    | succ k => rw [memRead, List.getD_cons_succ, ih _ (by omega), show a + 1 + k = a + (k + 1) by omega]

/-- The byte at a place of what has been written. -/
theorem memGet_memWrite_in {d : Byte} (bs : List Byte) {m : List Host.Cell} (a : Nat) {k : Nat} (hm : Memory.wf d m = true)
    (hk : k < bs.length) : memGet d (memWrite d m a bs) (a + k) = bs.getD k 0 := by
  rw [← getD_memRead d _ a hk, memRead_memWrite bs m a hm]

theorem getD_leBytes (v : Nat) {n k : Nat} (h : k < n) : (leBytes n v).getD k 0 = BitVec.ofNat 8 (v / 256 ^ k) := by
  induction n generalizing v k with
  | zero => omega
  | succ n ih =>
    cases k with
    | zero => exact BitVec.eq_of_toNat_eq (by simp [leBytes])
    | succ k => rw [leBytes, List.getD_cons_succ, ih _ (by omega), Nat.div_div_eq_div_mul, Nat.pow_succ, Nat.mul_comm]

/-! ### Bytes in the Taper memories (R231) -/

theorem leNat_tRead (c : CoreId) (t : TAddr) (n : Nat) (s : State) :
    leNat (tRead c.toNat t n s) = ((List.range n).map (fun k => (byteAt c t k s).toNat * 256 ^ k)).sum := by
  cases t with
  | ldm o =>
    refine leNat_of_getD (memRead_length ..) fun k hk => (getD_memRead _ _ _ hk).trans ?_
    rw [byteAt, ldmKey, ldmKey, Nat.add_assoc]
  | csm o =>
    refine leNat_of_getD (memRead_length ..) fun k hk => (getD_memRead _ _ _ hk).trans ?_
    rw [byteAt, csmKey, csmKey, Nat.add_assoc]

theorem idle_tWrite {c : CoreId} {b : Act} {t : TAddr} {bs : List Byte} {s : State} (h : Idle s) :
    Idle (setAct c.toNat b (tWrite c.toNat t bs s)) := by
  cases t <;> exact h

theorem cellAt_tWrite_in {c : CoreId} {b : Act} {t : TAddr} {bs : List Byte} {s : State} (hs : Safe s) {k : Nat} (hk : k < bs.length) :
    cellAt (keyOf c t k) (setAct c.toNat b (tWrite c.toNat t bs s)) = bs.getD k 0 := by
  obtain ⟨hldm, hcsm, -⟩ := hs
  cases t with
  | ldm o => exact (congrArg _ (Nat.add_assoc ..).symm).trans (memGet_memWrite_in bs (ldmKey c.toNat o) hldm hk)
  | csm o => exact (congrArg _ (Nat.add_assoc ..).symm).trans (memGet_memWrite_in bs (csmKey (clusterOf c.toNat) o) hcsm hk)

/-- A key outside `n` keys that rise from `a` lies below or above them. -/
theorem outside_of_ne {a n x : Nat} (h : ∀ k < n, x ≠ a + k) : x < a ∨ a + n ≤ x := by
  by_contra hin
  exact h (x - a) (by omega) (by omega)

theorem cellAt_tWrite_out {c : CoreId} {b : Act} {t : TAddr} {bs : List Byte} {s : State} (hs : Safe s) {x : Bool × Nat}
    (hx : ∀ k < bs.length, x ≠ keyOf c t k) : cellAt x (setAct c.toNat b (tWrite c.toNat t bs s)) = cellAt x s := by
  obtain ⟨hldm, hcsm, -⟩ := hs
  obtain ⟨inCsm, x⟩ := x
  cases t with
  | ldm o =>
    cases inCsm with
    | true => rfl
    | false =>
      refine memGet_memWrite_out bs _ _ x hldm (outside_of_ne fun k hk e => hx k hk ?_)
      simp only [keyOf, e, ldmKey, Nat.add_assoc]
  | csm o =>
    cases inCsm with
    | false => rfl
    | true =>
      refine memGet_memWrite_out bs _ _ x hcsm (outside_of_ne fun k hk e => hx k hk ?_)
      simp only [keyOf, e, csmKey, Nat.add_assoc]

section Accesses

variable {c : CoreId} {a : Act} {i : Instr} {k : Act → State → State} {s : State} (h : Runs c a s)
  (he : exec i s = act (tprRun c.toNat k) s)
include h he

/-- An instruction that writes bytes at a place, and whose activation goes on as `b`. -/
theorem storesBytes_of_tWrite {b : Act} {t : TAddr} {bs : List Byte} {n : Nat} {f : Nat → Byte} (hs : Safe s)
    (hk : k a s = setAct c.toNat b (tWrite c.toNat t bs s)) (hlen : bs.length = n) (hf : ∀ j < n, bs.getD j 0 = f j) :
    StoresBytes i c b s t n f := by
  subst hlen
  refine ⟨_, exec_of_runs h he hk (idle_tWrite h.2.1), fun j hj => ?_, fun x hx => cellAt_tWrite_out hs hx, ?_⟩
  · rw [cellAt_tWrite_in hs hj, hf j hj]
  · cases t <;> rfl

theorem stores_of_tWrite {b : Act} {t : TAddr} {n m : Nat} {v : BitVec m} (hs : Safe s)
    (hk : k a s = setAct c.toNat b (tWrite c.toNat t (toBytes n v) s)) : Stores i c b s t n v.toNat :=
  storesBytes_of_tWrite h he hs hk (leBytes_length ..) fun _ hj => getD_leBytes _ hj

end Accesses

/-! ### The instructions (R232, R236) -/

theorem tAccess_ok {c : Nat} {a : Act} {x : BitVec 64} {n : Nat} {wr heapOnly : Bool} {t : TAddr} {s : State} (hal : x.toNat % n = 0)
    (ht : tAddr c a x n wr heapOnly s = some t) (k : TAddr → State → State) : tAccess c a x n wr heapOnly k s = k t s := by
  simp [tAccess, hal, ht]

theorem taperLoadReadsMemory : TaperLoadReadsMemory := by
  intro c rd ra vd imm i12 a s t h load at16 at12 ok
  have hload {i : Instr} (n : Nat) (he : exec i s = act (tprLoad c rd ra imm n) s) (hok : ok at16 n) : PutsW i c a s rd (load n) := by
    obtain ⟨hal, ht⟩ := hok
    refine putsW_of_writeW h he ((tAccess_ok hal ht _).trans ?_)
    simp only [ofBytes, leNat_tRead, load]
  refine ⟨hload 8 rfl, hload 4 rfl, hload 2 rfl, hload 1 rfl, fun ⟨hal, ht⟩ => ?_⟩
  refine putsV_of_writeV h rfl ((tAccess_ok hal ht _).trans ?_)
  simp only [ofBytes, leNat_tRead]

theorem taperStoreWritesMemory : TaperStoreWritesMemory := by
  intro c rd ra vb imm i12 a s t h hs at16 at12 ok b
  have hstore {i : Instr} (n : Nat) (he : exec i s = act (tprStore c rd ra imm n) s) (hok : ok at16 n) :
      Stores i c b s t n (a.getW rd.toNat).toNat :=
    stores_of_tWrite h he hs (tAccess_ok hok.1 hok.2 _)
  exact ⟨hstore 8 rfl, hstore 4 rfl, hstore 2 rfl, hstore 1 rfl, fun ⟨hal, ht⟩ => stores_of_tWrite h rfl hs (tAccess_ok hal ht _)⟩

/-- Settles O4: the bytes that a load reads spell the sum of its statement, and a store writes the bytes of its register. -/
theorem taperLoadsAndStores : Obligations.TaperLoadsAndStores := ⟨taperLoadReadsMemory, taperStoreWritesMemory⟩

/-- Settles O5: an atomic writes the bytes of its new value, and goes on with the value read before in rd. -/
theorem taperAtomicUpdates : Obligations.TaperAtomicUpdates := by
  intro c rd ra rb a s t h hs hal ht old y does
  have hold : ofBytes 64 (tRead c.toNat t 8 s) = old := by rw [ofBytes, leNat_tRead]
  have hdoes {i : Instr} {f : Act → BitVec 64 → BitVec 64} {v : BitVec 64} (he : exec i s = act (tprAtomic c rd ra f) s)
      (hv : f a old = v) : does i v := by
    refine ⟨(a.setW rd.toNat old).next, wroteW_next a rd old, stores_of_tWrite h he hs ((tAccess_ok hal ht _).trans ?_)⟩
    simp only [hold, hv, writeW]
  exact ⟨hdoes rfl rfl, hdoes rfl rfl, hdoes rfl (by simp only [beq_iff_eq, y])⟩

end Sys2Proof.Machine

/-! ## Taper cores: branches and jumps (R236) -/

namespace Sys2Proof.Machine

open Sys2Proof.Claims

theorem tprJump_code {c : Nat} {a : Act} {t : BitVec 64} {s : State} (h : codeAddr c a t s = true) :
    tprJump c a t s = setAct c { a with pc := t } s := by
  rw [tprJump, if_pos h]

@[simp] theorem setW_image (a : Act) (d : Nat) (v : BitVec 64) : (a.setW d v).image = a.image := by rw [setW_keeps]

/-- Where code lies does not depend on registers. -/
theorem codeAddr_setW (c : Nat) (a : Act) (d : Nat) (v t : BitVec 64) (s : State) : codeAddr c (a.setW d v) t s = codeAddr c a t s := by
  simp only [codeAddr, actPlace, setW_image]

/-- Settles O6: a branch asks its condition first, and what jumps tests its target. -/
theorem taperBranches : Obligations.TaperBranches := by
  intro c ra rb off off24 a s h x y goes stays branch far
  have hbranch {i : Instr} {cond : BitVec 64 → BitVec 64 → Bool} {p : Prop} (he : exec i s = act (tprBranch c ra rb off cond) s)
      (hp : cond x y = true ↔ p) : branch i p := by
    refine ⟨fun hyes hcode => exec_runsNow h he ?_, fun hno => exec_runsNow h he ?_⟩
    · exact (if_pos (hp.mpr hyes)).trans (tprJump_code hcode)
    · exact if_neg (mt hp.mp hno)
  refine ⟨hbranch rfl beq_iff_eq, hbranch rfl bne_iff_ne, hbranch rfl decide_eq_true_iff, hbranch rfl decide_eq_true_iff,
    hbranch rfl decide_eq_true_iff, hbranch rfl decide_eq_true_iff, fun hcode => exec_runsNow h rfl (tprJump_code hcode),
    fun hcode => exec_runsNow h rfl (tprJump_code hcode), fun hcode => ?call⟩
  case call =>
    have hne {d : WReg} : d = 15 → d ≠ 0 := by rintro rfl; decide
    have hcode' : codeAddr c.toNat (a.setW 15 (a.pc + 4)) far s = true := by rw [codeAddr_setW, hcode]
    have hkeeps : { a.setW 15 (a.pc + 4) with pc := far } = { a with pc := far, w := (a.setW 15 (a.pc + 4)).w } := by rw [setW_keeps]
    exact ⟨{ a.setW 15 (a.pc + 4) with pc := far }, exec_runsNow h rfl (tprJump_code hcode'), hkeeps, fun d =>
      (getW_setW a 15 d (a.pc + 4)).trans (if_congr (and_iff_left_of_imp hne) rfl rfl)⟩

end Sys2Proof.Machine

/-! ## Taper cores: events, system values, ends and exceptions (R237, R245, R247, R262, R263) -/

namespace Sys2Proof.Machine

open Sys2Proof.Claims

/-! ### Invocations and event queues in the State -/

@[simp] theorem getInvoc_putInvoc_same (i : Nat) (v : Invoc) (s : State) : getInvoc i (putInvoc i v s) = some v :=
  tget_tset_same _ _ _

@[simp] theorem getInvoc_setAct (i c : Nat) (a : Act) (s : State) : getInvoc i (setAct c a s) = getInvoc i s := rfl

theorem modInvoc_held {i : Nat} {v : Invoc} {s : State} (h : getInvoc i s = some v) (f : Invoc → Invoc) :
    modInvoc i f s = putInvoc i (f v) s := by
  have h' : tget s.tpr.invocs i = some v := h
  simp only [modInvoc, putInvoc, withTpr, tmod, h']

/-- An event queue lies in an invocation or in the activation of a core. -/
theorem putQueue_frame (c : Nat) (a : Act) (q : EvQueue) (s : State) :
    putQueue c a q s =
      { s with tpr := { s.tpr with cores := (putQueue c a q s).tpr.cores, invocs := (putQueue c a q s).tpr.invocs } } := by
  unfold putQueue
  split
  · rfl
  · unfold modAct
    split <;> rfl

theorem idle_putQueue {c : Nat} {a : Act} {q : EvQueue} {s : State} (h : Idle s) : Idle (putQueue c a q s) := by
  rw [putQueue_frame]
  exact h

/-! ### The oldest event that a mask names (R247) -/

/-- A mask names an event: the bit of its KIND is set. -/
abbrev Named (mask : BitVec 16) (w : BitVec 64) : Prop := eventKind w < 16 ∧ mask.getLsbD (eventKind w) = true

section Take

variable {q : EvQueue} {mask : BitVec 16}

theorem take_none (h : ∀ e ∈ q.words, ¬Named mask e) : q.take mask = none := by
  have hfind : q.words.find? (fun w => decide (eventKind w < 16) && bit (eventKind w) mask) = none := by
    simpa [bit_eq_getLsbD] using h
  rw [EvQueue.take, hfind]

theorem take_oldest {old new : List (BitVec 64)} {w : BitVec 64} (hq : q.words = old ++ w :: new) (hold : ∀ e ∈ old, ¬Named mask e)
    (hw : Named mask w) :
    q.take mask =
      some (w, { q with words := old ++ new, slots := if eventKind w = 3 ∨ eventKind w = 6 then q.slots else q.slots - 1 }) := by
  have hfind : q.words.find? (fun w => decide (eventKind w < 16) && bit (eventKind w) mask) = some w := by
    rw [hq, List.find?_append, List.find?_cons_of_pos (by simpa [bit_eq_getLsbD] using hw)]
    rw [List.find?_eq_none.mpr (by simpa [bit_eq_getLsbD] using hold), Option.none_or]
  have hnew : w ∉ old := fun hmem => hold w hmem hw
  rw [EvQueue.take, hfind]
  simp [hq, List.erase_append_right _ hnew, ownSlot]

end Take

theorem taperEventsAndSystemValues : TaperEventsAndSystemValues := by
  intro c rd ra mask a s h q hit holds x r sys
  refine ⟨fun old new w hq hold hw => ?takes, fun hnone => ?none, ?timer, ?sys⟩
  case takes =>
    intro q' i hi
    have htake : (actQueue a s).take mask = some (w, q') := take_oldest hq hold hw
    refine ⟨((holds a q').setW rd.toNat w).next, ?_, wroteW_next (holds a q') rd w⟩
    simp only [List.mem_cons, List.not_mem_nil, or_false] at hi
    rcases hi with rfl | rfl
    · exact exec_of_runs h rfl (k := tprWaitev c.toNat rd.toNat mask) (by rw [tprWaitev, htake]; rfl) (idle_putQueue h.2.1)
    · exact exec_of_runs h rfl (k := tprPollev c.toNat rd.toNat mask) (by rw [tprPollev, htake]; rfl) (idle_putQueue h.2.1)
  case none =>
    have htake : (actQueue a s).take mask = none := take_none hnone
    exact ⟨exec_runsNow h rfl (k := tprWaitev c.toNat rd.toNat mask) (by rw [tprWaitev, htake]; rfl),
      putsW_of_writeW h rfl (k := tprPollev c.toNat rd.toNat mask) (by rw [tprPollev, htake])⟩
  case timer =>
    refine exec_of_runs h rfl (k := fun a s => tprTimer c.toNat (a.getW ra.toNat) a s) ?_ (idle_putQueue h.2.1)
    simp only [tprTimer, beq_iff_eq]
    rfl
  case sys =>
    have hsys {n v : Nat} (hv : sysValue c.toNat a (BitVec.ofNat 16 n).toNat s = some (BitVec.ofNat 64 v)) : sys n v :=
      putsW_of_writeW h rfl (by simp only [hv])
    exact ⟨hsys rfl, hsys rfl, hsys rfl, hsys rfl, hsys rfl, hsys rfl, hsys rfl, hsys rfl, hsys rfl, hsys rfl⟩

/-! ### Ends and exceptions (R245, R262, R263) -/

theorem bits_11_0 {n : Nat} (v : BitVec n) : bits 11 0 v = v.toNat % 4096 := bits_from_zero 11 v

section Ends

variable {c : Nat} {a : Act} {s : State}

theorem tprExc_inv {i : Nat} (hi : a.inv = some i) (dt : BitVec 8) : tprExc c a dt s = conclude i (invFail i St.taperFault dt s) := by
  simp only [tprExc, hi]

theorem tprExc_msg (hi : a.inv = none) (dt : BitVec 8) : tprExc c a dt s = endMsgAct c a (evcPulse 215 dt.toNat s) := by
  simp only [tprExc, hi]

theorem tprRet_inv {i : Nat} (hi : a.inv = some i) :
    tprRet c a s = conclude i (invSched i (modInvoc i (fun v => { v with busy := false }) (freeCore c s))) := by
  simp only [tprRet, hi]

theorem tprRet_msg (hi : a.inv = none) (hx : ∀ h ∈ s.tpr.hxfers, h.2.owner ≠ .act c a.uid) : tprRet c a s = endMsgAct c a s := by
  have hany : s.tpr.hxfers.any (fun (_, h) => h.owner == .act c a.uid) = false :=
    List.any_eq_false.mpr fun h hh => by simpa using hx h hh
  simp only [tprRet, hi, hany, Bool.false_eq_true, if_false]

theorem tprEnd_event {i : Nat} {v : Invoc} (hi : a.inv = some i) (hv : getInvoc i s = some v) (h0 : v.inst = 0) (x : BitVec 512) :
    tprEnd c x a s = conclude i (setAct c { a with wait := some .ending }
      (putInvoc i { v with ended := true, evq := { v.evq with timer := none } } s)) := by
  simp only [tprEnd, hi, modInvoc_held hv, getInvoc_setAct, getInvoc_putInvoc_same, h0, bne_self_eq_false, Bool.false_and,
    Bool.false_eq_true, if_false]

theorem tprEnd_msg (hi : a.inv = none) (x : BitVec 512) : tprEnd c x a s = tprRet c a s := by
  simp only [tprEnd, hi]

end Ends

theorem exec_illegalOpcode (c : CoreId) (word : BitVec 32) (s : State) :
    exec (.illegalOpcode c word) s =
      act (fun s => if (taperDecode c word).isSome then s else tprRun c.toNat (fun a s => tprExc c.toNat a Tf.illegal s) s) s := by
  rfl

theorem does_illegalOpcode {c : CoreId} {word : BitVec 32} {a : Act} {s t : State} (hact : (getCore c.toNat s).act = some a)
    (hwait : a.wait = none) (hhalt : coreHalted c.toNat s = false) (hd : taperDecode c word = none)
    (hk : tprExc c.toNat a Tf.illegal s = t) : Does (.illegalOpcode c word) s t := by
  refine does_of_exec (exec_illegalOpcode c word s) ?_
  simp only [hd, Option.isSome_none, Bool.false_eq_true, if_false, tprRun_running hact hwait hhalt, hk]

theorem taperEndsAndExceptions : TaperEndsAndExceptions := by
  intro c imm word a s hact hwait hhalt n counted
  have hbrk {t : State} (ht : tprExc n a 0x0B counted = t) : Does (.tBrk c imm) s t :=
    does_of_tprRun hact hwait hhalt (k := fun a s => tprExc c.toNat a Tf.trap (evcPulse 216 (bits 11 0 imm) s)) rfl
      (by rw [bits_11_0]; exact ht)
  refine ⟨fun i v hi hv => ⟨?_, fun h0 => ?_, hbrk (tprExc_inv hi _), fun hd => ?_⟩,
    fun hi => ⟨fun hx => ⟨?_, ?_⟩, hbrk (tprExc_msg hi _), fun hd => ?_⟩⟩
  · exact does_of_tprRun hact hwait hhalt rfl (tprRet_inv hi)
  · exact does_of_tprRun hact hwait hhalt rfl (tprEnd_event hi hv h0 endDesc)
  · exact does_illegalOpcode hact hwait hhalt hd (tprExc_inv hi _)
  · exact does_of_tprRun hact hwait hhalt rfl (tprRet_msg hi hx)
  · exact does_of_tprRun hact hwait hhalt rfl ((tprEnd_msg hi endDesc).trans (tprRet_msg hi hx))
  · exact does_illegalOpcode hact hwait hhalt hd (tprExc_msg hi _)

/-- Settles O7: WAITEV and POLLEV take the oldest event that the mask names, and an end or an exception asks what the activation is of. -/
theorem taperEventsEndsAndExceptions : Obligations.TaperEventsEndsAndExceptions := ⟨taperEventsAndSystemValues, taperEndsAndExceptions⟩

end Sys2Proof.Machine

/-! ## Taper cores: objects, and operations that the device performs (R248 to R258) -/

namespace Sys2Proof.Machine

open Sys2Proof.Claims

/-! ### Objects (R254, R255) -/

theorem getD_fitBytes (l : List Byte) {n k : Nat} (h : k < n) : (fitBytes n l).getD k 0 = l.getD k 0 := by
  induction n generalizing l k with
  | zero => omega
  | succ n ih =>
    cases l with
    | nil =>
      cases k with
      | zero => rfl
      | succ k => exact ih [] (Nat.lt_of_succ_lt_succ h)
    | cons b l =>
      cases k with
      | zero => rfl
      | succ k => exact ih l (Nat.lt_of_succ_lt_succ h)

theorem getD_drop (l : List Byte) (m k : Nat) : (l.drop m).getD k 0 = l.getD (m + k) 0 := by
  simp [List.getD_eq_getElem?_getD]

theorem bits_63_48 (r : BitVec 64) : bits 63 48 r = r.toNat / 2 ^ 48 := bits_to_top 48 r rfl (by decide)
theorem bits_31_0 (r : BitVec 64) : bits 31 0 r = r.toNat % 2 ^ 32 := bits_from_zero 31 r

theorem bits_47_32 (r : BitVec 64) : bits 47 32 r = r.toNat / 2 ^ 32 % 2 ^ 16 := rfl

section Objects

variable {a : Act} {r : BitVec 64} {bs : List Byte} {s : State} (hobj : objBytes a (r.toNat / 2 ^ 48) s = some bs)
  (hgap : r.toNat / 2 ^ 32 % 2 ^ 16 = 0)
include hobj hgap

theorem tprCrd_object (hal : r.toNat % 2 ^ 32 % 64 = 0) (c vd : Nat) :
    tprCrd c vd r a s = writeV c a vd (ofBytes 512 (fitBytes 64 (bs.drop (r.toNat % 2 ^ 32)))) s := by
  simp only [tprCrd, bits_63_48, bits_47_32, bits_31_0, hobj, hgap, hal, bne_self_eq_false, Bool.or_self, Bool.false_eq_true, if_false]

theorem tprCwr_buffer {i : Nat} {v : Invoc} (hal : r.toNat % 2 ^ 32 % 64 = 0) (hi : a.inv = some i) (hv : getInvoc i s = some v)
    (hsel : r.toNat / 2 ^ 48 ≠ 0xFFFF) (hoff : r.toNat % 2 ^ 32 < 4096) (c : Nat) (x : BitVec 512) :
    tprCwr c x r a s = setAct c a.next (modInst v.inst (fun g => { g with
      bufs := tmod g.bufs (r.toNat / 2 ^ 48) (fun b => { b with data := spliceBytes bs (r.toNat % 2 ^ 32) (toBytes 64 x) }) }) s) := by
  simp only [tprCwr, bits_63_48, bits_47_32, bits_31_0, hobj, hgap, hal, hi, hv, Option.bind_some, beq_false_of_ne hsel,
    Nat.not_le.mpr hoff, decide_false, bne_self_eq_false, Bool.or_self, Bool.false_eq_true, if_false]

theorem tprCcpy_object {c : Nat} {dst n : BitVec 64} {t : TAddr} (ht : tAddr c a dst n.toNat true false s = some t) :
    tprCcpy c dst r n a s = setAct c a.next (tWrite c t (fitBytes n.toNat (bs.drop (r.toNat % 2 ^ 32))) s) := by
  have hdata : tData c a dst n.toNat s = some t := by
    rw [tData, ht]
    cases t <;> rfl
  simp only [tprCcpy, bits_63_48, bits_47_32, bits_31_0, hobj, hgap, hdata, bne_self_eq_false, Bool.false_eq_true, if_false]

end Objects

theorem taperObjects : TaperObjects := by
  intro c vd rd ra rb imm a s bs t h r sel off r' on
  refine ⟨fun hobj hgap hal => ⟨?crd, fun i v hi hv hsel hoff => ?cwr⟩, fun hobj hgap hs ht => ?ccpy,
    fun hi => ?free, fun i v hi hv => ?freeInv⟩
  case crd =>
    have hsum : ofBytes 512 (fitBytes 64 (bs.drop off)) =
        BitVec.ofNat 512 (((List.range 64).map (fun k => (bs.getD (off + k) 0).toNat * 256 ^ k)).sum) := by
      rw [ofBytes, leNat_of_getD (fitBytes_length ..) fun k hk => (getD_fitBytes _ hk).trans (getD_drop bs off k)]
    rw [← hsum]
    exact putsV_of_writeV h rfl (k := fun a s => tprCrd c.toNat vd.toNat (a.getW ra.toNat + imm.setWidth 64) a s)
      (tprCrd_object hobj hgap hal c.toNat vd.toNat)
  case cwr =>
    exact exec_of_runs h rfl (k := fun a s => tprCwr c.toNat (a.getV vd.toNat) (a.getW ra.toNat + imm.setWidth 64) a s)
      (tprCwr_buffer hobj hgap hal hi hv hsel hoff c.toNat (a.getV vd.toNat)) h.2.1
  case ccpy =>
    exact storesBytes_of_tWrite h rfl (k := fun a s => tprCcpy c.toNat (a.getW rd.toNat) (a.getW ra.toNat) (a.getW rb.toNat) a s) hs
      (tprCcpy_object hobj hgap ht) (fitBytes_length ..) fun k hk => (getD_fitBytes _ hk).trans (getD_drop ..)
  case free => exact exec_of_runs h rfl (k := tprCfree c.toNat) (by simp only [tprCfree, hi, on]; rfl) h.2.1
  case freeInv => exact exec_of_runs h rfl (k := tprCfree c.toNat) (by simp only [tprCfree, hi, modInvoc_held hv]; rfl) h.2.1

end Sys2Proof.Machine

/-! ### Operations on the device: what stays as it is while event slots are taken (R248) -/

namespace Sys2Proof.Machine

open Sys2Proof.Claims

section PutQueue

variable (c : Nat) (a b : Act) (q : EvQueue) (s : State)

@[simp] theorem putQueue_now : (putQueue c a q s).now = s.now := by rw [putQueue_frame]
@[simp] theorem putQueue_psn : (putQueue c a q s).tpr.psn = s.tpr.psn := by rw [putQueue_frame]
@[simp] theorem putQueue_nextId : (putQueue c a q s).tpr.nextId = s.tpr.nextId := by rw [putQueue_frame]
@[simp] theorem getInst_putQueue (i : Nat) : getInst i (putQueue c a q s) = getInst i s := by rw [putQueue_frame]; rfl
@[simp] theorem actOwner_putQueue : actOwner b (putQueue c a q s) = actOwner b s := by rw [putQueue_frame]; rfl
@[simp] theorem actPd_putQueue : actPd b (putQueue c a q s) = actPd b s := by rw [putQueue_frame]; rfl

@[simp] theorem ownEp_putQueue (hp : Nat) : ownEp hp (putQueue c a q s) = ownEp hp s := by rw [putQueue_frame]; rfl
@[simp] theorem tmRto_putQueue : tmRto (putQueue c a q s) = tmRto s := by rw [putQueue_frame]; rfl

@[simp] theorem tRead_putQueue (t : TAddr) (n : Nat) : tRead c t n (putQueue c a q s) = tRead c t n s := by
  rw [putQueue_frame]
  cases t <;> rfl

end PutQueue

theorem tmRto_eq (s : State) : tmRto s = 16000 * max 1 ((rdReg Reg.TPR_CFG s).toNat / 2 ^ 40 % 256) := by
  rw [tmRto, us, nz_eq_max, Nat.mul_comm]
  rfl

theorem getCore_addOp (c : Nat) (a : Act) (s : State) : getCore c (addOp a s) = getCore c s := by
  unfold addOp
  split <;> rfl

theorem getCore_withTpr {f : Tpr → Tpr} {s : State} (h : (f s.tpr).cores = s.tpr.cores) (c : Nat) :
    getCore c (withTpr f s) = getCore c s := by
  simp only [getCore, withTpr_tpr, h]

/-- An activation whose own event queue is `q`; the queue of an invocation lies elsewhere. -/
abbrev withQueue (a : Act) (q : EvQueue) : Act := { a with evq := if a.inv.isNone then q else a.evq }

/-- The queue of a message activation is stored in its core. -/
theorem getCore_putQueue {c : Nat} {a : Act} {s : State} (hact : (getCore c s).act = some a) (q : EvQueue) :
    (getCore c (putQueue c a q s)).act = some (withQueue a q) := by
  cases hi : a.inv with
  | some i =>
    have hq : withQueue a q = a := by rw [withQueue, if_neg (by simp [hi])]
    rw [hq]
    simp only [putQueue, hi]
    exact hact
  | none =>
    cases hx : tget s.tpr.cores c with
    | none => simp [getCore, hx, Core.idle] at hact
    | some x =>
      have hxa : x.act = some a := by simpa [getCore, hx] using hact
      simp [putQueue, hi, modAct, hx, hxa, getCore, withQueue]

theorem takeSlots_room {c : Nat} {a : Act} {n : Nat} {s : State} (h : (actQueue a s).slots + n ≤ 64) (k : State → State) :
    takeSlots c a n k s = k (putQueue c a { actQueue a s with slots := (actQueue a s).slots + n } s) := by
  simp only [takeSlots, Nat.not_lt.mpr h, if_false]

/-! ### COLOP, MSG and HXFER (R249 to R251, R257, R258) -/

section Device

variable {c : Nat} {a : Act} {x : BitVec 512} {s : State}

theorem colopPut_joins {i : Nat} {g : ColInst} (hg : getInst i s = some g) (hlo : 1 ≤ oCop x) (hhi : oCop x ≤ 9) :
    colopPut i x s = putInst i { g with ops := g.ops ++ [⟨g.nextOp, x, .queued, []⟩], nextOp := g.nextOp + 1 } s := by
  simp only [colopPut, hg, hlo, hhi, decide_true, Bool.and_self, Bool.true_or, if_true]

theorem tprColop_joins {i : Nat} {v : Invoc} {g : ColInst} (hi : a.inv = some i) (hv : getInvoc i s = some v) (h0 : v.inst ≠ 0)
    (hg : getInst v.inst s = some g) (hf : g.failed = none) (hlo : 1 ≤ oCop x) (hhi : oCop x ≤ 9)
    {k : Nat} (hk : (if oCop x = 1 then 2 else 1) = k) (hroom : (actQueue a s).slots + k ≤ 64) :
    tprColop c x a s = putInst v.inst { g with ops := g.ops ++ [⟨g.nextOp, x, .queued, []⟩], nextOp := g.nextOp + 1 }
      (setAct c a.next (putQueue c a { actQueue a s with slots := (actQueue a s).slots + k } s)) := by
  have hend : oCop x ≠ 15 := by omega
  have hg' (q : EvQueue) : getInst v.inst (setAct c a.next (putQueue c a q s)) = some g := (getInst_putQueue c a q s v.inst).trans hg
  simp only [tprColop, hi, hv, Option.bind_some, beq_iff_eq, h0, if_false, hk, takeSlots_room hroom, beq_false_of_ne hend, Bool.false_and,
    Bool.false_eq_true, hg', hf, Option.isNone_none, if_true, colopPut_joins (hg' _) hlo hhi]

/-- What a MSG sends (R257). -/
def msgPacket (a : Act) (x : BitVec 512) (payload : List Byte) (s : State) : Packet :=
  { Packet.zero with
    op := 0x30, cls := BitVec.ofNat 3 (bits 366 364 x), addr := BitVec.ofNat 64 (bits 415 400 x), opx := x.extractLsb' 448 64
    key := x.extractLsb' 416 32, msgLen := BitVec.ofNat 32 (bits 335 320 x), payLen := BitVec.ofNat 13 (bits 335 320 x), last := true
    psn := s.tpr.psn, dstEp := x.extractLsb' 367 17, srcEp := ownEp (hostPort (actOwner a s)) s, payload := payload }

/-- The record of a message that waits for its acknowledgement (R258). -/
def msgRecord (c : Nat) (a : Act) (x : BitVec 512) (p : Packet) (s : State) : TmsgTx :=
  ⟨clusterAtt (clusterOf c), p, actOpOwner c a, x.extractLsb' 336 16, 0, s.now, tmRto s⟩

theorem tData_eq (c : Nat) (a : Act) (addr : BitVec 64) (n : Nat) (s : State) : tData c a addr n s = tAddr c a addr n true false s := by
  unfold tData
  split <;> simp [*]

theorem tprMsg_sends (hact : (getCore c s).act = some a) (hcls : bits 366 364 x < 4) (hlen : bits 335 320 x ≤ 4096)
    (hz1 : bits 399 384 x = 0) (hz2 : bits 363 352 x = 0) (hz3 : bits 255 0 x = 0) (hok : msgClassOk a (bits 366 364 x) s = true)
    (hsrc : bits 335 320 x = 0 ∨ tAddr c a (x.extractLsb' 256 64) (bits 335 320 x) true false s ≠ none)
    (hroom : (actQueue a s).slots + 1 ≤ 64) {q : EvQueue} (hq : { actQueue a s with slots := (actQueue a s).slots + 1 } = q) {p : Packet}
    (hp : msgPacket a x (((tAddr c a (x.extractLsb' 256 64) (bits 335 320 x) true false s).map
      (fun t => tRead c t (bits 335 320 x) s)).getD []) s = p) :
    tprMsg c x a s = inject (clusterAtt (clusterOf c)) (sealCrc p) (setAct c { withQueue a q with pc := a.pc + 4 }
      (addOp a (withTpr (fun t => { t with psn := t.psn + 1, tmsgs := t.tmsgs ++ [msgRecord c a x p s] }) (putQueue c a q s)))) := by
  have hclose : (decide (4 ≤ bits 366 364 x) || decide (4096 < bits 335 320 x) || bits 399 384 x != 0 || bits 363 352 x != 0 ||
      bits 255 0 x != 0) = false := by
    simp [hcls, hlen, hz1, hz2, hz3]
  have hmiss : (bits 335 320 x != 0 && (tData c a (x.extractLsb' 256 64) (bits 335 320 x) s).isNone) = false := by
    rcases hsrc with h0 | hsome
    · simp [h0]
    · simp [tData_eq, Option.isNone_eq_false_iff.mpr (Option.isSome_iff_ne_none.mpr hsome)]
  simp only [tprMsg, hclose, hok, hmiss, takeSlots_room hroom, hq, getCore_putQueue hact, Bool.not_true, Bool.false_eq_true, if_false]
  subst hp
  cases hloc : tAddr c a (x.extractLsb' 256 64) (bits 335 320 x) true false s <;>
    simp only [tData_eq, hloc, putQueue_psn, putQueue_now, actOwner_putQueue, ownEp_putQueue, tmRto_putQueue, tRead_putQueue] <;> rfl

/-- The transfer that HXFER of direction 0 or 1 begins (R251). -/
def hxferOf (c : Nat) (a : Act) (x : BitVec 512) (bytes : List Byte) (s : State) : Hxfer :=
  { owner := actOpOwner c a, fn := actOwner a s, dir := bits 239 238 x, core := c, laddr := x.extractLsb' 256 64, len := bits 351 320 x,
    tag := x.extractLsb' 240 16, bytes := bytes, serial := none, outcome := none }

/-- The access that HXFER of direction 0 or 1 asks for. -/
def hxferAccess (a : Act) (x : BitVec 512) (s : State) : Access :=
  { fn := actOwner a s, dom := some (actPd a s), parts := [⟨x.extractLsb' 352 32, x.extractLsb' 448 64, bits 351 320 x⟩],
    rights := if bits 239 238 x = 0 then 1 else 2, rd := bits 239 238 x != 1, wr := bits 239 238 x != 0, testsOnly := false,
    purpose := .hxfer s.tpr.nextId }

theorem tprHxfer_starts (hact : (getCore c s).act = some a) (hdir : bits 239 238 x < 2) (hz : bits 237 0 x = 0)
    (hlen0 : bits 351 320 x ≠ 0) (hlen : bits 351 320 x ≤ 65536) (hop : bits 447 384 x = 0)
    (hal : (x.extractLsb' 256 64).toNat % 8 = 0) {t : TAddr}
    (ht : tAddr c a (x.extractLsb' 256 64) (bits 351 320 x) true false s = some t) (hroom : (actQueue a s).slots + 1 ≤ 64)
    {q : EvQueue} (hq : { actQueue a s with slots := (actQueue a s).slots + 1 } = q) {h : Hxfer}
    (hh : hxferOf c a x (if bits 239 238 x = 1 then tRead c t (bits 351 320 x) s else []) s = h) :
    tprHxfer c x a s = xltStart (hxferAccess a x s) (setAct c { withQueue a q with pc := a.pc + 4 }
      (addOp a (withTpr (fun t => { t with hxfers := tset t.hxfers s.tpr.nextId h, nextId := t.nextId + 1 }) (putQueue c a q s)))) := by
  have hop' : x.extractLsb' 384 64 = 0 := (extractLsb'_eq_zero ..).mpr hop
  have hd2 : (bits 239 238 x == 2) = false := beq_false_of_ne (by omega)
  have hd3 : (bits 239 238 x == 3) = false := beq_false_of_ne (by omega)
  have hbad : (bits 237 0 x != 0 || (bits 351 320 x == 0 || decide (65536 < bits 351 320 x) || x.extractLsb' 384 64 != 0 ||
      (x.extractLsb' 256 64).toNat % 8 != 0)) = false := by
    simp only [hz, beq_false_of_ne hlen0, Nat.not_lt.mpr hlen, hop', hal, bne_self_eq_false, decide_false, Bool.or_self]
  have hn2 : (bits 239 238 x != 2) = true := bne_iff_ne.mpr (by omega)
  have hrights : (if bits 239 238 x = 0 then 0b00001 else if bits 239 238 x = 1 then 0b00010 else 0b00011 : BitVec 5) =
      if bits 239 238 x = 0 then 1 else 2 := by
    rcases (show bits 239 238 x = 0 ∨ bits 239 238 x = 1 by omega) with h | h <;> simp [h]
  subst hh
  simp only [tprHxfer, hd2, hd3, hn2, hbad, hrights, tData_eq, ht, Option.isNone_some, takeSlots_room hroom, hq, getCore_addOp,
    getCore_withTpr, getCore_putQueue hact, actOwner_putQueue, actPd_putQueue, tRead_putQueue, putQueue_nextId, beq_iff_eq,
    Bool.false_and, Bool.and_false, Bool.true_and, Bool.false_or, Bool.or_false, Bool.false_eq_true, if_false]
  rfl

end Device

theorem taperDeviceOperations : TaperDeviceOperations := by
  intro c vb a s hact hwait hhalt n x q slotted b
  refine ⟨fun i v g hi hv h0 hg hf hlo hhi => ?colop, ?msg, ?hxfer⟩
  case colop =>
    intro k hroom
    exact does_of_tprRun hact hwait hhalt rfl (k := fun a s => tprColop n (a.getV vb.toNat) a s)
      (tprColop_joins hi hv h0 hg hf hlo hhi rfl hroom)
  case msg =>
    intro len cls src hp rto hcls hlen hz1 hz2 hz3 hok hsrc hroom
    refine ⟨msgPacket a x ((src.map (fun t => tRead n t len s)).getD []) s, rfl,
      does_of_tprRun hact hwait hhalt rfl (k := fun a s => tprMsg n (a.getV vb.toNat) a s) ?_⟩
    refine (tprMsg_sends hact hcls hlen hz1 hz2 hz3 hok hsrc hroom rfl rfl).trans ?_
    rw [msgRecord, tmRto_eq]
    rfl
  case hxfer =>
    intro dir len laddr loc hdir hz hlen0 hlen hop hal hloc hroom h
    obtain ⟨t, ht⟩ := Option.ne_none_iff_exists'.mp hloc
    refine does_of_tprRun hact hwait hhalt rfl (k := fun a s => tprHxfer n (a.getV vb.toNat) a s) ?_
    have hh : hxferOf n a x (if dir = 1 then tRead n t len s else []) s = h := by
      have hloc' : loc = some t := ht
      simp only [h, hloc', Option.map_some, Option.getD_some]
      rfl
    exact (tprHxfer_starts hact hdir hz hlen0 hlen hop hal ht hroom rfl hh).trans rfl

/-- Settles O8: an object's bytes are read and written at the place that ra selects, and an operation of the device is begun with its event
slots taken. -/
theorem taperObjectsAndOperations : Obligations.TaperObjectsAndOperations := ⟨taperObjects, taperDeviceOperations⟩

end Sys2Proof.Machine

/-! ## Taper cores: mailboxes, semaphores and notices (R252, R253, R256) -/

namespace Sys2Proof.Machine

open Sys2Proof.Claims

/-! ### What counting and a write to host memory leave as it is (R443 to R446, R469, R478) -/

/-- The registers that counting may write: of the links, which a message wakes, and those from CLK_PULSE_OVR on, the counters with them. -/
def CountReg (o : Nat) : Prop := (Reg.HIF_LINK ≤ o ∧ o < Reg.HIF_LINK + 8 * 32) ∨ Reg.CLK_PULSE_OVR ≤ o

theorem countReg_evcCnt (n : Nat) : CountReg (Reg.EVC_CNT + 8 * n) := Or.inr (Nat.le_add_right_of_le (by decide))

theorem countReg_pulseOvr (n : Nat) : CountReg (Reg.CLK_PULSE_OVR + 8 * n) := Or.inr (Nat.le_add_right ..)

theorem countReg_link {f : Nat} (hf : f < 4096) : CountReg (Reg.HIF_LINK + 8 * fnLink f) := by
  refine Or.inl ⟨Nat.le_add_right .., ?_⟩
  unfold fnLink
  omega

theorem evcOwner_lt {n f : Nat} {s : State} (h : evcOwner n s = some f) : f < 4096 := by
  simp only [evcOwner] at h
  split at h
  · cases h
    exact Nat.mod_lt _ (by decide)
  · cases h

/-- What depends neither on the registers that counting writes nor on the clocks' State, the record of outputs and the count of free
values. -/
structure Uncounted {β : Type} (p : State → β) : Prop where
  wrReg : ∀ o v s, CountReg o → p (wrReg o v s) = p s
  wrFn : ∀ f o v s, p (wrFn f o v s) = p s
  emit : ∀ o s, p (emit o s) = p s
  clk : ∀ k n s, p { s with clk := k, free := n } = p s

/-- What each step of a fold keeps, the fold keeps. -/
theorem foldl_keeps {α β : Type} (p : State → β) {f : State → α → State} (h : ∀ s x, p (f s x) = p s) (l : List α) (s : State) :
    p (l.foldl f s) = p s := by
  induction l generalizing s with
  | nil => rfl
  | cons x l ih => rw [List.foldl_cons, ih, h]

section Counting

variable {β : Type} {p : State → β} (hp : Uncounted p)
include hp

theorem setRf_keeps {o : Nat} (ho : CountReg o) (hi lo x : Nat) (s : State) : p (setRf o hi lo x s) = p s := hp.wrReg _ _ _ ho

theorem pulseCross_keeps (ev key dt d : Nat) (s : State) : p (pulseCross ev key dt d s).2 = p s := by
  have lost (b : Prop) [Decidable b] (t : State) : p (if b then pulseLost ev t else t) = p t := by
    split
    · exact setRf_keeps hp (countReg_pulseOvr _) ..
    · rfl
  simp only [pulseCross, fresh]
  split
  · rfl
  · split
    · exact (lost _ _).trans (hp.clk _ s.free s)
    · split
      · rfl
      · split
        · exact setRf_keeps hp (countReg_pulseOvr _) ..
        · exact (lost _ _).trans (hp.clk _ _ s)

theorem evcAdd_keeps (n d : Nat) (s : State) : p (evcAdd n d s).1 = p s := by
  simp only [evcAdd]
  split
  · exact (setRf_keeps hp (countReg_evcCnt n) ..).trans (setRf_keeps hp (countReg_evcCnt n) ..)
  · exact setRf_keeps hp (countReg_evcCnt n) ..

theorem wakeLink_fnLink_keeps {f : Nat} (hf : f < 4096) (s : State) : p (wakeLink (fnLink f) s) = p s := by
  simp only [wakeLink]
  split
  · exact (setRf_keeps hp (countReg_link hf) ..).trans (setRf_keeps hp (countReg_link hf) ..)
  · rfl

theorem msixTry_keeps {f vec : Nat} {s t : State} (hf : f < 4096) (h : msixTry f vec s = some t) : p t = p s := by
  simp only [msixTry] at h
  split at h
  · cases h
  · split at h
    · cases h; exact hp.wrFn ..
    · cases h; exact (hp.emit ..).trans (wakeLink_fnLink_keeps hp hf _)

theorem evcPulseD_keeps (fuel ev inst d : Nat) (s : State) : p (evcPulseD fuel ev inst d s) = p s := by
  induction fuel generalizing ev inst d s with
  | zero => rfl
  | succ fuel ih =>
    have hcross := pulseCross_keeps hp ev (pulseStream ev inst 0) 1 d s
    unfold evcPulseD
    generalize pulseCross ev (pulseStream ev inst 0) 1 d s = y at hcross ⊢
    obtain ⟨k, t⟩ := y
    dsimp only at hcross ⊢
    split
    · exact hcross
    · refine (foldl_keeps p ?_ _ t).trans hcross
      intro t n
      have hadd := evcAdd_keeps hp n k t
      generalize evcAdd n k t = z at hadd ⊢
      obtain ⟨u, wraps⟩ := z
      cases wraps with
      | false => exact hadd
      | true =>
        dsimp only at hadd ⊢
        split
        · exact hadd
        next howner =>
          split
          · split
            · next hsent => exact (msixTry_keeps hp (evcOwner_lt howner) hsent).trans hadd
            · exact (ih ..).trans hadd
          · exact hadd

theorem evcPulse_keeps (ev inst : Nat) (s : State) : p (evcPulse ev inst s) = p s := evcPulseD_keeps hp ..

/-! #### Levels and time (R444) -/

theorem evcMeet_keeps (n d : Nat) (s : State) : p (evcMeet n d s) = p s := by
  unfold evcMeet
  dsimp only
  split
  · rfl
  · have hadd := evcAdd_keeps hp n d s
    generalize evcAdd n d s = z at hadd ⊢
    obtain ⟨t, wraps⟩ := z
    cases wraps with
    | false => exact hadd
    | true =>
      dsimp only at hadd ⊢
      split
      next howner =>
        split
        · refine Eq.trans ?_ hadd
          unfold msixSignal
          cases hsent : msixTry _ _ t with
          | none => exact evcPulse_keeps hp ..
          | some u => exact msixTry_keeps hp (evcOwner_lt howner) hsent
        · exact hadd
      · exact hadd

theorem levelsPass_keeps (d : Nat) (s : State) : p (levelsPass d s) = p s := by
  refine foldl_keeps p (fun t x => ?_) _ s
  simp only [levelPulses]
  split
  · rfl
  · exact (foldl_keeps p (fun t n => evcMeet_keeps hp n _ t) _ _).trans (pulseCross_keeps hp ..)

/-! #### Writes to host memory (R469) -/

variable (hw : ∀ o v s, p (wrReg o v s) = p s) (hd : ∀ d s, p { s with xlt := { s.xlt with dirty := d } } = p s)
include hw hd

theorem hostWrite_keeps (f : Nat) (a : BitVec 64) (bs : List Byte)
    (s : State) : p (hostWrite f a bs s) = p s := by
  simp only [hostWrite, hostWriteOn]
  split
  · rfl
  · split
    · exact (hd ..).trans ((foldl_keeps p (fun _ _ => hp.emit ..) _ _).trans (wakeLink_keeps p hw _ _))
    · exact evcPulse_keeps hp ..

theorem writeNotice_keeps (ha : ∀ f a g s, p (putArv f a g s) = p s)
    (f a : Nat) (b : Budget) (n : Notice) (s : State) : p (writeNotice f a b n s) = p s := by
  unfold writeNotice
  split
  · split
    · rfl
    · exact (ha ..).trans ((hostWrite_keeps hp hw hd ..).trans (hostWrite_keeps hp hw hd ..))
  · rfl

end Counting

/-- What an access waits for and the transitions of queue pairs stay as they are while things are counted. -/
theorem uncounted_idle : Uncounted (fun s : State => (s.xlt.waiting, s.qpc)) :=
  ⟨fun _ _ _ _ => rfl, fun _ _ _ _ => rfl, fun _ _ => rfl, fun _ _ _ => rfl⟩

theorem idle_writeNotice {f a : Nat} {b : Budget} {n : Notice} {s : State} (h : Idle s) : Idle (writeNotice f a b n s) := by
  have hkeeps := writeNotice_keeps uncounted_idle (fun _ _ _ => rfl) (fun _ _ => rfl) (fun _ _ _ _ => rfl) f a b n s
  obtain ⟨hwaiting, hqpc⟩ := Prod.mk.inj hkeeps
  rwa [Idle, hwaiting, hqpc]

end Sys2Proof.Machine

/-! ## Taper cores: MBXPUT, SEMACQ, SEMREL and NOTE (R252, R253, R256, R369, R370, R373) -/

namespace Sys2Proof.Machine

open Sys2Proof.Claims

/-! ### A core among the masters of the LCK (R230, R373) -/

theorem coreMaster_toNat (c : CoreId) : (coreMaster c.toNat).toNat = 0x400 + c.toNat := by
  have hc : c.toNat < 128 := c.isLt
  rw [coreMaster, BitVec.toNat_ofNat]
  omega

theorem isCore_coreMaster (c : CoreId) : isCore (coreMaster c.toNat) = true := by
  have hc : c.toNat < 128 := c.isLt
  simp only [isCore, coreMaster_toNat, Bool.and_eq_true, decide_eq_true_eq]
  omega

theorem tset_tset_same {α : Type} (t : Tab α) (i : Nat) (x y : α) : tset (tset t i x) i y = tset t i y := by
  induction t with
  | nil => simp [tset]
  | cons z t ih =>
    obtain ⟨k, v⟩ := z
    by_cases hk : k = i
    · simp [tset, hk]
    · by_cases hlt : i < k
      · simp [tset, hk, hlt]
      · simp [tset, hk, hlt, ih]

/-- What a core's activation was does not show where it is set. -/
theorem runsNow_modAct (c : CoreId) (b : Act) (f : Act → Act) (s : State) :
    runsNow c b (modAct c.toNat f s) = runsNow c b s := by
  cases hx : tget s.tpr.cores c.toNat with
  | none => simp only [modAct, hx]
  | some x => simp [modAct, hx, runsNow, getCore, tset_tset_same]

/-- A grant to the core that asks for it, once its SEMACQ has returned. -/
theorem runsNow_semGrant (c : CoreId) (n : Nat) (b : Act) (s : State) :
    runsNow c b (semGrant n (coreMaster c.toNat) s) =
      runsNow c b (putSem n { getSem n s with
        holder := some (coreMaster c.toNat), grants := (getSem n s).grants + 1, abandoned := false } s) := by
  have hcore : (coreMaster c.toNat).toNat - 0x400 = c.toNat := by rw [coreMaster_toNat]; omega
  simp only [semGrant, isCore_coreMaster, Bool.not_true, Bool.and_false, if_true, semReturn, hcore]
  exact runsNow_modAct c b _ (putSem n _ s)

theorem idle_semGrant {n : Nat} {m : BitVec 12} {s : State} (h : Idle s) : Idle (semGrant n m s) := by
  unfold semGrant
  dsimp only
  split
  · unfold semReturn modAct
    split <;> exact h
  · exact h

theorem semNoExcuse_none {n : Nat} {m : BitVec 12} {s : State} (h : (getSem n s).excused = none) : semNoExcuse n m s = s := by
  simp [semNoExcuse, h]

theorem bits_9_0 {n : Nat} (v : BitVec n) : bits 9 0 v = v.toNat % 1024 := bits_from_zero 9 v

/-! ### The instructions by the state of their object -/

/-- An instruction that puts `v` into rd beside another effect. -/
theorem wrote_of_writeW {c : CoreId} {a : Act} {i : Instr} {k : Act → State → State} {s t : State} {rd : WReg} {v : BitVec 64}
    (h : Runs c a s) (he : exec i s = act (tprRun c.toNat k) s) (ht : Idle t) (hk : k a s = writeW c.toNat a rd.toNat v t) :
    ∃ b, exec i s = .next (runsNow c b t) ∧ WroteW a b rd v :=
  ⟨(a.setW rd.toNat v).next, exec_of_runs h he hk ht, wroteW_next a rd v⟩

section Mailbox

variable {c rd box : Nat} {r v : BitVec 64} {a : Act} {s : State} (hbox : r.toNat % 4096 = box) (hf : unitFenced 137 s = false)
  (ho : mbxOwned box (actOwner a s) s = true)
include hbox hf ho

theorem tprMbxput_empty (he : (getMbx box s).state = .empty) :
    tprMbxput c rd r v a s = writeW c a rd 0 (mbxFill box (r.extractLsb' 24 8) (r.extractLsb' 16 8) v s) := by
  have hfull : ((getMbx box s).state == .full) = false := by rw [he]; rfl
  have harmed : ((getMbx box s).state == .armed) = false := by rw [he]; rfl
  simp only [tprMbxput, bits_11_0, hbox, hf, ho, hfull, harmed, Bool.not_true, Bool.false_and, Bool.false_eq_true, if_false]

theorem tprMbxput_full (he : (getMbx box s).state = .full) : tprMbxput c rd r v a s = writeW c a rd 1 s := by
  have hfull : ((getMbx box s).state == .full) = true := by rw [he]; rfl
  simp only [tprMbxput, bits_11_0, hbox, hf, ho, hfull, Bool.not_true, Bool.false_eq_true, if_false, if_true]

theorem tprMbxput_armed (he : (getMbx box s).state = .armed) (hi : a.inv = none) : tprMbxput c rd r v a s = writeW c a rd 2 s := by
  have hfull : ((getMbx box s).state == .full) = false := by rw [he]; rfl
  have harmed : ((getMbx box s).state == .armed) = true := by rw [he]; rfl
  simp only [tprMbxput, bits_11_0, hbox, hf, ho, hfull, harmed, hi, Option.bind_none, Option.map_none, Option.getD_none,
    beq_self_eq_true, Bool.true_or, Bool.and_self, Bool.not_true, Bool.false_eq_true, if_false, if_true]

end Mailbox

section Semaphore

variable {c rd n : Nat} {r : BitVec 64} {a : Act} {s : State} (hn : r.toNat % 1024 = n) (hf : unitFenced 136 s = false)
  (ho : semAllowed n (actOwner a s) s = true)
include hn hf ho

theorem tprSemacq_held (hx : (getSem n s).excused = none) (hh : (getSem n s).holder = some (coreMaster c)) :
    tprSemacq c rd r a s = writeW c a rd 0 s := by
  simp only [tprSemacq, bits_9_0, hn, hf, ho, semNoExcuse_none hx, hh, beq_self_eq_true, Bool.not_true, Bool.false_eq_true, if_false,
    if_true]

theorem tprSemacq_free (hx : (getSem n s).excused = none) (hh : (getSem n s).holder = none) :
    tprSemacq c rd r a s = writeW c a rd (if (getSem n s).abandoned then 1 else 0) (semGrant n (coreMaster c) s) := by
  simp only [tprSemacq, bits_9_0, hn, hf, ho, semNoExcuse_none hx, hh, Option.isNone_none, Bool.not_true, Bool.false_eq_true, if_false,
    if_true, reduceCtorEq, beq_iff_eq]

theorem tprSemacq_waits (hx : (getSem n s).excused = none) {k : BitVec 12} (hh : (getSem n s).holder = some k) (hk : k ≠ coreMaster c)
    (hq : coreMaster c ∉ (getSem n s).queue) (hroom : semWaiters s < 4096) :
    tprSemacq c rd r a s = setAct c { a.next with wait := some (.sem n rd) }
      (putSem n { getSem n s with queue := (getSem n s).queue ++ [coreMaster c] } s) := by
  have hother : (some k == some (coreMaster c)) = false := by simpa using hk
  have hnotin : (getSem n s).queue.contains (coreMaster c) = false := by simpa using hq
  simp only [tprSemacq, semAcquire, bits_9_0, hn, hf, ho, semNoExcuse_none hx, hh, hother, hnotin, Option.isNone_some,
    Nat.not_le.mpr hroom, Bool.not_true, Bool.or_self, Bool.false_eq_true, if_false]

theorem tprSemrel_own (hh : (getSem n s).holder = some (coreMaster c)) : tprSemrel c r a s = setAct c a.next (semFree n false s) := by
  simp only [tprSemrel, semRelKind, bits_9_0, hn, hf, ho, hh, beq_self_eq_true, Bool.not_true, Bool.false_eq_true, if_false, if_true]

end Semaphore

theorem semFree_last {n : Nat} {ab : Bool} {s : State} (hq : (getSem n s).queue = []) :
    semFree n ab s = putSem n { getSem n s with holder := none, abandoned := ab } s := by
  dsimp only [semFree]
  split
  · rfl
  next h => exact absurd (hq.symm.trans h) (List.cons_ne_nil _ _).symm

theorem semFree_next {n : Nat} {ab : Bool} {m : BitVec 12} {t : List (BitVec 12)} {s : State} (hq : (getSem n s).queue = m :: t) :
    semFree n ab s = semGrant n m (putSem n { getSem n s with holder := none, queue := t, abandoned := ab } s) := by
  dsimp only [semFree]
  split
  next h => exact absurd (hq.symm.trans h) (List.cons_ne_nil _ _)
  next h =>
    obtain ⟨rfl, rfl⟩ := List.cons.inj (hq.symm.trans h)
    rfl

section Note

variable {c rb : Nat} {x : BitVec 512} {a : Act} {s : State}

theorem tprNote_noRing (hg : getArv (actOwner a s) (bits 319 308 x) s = none) : tprNote c rb x a s = writeW c a rb 2 s := by
  simp only [tprNote, hg]

variable {g : Arv} (hg : getArv (actOwner a s) (bits 319 308 x) s = some g)
include hg

theorem tprNote_fenced (hf : g.fenced = true) : tprNote c rb x a s = writeW c a rb 2 s := by
  simp only [tprNote, hg, hf, if_true]

variable (hf : g.fenced = false)
include hf

theorem tprNote_noSlot (h0 : g.free .pool = 0) : tprNote c rb x a s = writeW c a rb 1 s := by
  simp only [tprNote, arvTake, hg, hf, h0, beq_self_eq_true, Bool.or_true, Bool.false_eq_true, if_false, if_true]

theorem tprNote_writes (hpos : 0 < g.free .pool) :
    tprNote c rb x a s = writeW c a rb 0 (writeNotice (actOwner a s) (bits 319 308 x) .pool
      { addr := x.extractLsb' 448 64, imm := x.extractLsb' 416 32, key := x.extractLsb' 384 32
        src := ownEp (hostPort (actOwner a s)) s, bytes := bits 383 352 x, detail := 0, status := St.success, kind := 5,
        qpn := bits 351 328 x } (putArv (actOwner a s) (bits 319 308 x) (g.setFree .pool (g.free .pool - 1)) s)) := by
  have hne : (g.free .pool == 0) = false := beq_false_of_ne (by omega)
  simp only [tprNote, arvTake, hg, hf, hne, Bool.or_self, Bool.false_eq_true, if_false]
  rfl

end Note

/-- Settles O9: each of these instructions finds its unit in service and its object in one of its states. -/
theorem taperMailboxesSemaphoresNotices : Obligations.TaperMailboxesSemaphoresNotices := by
  intro c vb rd ra rb a s h r box n m owner x wrote
  have hidle : Idle s := h.2.1
  have hput {v : BitVec 64} {t : State} (ht : Idle t)
      (hk : tprMbxput c.toNat rd.toNat r (a.getW rb.toNat) a s = writeW c.toNat a rd.toNat v t) : wrote (.tMbxput c rd ra rb) rd v t :=
    wrote_of_writeW h rfl (k := fun a s => tprMbxput c.toNat rd.toNat (a.getW ra.toNat) (a.getW rb.toNat) a s) ht hk
  have hnote {v : BitVec 64} {t : State} (ht : Idle t) (hk : tprNote c.toNat rb.toNat x a s = writeW c.toNat a rb.toNat v t) :
      wrote (.tNote c vb rb) rb v t :=
    wrote_of_writeW h rfl (k := fun a s => tprNote c.toNat rb.toNat (a.getV vb.toNat) a s) ht hk
  have hacq {t : State} (ht : Idle t) (hk : tprSemacq c.toNat rd.toNat r a s = t) : exec (.tSemacq c rd ra) s = .next t :=
    exec_of_runs h rfl (k := fun a s => tprSemacq c.toNat rd.toNat (a.getW ra.toNat) a s) hk ht
  have hrel {t : State} (ht : Idle t) (hk : tprSemrel c.toNat r a s = t) : exec (.tSemrel c ra) s = .next t :=
    exec_of_runs h rfl (k := fun a s => tprSemrel c.toNat (a.getW ra.toNat) a s) hk ht
  refine ⟨fun hf ho => ?mailbox, fun hf ho hx => ?semaphore, fun hf => ?mbxFenced, fun hf => ?lckFenced, ?note⟩
  case mailbox =>
    refine ⟨fun he => hput ?_ (tprMbxput_empty rfl hf ho he), fun he => hput hidle (tprMbxput_full rfl hf ho he),
      fun he hi => hput hidle (tprMbxput_armed rfl hf ho he hi)⟩
    rw [mbxFill, hf]
    exact hidle
  case semaphore =>
    refine ⟨fun hh => ?held, fun hh => ?free, fun k hh hk hq hroom => ?waits, fun hh hq => ?lastRelease, fun q rest hh hq => ?release⟩
    case held =>
      exact ⟨_, hacq (idle_runsNow hidle) (tprSemacq_held rfl hf ho hx hh), wroteW_next a rd 0⟩
    case free =>
      refine ⟨_, hacq (idle_runsNow hidle) ((tprSemacq_free rfl hf ho hx hh).trans (runsNow_semGrant c n _ s)), wroteW_next a rd _⟩
    case waits => exact hacq hidle (tprSemacq_waits rfl hf ho hx hh hk hq hroom)
    case lastRelease => exact hrel hidle ((tprSemrel_own rfl hf ho hh).trans (by rw [semFree_last hq]; rfl))
    case release =>
      exact hrel (idle_runsNow (idle_semGrant hidle)) ((tprSemrel_own rfl hf ho hh).trans (by rw [semFree_next hq]; rfl))
  case mbxFenced =>
    exact exec_of_runs h rfl (k := fun a s => tprMbxput c.toNat rd.toNat (a.getW ra.toNat) (a.getW rb.toNat) a s)
      (by simp only [tprMbxput, hf, if_true]) hidle
  case lckFenced =>
    exact ⟨hacq hidle (by simp only [tprSemacq, hf, if_true]), hrel hidle (by simp only [tprSemrel, hf, if_true])⟩
  case note =>
    refine ⟨fun hg => hnote hidle (tprNote_noRing hg), fun g hg hf => hnote hidle (tprNote_fenced hg hf), fun g hg hf =>
      ⟨fun h0 => hnote hidle (tprNote_noSlot hg hf h0), fun hpos => hnote (idle_writeNotice hidle) (tprNote_writes hg hf hpos)⟩⟩

end Sys2Proof.Machine

/-! ## Events of the clusters: transfers, timers, the watchdog, dispatch (R243 to R251, R268) -/

namespace Sys2Proof.Machine

open Sys2Proof.Claims

theorem find?_range_lowest {p : Nat → Bool} {n j : Nat} (hj : j < n) (hp : p j = true) (hlow : ∀ i < j, p i = false) :
    (List.range n).find? p = some j := by
  rw [List.find?_range_eq_some]
  exact ⟨hp, List.mem_range.mpr hj, fun i hi => by simp [hlow i hi]⟩

theorem hxferData_local {id n : Nat} {bs : List Byte} {h : Hxfer} {s : State} (hh : tget s.tpr.hxfers id = some h)
    (hn : h.serial = some n) (ho : h.owner ≠ .none) (hl : bs.length = h.len) :
    hxferData id (.data bs) s = hxferDone id St.success 0
      (tWrite h.core (if h.laddr.toNat < 0x8000 then .ldm h.laddr.toNat else .csm h.laddr.toNat) bs (drained n s)) := by
  simp only [hxferData, hh, hn, beq_false_of_ne ho, Bool.false_eq_true, if_false, ← hl, fitBytes_self]

theorem timerExpire_inv {c i t : Nat} {v : Invoc} {s : State} (hi : i ≠ 0) (hv : getInvoc i s = some v) (ht : v.evq.timer = some t) :
    timerExpire c i s =
      invEvent i timerWord (putInvoc i { v with evq := { v.evq with timer := none } } (advanceTo t s)) := by
  simp only [timerExpire, bne_iff_ne, ne_eq, hi, not_false_eq_true, if_true, hv, ht]

theorem tprWatchdog_act {c : Nat} {a : Act} {s : State} (ha : (getCore c s).act = some a) :
    tprWatchdog c s = tprExc c a Tf.watchdog (reachGtime (a.started + a.wdog) s) := by
  simp only [tprWatchdog, ha]

theorem dispatch_oldest {cl j : Nat} {r : Ready} {rest : List Ready} {s : State} (hcl : cl ∉ s.snf.clusters)
    (hr : tget s.tpr.ready cl = some (r :: rest)) (hm : mayDispatch cl r s = true) (hj : j < 8)
    (hfree : coreFree (8 * cl + j) s = true) (hlow : ∀ i < j, coreFree (8 * cl + i) s = false) :
    dispatch cl s = dispatchTo (8 * cl + j) cl r (withTpr (fun t => { t with ready := tset t.ready cl rest }) s) := by
  have hserves : s.snf.clusters.contains cl = false := by simpa using hcl
  have hcore : (List.range 8).find? (fun k => coreFree (8 * cl + k) s) = some j := find?_range_lowest hj hfree hlow
  simp only [dispatch, hserves, Bool.false_eq_true, if_false, hr, Option.getD_some, List.find?_cons, hm, hcore,
    List.erase_cons_head]

theorem progUnfreeze_frozen {h : Nat} {p : Prog} {s : State} (hp : getProg h s = some p) (hf : p.state = .frozen) :
    progUnfreeze h s = showProg h (withTpr (fun t =>
      { t with progs := tset t.progs h { p with state := if p.unload.isSome then .unloading else .live } }) s) := by
  simp only [progUnfreeze, hp, hf, beq_self_eq_true, if_true]

/-- Settles O10: each event finds the object that it names. -/
theorem clusterEvents : Obligations.ClusterEvents := by
  intro c id inv cl bs h n v t a r rest m w p s k
  refine ⟨fun hh hn hd ho hl => does_of_exec rfl (hxferData_local hh hn ho hl), fun hi hv ht => ?timer,
    fun ha => does_of_exec rfl (tprWatchdog_act ha), fun hcl hr hm j hj hfree hlow =>
      does_of_exec rfl (dispatch_oldest hcl hr hm hj hfree hlow), fun hw hopen hp hf => ?unfreeze⟩
  case timer =>
    have hi' : inv.toNat ≠ 0 := fun h0 => hi (BitVec.eq_of_toNat_eq h0)
    exact does_of_exec rfl (timerExpire_inv hi' hv ht)
  case unfreeze =>
    intro back
    have hback : mgtWrOff m (cross 48 (regReq m Reg.TPR_UNFREEZE (w.setWidth 64)) (progUnfreeze (bits 9 0 w))) s =
        back (if p.unload.isSome then .unloading else .live) := by
      rw [mgtWrOff_cross_taken hw hopen, bits_from_zero]
      exact progUnfreeze_frozen hp hf
    exact ⟨fun hu => does_of_exec rfl (by rw [hback, hu]; rfl), fun hu => does_of_exec rfl (by
      rw [hback, Option.isSome_iff_ne_none.mpr hu]; rfl)⟩

end Sys2Proof.Machine

/-! ## Messages between programs (R258, R259) -/

namespace Sys2Proof.Machine

open Sys2Proof.Claims

theorem tmRetry_eq (s : State) : tmRetry s = max 1 ((rdReg Reg.TPR_CFG s).toNat / 2 ^ 32 % 256) := by
  rw [tmRetry, nz_eq_max]
  rfl

/-- A register that counting does not write is not counted. -/
theorem uncounted_rdReg {o : Nat} (ho : ¬CountReg o) : Uncounted (fun s => rdReg o s) := by
  refine ⟨fun p v s hp => ?_, fun _ _ _ _ => rfl, fun _ _ => rfl, fun _ _ _ => rfl⟩
  have hne : o ≠ p := fun h => ho (h ▸ hp)
  rw [rdReg_wrReg, if_neg hne]

theorem rdReg_advanceTo {o : Nat} (ho : ¬CountReg o) (t : Nat) (s : State) : rdReg o (advanceTo t s) = rdReg o s :=
  levelsPass_keeps (uncounted_rdReg ho) _ s

theorem tprCfg_not_countReg : ¬CountReg Reg.TPR_CFG := by
  rw [CountReg]
  decide

theorem tmRetry_advanceTo (t : Nat) (s : State) : tmRetry (advanceTo t s) = tmRetry s := by
  rw [tmRetry, rf, rdReg_advanceTo tprCfg_not_countReg]
  rfl

theorem tmRto_advanceTo (t : Nat) (s : State) : tmRto (advanceTo t s) = tmRto s := by
  rw [tmRto, rf, rdReg_advanceTo tprCfg_not_countReg]
  rfl

/-! ### A message comes -/

theorem tmsgCome_badCrc {p : Packet} {s : State} (hc : e2eCrc p ≠ p.crc) : tmsgCome p s = tprIgnored s := by
  simp only [tmsgCome, bne_iff_ne.mpr hc, if_true]

/-- The program of a handle that may take a message for an endpoint: not UNLOADING, of its host port, with a message handler. -/
def takesMsg (p : Packet) (g : Prog) (s : State) : Bool :=
  (g.state == .live || g.state == .frozen) && hostPort g.owner == epPort p.dstEp &&
    (getImage g.image s).any (fun m => m.msge != 0xFFFFFFFF)

theorem takesMsg_iff (p : Packet) (g : Prog) (s : State) :
    takesMsg p g s = true ↔
      g.state ≠ .unloading ∧ g.owner / 256 = p.dstEp.toNat % 4 ∧ ∃ im, getImage g.image s = some im ∧ im.msge ≠ 0xFFFFFFFF := by
  have hstate : (g.state == .live || g.state == .frozen) = true ↔ g.state ≠ .unloading := by cases g.state <;> decide
  rw [takesMsg, Bool.and_eq_true, Bool.and_eq_true, hstate, and_assoc, beq_iff_eq, Option.any_eq_true]
  simp only [bne_iff_ne]
  rfl

theorem accept_any_eq_true {chip : Nat} {psn : BitVec 32} {s : State} (h : ∃ t, (chip, psn, t) ∈ s.tpr.accept) :
    s.tpr.accept.any (fun (c, n, _) => c == chip && n == psn) = true := by
  obtain ⟨t, ht⟩ := h
  exact List.any_eq_true.mpr ⟨_, ht, by simp⟩

theorem accept_any_eq_false {chip : Nat} {psn : BitVec 32} {s : State} (h : ∀ t, (chip, psn, t) ∉ s.tpr.accept) :
    s.tpr.accept.any (fun (c, n, _) => c == chip && n == psn) = false := by
  refine List.any_eq_false.mpr fun ⟨c, n, t⟩ hmem heq => ?_
  obtain ⟨rfl, rfl⟩ : c = chip ∧ n = psn := by simpa using heq
  exact h t hmem

section Come

variable {p : Packet} {s : State} (hc : e2eCrc p = p.crc)
include hc

theorem tmsgCome_noProg (hg : getProg (bits 15 0 p.addr) s = none) : tmsgCome p s = tmsgAnswer 0 p 1 s := by
  simp only [tmsgCome, hc, bne_self_eq_false, Bool.false_eq_true, if_false, hg, Option.bind_none]

variable {g : Prog} (hg : getProg (bits 15 0 p.addr) s = some g)
include hg

theorem tmsgCome_notTaken (ht : takesMsg p g s = false) : tmsgCome p s = tmsgAnswer 0 p 1 s := by
  unfold takesMsg at ht
  simp only [tmsgCome, hc, bne_self_eq_false, Bool.false_eq_true, if_false, hg, Option.bind_some, ht]

variable (ht : takesMsg p g s = true)
include ht

theorem tmsgCome_otherKey (hk : g.hkey ≠ p.key) : tmsgCome p s = tmsgAnswer ((msgCluster g s).getD 0) p 2 s := by
  unfold takesMsg at ht
  simp only [tmsgCome, hc, bne_self_eq_false, Bool.false_eq_true, if_false, hg, Option.bind_some, ht, if_true, bne_iff_ne.mpr hk]

variable (hk : g.hkey = p.key)
include hk

theorem tmsgCome_frozen (hf : g.state = .frozen ∨ frozen g.owner s = true) :
    tmsgCome p s = tmsgAnswer ((msgCluster g s).getD 0) p 3 s := by
  have hfr : (g.state == .frozen || frozen g.owner s) = true := by simpa using hf
  unfold takesMsg at ht
  simp only [tmsgCome, hc, bne_self_eq_false, Bool.false_eq_true, if_false, hg, Option.bind_some, ht, if_true, hk, hfr]

variable (hl : g.state = .live) (hn : frozen g.owner s = false)
include hl hn

theorem tmsgCome_again (ha : ∃ t, (p.srcEp.toNat / 4, p.psn, t) ∈ s.tpr.accept) :
    tmsgCome p s = tmsgAnswer ((msgCluster g s).getD 0) p 0 s := by
  have hfr : (g.state == .frozen || frozen g.owner s) = false := by simp [hl, hn]
  unfold takesMsg at ht
  simp only [tmsgCome, hc, bne_self_eq_false, Bool.false_eq_true, if_false, hg, Option.bind_some, ht, if_true, hk, hfr,
    accept_any_eq_true ha]

/-! A message that is new to its program is taken where there is room, and otherwise leaves nothing. -/

variable (ha : ∀ t, (p.srcEp.toNat / 4, p.psn, t) ∉ s.tpr.accept)
include ha

theorem tmsgCome_noCluster (hcl : msgCluster g s = none) : tmsgCome p s = s := by
  have hfr : (g.state == .frozen || frozen g.owner s) = false := by simp [hl, hn]
  unfold takesMsg at ht
  simp only [tmsgCome, hc, bne_self_eq_false, Bool.false_eq_true, if_false, hg, Option.bind_some, ht, if_true, hk, hfr,
    accept_any_eq_false ha, hcl]

theorem tmsgCome_cluster {cl : Nat} (hcl : msgCluster g s = some cl) : tmsgCome p s =
    if 8192 ≤ s.tpr.accept.length ∨ 256 ≤ msgQueue cl s ∨ objLimit s < objCells s + cellsOf p then s
    else tmsgAnswer cl p 0 (pushReady cl (.msg (bits 15 0 p.addr) p (cellsOf p)) (withTpr (fun t =>
      { t with accept := t.accept ++ [(p.srcEp.toNat / 4, p.psn, s.now + (tmRetry s + 2) * tmRto s)] }) s)) := by
  have hfr : (g.state == .frozen || frozen g.owner s) = false := by simp [hl, hn]
  unfold takesMsg at ht
  simp only [tmsgCome, hc, bne_self_eq_false, Bool.false_eq_true, if_false, hg, Option.bind_some, ht, if_true, hk, hfr,
    accept_any_eq_false ha, hcl, Bool.or_eq_true, decide_eq_true_eq, or_assoc]

end Come

/-! ### A message's end -/

theorem tmsgAcked_waits {p : Packet} {m : TmsgTx} {s : State} (hc : e2eCrc p = p.crc)
    (hm : s.tpr.tmsgs.find? (fun m => m.pkt.psn == p.psn) = some m) : tmsgAcked p s = tmsgDone m (p.opx.toNat / 2 ^ 56) s := by
  simp only [tmsgAcked, hc, bne_self_eq_false, Bool.false_eq_true, if_false, hm, bits_to_top 56 p.opx rfl (by decide)]

section Resend

variable {psn : BitVec 32} {m : TmsgTx} {s : State} (hm : s.tpr.tmsgs.find? (fun m => m.pkt.psn == psn) = some m)
include hm

theorem tmsgResend_lost (ht : tmRetry s ≤ m.tries) : tmsgResend psn s = tmsgDone m 0x80 (advanceTo (m.sentAt + m.rto) s) := by
  have ht' : tmRetry (advanceTo (m.sentAt + m.rto) s) ≤ m.tries := by rwa [tmRetry_advanceTo]
  simp only [tmsgResend, hm, ht', if_true]

theorem tmsgResend_again (ht : m.tries < tmRetry s) : tmsgResend psn s =
    tprSend m.att { m.pkt with retx := true } (withTpr (fun u => { u with tmsgs := u.tmsgs.map (fun x =>
      if x.pkt.psn == psn then { x with tries := x.tries + 1, sentAt := (advanceTo (m.sentAt + m.rto) s).now, rto := tmRto s } else x) })
      (advanceTo (m.sentAt + m.rto) s)) := by
  have ht' : ¬tmRetry (advanceTo (m.sentAt + m.rto) s) ≤ m.tries := by rwa [tmRetry_advanceTo, Nat.not_le]
  simp only [tmsgResend, hm, ht', if_false, tmRto_advanceTo]

end Resend

theorem acceptExpire_only {chip t : Nat} {psn : BitVec 32} {s : State} (ht : (chip, psn, t) ∈ s.tpr.accept)
    (honly : ∀ u, (chip, psn, u) ∈ s.tpr.accept → u = t) : acceptExpire chip psn s =
      withTpr (fun u => { u with accept := u.accept.filter (fun x => !(x.1 == chip && x.2.1 == psn)) }) (advanceTo t s) := by
  have hfind : s.tpr.accept.find? (fun (c, n, _) => c == chip && n == psn) = some (chip, psn, t) := by
    obtain ⟨⟨c, n, u⟩, hu⟩ := Option.isSome_iff_exists.mp (List.find?_isSome.mpr ⟨_, ht, by simp⟩ :
      (s.tpr.accept.find? (fun (c, n, _) => c == chip && n == psn)).isSome)
    obtain ⟨rfl, rfl⟩ : c = chip ∧ n = psn := by simpa using List.find?_some hu
    rw [hu, honly u (List.mem_of_find?_eq_some hu)]
  simp only [acceptExpire, hfind]

/-- Settles O11: what a message meets, in the order in which the model asks. -/
theorem taperMessages : Obligations.TaperMessages := by
  intro p g im m psn chip s h from_ rto retry answer by_ takes
  have hh : h = bits 15 0 p.addr := by
    rw [bits_from_zero]
    rfl
  have hcome {t : State} (hop : p.op = 0x30) (hk : tmsgCome p s = t) : Does (.tmsg p) s t :=
    does_of_exec rfl (f := fun s => if p.op == 0x30 then tmsgCome p s else s) (by rw [hop]; exact hk)
  rw [hh]
  refine ⟨fun hop hc => hcome hop (tmsgCome_badCrc hc), fun hop hc hg => hcome hop (tmsgCome_noProg hc hg),
    fun hop hc hg ht => hcome hop (tmsgCome_notTaken hc hg ?notTaken), fun hop hc hg hu hown him hmsg => ?taken, fun hm hop hc => ?acked,
    fun hm => ?resend, fun t ht honly => does_of_exec rfl (acceptExpire_only ht honly)⟩
  case notTaken => exact Bool.eq_false_iff.mpr fun h => ht ((takesMsg_iff p g s).mp h)
  case taken =>
    have ht : takesMsg p g s = true := (takesMsg_iff p g s).mpr ⟨hu, hown, im, him, hmsg⟩
    refine ⟨fun hk => hcome hop (tmsgCome_otherKey hc hg ht hk), fun hk hf => hcome hop (tmsgCome_frozen hc hg ht hk hf),
      fun hk hl hn => ⟨fun ha => hcome hop (tmsgCome_again hc hg ht hk hl hn ha), fun ha cl hcl hlen hq hcells => ?accepted,
        fun ha hno => hcome hop ?noRoom⟩⟩
    case accepted =>
      refine hcome hop ((tmsgCome_cluster hc hg ht hk hl hn ha hcl).trans ?_)
      rw [if_neg (by omega), tmRetry_eq, tmRto_eq]
      rfl
    case noRoom =>
      cases hcl : msgCluster g s with
      | none => exact tmsgCome_noCluster hc hg ht hk hl hn ha hcl
      | some cl =>
        have hfull : 8192 ≤ s.tpr.accept.length ∨ 256 ≤ msgQueue cl s ∨ objLimit s < objCells s + cellsOf p := by
          simpa [hcl] using hno
        exact (tmsgCome_cluster hc hg ht hk hl hn ha hcl).trans (if_pos hfull)
  case acked => exact does_of_exec rfl (f := fun s => if p.op == 0x31 then tmsgAcked p s else s) (by rw [hop]; exact tmsgAcked_waits hc hm)
  case resend =>
    intro t
    have hretry : retry = tmRetry s := (tmRetry_eq s).symm
    have hrto : rto = tmRto s := (tmRto_eq s).symm
    rw [hretry, hrto]
    exact ⟨fun ht => does_of_exec rfl (tmsgResend_lost hm ht), fun ht => does_of_exec rfl (tmsgResend_again hm ht)⟩

end Sys2Proof.Machine

/-! ## Taper programs: loads, images and what an entry's reads return (R240 to R242, R266, R522) -/

namespace Sys2Proof.Machine

open Sys2Proof.Claims

/-! ### TAPER_LOAD with its block (R240, R266) -/

section Load

variable {f : Nat} {ref : EntryRef} {e blk : BitVec 512} {s : State}

theorem taperLoadRow_taken {which : BitVec 512 → Bool} (hat : issueOf 0x29 f 0 s = some (ref, e))
    (hwin : inWindow f (eLaddr e) 64 s = true) (hload : tget s.tpr.loads f = none) (hwhich : which blk = true) :
    taperLoadRow which f blk s = taperLoadGo ref e (blk.setWidth 2048) (blockRead f ref e 64 s) := by
  simp only [taperLoadRow, hwhich, hload, Option.isSome_none, Bool.not_true, Bool.or_self, Bool.false_eq_true, if_false]
  exact adminRun_read rfl hat hwin rfl (by decide) (by decide)

theorem extractLsb'_setWidth_block (b : BitVec 512) : (b.setWidth 2048).extractLsb' 0 512 = b := by
  rw [BitVec.extractLsb'_setWidth_of_le (by decide), BitVec.extractLsb'_eq_self]

variable {t : State} (hfn : ref.fn = f)
include hfn

theorem taperLoadGo_judged {st : BitVec 8} (hj : loadJudge f blk t = some st) :
    taperLoadGo ref e (blk.setWidth 2048) t = finishEntry ref st 0 t := by
  simp only [taperLoadGo, hfn, extractLsb'_setWidth_block, hj]

variable (hj : loadJudge f blk t = none)
include hj

theorem taperLoadGo_reads (hu : lUnload blk = false) : taperLoadGo ref e (blk.setWidth 2048) t =
    hostRead f (lImage blk) (lLen blk) (withTpr (fun x => { x with loads := tset x.loads f ⟨ref, blk⟩ }) t) := by
  simp only [taperLoadGo, hfn, extractLsb'_setWidth_block, hj, hu, Bool.false_eq_true, if_false]

theorem taperLoadGo_unloads (hu : lUnload blk = true) :
    taperLoadGo ref e (blk.setWidth 2048) t = unloadProg ref (lHandle blk) t := by
  simp only [taperLoadGo, hfn, extractLsb'_setWidth_block, hj, hu, if_true]

end Load

/-! ### The image (R238, R241, R242) -/

section Image

variable {f : Nat} {l : TLoad} {bs : List Byte} {s : State}

/-- The State in which a function's load is no longer noted. -/
def loadGone (f : Nat) (s : State) : State := withTpr (fun t => { t with loads := tdel t.loads f }) s

variable (hl : tget s.tpr.loads f = some l) (hlive : refLive l.ref (loadGone f s) = true)
include hl hlive

theorem imageCome_pcieError : imageCome f .pcieError s = finishEntry l.ref St.localPcie 0 (loadGone f s) := by
  unfold loadGone at *
  simp only [imageCome, hl, hlive, Bool.not_true, Bool.false_eq_true, if_false]

variable (hlen : bs.length = lLen l.blk)
include hlen

theorem imageCome_badShape (hs : imageShape (lLen l.blk) bs = false) :
    imageCome f (.data bs) s = finishEntry l.ref St.taperFault Tf.imageFormat (loadGone f s) := by
  unfold loadGone at *
  simp only [imageCome, hl, hlive, fitBytes_of_length hlen, hs, Bool.not_true, Bool.not_false, Bool.false_eq_true, if_false, if_true]

variable (hs : imageShape (lLen l.blk) bs = true)
include hs

theorem imageCome_badCrc (hc : imageCrcOk bs = false) :
    imageCome f (.data bs) s = finishEntry l.ref St.taperFault Tf.imageCrc (loadGone f s) := by
  unfold loadGone at *
  simp only [imageCome, hl, hlive, fitBytes_of_length hlen, hs, hc, Bool.not_true, Bool.not_false, Bool.false_eq_true, if_false,
    if_true]

variable (hc : imageCrcOk bs = true)
include hc

theorem imageCome_unverified (hv : imageVerifies (lKind l.blk) bs = false) :
    imageCome f (.data bs) s = finishEntry l.ref St.taperFault Tf.imageVerify (loadGone f s) := by
  unfold loadGone at *
  simp only [imageCome, hl, hlive, fitBytes_of_length hlen, hs, hc, hv, Bool.not_true, Bool.not_false, Bool.false_eq_true, if_false,
    if_true]

theorem imageCome_installs (hv : imageVerifies (lKind l.blk) bs = true) (hj : loadJudge f l.blk (loadGone f s) = none) :
    imageCome f (.data bs) s = installImage l.ref (refRaw l.ref (loadGone f s)) l.blk bs (loadGone f s) := by
  unfold loadGone at *
  simp only [imageCome, hl, hlive, fitBytes_of_length hlen, hs, hc, hv, hj, Bool.not_true, Bool.false_eq_true, if_false]

end Image

/-! ### Reads that return (R522) -/

theorem issuable_of_issueOf {op f r : Nat} {ref : EntryRef} {e : BitVec 512} {s : State} (h : issueOf op f r s = some (ref, e)) :
    issuable f r s = some (ref, e) ∧ eOpcode e = op := by
  unfold issueOf at h
  split at h
  next heq =>
    split at h
    next hcond =>
      cases h
      rw [Bool.and_eq_true, beq_iff_eq] at hcond
      exact ⟨heq, hcond.1⟩
    · cases h
  next => cases h

/-- A block that is read goes to the row of its entry's opcode. -/
theorem blockCome_op {op f : Nat} {go : AdminGo} {d : ReadResult} {ref : EntryRef} {e : BitVec 512} {s : State}
    (hat : issueOf op f 0 s = some (ref, e)) (hgo : blockOps.find? (fun x => x.1 == op) = some (op, go)) (hop : op ≠ 0x29) :
    blockCome f d s = adminRun op f d go s := by
  obtain ⟨hi, rfl⟩ := issuable_of_issueOf hat
  simp only [blockCome, hi, hgo, beq_false_of_ne hop, Bool.false_and, Bool.false_eq_true, if_false]

theorem adminRun_pcieError {op f n : Nat} {go : AdminGo} {ref : EntryRef} {e : BitVec 512} {s : State}
    (hat : issueOf op f 0 s = some (ref, e)) (hn : adminBlockLen op = n) (h0 : n ≠ 0) (hwin : inWindow f (eLaddr e) n s = true) :
    adminRun op f .pcieError go s = finishEntry ref St.localPcie 0 (blockRead f ref e n s) := by
  simp only [adminRun, hat, hn, beq_false_of_ne h0, hwin, Bool.not_true, Bool.false_eq_true, if_false, blockRead]

theorem blockOps_pdAlloc : blockOps.find? (fun x => x.1 == 0x38) = some (0x38, pdAllocGo) := by
  simp only [blockOps, List.find?_cons, Nat.reduceBEq]

theorem act_congr {f g : State → State} {s : State} (h : f s = g s) : act f s = act g s := by
  rw [act, act, h]

section Descriptor

variable {f r n : Nat} {ref : EntryRef} {e : BitVec 512} {bs : List Byte} {s : State} (hr : readingEntry f r s = some (ref, e, n))
include hr

theorem entryReadCome_colStart (hop : eOpcode e = 0x20) (hlen : bs.length = eLength e) :
    entryReadCome f r (.data bs) s = colStartGo ref e bs (setIssuing ref false none (drained n s)) := by
  simp only [entryReadCome, hr, hop, beq_self_eq_true, if_true, ← hlen, fitBytes_self]

theorem entryReadCome_invoke (hop : eOpcode e = 0x28) (hlen : bs.length = eLength e) :
    entryReadCome f r (.data bs) s = invokeGo ref e bs (setIssuing ref false none (drained n s)) := by
  simp only [entryReadCome, hr, hop, Nat.reduceBEq, Bool.false_eq_true, if_false, if_true, ← hlen, fitBytes_self]

theorem entryReadCome_pcieError (hop : opNamesQp (eOpcode e) = false) :
    entryReadCome f r .pcieError s = issueFinish ref St.localPcie 0 (setIssuing ref false none (drained n s)) := by
  simp only [entryReadCome, hr, hop, Bool.false_eq_true, if_false]

end Descriptor

/-- Settles O21: a load by its flags and the outcome of its tests, its image by the first rule that it breaks, and the reads by the
opcode of their entry. -/
theorem programsAreLoaded : Obligations.ProgramsAreLoaded := by
  intro f blk b16 bs r ref e l n s fn at_ t reads
  refine ⟨fun hat hwin hload => ?load, fun hl => ?image, fun hat => ?block, fun hr => ?descriptor⟩
  case load =>
    have hfn : ref.fn = fn := issueOf_fn hat
    have hrow {which : BitVec 512 → Bool} (hw : which blk = true) :
        taperLoadRow which fn blk s = taperLoadGo ref e (blk.setWidth 2048) t := taperLoadRow_taken hat hwin hload hw
    have hflag (i : Nat) : bit i blk = blk.getLsbD i := bit_eq_getLsbD i blk
    refine ⟨fun st hj hrep hunl => does_of_exec rfl ((hrow ?_).trans (taperLoadGo_judged hfn hj)), fun hj =>
      ⟨fun hrep hunl => does_of_exec rfl ((hrow ?_).trans (taperLoadGo_reads hfn hj ((hflag 258).trans hunl))),
        fun hrep hunl => does_of_exec rfl ((hrow ?_).trans (taperLoadGo_reads hfn hj ((hflag 258).trans hunl))),
        fun hrep hunl => does_of_exec rfl ((hrow ?_).trans (taperLoadGo_unloads hfn hj ((hflag 258).trans hunl)))⟩⟩
    all_goals simp only [lReplace, lUnload, hflag, hrep, hunl]; rfl
  case image =>
    intro u hlive hlen
    have hkind : lKind l.blk = l.blk.getLsbD 259 := bit_eq_getLsbD ..
    exact ⟨fun hs => does_of_exec rfl (imageCome_badShape hl hlive hlen hs),
      fun hs hc => does_of_exec rfl (imageCome_badCrc hl hlive hlen hs hc),
      fun hs hc hv => does_of_exec rfl (imageCome_unverified hl hlive hlen hs hc (hkind ▸ hv)),
      fun hs hc hv hj => does_of_exec rfl (imageCome_installs hl hlive hlen hs hc (hkind ▸ hv) hj),
      does_of_exec rfl (imageCome_pcieError hl hlive)⟩
  case block =>
    have hrow (d : ReadResult) : blockCome fn d s = adminRun 0x38 fn d pdAllocGo s := blockCome_op hat blockOps_pdAlloc (by decide)
    refine ⟨?sameAsCommand, fun hwin => does_of_exec rfl ((hrow _).trans (adminRun_pcieError hat rfl (by decide) hwin))⟩
    case sameAsCommand => exact act_congr (hrow _)
  case descriptor =>
    intro u
    refine ⟨fun hop hlen => does_of_exec rfl (entryReadCome_colStart hr hop hlen),
      fun hop hlen => does_of_exec rfl (entryReadCome_invoke hr hop hlen), fun hop => does_of_exec rfl (entryReadCome_pcieError hr ?_)⟩
    obtain hop | hop := hop <;> rw [hop] <;> rfl

end Sys2Proof.Machine

/-! ## Routes: the outputs of least cost and of least load, and the header of a hop (R281 to R288) -/

namespace Sys2Proof.Machine

open Sys2Proof.Claims

/-! ### The outputs with their costs (R275, R282) -/

/-- Every output of `routeCosts` is a usable port (R275). -/
theorem portUsable_of_mem_routeCosts {g k : Nat} {d : BitVec 17} {s : State} {p c : Nat} (h : (p, c) ∈ routeCosts g d k s) :
    portUsable p s = true := by
  unfold routeCosts at h
  split at h
  case isTrue =>
    obtain ⟨x, -, hx⟩ := List.mem_filterMap.mp h
    split at hx
    case isTrue hports =>
      simp only [Bool.and_eq_true] at hports
      cases hx
      exact hports.1.1
    case isFalse => cases hx
  case isFalse =>
    split at h
    case isTrue => cases h
    case isFalse =>
      obtain ⟨x, -, hx⟩ := List.mem_filterMap.mp h
      split at hx
      case isTrue hports =>
        obtain ⟨y, -, he⟩ := Option.map_eq_some_iff.mp hx
        cases he
        exact (Bool.and_eq_true_iff.mp hports).1
      case isFalse => cases hx

/-! ### The least cost, and the candidates that have it (R282) -/

/-- `leastCost` is the library's least element of the costs. -/
theorem leastCost_eq_min? (cs : List (Nat × Nat)) : leastCost cs = (cs.map Prod.snd).min? := by
  induction cs with
  | nil => rfl
  | cons c cs ih =>
    rw [leastCost, ih, List.map_cons, List.min?_cons]
    cases (cs.map Prod.snd).min? <;> rfl

theorem leastCost_le {cs : List (Nat × Nat)} {m : Nat} (h : leastCost cs = some m) : ∀ c ∈ cs, m ≤ c.2 := by
  rw [leastCost_eq_min?, List.min?_eq_some_iff] at h
  exact fun c hc => h.2 c.2 (List.mem_map_of_mem hc)

theorem leastCost_attained {cs : List (Nat × Nat)} {m : Nat} (h : leastCost cs = some m) : ∃ p, (p, m) ∈ cs := by
  rw [leastCost_eq_min?, List.min?_eq_some_iff] at h
  obtain ⟨⟨p, _⟩, hp, rfl⟩ := List.mem_map.mp h.1
  exact ⟨p, hp⟩

section Candidates

variable {g k m : Nat} {d : BitVec 17} {s : State} {ps : List Nat} (h : candidates g d k s = some (ps, m))
include h

theorem candidates_leastCost : leastCost (routeCosts g d k s) = some m := by
  obtain ⟨x, hx, he⟩ := Option.map_eq_some_iff.mp h
  cases he
  exact hx

theorem mem_candidates {p : Nat} : p ∈ ps ↔ (p, m) ∈ routeCosts g d k s := by
  obtain ⟨x, -, he⟩ := Option.map_eq_some_iff.mp h
  cases he
  simp [List.mem_filterMap]

theorem candidates_ne_nil : ps ≠ [] := by
  obtain ⟨p, hp⟩ := leastCost_attained (candidates_leastCost h)
  exact List.ne_nil_of_mem ((mem_candidates h).mpr hp)

end Candidates

/-! ### The choice among the candidates (R283, R288) -/

section Choice

variable {ps : List Nat} {s : State}

/-- `leastLoad` is the library's least element of the loads. -/
theorem leastLoad_eq_min? (hne : ps ≠ []) : (ps.map (portLoad · s)).min? = some (leastLoad ps s) := by
  cases ps with
  | nil => exact absurd rfl hne
  | cons p ps => rw [List.map_cons, List.min?_cons', List.foldl_map, leastLoad]

theorem leastLoad_le {p : Nat} (hp : p ∈ ps) : leastLoad ps s ≤ portLoad p s :=
  (List.min?_eq_some_iff.mp (leastLoad_eq_min? (List.ne_nil_of_mem hp))).2 _ (List.mem_map_of_mem hp)

theorem leastLoad_attained (hne : ps ≠ []) : ∃ p ∈ ps, portLoad p s = leastLoad ps s :=
  List.mem_map.mp (List.min?_eq_some_iff.mp (leastLoad_eq_min? hne)).1

/-- The port that R283 picks is a candidate, and has the least load, whichever the pointer is. -/
theorem pickLeast_mem (hne : ps ≠ []) (ptr : Nat) :
    pickLeast ps ptr s ∈ ps ∧ portLoad (pickLeast ps ptr s) s = leastLoad ps s := by
  have hbest : pickLeast ps ptr s ∈ ps.filter (fun p => portLoad p s == leastLoad ps s) := by
    unfold pickLeast
    dsimp only
    split
    next p hp => exact List.mem_of_find?_eq_some hp
    next =>
      obtain ⟨p, hp, hload⟩ := leastLoad_attained (s := s) hne
      have hmem : p ∈ ps.filter (fun p => portLoad p s == leastLoad ps s) := List.mem_filter.mpr ⟨hp, beq_iff_eq.mpr hload⟩
      rw [List.headD_eq_head?_getD, List.head?_eq_some_head (List.ne_nil_of_mem hmem), Option.getD_some]
      exact List.head_mem _
  obtain ⟨hmem, hload⟩ := List.mem_filter.mp hbest
  exact ⟨hmem, beq_iff_eq.mp hload⟩

/-- The port that R288 picks is a candidate. -/
theorem pickFixed_mem (hne : ps ≠ []) : pickFixed ps s ∈ ps := by
  cases ps with
  | nil => exact absurd rfl hne
  | cons p ps =>
    refine List.foldlRecOn (motive := (· ∈ p :: ps)) ps _ List.mem_cons_self fun b hb q hq => ?_
    split
    · exact List.mem_cons_of_mem p hq
    · exact hb

end Choice

/-! ### The header of a hop (R285, R286) -/

section Header

variable {i : InPkt} {p q : Packet} {out : Nat} {s : State} (h : hopHeader i p out s = some q)
include h

/-- No packet leaves with HOPS above 8, and the hop is counted. -/
theorem hopHeader_hops : q.hops.toNat = p.hops.toNat + 1 ∧ q.hops.toNat ≤ 8 := by
  unfold hopHeader at h
  dsimp only at h
  split at h
  case isTrue => cases h
  case isFalse hle =>
    have hcount : (BitVec.ofNat 6 (p.hops.toNat + 1)).toNat = p.hops.toNat + 1 := by
      rw [BitVec.toNat_ofNat, Nat.mod_eq_of_lt (by omega)]
    have hq : q.hops = BitVec.ofNat 6 (p.hops.toNat + 1) := by
      split at h <;> split at h <;> cases h <;> rfl
    rw [hq, hcount]
    omega

/-- A global hop is counted in PHASE. -/
theorem hopHeader_global (hrole : portRole out s = 3) : q.phase.toNat = p.phase.toNat + 1 ∧ q.sublevel = false := by
  simp only [hopHeader, hrole, beq_self_eq_true, if_true] at h
  split at h
  case isTrue => cases h
  case isFalse =>
    split at h
    case isTrue => cases h
    case isFalse hphase =>
      cases h
      refine ⟨?_, rfl⟩
      change (p.phase + 1).toNat = p.phase.toNat + 1
      bv_omega

/-- A hop within the group spends the intra budget (R281). -/
theorem hopHeader_intra (hrole : portRole out s ≠ 3) : q.phase = p.phase ∧ 1 ≤ i.budget := by
  simp only [hopHeader, beq_false_of_ne hrole, Bool.false_eq_true, if_false] at h
  split at h
  case isTrue => cases h
  case isFalse =>
    split at h
    case isTrue => cases h
    case isFalse hbudget =>
      cases h
      exact ⟨rfl, Nat.pos_of_ne_zero (by simpa using hbudget)⟩

end Header

/-! ### One decision (R281 to R288) -/

/-- The group that a packet heads for: its intermediate one until the first global hop, then its destination's (R281). -/
def headsFor (p : Packet) : Nat := if p.nonmin = true ∧ p.phase = 0 then p.viaGroup.toNat else epGroup p.dstEp

/-- A port that `routeOnce` answers is a candidate whose hop the header's limits allow, and the one of least load among the candidates
where the route is not fixed. -/
theorem routeOnce_port {i : InPkt} {p q : Packet} {out : Nat} {s t : State} (h : routeOnce i p s = (.port out q, t)) :
    ∃ ps m, candidates (headsFor p) p.dstEp i.budget s = some (ps, m) ∧ out ∈ ps ∧
      (fixedRoute p = false → portLoad out s = leastLoad ps s) ∧ hopHeader i p out s = some q := by
  have htarget : (if (p.nonmin && p.phase == 0) = true then p.viaGroup.toNat else epGroup p.dstEp) = headsFor p := by
    simp [headsFor]
  simp only [routeOnce, htarget] at h
  split at h
  case h_1 => cases h
  case h_2 ps m hcand =>
    have hne := candidates_ne_nil hcand
    cases hfixed : fixedRoute p
    case true =>
      simp only [hfixed, if_true] at h
      split at h
      case h_1 hq => cases h; exact ⟨ps, m, hcand, pickFixed_mem hne, fun hf => absurd hf Bool.noConfusion, hq⟩
      case h_2 => cases h
    case false =>
      simp only [hfixed, Bool.false_eq_true, if_false] at h
      obtain ⟨hmem, hload⟩ := pickLeast_mem (s := s) hne ((tget s.xbr.ptr i.inp).getD 0)
      split at h
      case h_1 hq => cases h; exact ⟨ps, m, hcand, hmem, fun _ => hload, hq⟩
      case h_2 => cases h

/-- Settles O31: the port is a candidate, so it is usable and has the least cost, and its hop's header has met the limits of R286. -/
theorem routesTakeTheLeastCost : Obligations.RoutesTakeTheLeastCost := by
  intro i p q out s t h target costs
  obtain ⟨ps, m, hcand, hout, hload, hq⟩ := routeOnce_port h
  have hcost : (out, m) ∈ costs := (mem_candidates hcand).mp hout
  obtain ⟨hcount, hlimit⟩ := hopHeader_hops hq
  refine ⟨portUsable_of_mem_routeCosts hcost, ⟨m, hcost, leastCost_le (candidates_leastCost hcand), ?_⟩,
    hcount, hlimit, hopHeader_global hq, hopHeader_intra hq⟩
  rintro hfixed ⟨c, _⟩ hc rfl
  exact (hload hfixed).trans_le (leastLoad_le ((mem_candidates hcand).mpr hc))

end Sys2Proof.Machine

/-! ## The switch core is configured, and management packets (R273, R274, R276, R288, R296, R302) -/

namespace Sys2Proof.Machine

open Sys2Proof.Claims

/-! ### XBR_CHIP (R276) -/

theorem writeChip_unset {v : BitVec 64} {s : State} (hvalid : chipValid s = false) :
    writeChip v s = writeReg Reg.XBR_CHIP v (if bit 31 v then withXbr (fun x => { x with since := s.now }) s else s) := by
  simp [writeChip, hvalid]

theorem writeChip_kept {v : BitVec 64} {s : State} (hvalid : chipValid s = true) (hv : bit 31 v = true) : writeChip v s = s := by
  simp [writeChip, hvalid, hv]

theorem writeChip_cleared {v : BitVec 64} {s : State} (hvalid : chipValid s = true) (hv : bit 31 v = false) :
    writeChip v s = discardQueued (setRf Reg.XBR_CHIP 31 31 0 s) := by
  simp [writeChip, hvalid, hv]

/-! ### The other registers of the switch core (R302) -/

section Config

variable {off : Nat} {v : BitVec 64} {d : RegDef} {s : State} (hf : regFind false off = some d)
include hf

theorem writeXbr_port (hb : d.base = Reg.XBR_PORT) :
    writeXbr off v s = if portRejected (d.index off) v s then xbrReject off s else writePort (d.index off) v s := by
  simp [writeXbr, hf, hb]

theorem writeXbr_sch (hb : d.base = Reg.XBR_SCH) :
    writeXbr off v s =
      if bit 7 v = true ∧ (portRole (bits 6 0 v) s = 0 ∨ portRole (bits 6 0 v) s = 4) then xbrReject off s else writeReg off v s := by
  simp [writeXbr, hf, hb]

theorem writeXbr_gw (hb : d.base = Reg.XBR_GW) :
    writeXbr off v s = if d.index off / 4 = chipGroup s ∧ v ≠ 0 then xbrReject off s else writeReg off v s := by
  simp [writeXbr, hf, hb]

theorem writeXbr_vcmin (hb : d.base = Reg.XBR_VCMIN) : writeXbr off v s = if chipValid s then s else writeReg off v s := by
  simp [writeXbr, hf, hb]

/-- Any value of these registers is taken. -/
theorem writeXbr_taken (hb : d.base = Reg.XBR_GRPVALID ∨ d.base = Reg.XBR_ROUTE) : writeXbr off v s = writeReg off v s := by
  obtain hb | hb := hb <;> simp [writeXbr, hf, hb]

end Config

theorem does_xbrConfigWrite {m : Master} {off : BitVec 28} {v : BitVec 64} {s t : State} (hw : MgtWritesOff m s) (hopen : Open 0 s)
    (h : writeXbr off.toNat v s = t) : Does (.xbrConfigWrite m off v) s t :=
  does_of_exec rfl ((mgtWrOff_cross_taken hw hopen).trans h)

theorem does_xbrChipWrite {m : Master} {w : BitVec 32} {s t : State} (hw : MgtWritesOff m s) (hopen : Open 0 s)
    (h : writeChip (w.setWidth 64) s = t) : Does (.xbrChipWrite m w) s t :=
  does_of_exec rfl ((mgtWrOff_cross_taken hw hopen).trans h)

/-! ### Joining an input (R15, R276) -/

section Enter

variable {i : InPkt} {go : State → State} {s : State}

theorem enter_waits (hw : ingressWaits i s = true) : enter i go s = joinInput i s := by
  simp [enter, hw]

theorem enter_goes (hw : ingressWaits i s = false) (hfirst : ∀ j ∈ s.xbr.inq, ¬(j.inp = i.inp ∧ j.idx = i.idx)) :
    enter i go s = go s := by
  have hq : s.xbr.inq.any (fun j => j.inp == i.inp && j.idx == i.idx) = false := by
    simpa using hfirst
  rw [enter, hw, hq, Bool.or_self, if_neg Bool.false_ne_true]

/-- A packet that a port brings has come against credit (R15). -/
theorem cellsFree_of_port (hin : i.inp < 128) : cellsFree i s = true := by
  simp [cellsFree, hin]

end Enter

/-! ### Management packets that come (R274, R276, R288, R296) -/

theorem mgtTake_eq (x : Nat) (k : Packet) (s : State) :
    mgtTake x k s = if e2eCrc k = k.crc then emit (.mgtPacket x k) s else evcPulse 193 141 s := by
  by_cases hcrc : e2eCrc k = k.crc <;> simp [mgtTake, hcrc, ignored]

section Routed

variable {inp : Nat} {k : Packet} {s : State}

theorem mgtRoute_closed (hin : inp < 128) (hrole : portRole inp s = 0 ∨ portRole inp s = 4) : mgtRoute inp k s = evcPulse 193 0 s := by
  simp [mgtRoute, hin, hrole, xbrDrop, ignored]

theorem mgtRoute_unset (hvalid : chipValid s = false) (hin : inp < 128) : mgtRoute inp k s = evcPulse 193 0 s := by
  simp [mgtRoute, hin, hvalid, xbrDrop, ignored]

/-- A packet that is not discarded joins its input: one of an attachment, or one that a fabric port brings once the chip ID is set. -/
theorem mgtRoute_enters (hopen : ¬(inp < 128 ∧ (portRole inp s = 0 ∨ portRole inp s = 4))) (hgo : 128 ≤ inp ∨ chipValid s = true) :
    mgtRoute inp k s =
      enter (newIn inp 25 0 k s)
        (fun s => if k.dstEp.toNat / 4 == chipId s then mgtTake inp k s else routePacket (newIn inp 25 0 k s) s) s := by
  have hserves : (inp < 128 && (portRole inp s == 0 || portRole inp s == 4)) = false := by simpa using hopen
  have hset : (inp < 128 && !chipValid s) = false := by
    obtain hin | hvalid := hgo
    · simp [Nat.not_lt.mpr hin]
    · simp [hvalid]
  exact (if_neg (Bool.eq_false_iff.mp hserves)).trans (if_neg (Bool.eq_false_iff.mp hset))

end Routed

/-! ### What the device's own MGT sends (R296) -/

/-- A MGT_LOCAL packet as it goes on the wire: one hop of the MGT class, with VIA_GROUP zero. -/
def mgtHop (k : Packet) : Packet := sealCrc { k with viaGroup := 0, nonmin := false, hops := 1, cls := 5 }

/-- That packet at the input of the device's own units, its port chosen. -/
def mgtOwn (k : Packet) (s : State) : InPkt :=
  { newIn 184 25 0 (mgtHop k) s with budget := 2, decided := true, out := some k.viaGroup.toNat }

theorem mgtSend_up {k : Packet} {s : State} (hup : portUp k.viaGroup.toNat s = true) :
    mgtSend k s = enter (mgtOwn k s) (ownOut k.viaGroup.toNat (mgtOwn k s)) s :=
  if_pos hup

/-! ### The commands -/

theorem exec_mgtLocal (p : Port) (k : Packet) (s : State) : exec (.mgtLocal p k) s = execMgtLocal p k s := by rfl

theorem exec_mgtRouted (inp : Input) (k : Packet) (s : State) : exec (.mgtRouted inp k) s = execMgtRouted inp k s := by rfl

theorem exec_mgtWaitExpiry (p : Port) (s : State) : exec (.mgtWaitExpiry p) s = execMgtWaitExpiry p s := by rfl

theorem does_mgtRouted {inp : Input} {k : Packet} {s t : State} (hop : k.op = 0x41) (h : mgtRoute inp.toNat k s = t) :
    Does (.mgtRouted inp k) s t := by
  refine does_of_exec (exec_mgtRouted ..) ?_
  simp only [hop, beq_self_eq_true, if_true, h]

theorem does_mgtSend {k : Packet} {s t : State} (hop : k.op = 0x40) (h : mgtSend k s = t) : Does (.mgtRouted 184 k) s t := by
  refine does_of_exec (exec_mgtRouted ..) ?_
  simpa [hop] using h

theorem does_mgtLocal {p : Port} {k : Packet} {s : State} (hop : k.op = 0x40) (hup : portUp p.toNat s = true) :
    Does (.mgtLocal p k) s (if e2eCrc k = k.crc then emit (.mgtPacket p.toNat k) s else evcPulse 193 141 s) := by
  refine does_of_exec (exec_mgtLocal ..) ?_
  simp [hop, hup, mgtTake_eq]

theorem does_mgtWaitExpiry {p : Port} {e : EgPkt} {s : State}
    (hfirst : s.xbr.egq.find? (fun e => e.port == p.toNat && e.pkt.cls == 5) = some e) :
    Does (.mgtWaitExpiry p) s
      (creditBack e.src (evcPulse 193 0 (withXbr (fun x => { x with egq := x.egq.erase e })
        (advanceTo (e.since + us (nz (rf Reg.XBR_ROUTE 63 48 s))) s)))) := by
  refine does_of_exec (exec_mgtWaitExpiry ..) ?_
  simp only [hfirst, xbrDrop, ignored]

/-- Settles O33: a write meets its register's rule, and a management packet is discarded, waits at its input, is handed over or goes on. -/
theorem routingIsConfiguredAndManaged : Obligations.RoutingIsConfiguredAndManaged := by
  intro m w off v d p inp k e s n closed own sent i o take
  refine ⟨fun hw hopen => ⟨fun hvalid => ?set, fun hvalid hv => ?kept, fun hvalid hv => ?cleared, fun hf => ?config⟩,
    does_mgtLocal, fun hop hclosed => ?closed, fun hop hvalid hin => ?unset, fun hop hserves hin hfirst hvalid => ?comes,
    fun hop hin hwaits => ?waits, fun hop hin hup => ?own, does_mgtWaitExpiry⟩
  case set =>
    have h := writeChip_unset (v := w.setWidth 64) hvalid
    rw [bit_setWidth 31 w (by decide)] at h
    exact does_xbrChipWrite hw hopen h
  case kept => exact does_xbrChipWrite hw hopen (writeChip_kept hvalid ((bit_setWidth 31 w (by decide)).trans hv))
  case cleared => exact does_xbrChipWrite hw hopen (writeChip_cleared hvalid ((bit_setWidth 31 w (by decide)).trans hv))
  case config =>
    have does {t : State} (h : writeXbr off.toNat v s = t) : Does (.xbrConfigWrite m off v) s t := does_xbrConfigWrite hw hopen h
    refine ⟨fun hb hr => ?_, fun hb hr => ?_, fun hb hv hrole => ?_, fun hb hv => ?_, fun hb hn hv => ?_, fun hb hn => ?_,
      fun hb hvalid => ?_, fun hb => does (writeXbr_taken hf hb)⟩
    · exact does ((writeXbr_port hf hb).trans (if_pos hr))
    · exact does ((writeXbr_port hf hb).trans (if_neg (Bool.eq_false_iff.mp hr)))
    · exact does ((writeXbr_sch hf hb).trans (if_pos ⟨hv, hrole⟩))
    · exact does ((writeXbr_sch hf hb).trans (if_neg fun h => Bool.eq_false_iff.mp hv h.1))
    · exact does ((writeXbr_gw hf hb).trans (if_pos ⟨hn, hv⟩))
    · exact does ((writeXbr_gw hf hb).trans (if_neg fun h => hn h.1))
    · exact does ((writeXbr_vcmin hf hb).trans (if_pos hvalid))
  case closed => exact does_mgtRouted hop (mgtRoute_closed hclosed.1 hclosed.2)
  case unset => exact does_mgtRouted hop (mgtRoute_unset hvalid hin)
  case comes =>
    have hcells : cellsFree i s = true := hin.elim (cellsFree_of_port (i := i)) And.right
    have hgo := (mgtRoute_enters hserves (.inr hvalid)).trans (enter_goes (ingressWaits_eq_false (.inr (.inl hvalid)) hcells) hfirst)
    refine ⟨fun here => ?_, fun elsewhere => ?_⟩
    · exact does_mgtRouted hop (hgo.trans ((if_pos (beq_iff_eq.mpr here)).trans (mgtTake_eq ..)))
    · exact does_mgtRouted hop (hgo.trans (if_neg fun here => elsewhere (beq_iff_eq.mp here)))
  case waits =>
    have hwait : ingressWaits i s = true := hwaits.elim
      (fun hvalid => ingressWaits_of_no_chip hin hvalid (hop ▸ by decide)) ingressWaits_of_no_cell
    exact does_mgtRouted hop ((mgtRoute_enters (fun h => Nat.not_lt.mpr hin h.1) (.inl hin)).trans (enter_waits hwait))
  case own =>
    subst hin
    refine ⟨fun hcells hfirst => does_mgtSend hop ((mgtSend_up hup).trans ?_), fun hcells => does_mgtSend hop ((mgtSend_up hup).trans ?_)⟩
    · have hgo : ingressWaits o s = false := ingressWaits_eq_false (.inr (.inr hop)) hcells
      exact (enter_goes hgo hfirst).trans (ownOut_local hop hup)
    · exact enter_waits (ingressWaits_of_no_cell hcells)

end Sys2Proof.Machine

/-! ## Bring-up of a link (R305 to R308, R315) -/

namespace Sys2Proof.Machine

open Sys2Proof.Claims

/-! ### The State of the links, and the time that passes before an expiry -/

theorem getLink_congr {s t : State} (h : s.links = t.links) (n : Nat) : getLink n s = getLink n t := by
  simp only [getLink, h]

/-- Counting leaves every link as it is. -/
theorem uncounted_links : Uncounted State.links :=
  ⟨fun _ _ _ _ => rfl, fun _ _ _ _ => rfl, fun _ _ => rfl, fun _ _ _ => rfl⟩

@[simp] theorem getLink_advanceTo (n d : Nat) (s : State) : getLink n (advanceTo d s) = getLink n s :=
  getLink_congr (levelsPass_keeps uncounted_links _ s) n

@[simp] theorem adv_advanceTo (n hi lo d : Nat) (s : State) : adv n hi lo (advanceTo d s) = adv n hi lo s := by
  simp only [adv, getLink_advanceTo]

theorem lnkStat_not_countReg (p : Port) : ¬CountReg (Reg.LNK_STAT + 8 * p.toNat) := by
  have := p.isLt
  simp only [CountReg, Reg.LNK_STAT, Reg.HIF_LINK, Reg.CLK_PULSE_OVR]
  omega

@[simp] theorem lstate_advanceTo (p : Port) (d : Nat) (s : State) : lstate p.toNat (advanceTo d s) = lstate p.toNat s := by
  simp only [lstate, lstat, rf, rdReg_advanceTo (lnkStat_not_countReg p)]

/-! ### Capability pages (R305, R306) -/

/-- The length of the run of pages equal to `raw` that one more on a lane makes. -/
def pageRun (lane : Nat) (raw : BitVec 64) (l : Link) : Nat :=
  match tget l.pages lane with
  | some (old, n) => if old = raw then n + 1 else 1
  | none => 1

/-- The link once a valid page has come on a lane at time `now`. -/
def pageTaken (lane : Nat) (raw : BitVec 64) (now : Nat) (l : Link) : Link :=
  { l with
    pages := tset l.pages lane (raw, pageRun lane raw l)
    three := if 3 ≤ pageRun lane raw l then setBits lane lane 1 l.three else l.three
    stepDue := some (l.stepDue.getD (now + us 10000)) }

/-- The State in which the page has been counted and LNK_STAT shows the connected lanes. -/
def pageCounted (n lane : Nat) (raw : BitVec 64) (s : State) : State :=
  let l := pageTaken lane raw s.now (getLink n s)
  setLstat n 31 31 (b2n (connected l).2) (setLstat n 35 32 (laneMask (connected l).1) (putLink n l s))

theorem pageCome_invalid {n lane : Nat} {raw : BitVec 64} {s : State} (hv : pageValid raw = false) : pageCome n lane raw s = s := by
  simp [pageCome, hv]

section Page

variable {n lane : Nat} {raw : BitVec 64} {s : State} (hstate : lstate n s = 1) (hv : pageValid raw = true)
include hstate hv

/-- A valid page in PAGES is counted, and the port resolved once no allowed lane is left to be connected. -/
theorem pageCome_valid :
    pageCome n lane raw s =
      match peerPage (pageTaken lane raw s.now (getLink n s)), usableLanes n (pageCounted n lane raw s) with
      | some page, (u, 0) => resolvePort n u page (pageCounted n lane raw s)
      | _, _ => pageCounted n lane raw s := by
  have hgo : ¬((lstate n s != 1 || !pageValid raw) = true) := by simp [hstate, hv]
  unfold pageCome
  rw [if_neg hgo]
  simp only [beq_iff_eq]
  rfl

theorem pageCome_unresolved (hpeer : peerPage (pageTaken lane raw s.now (getLink n s)) = none) :
    pageCome n lane raw s = pageCounted n lane raw s := by
  simp only [pageCome_valid hstate hv, hpeer]

theorem pageCome_resolves {page : BitVec 64} {u : Nat} (hpeer : peerPage (pageTaken lane raw s.now (getLink n s)) = some page)
    (hlanes : usableLanes n (pageCounted n lane raw s) = (u, 0)) :
    pageCome n lane raw s = resolvePort n u page (pageCounted n lane raw s) := by
  simp only [pageCome_valid hstate hv, hpeer, hlanes]

end Page

/-! ### Training, and steps that take too long (R304, R308) -/

theorem exec_signalDetect (p : Port) (lane : BitVec 2) (s : State) :
    exec (.signalDetect p lane) s = execSignalDetect p lane s := by rfl

theorem exec_pageSendTimer (p : Port) (s : State) : exec (.pageSendTimer p) s = execPageSendTimer p s := by rfl

theorem exec_trainingComplete (p : Port) (lanes : BitVec 4) (low : Bool) (s : State) :
    exec (.trainingComplete p lanes low) s = execTrainingComplete p lanes low s := by rfl

theorem does_pageSendTimer {p : Port} {s : State} (hstate : lstate p.toNat s = 1) :
    Does (.pageSendTimer p) s
      ((lanesOf (adv p.toNat 3 0 s)).foldl (fun s i => emit (.page p.toNat i (ownPage p.toNat i s)) s) s) :=
  does_of_exec (exec_pageSendTimer ..) (by simp [hstate])

section Training

variable {p : Port} {lanes : BitVec 4} {low : Bool} {s : State} (hstate : lstate p.toNat s = 2)
include hstate

theorem does_trainingComplete_all (hall : Nat.land (lstat p.toNat 39 36 s) lanes.toNat = lstat p.toNat 39 36 s) :
    Does (.trainingComplete p lanes low) s
      (stepLimit p.toNat 1000 (setLstate p.toNat 3 (putLink p.toNat { getLink p.toNat s with llOk := low } s))) :=
  does_of_exec (exec_trainingComplete ..) (by
    simp only [hstate, hall, Nat.sub_self, bne_self_eq_false, Bool.false_eq_true, if_false, modLink])

theorem does_trainingComplete_lacking (hleft : lstat p.toNat 39 36 s - Nat.land (lstat p.toNat 39 36 s) lanes.toNat ≠ 0) :
    Does (.trainingComplete p lanes low) s
      (attemptFails p.toNat 5 (lstat p.toNat 39 36 s - Nat.land (lstat p.toNat 39 36 s) lanes.toNat) s) :=
  does_of_exec (exec_trainingComplete ..) (by
    simp only [hstate, bne_self_eq_false, Bool.false_eq_true, if_false, bne_iff_ne.mpr hleft, if_true])

end Training

theorem does_alignmentComplete {p : Port} {s : State} (hstate : lstate p.toNat s = 3) :
    Does (.alignmentComplete p) s (linkInit p.toNat s) :=
  does_of_exec rfl (by simp [hstate])

/-- The State at the limit of the step in progress, where there is one. -/
def stepOver (n : Nat) (s : State) : State :=
  match (getLink n s).stepDue with
  | some d => advanceTo d s
  | none => s

/-- No link changes while a step reaches its limit. -/
theorem stepOver_keeps (p : Port) (s : State) :
    getLink p.toNat (stepOver p.toNat s) = getLink p.toNat s ∧ lstate p.toNat (stepOver p.toNat s) = lstate p.toNat s := by
  unfold stepOver
  split
  · exact ⟨getLink_advanceTo .., lstate_advanceTo ..⟩
  · exact ⟨rfl, rfl⟩

/-- What fails when a step of bring-up is over, by LSTATE. -/
theorem bringupLate_stepOver {n lanes : Nat} {s : State} (hlo : 1 ≤ lstate n s) (hhi : lstate n s ≤ 4) :
    bringupLate n lanes s =
      match lstate n (stepOver n s) with
      | 1 =>
        if (getLink n (stepOver n s)).pages.isEmpty then stepOver n s
        else attemptFails n 4 (Nat.land (adv n 3 0 (stepOver n s)) (15 - connectedMask (getLink n (stepOver n s)))) (stepOver n s)
      | 2 => attemptFails n 5 lanes (stepOver n s)
      | 3 => attemptFails n 6 lanes (stepOver n s)
      | 4 => attemptFails n 7 0 (stepOver n s)
      | _ => stepOver n s := by
  simp only [bringupLate, hlo, hhi, decide_true, Bool.and_self, if_true]
  rfl

section Late

variable {p : Port} {lanes : BitVec 4} {s : State}

theorem does_bringupTimeout_pages (hstate : lstate p.toNat s = 1) (hpages : (getLink p.toNat s).pages ≠ []) :
    Does (.bringupTimeout p lanes) s
      (attemptFails p.toNat 4 (Nat.land (adv p.toNat 3 0 s) (15 - connectedMask (getLink p.toNat s))) (stepOver p.toNat s)) := by
  obtain ⟨hlink, hsame⟩ := stepOver_keeps p s
  refine does_of_exec rfl ((bringupLate_stepOver (by omega) (by omega)).trans ?_)
  simp [hsame, hstate, hlink, hpages, adv]

/-- Training, alignment and the link's start fail with causes 5, 6 and 7. -/
theorem does_bringupTimeout {st cause bad : Nat} (hstate : lstate p.toNat s = st)
    (hrow : (st, cause, bad) ∈ [(2, 5, lanes.toNat), (3, 6, lanes.toNat), (4, 7, 0)]) :
    Does (.bringupTimeout p lanes) s (attemptFails p.toNat cause bad (stepOver p.toNat s)) := by
  obtain ⟨-, hsame⟩ := stepOver_keeps p s
  simp only [List.mem_cons, List.not_mem_nil, or_false, Prod.mk.injEq] at hrow
  refine does_of_exec rfl ((bringupLate_stepOver (by omega) (by omega)).trans ?_)
  rw [hsame, hstate]
  obtain ⟨rfl, rfl, rfl⟩ | ⟨rfl, rfl, rfl⟩ | ⟨rfl, rfl, rfl⟩ := hrow <;> rfl

end Late

/-! ### HOLD and DOWN_HOLD (R308, R315) -/

theorem holdOver_ends {n : Nat} {down : Bool} {s : State} (hstate : lstate n s = 7) (hdown : (getLink n s).downHold = down) :
    holdOver n down s =
      tryStart n (setLstate n 0 (putLink n { getLink n s with downHold := false } (advanceTo (getLink n s).holdDue s))) := by
  simp [holdOver, hstate, hdown, modLink]

theorem holdOver_other {n : Nat} {down : Bool} {s : State} (hdown : (getLink n s).downHold ≠ down) : holdOver n down s = s := by
  simp [holdOver, hdown]

/-- Settles O34: each command does what its step of R308 says in the LSTATE of that step; no link changes in the time before an expiry. -/
theorem linkBringUp : Obligations.LinkBringUp := by
  intro p lane raw lanes low s n l used late
  refine ⟨does_of_exec (exec_signalDetect ..) rfl, fun _ hv => does_of_exec rfl (pageCome_invalid hv), fun hstate hv => ?pages,
    does_pageSendTimer, fun hstate => ?training, does_bringupTimeout_pages, fun hstate => ?aligning,
    fun hstate => does_bringupTimeout hstate (by simp), fun hstate => ?held⟩
  case pages =>
    exact ⟨fun hpeer => does_of_exec rfl (pageCome_unresolved hstate hv hpeer),
      fun _ _ hpeer hlanes => does_of_exec rfl (pageCome_resolves hstate hv hpeer hlanes)⟩
  case training =>
    exact ⟨does_trainingComplete_all hstate, does_trainingComplete_lacking hstate, does_bringupTimeout hstate (by simp)⟩
  case aligning => exact ⟨does_alignmentComplete hstate, does_bringupTimeout hstate (by simp)⟩
  case held =>
    exact ⟨fun hdown => ⟨does_of_exec rfl (holdOver_ends hstate hdown),
        does_of_exec rfl (holdOver_other (hdown.trans_ne Bool.false_ne_true))⟩,
      fun hdown => ⟨does_of_exec rfl (holdOver_ends hstate hdown),
        does_of_exec rfl (holdOver_other (hdown.trans_ne Bool.false_ne_true.symm))⟩⟩

end Sys2Proof.Machine

/-! ## Frames of a link (R310 to R315, R319 to R321) -/

namespace Sys2Proof.Machine

open Sys2Proof.Claims

/-! ### Control frames (R310, R311, R314) -/

section Control

variable {p : Port} {ct : Nat} {raw : BitVec 256} {bad : Bool} {s : State}

theorem controlCome_good (h : GoodControl p ct raw s) :
    controlCome p.toNat ct raw false s = (some (bits 223 32 raw), Claims.heard p raw s) := by
  obtain ⟨hlive, hft, htype, hcrc⟩ := h
  simp only [controlCome, hlive, hft, htype, ← hcrc, bne_self_eq_false, Bool.and_false, Bool.false_and, Bool.not_true, Bool.or_false,
    Bool.false_eq_true, if_false, Claims.heard, modLink]

theorem controlCome_framing (hlive : linkLive p.toNat s = true) (hft : bits 255 252 raw ≠ 0xA) (hdata : bits 255 252 raw ≠ 5) :
    controlCome p.toNat ct raw bad s = (none, framingError p.toNat s) := by
  simp [controlCome, hlive, hft, hdata]

theorem controlCome_ignored (h : (bad = true ∧ bits 255 252 raw = 0xA) ∨ linkLive p.toNat s = false) :
    controlCome p.toNat ct raw bad s = (none, s) := by
  obtain ⟨hbad, hft⟩ | hdown := h
  · simp [controlCome, hbad, hft]
  · simp [controlCome, hdown]

end Control

/-- The control frames of R310: command, type, and what a good one does with its body. -/
def controlFrames (p : Port) (raw : BitVec 256) (bad : Bool) : List (Instr × Nat × (Nat → Nat → State → State)) :=
  [(.idle p raw bad, 0, fun _ _ s => s), (.credit p raw bad, 1, creditCome),
    (.retryReq p raw bad, 2, fun n _ s => replayFrom n (bits 247 236 raw % seqMod n s) s), (.tsReq p raw bad, 3, tsAnswer),
    (.tsResp p raw bad, 4, tsCome), (.reconfig p raw bad, 5, answerReconf), (.reconfigAck p raw bad, 6, reconfAcked)]

section Rows

variable {p : Port} {raw : BitVec 256} {bad : Bool} {s : State} {f : Instr × Nat × (Nat → Nat → State → State)}

theorem exec_controlFrames (hf : f ∈ controlFrames p raw bad) (s : State) : exec f.1 s = controlRow p f.2.1 raw bad f.2.2 s := by
  simp only [controlFrames, List.mem_cons, List.not_mem_nil, or_false] at hf
  obtain rfl | rfl | rfl | rfl | rfl | rfl | rfl := hf <;> rfl

theorem does_controlFrame_good (hf : f ∈ controlFrames p raw false) (hgood : GoodControl p f.2.1 raw s) :
    Does f.1 s (f.2.2 p.toNat (bits 223 32 raw) (Claims.heard p raw s)) :=
  does_of_exec (exec_controlFrames hf s) (by simp only [controlCome_good hgood])

/-- One that tells nothing does what its receipt alone does. -/
theorem does_controlFrame_none {t : State} (hf : f ∈ controlFrames p raw bad)
    (hnone : controlCome p.toNat f.2.1 raw bad s = (none, t)) : Does f.1 s t :=
  does_of_exec (exec_controlFrames hf s) (by simp only [hnone])

end Rows

/-! ### Data frames (R309, R311, R315) -/

theorem frameCome_framing {n : Nat} {fr : DataFrame} {s : State} (hlive : linkLive n s = true)
    (hbroken : bits 63 60 fr.lhdr ≠ 5 ∨ bits 42 30 fr.lhdr < 64 ∨ 4160 < bits 42 30 fr.lhdr) :
    frameCome n fr s = framingError n s := by
  simp [frameCome, hlive, or_assoc, hbroken]

section Data

variable {n : Nat} {fr : DataFrame} {s : State} (hlive : linkLive n s = true) (hft : bits 63 60 fr.lhdr = 5)
  (hlen : bits 42 30 fr.lhdr = 64 + fr.pkt.payload.length) (hmax : bits 42 30 fr.lhdr ≤ 4160) (hfec : fr.fecBad = false)
include hlive hft hlen hmax hfec

/-- A whole frame is judged by its LCRC, by whether the receiver resynchronises, and by its LSEQ. -/
theorem frameCome_whole :
    frameCome n fr s =
      if fr.lcrc ≠ frameCrc fr.lhdr fr.pkt ∨
          ((getLink n s).resync = true ∧ ((getLink n s).rxWait = false ∨ bits 59 48 fr.lhdr ≠ (getLink n s).rxSeq)) then
        if (getLink n s).rxWait then evcPulse 226 n s else askReplay n (evcPulse 226 n s)
      else if bits 59 48 fr.lhdr ≠ (getLink n s).rxSeq then if (getLink n s).rxWait then s else askReplay n s
      else acceptPacket n (bits 47 43 fr.lhdr) fr.pkt
        (putLink n { getLink n s with rxSeq := ((getLink n s).rxSeq + 1) % seqMod n s, resync := false, rxWait := false } s) := by
  have hmin : ¬bits 42 30 fr.lhdr < 64 := by omega
  have hwhole : (bits 63 60 fr.lhdr != 5 || decide (bits 42 30 fr.lhdr < 64) || decide (4160 < bits 42 30 fr.lhdr)) = false := by
    simp [hft, hmin, hmax]
  have hdamaged :
      (fr.fecBad || fr.lcrc != frameCrc fr.lhdr fr.pkt || bits 42 30 fr.lhdr != 64 + fr.pkt.payload.length ||
          ((getLink n s).resync && !((getLink n s).rxWait && bits 59 48 fr.lhdr == (getLink n s).rxSeq))) = true ↔
        fr.lcrc ≠ frameCrc fr.lhdr fr.pkt ∨
          ((getLink n s).resync = true ∧ ((getLink n s).rxWait = false ∨ bits 59 48 fr.lhdr ≠ (getLink n s).rxSeq)) := by
    simp only [hfec, hlen, bne_self_eq_false, Bool.false_or, Bool.or_false, Bool.or_eq_true, Bool.and_eq_true, bne_iff_ne, Bool.not_and,
      Bool.not_eq_true', beq_eq_false_iff_ne]
  simp only [frameCome, hlive, hwhole, hdamaged, Bool.not_true, Bool.not_eq_true', beq_eq_false_iff_ne, Bool.false_eq_true, if_false]

theorem frameCome_accepted (hcrc : fr.lcrc = frameCrc fr.lhdr fr.pkt) (hdue : bits 59 48 fr.lhdr = (getLink n s).rxSeq)
    (hsync : (getLink n s).resync = false ∨ (getLink n s).rxWait = true) :
    frameCome n fr s = acceptPacket n (bits 47 43 fr.lhdr) fr.pkt
      (putLink n { getLink n s with rxSeq := ((getLink n s).rxSeq + 1) % seqMod n s, resync := false, rxWait := false } s) := by
  refine (frameCome_whole hlive hft hlen hmax hfec).trans ((if_neg ?_).trans (if_neg (not_not_intro hdue)))
  obtain hsync | hwait := hsync
  · simp [hcrc, hsync]
  · simp [hcrc, hdue, hwait]

theorem frameCome_outOfSequence (hcrc : fr.lcrc = frameCrc fr.lhdr fr.pkt) (hseq : bits 59 48 fr.lhdr ≠ (getLink n s).rxSeq)
    (hsync : (getLink n s).resync = false) :
    frameCome n fr s = if (getLink n s).rxWait then s else askReplay n s :=
  (frameCome_whole hlive hft hlen hmax hfec).trans ((if_neg (by simp [hcrc, hsync])).trans (if_pos hseq))

theorem frameCome_damaged
    (hbad : fr.lcrc ≠ frameCrc fr.lhdr fr.pkt ∨
      ((getLink n s).resync = true ∧ ((getLink n s).rxWait = false ∨ bits 59 48 fr.lhdr ≠ (getLink n s).rxSeq))) :
    frameCome n fr s = if (getLink n s).rxWait then evcPulse 226 n s else askReplay n (evcPulse 226 n s) :=
  (frameCome_whole hlive hft hlen hmax hfec).trans (if_pos hbad)

end Data

/-- One that is not taken asks for a replay, unless one is awaited already. -/
theorem does_dataFrame_replay {p : Port} {fr : DataFrame} {s t : State}
    (h : frameCome p.toNat fr s = if (getLink p.toNat s).rxWait then t else askReplay p.toNat t) :
    ((getLink p.toNat s).rxWait = false → Does (.dataFrame p fr) s (askReplay p.toNat t)) ∧
    ((getLink p.toNat s).rxWait = true → Does (.dataFrame p fr) s t) :=
  ⟨fun hwait => does_of_exec rfl (h.trans (if_neg (Bool.eq_false_iff.mp hwait))), fun hwait => does_of_exec rfl (h.trans (if_pos hwait))⟩

/-! ### Timers (R311, R313, R315, R319) -/

theorem exec_creditRefresh (p : Port) (s : State) : exec (.creditRefresh p) s = execCreditRefresh p s := by rfl

section Timers

variable {p : Port} {s : State} (hlive : linkLive p.toNat s = true)
include hlive

theorem does_controlFrameTimer : Does (.controlFrameTimer p) s (sendControl p.toNat 0 0 s) :=
  does_of_exec rfl (by simp only [hlive, if_true])

theorem does_linkToExpiry :
    Does (.linkToExpiry p) s (linkDown p.toNat (advanceTo ((getLink p.toNat s).lastCtl + us (nz (rf Reg.LNK_CFG 39 32 s))) s)) :=
  does_of_exec rfl (by simp only [hlive, if_true])

theorem does_retryToExpiry :
    ((getLink p.toNat s).rxWait = true →
      Does (.retryToExpiry p) s (askReplay p.toNat (advanceTo (getLink p.toNat s).retryDue s))) ∧
    ((getLink p.toNat s).rxWait = false → Does (.retryToExpiry p) s s) :=
  ⟨fun hwait => does_of_exec rfl (by simp only [hlive, hwait, Bool.and_self, if_true]),
    fun hwait => does_of_exec rfl (by simp only [hwait, Bool.and_false, Bool.false_eq_true, if_false])⟩

theorem does_creditRefresh :
    let all := usedIdx p.toNat s
    let r := (getLink p.toNat s).rot % max 1 all.length
    Does (.creditRefresh p) s
      (sendCredit p.toNat ((all.drop r ++ all.take r).take 6) (putLink p.toNat { getLink p.toNat s with rot := r + 6 } s)) :=
  does_of_exec (exec_creditRefresh ..) (by simp only [hlive, Bool.not_true, Bool.false_eq_true, if_false, modLink])

theorem does_tsIntervalExpiry (hform : lstat p.toNat 21 20 s ≠ 0) :
    Does (.tsIntervalExpiry p) s (startTs p.toNat (advanceTo (getLink p.toNat s).tsDue s)) :=
  does_of_exec rfl (by simp only [hlive, bne_iff_ne.mpr hform, Bool.and_self, if_true])

end Timers

/-- Settles O35: a control frame does what its type says once `controlCome` has heard it, and a data frame what `frameCome_whole` says. -/
theorem linkFramesAreTaken : Obligations.LinkFramesAreTaken := by
  intro p fr raw bad s n l len body broken rows
  refine ⟨fun r hr hgood => ?good, fun hlive hft hdata i hi => ?framing, fun i hi hnone => ?ignored,
    fun hlive hft hlen hmax hfec => ?data, fun hlive hbroken => does_of_exec rfl (frameCome_framing hlive hbroken),
    fun hlive => ⟨does_controlFrameTimer hlive, does_linkToExpiry hlive, (does_retryToExpiry hlive).1,
      (does_retryToExpiry hlive).2, does_creditRefresh hlive⟩, does_tsIntervalExpiry, does_of_exec rfl rfl⟩
  case good =>
    have hrows : rows = (controlFrames p raw false).map (fun f => (f.1, f.2.1, f.2.2 n body)) := rfl
    obtain ⟨f, hf, rfl⟩ := List.mem_map.mp (hrows ▸ hr)
    exact does_controlFrame_good hf hgood
  case framing =>
    obtain ⟨f, hf, rfl⟩ := List.mem_map.mp (show i ∈ (controlFrames p raw bad).map (·.1) from hi)
    exact does_controlFrame_none hf (controlCome_framing hlive hft hdata)
  case ignored =>
    obtain ⟨f, hf, rfl⟩ := List.mem_map.mp (show i ∈ (controlFrames p raw bad).map (·.1) from hi)
    exact does_controlFrame_none hf (controlCome_ignored hnone)
  case data =>
    exact ⟨fun hcrc hdue hsync => does_of_exec rfl (frameCome_accepted hlive hft hlen hmax hfec hcrc hdue hsync),
      fun hcrc hseq hsync => does_dataFrame_replay (frameCome_outOfSequence hlive hft hlen hmax hfec hcrc hseq hsync),
      fun hbad => does_dataFrame_replay (frameCome_damaged hlive hft hlen hmax hfec hbad)⟩

end Sys2Proof.Machine

/-! ## Lanes of a link in service, and its commands (R316 to R318, R323, R325) -/

namespace Sys2Proof.Machine

open Sys2Proof.Claims

/-! ### What a write of LNK_CTRL leaves as it is (R325, R326) -/

section Ctrl

variable (n hi lo x : Nat) (s : State)

@[simp] theorem lstat_setCtrl (a b : Nat) : lstat n a b (setRf (Reg.LNK_CTRL + 8 * n) hi lo x s) = lstat n a b s := by
  have hne : Reg.LNK_STAT + 8 * n ≠ Reg.LNK_CTRL + 8 * n := by
    simp only [Reg.LNK_STAT, Reg.LNK_CTRL]
    omega
  simp only [lstat, rf, rdReg_setRf_ne _ _ _ _ hne]

@[simp] theorem lstate_setCtrl : lstate n (setRf (Reg.LNK_CTRL + 8 * n) hi lo x s) = lstate n s := lstat_setCtrl ..

@[simp] theorem linkLive_setCtrl : linkLive n (setRf (Reg.LNK_CTRL + 8 * n) hi lo x s) = linkLive n s :=
  congrArg (fun st : Nat => decide (4 ≤ st) && decide (st ≤ 6)) (lstate_setCtrl ..)

@[simp] theorem izl3_setCtrl : izl3 n (setRf (Reg.LNK_CTRL + 8 * n) hi lo x s) = izl3 n s := by
  simp only [izl3, lstat_setCtrl]

@[simp] theorem spareLanes_setCtrl : spareLanes n (setRf (Reg.LNK_CTRL + 8 * n) hi lo x s) = spareLanes n s := by
  rw [spareLanes, lstat_setCtrl]
  rfl

end Ctrl

/-! ### Lanes that fail, and LL (R316, R323) -/

section Lanes

variable {n lane : Nat} {s : State}

theorem laneFails_used (hlive : linkLive n s = true) (hused : lstat n 39 36 s / 2 ^ lane % 2 = 1) :
    laneFails n lane s =
      startReconf n (lstat n 23 23 s == 1)
        (putLink n { getLink n s with
          healthy := setBits lane lane 0 (getLink n s).healthy, usable := setBits lane lane 0 (getLink n s).usable } s) := by
  simp only [laneFails, hlive, hused]
  rfl

theorem laneFails_unused (hunused : lstat n 39 36 s / 2 ^ lane % 2 = 0) : laneFails n lane s = s := by
  simp [laneFails, hunused]

end Lanes

/-- The two commands by which a lane fails: its lock is lost, or it has corrected more symbols than LANE_ERR_MAX. -/
theorem does_laneFails {p : Port} {lane : BitVec 2} {count : BitVec 32} {s t : State} {i : Instr}
    (hi : i ∈ [Instr.laneLockLoss p lane, .laneErrorThreshold p ⟨lane, count⟩]) (hcount : nz (rf Reg.LNK_CFG2 31 16 s) < count.toNat)
    (h : laneFails p.toNat lane.toNat s = t) : Does i s t := by
  simp only [List.mem_cons, List.not_mem_nil, or_false] at hi
  obtain rfl | rfl := hi
  · exact does_of_exec rfl h
  · exact does_of_exec rfl ((if_pos hcount).trans h)

theorem does_llUncorrThreshold {p : Port} {count : BitVec 32} {s : State} (hll : lstat p.toNat 23 23 s = 1)
    (hcount : nz (rf Reg.LNK_CFG2 15 8 s) < count.toNat) : Does (.llUncorrThreshold ⟨p, count⟩) s (startReconf p.toNat false s) :=
  does_of_exec rfl (by simp only [hll, hcount, beq_self_eq_true, decide_true, Bool.and_self, if_true])

theorem does_llUncorrThreshold_kept {p : Port} {count : BitVec 32} {s : State}
    (h : lstat p.toNat 23 23 s = 0 ∨ count.toNat ≤ nz (rf Reg.LNK_CFG2 15 8 s)) : Does (.llUncorrThreshold ⟨p, count⟩) s s := by
  refine does_of_exec rfl (if_neg ?_)
  obtain hll | hcount := h
  · simp [hll]
  · simp [Nat.not_lt.mpr hcount]

/-! ### A RECONFIG in progress (R316, R317) -/

theorem exec_reconfigResend (p : Port) (s : State) : exec (.reconfigResend p) s = execReconfigResend p s := by rfl

theorem exec_reconfigTimeout (p : Port) (s : State) : exec (.reconfigTimeout p) s = execReconfigTimeout p s := by rfl

section Reconf

variable {p : Port} {r : Reconf} {s : State} (hrc : (getLink p.toNat s).rc = some r)
include hrc

theorem does_reconfigResend :
    let v := advanceTo (r.sentAt + 1600) s
    Does (.reconfigResend p) s
      (sendControl p.toNat 5 (r.lanes.toNat * 2 ^ 188 + b2n r.ll * 2 ^ 187 + r.seq.toNat * 2 ^ 160)
        (putLink p.toNat { getLink p.toNat s with rc := some { r with sentAt := v.now } } v)) :=
  does_of_exec (exec_reconfigResend ..) (by simp only [hrc, sendReconf, getLink_advanceTo])

theorem does_reconfigTimeout : Does (.reconfigTimeout p) s (linkDown p.toNat (advanceTo (r.since + us 50) s)) :=
  does_of_exec (exec_reconfigTimeout ..) (by simp only [hrc])

end Reconf

/-! ### Lanes that are retrained (R318, R325) -/

theorem exec_laneRetrain (p : Port) (s : State) : exec (.laneRetrain p) s = execLaneRetrain p s := by rfl

theorem does_laneRetrain {p : Port} {s : State} (hlive : linkLive p.toNat s = true) (hver : izl3 p.toNat s = true)
    (hspare : spareLanes p.toNat s ≠ 0) :
    Does (.laneRetrain p) s
      (putLink p.toNat { getLink p.toNat s with retrain := BitVec.ofNat 4 (spareLanes p.toNat s) }
        (setRf (Reg.LNK_CTRL + 8 * p.toNat) 2 2 0 s)) := by
  refine does_of_exec (exec_laneRetrain ..) ((if_pos ?_).trans ?_)
  · simp [hlive, hver, hspare]
  · rw [modLink, spareLanes_setCtrl]
    rfl

section Fit

variable {n lane : Nat} {s : State}

/-- The link once a retrained lane counts as healthy again. -/
def laneRegained (lane : Nat) (l : Link) : Link :=
  { l with
    healthy := setBits lane lane 1 l.healthy, usable := setBits lane lane 1 l.usable, retrain := setBits lane lane 0 l.retrain }

/-- The State then: RESTORE reads 0 once no lane is in training any more. -/
def regained (n lane : Nat) (s : State) : State :=
  let l := laneRegained lane (getLink n s)
  if l.retrain = 0 then setRf (Reg.LNK_CTRL + 8 * n) 2 2 0 (putLink n l s) else putLink n l s

theorem laneFit_training (htrain : bit lane (getLink n s).retrain = true) :
    laneFit n lane s =
      if widestLanes n (laneRegained lane (getLink n s)).usable.toNat (regained n lane s) = lstat n 39 36 (regained n lane s) then
        regained n lane s
      else startReconf n (lstat n 23 23 (regained n lane s) == 1) (regained n lane s) := by
  simp only [laneFit, htrain, Bool.not_true, Bool.false_eq_true, if_false, beq_iff_eq]
  rfl

theorem laneFit_other (hother : bit lane (getLink n s).retrain = false) : laneFit n lane s = s := by
  simp [laneFit, hother]

end Fit

theorem does_laneRestoreQualified {p : Port} {lane : BitVec 2} {count : BitVec 32} {s t : State}
    (hcount : 10 * count.toNat < nz (rf Reg.LNK_CFG2 31 16 s)) (h : laneFit p.toNat lane.toNat s = t) :
    Does (.laneRestoreQualified p ⟨lane, count⟩) s t :=
  does_of_exec rfl ((if_pos hcount).trans h)

theorem does_laneRestoreQualified_kept {p : Port} {lane : BitVec 2} {count : BitVec 32} {s : State}
    (h : nz (rf Reg.LNK_CFG2 31 16 s) ≤ 10 * count.toNat ∨ bit lane.toNat (getLink p.toNat s).retrain = false) :
    Does (.laneRestoreQualified p ⟨lane, count⟩) s s := by
  by_cases hcount : 10 * count.toNat < nz (rf Reg.LNK_CFG2 31 16 s)
  · exact does_laneRestoreQualified hcount (laneFit_other (h.resolve_left (Nat.not_le.mpr hcount)))
  · exact does_of_exec rfl (if_neg hcount)

/-! ### LNK_CTRL (R325) -/

/-- RENEG is set, and a port that is neither down nor in HOLD goes down. -/
theorem reneg_down {n : Nat} {s : State} (hup : lstate n s ≠ 0) (hhold : lstate n s ≠ 7) :
    reneg n s = linkDown n (setRf (Reg.LNK_CTRL + 8 * n) 1 1 1 s) := by
  simp [reneg, hup, hhold]

theorem reneg_waits {n : Nat} {s : State} (h : lstate n s = 0 ∨ lstate n s = 7) :
    reneg n s = setRf (Reg.LNK_CTRL + 8 * n) 1 1 1 s := by
  simp [reneg, h]

theorem exec_linkRestore (m : Master) (p : Port) (s : State) : exec (.linkRestore m p) s = execLinkRestore m p s := by rfl

section Management

variable {m : Master} {p : Port} {s : State} (hw : MgtWritesOff m s)
include hw

theorem does_adminUpSet : Does (.adminUpSet m p) s (tryStart p.toNat (setRf (Reg.LNK_CTRL + 8 * p.toNat) 0 0 1 s)) :=
  does_of_exec rfl (mgtWrOff_taken hw)

theorem does_adminUpClear : Does (.adminUpClear m p) s (adminDown p.toNat s) :=
  does_of_exec rfl (mgtWrOff_taken hw)

theorem does_linkReneg {t : State} (h : reneg p.toNat s = t) : Does (.linkReneg m p) s t :=
  does_of_exec rfl ((mgtWrOff_taken hw).trans h)

theorem does_linkRestore (hlive : linkLive p.toNat s = true) (hver : izl3 p.toNat s = true) (hspare : spareLanes p.toNat s ≠ 0) :
    Does (.linkRestore m p) s (startRetrain p.toNat (setRf (Reg.LNK_CTRL + 8 * p.toNat) 2 2 1 s)) :=
  does_of_exec (exec_linkRestore ..) ((mgtWrOff_taken hw).trans (if_pos (by simp [hlive, hver, hspare])))

theorem does_linkRestore_kept (h : linkLive p.toNat s = false ∨ izl3 p.toNat s = false ∨ spareLanes p.toNat s = 0) :
    Does (.linkRestore m p) s s := by
  refine does_of_exec (exec_linkRestore ..) ((mgtWrOff_taken hw).trans (if_neg ?_))
  obtain h | h | h := h <;> simp [h]

end Management

/-- Settles O36: a lane that fails goes by `laneFails`, one that is fit again by `laneFit`, and LNK_CTRL leaves LNK_STAT as it is. -/
theorem linkLanesAndCommands : Obligations.LinkLanesAndCommands := by
  intro m p lane count r s n l ctrl used most
  refine ⟨fun i hi hcount => ⟨fun hlive hused => does_laneFails hi hcount (laneFails_used hlive hused),
      fun hunused => does_laneFails hi hcount (laneFails_unused hunused)⟩,
    fun hcount => does_of_exec rfl (if_neg (Nat.not_lt.mpr hcount)), does_llUncorrThreshold, does_llUncorrThreshold_kept,
    fun hrc => ⟨does_reconfigResend hrc, does_reconfigTimeout hrc⟩, does_laneRetrain, fun hcount htrain => ?fit,
    does_laneRestoreQualified_kept, fun hw => ⟨does_adminUpSet hw, does_adminUpClear hw,
      fun hup hhold => does_linkReneg hw (reneg_down hup hhold), fun h => does_linkReneg hw (reneg_waits h), does_linkRestore hw,
      does_linkRestore_kept hw⟩⟩
  case fit =>
    have hfit := laneFit_training htrain
    exact ⟨fun hsame => does_laneRestoreQualified hcount (hfit.trans (if_pos hsame)),
      fun hwider => does_laneRestoreQualified hcount (hfit.trans (if_neg hwider))⟩

end Sys2Proof.Machine

/-! ## The schedule, gate lists, gates and histograms (R345, R350, R351, R355, R357, R358) -/

namespace Sys2Proof.Machine

open Sys2Proof.Claims

/-! ### Epochs (R345) -/

theorem epochAt_from_base {t : Nat} {s : State} (h : schedBase s ≤ t) :
    epochAt t s =
      some ((t - schedBase s) / (16 * schedPeriod s) % 65536, (t - schedBase s) % (16 * schedPeriod s)) :=
  if_neg (Nat.not_lt.mpr h)

theorem epochAt_before_base {t : Nat} {s : State} (h : t < schedBase s) : epochAt t s = none := if_pos h

/-- Settles O40: of the time since BASE the period takes its quotient and its rest, and the ns of the rest are the rest of the ns. -/
theorem scheduleEpochs : Obligations.ScheduleEpochs := by
  intro t s base period
  refine ⟨fun hfrom => ⟨_, _, epochAt_from_base hfrom, rfl, Nat.mod_mul_right_div_self ..⟩, fun hbefore => ?_⟩
  have hnone := epochAt_before_base hbefore
  exact ⟨hnone, fun w0 => by rw [hnone]; rfl⟩

/-! ### Gate list entries (R350, R351) -/

/-- A field apart from the one that is replaced. -/
theorem bits_setBits_out {n hi lo top bot : Nat} (x : Nat) (v : BitVec n) (hle : bot ≤ top) (htop : top < n) (hout : hi < bot ∨ top < lo) :
    bits hi lo (setBits top bot x v) = bits hi lo v := by
  refine Nat.eq_of_testBit_eq fun i => ?_
  simp only [bits, Nat.testBit_mod_two_pow, Nat.testBit_div_two_pow, BitVec.testBit_toNat]
  by_cases hi' : i < hi + 1 - lo
  · rw [getLsbD_setBits _ _ _ _ _ hle htop, if_neg (by omega)]
  · simp [hi']

/-- The value that a write leaves in word 0: bits 62 to 48 read 0 (R349). -/
abbrev gclWord0 (v : BitVec 64) : BitVec 64 := setBits 62 48 0 v

theorem bit_gclWord0 {v : BitVec 64} {i : Nat} (h : i < 48 ∨ 62 < i) : bit i (gclWord0 v) = bit i v :=
  bit_setBits_out _ _ _ _ _ (by decide) (by decide) h

section Write

variable {p e : Nat} {v w1 : BitVec 64} {s : State}

/-- The rules of R350 that a valid word 0 can break, of which GATES names queues from bit 32 on. -/
theorem gclRejected_gclWord0 :
    gclRejected (gclWord0 v) w1 s = true ↔
      bits 63 32 w1 ≤ bits 31 0 w1 ∨ schedPeriod s < bits 63 32 w1 ∨ 32767 < bits 31 16 v ∨
        v.getLsbD (32 + 0) = true ∨ v.getLsbD (32 + 2) = true ∨ v.getLsbD (32 + 3) = true := by
  have hcount : bits 31 16 (gclWord0 v) = bits 31 16 v := bits_setBits_out _ _ (by decide) (by decide) (.inl (by decide))
  have hgate (i : Nat) (hi : i < 48) : bit i (gclWord0 v) = v.getLsbD i := by rw [bit_gclWord0 (.inl hi), bit_eq_getLsbD]
  simp only [gclRejected, hcount, hgate 32 (by decide), hgate 34 (by decide), hgate 35 (by decide), Bool.or_eq_true, decide_eq_true_eq,
    or_assoc]

theorem gclWrite0_invalid (hv : bit 63 v = false) : gclWrite0 p e v s = wrReg (gclOff p e 0) (gclWord0 v) s := by
  have hx : bit 63 (gclWord0 v) = false := (bit_gclWord0 (.inr (by decide))).trans hv
  simp [gclWrite0, hx]

/-- A write of word 0 with VALID set: by the rules of R350, then by the entry's range (R351). -/
theorem gclWrite0_valid (hv : bit 63 v = true) :
    gclWrite0 p e v s =
      if gclRejected (gclWord0 v) (rdReg (gclOff p e 1) s) s then lltIgnored s
      else if gclCond (gclWord0 v) ((epochAt s.gtime.toNat s).map (·.1)) = .expired then
        lltIgnored (wrReg (gclOff p e 0) (setBits 63 63 0 (gclWord0 v)) s)
      else wrReg (gclOff p e 0) (gclWord0 v) s := by
  have hx : bit 63 (gclWord0 v) = true := (bit_gclWord0 (.inr (by decide))).trans hv
  simp only [gclWrite0, hx, Bool.not_true, Bool.false_eq_true, if_false, beq_iff_eq]

end Write

/-- Settles O41: a write by a master that may make it, into a block that it reaches, is `gclWrite1` or `gclWrite0`, each by its cases. -/
theorem gateEntryWritesAreJudged : Obligations.GateEntryWritesAreJudged := by
  intro m p e v s hw hopen w0 w1 x opens closes gate broken passed counted
  have word1 {t : State} (h : gclWrite1 p.toNat e.toNat v s = t) : DoesOnly (.gclWord1Write m p e v) s t :=
    doesOnly_of_exec rfl ((mgtWrOff_cross_taken hw hopen).trans h)
  have word0 {t : State} (h : gclWrite0 p.toNat e.toNat v s = t) : DoesOnly (.gclWord0Write m p e v) s t :=
    doesOnly_of_exec rfl ((mgtWrOff_cross_taken hw hopen).trans h)
  have judged : gclRejected (gclWord0 v) (rdReg w1 s) s = true ↔ broken := gclRejected_gclWord0
  refine ⟨fun hvalid => word1 (if_pos hvalid), fun hfree => word1 (if_neg (by simp [w0, hfree])), fun hv hbroken => ?broken,
    fun hv hgood hahead => ?ahead, fun hv hgood hpassed => ?passed, fun hv => word0 (gclWrite0_invalid hv)⟩
  case broken => exact word0 ((gclWrite0_valid hv).trans (if_pos (judged.mpr hbroken)))
  case ahead => exact word0 ((gclWrite0_valid hv).trans ((if_neg (mt judged.mp hgood)).trans (if_neg hahead)))
  case passed => exact word0 ((gclWrite0_valid hv).trans ((if_neg (mt judged.mp hgood)).trans (if_pos hpassed)))

/-! ### Demotions from Q1 (R355) -/

theorem does_guardBandStart {p : Port} {s : State} (hgated : gated p.toNat 1 s = true) (hsched : scheduled s = true)
    (hclosing : closingSoon p.toNat 1 s.gtime.toNat s = true) : DoesOnly (.guardBandStart p) s (demoteQ1 p.toNat (fun _ => true) s) :=
  doesOnly_of_exec rfl (if_pos (by simp [hgated, hsched, hclosing]))

theorem exec_earlyExpiry (p : Port) (s : State) : exec (.earlyExpiry p) s = execEarlyExpiry p s := by rfl

/-- The end of EARLY for the oldest packet in Q1 of a port. -/
theorem does_earlyExpiry {p : Port} {k : EgPkt} {s u : State} (hk : s.xbr.egq.find? (fun e => e.port == p.toNat && e.q == 1) = some k)
    (h : let wait := 16 * rf Reg.LLT_SCHED 31 16 s
      let t := advanceTo (k.since + wait) s
      (if gated p.toNat 1 t && !gateOpen p.toNat 1 t.gtime.toNat t then demoteQ1 p.toNat (fun y => y.since + wait ≤ t.now) t else t) = u) :
    DoesOnly (.earlyExpiry p) s u :=
  doesOnly_of_exec (exec_earlyExpiry ..) (by simpa only [hk] using h)

/-! ### Histograms (R357, R358) -/

theorem does_histClear {m : Master} {s : State} (hw : MgtWritesOff m s) (hopen : Open 134 s) :
    DoesOnly (.histClear m) s (withLlt (fun l => { l with hist := [] }) s) :=
  doesOnly_of_exec rfl ((mgtWrOff_taken hw).trans (cross_open hopen))

theorem exec_histSample (s : State) : exec .histSample s = execHistSample s := by rfl

/-- A sample at the next instant of sampling, of every queue of every port. -/
theorem does_histSample {s : State} (hon : rf Reg.LLT_HIST_CFG 1 1 s = 1) :
    DoesOnly .histSample s ((List.range 2048).foldl (fun s k => histQueue (k / 16) (k % 16) s)
      (withLlt (fun l => { l with sampled := some (nextSample s) }) (reachGtime (nextSample s) s))) := by
  have hrun : (rf Reg.LLT_HIST_CFG 1 1 s == 0) = false := beq_eq_false_iff_ne.mpr (by rw [hon]; decide)
  exact doesOnly_of_exec (exec_histSample s) (by simp only [hrun, Bool.false_eq_true, if_false])

theorem does_histSample_off {s : State} (hoff : rf Reg.LLT_HIST_CFG 1 1 s = 0) : DoesOnly .histSample s s :=
  doesOnly_of_exec (exec_histSample s) (if_pos (beq_iff_eq.mpr hoff))

/-- Settles O42: each command finds its gate, its packet or its enable bit as the clause says. -/
theorem gatesAndHistograms : Obligations.GatesAndHistograms := by
  intro m p k s n
  refine ⟨doesOnly_of_exec rfl rfl, fun hgated hsched _ => does_guardBandStart hgated hsched,
    fun hk => ⟨fun hgated hshut => does_earlyExpiry hk (if_pos (by simp [n, hgated, hshut])),
      fun hopen => does_earlyExpiry hk (if_neg (by simp [n, hopen]))⟩,
    does_histClear, does_histSample, does_histSample_off⟩

end Sys2Proof.Machine

/-! ## The time unit: its servo, loads, references and modes (R331 to R337, R354, R360, R361) -/

namespace Sys2Proof.Machine

open Sys2Proof.Claims

/-! ### The servo's runs (R334 to R336) -/

theorem exec_servoRun (s : State) : exec .servoRun s = execServoRun s := by rfl

section Servo

variable {s : State}

/-- A run of a FOLLOW device takes the samples that its time ports have kept, and shows how many ports it has used. -/
theorem does_servoRun_follow (hmode : tmuMode s = 1) :
    let fresh (n : Nat) : State := setRf Reg.TMU_STAT 23 16 n (withTmu (fun t => { t with kept := [] }) s)
    (followSample s = none → DoesOnly .servoRun s (noSample (fresh 0))) ∧
    (∀ e ports, followSample s = some (e, ports) → DoesOnly .servoRun s (servoRunWith e (fresh ports))) := by
  refine ⟨fun hnone => ?_, fun e ports hsample => ?_⟩
  · exact doesOnly_of_exec (exec_servoRun s) (by simp only [hmode, hnone, beq_self_eq_true, if_true, Option.map_none, Option.getD_none])
  · exact doesOnly_of_exec (exec_servoRun s)
      (by simp only [hmode, hsample, beq_self_eq_true, if_true, Option.map_some, Option.getD_some])

theorem does_servoRun_ref {c : BitVec 64} (hmode : tmuMode s = 3) (hc : s.tmu.pps = some c) :
    DoesOnly .servoRun s (servoRunWith (refOffset c s) (withTmu (fun t => { t with pps := none }) s)) :=
  doesOnly_of_exec (exec_servoRun s) (by simp [hmode, hc])

theorem does_servoRun_idle (hmode : tmuMode s = 0 ∨ tmuMode s = 2) : DoesOnly .servoRun s s :=
  doesOnly_of_exec (exec_servoRun s) (by obtain hmode | hmode := hmode <;> simp [hmode])

end Servo

/-! ### The counterexample to O39 -/

/-- A valid SCH packet of a port for the COL of chip 0, which has been read whole 10 ns from reset on. -/
def laggard : InPkt :=
  { inp := 1, idx := 24, up := 1, pkt := { Packet.zero with op := 0x20, cls := 4 }, budget := 0, decided := true, queue := 0, ser := 0,
    since := 0, till := 160, out := none, copy := 0, demoted := false }

/-- The device has become chip 0 since `laggard` went to Q1 of port 0, which is gated. -/
def queuedForItself : State :=
  withXbr (fun x => { x with
      egq := [{ port := 0, q := 1, idx := 24, pkt := laggard.pkt, src := laggard, since := 0, ready := 160, fixed := false }] })
    (setRf Reg.XBR_CHIP 31 31 1 State.reset)

/-- A REF device that has been LOCKED and is in HOLDOVER, with an edge captured 500 ns after its second. -/
def leavesHoldover : State :=
  withTmu (fun t => { t with pps := some 8000, holdSince := some 0 })
    (setRf Reg.TMU_CTRL 1 0 3 (setRf Reg.TMU_STAT 7 7 1 (setRf Reg.TMU_STAT 1 0 3 queuedForItself)))

/-- What a run of the servo leaves of it. -/
def leftHoldover : State :=
  servoRunWith (refOffset 8000 leavesHoldover) (withTmu (fun t => { t with pps := none }) leavesHoldover)

theorem servoRun_leavesHoldover : exec .servoRun leavesHoldover = .next leftHoldover :=
  does_servoRun_ref (by decide +kernel) rfl rfl

/-- The edge lies beyond UNLOCK_THRESH, so STATE becomes ACQUIRE and Q1 is demoted; `laggard` is delivered once it has been read whole. -/
theorem gtime_leftHoldover : leftHoldover.gtime = 159 := by decide +kernel

/-- Refutes O39: a run that leaves LOCKED or HOLDOVER demotes what Q1 holds (R354, R355). Where such a packet is this device's own, its
delivery lets time pass until the packet has been read whole, and GTIME moves on with the time (R330). The statement says that a run leaves
GTIME as it is. -/
theorem not_servoSlewsOnceLocked : ¬ Obligations.ServoSlewsOnceLocked := by
  intro h
  obtain ⟨hkept, -⟩ := h leavesHoldover leftHoldover servoRun_leavesHoldover
  have hstill : leftHoldover.gtime = leavesHoldover.gtime := hkept (by decide +kernel)
  exact absurd (gtime_leftHoldover.symm.trans hstill) (by decide)

/-! ### Expired gate list entries (R351) -/

/-- A change of the values of a table that spares a key. -/
theorem tget_map_of_ne {α : Type} {f : Nat × α → Nat × α} {i : Nat} (hkey : ∀ x, (f x).1 = x.1) (hval : ∀ x, x.1 = i → f x = x)
    (t : Tab α) : tget (t.map f) i = tget t i := by
  induction t with
  | nil => rfl
  | cons x t ih =>
    obtain ⟨k, v⟩ := x
    by_cases hk : k = i
    · rw [List.map_cons, hval (k, v) hk]
      simp [tget, hk]
    · rw [List.map_cons, ← Prod.eta (f (k, v)), hkey (k, v)]
      simp [tget, hk, ih]

/-- A register that is no word of a gate list stays as it is when entries expire. -/
theorem rdReg_clearExpired {o : Nat} (h : o < Reg.LLT_GCL) (s : State) : rdReg o (clearExpired s) = rdReg o s := by
  rw [rdReg, rdReg, clearExpired, tget_map_of_ne]
  · intro x
    split <;> rfl
  · intro x hx
    subst hx
    exact if_neg (by simp [Nat.not_le.mpr h])

/-! ### Loads (R332, R360, R361) -/

section Load

variable {s : State}

/-- A LOAD is refused when GTIME only slews any more, or when TMU_SET holds 2^62 or more. -/
theorem gtimeLoadGo_refused (h : tmuState s ≠ 0 ∨ 2 ^ 62 ≤ (rdReg Reg.TMU_SET s).toNat) : gtimeLoadGo s = tmuIgnored s :=
  if_pos (by simpa using h)

theorem gtimeLoadGo_taken (hstate : tmuState s = 0) (hset : (rdReg Reg.TMU_SET s).toNat < 2 ^ 62) :
    gtimeLoadGo s =
      if s.tmu.loadWaits then s
      else if rf Reg.TMU_REF 0 0 s = 1 ∧ rf Reg.TMU_STAT 6 6 s = 1 then
        setRf Reg.TMU_CTRL 2 2 1 (withTmu (fun t => { t with loadWaits := true }) s)
      else clearExpired { s with gtime := rdReg Reg.TMU_SET s } := by
  simp only [gtimeLoadGo, hstate, Nat.not_le.mpr hset, bne_self_eq_false, decide_false, Bool.or_self, Bool.false_eq_true, if_false,
    Bool.and_eq_true, beq_iff_eq]

end Load

theorem does_gtimeLoad {m : Master} {s t : State} (hw : MgtWrites m s) (h : gtimeLoadGo s = t) : DoesOnly (.gtimeLoad m) s t :=
  doesOnly_of_exec rfl ((mgtWr_taken hw).trans h)

/-! ### Modes (R334, R360) -/

/-- From when a lost edge is told, by the mode as it is written. -/
theorem watchEdge_toNat (mode : BitVec 2) (s : State) :
    watchEdge mode.toNat s =
      let seen := if rf Reg.TMU_STAT 6 6 s = 1 then s.tmu.lastEdge else none
      withTmu (fun t => { t with lastEdge := if mode = 3 then some (seen.getD s.now) else seen }) s := by
  have href : mode.toNat = 3 ↔ mode = 3 := BitVec.toNat_inj (y := 3)
  simp only [watchEdge, beq_iff_eq, href]

/-- A write of MODE that begins a new watch: DISABLED and ROOT take their STATE at once. -/
theorem writeMode_watch {mode : Nat} {s : State} (h : mode ≠ 3 ∨ tmuMode s ≠ 3) :
    writeMode mode s =
      let t := setRf Reg.TMU_CTRL 1 0 mode (watchEdge mode s)
      let still := withTmu (fun t => { t with slewLeft := 0, pps := none })
      if mode = 0 then setTmuState 0 (setRf Reg.TMU_STAT 7 7 0 (still t))
      else if mode = 2 then setTmuState 2 (setRf Reg.TMU_STAT 7 7 1 (still t))
      else t := by
  have hwatch : (mode == 3 && tmuMode s == 3) = false := by obtain h | h := h <;> simp [h]
  simp only [writeMode, hwatch, Bool.false_eq_true, if_false, beq_iff_eq]

theorem writeMode_still_ref {s : State} (h : tmuMode s = 3) : writeMode 3 s = setRf Reg.TMU_CTRL 1 0 3 s := by
  simp [writeMode, h]

theorem does_tmuModeWrite {m : Master} {mode : BitVec 2} {s t : State} (hw : MgtWrites m s) (h : writeMode mode.toNat s = t) :
    DoesOnly (.tmuModeWrite m mode) s t :=
  doesOnly_of_exec rfl ((mgtWr_taken hw).trans h)

/-! ### Edges of the reference (R334, R337, R360) -/

/-- The State in which no LOAD waits for an edge any more. -/
def loadEnded (s : State) : State := setRf Reg.TMU_CTRL 2 2 0 (withTmu (fun t => { t with loadWaits := false }) s)

/-- The State in which a LOAD that waited has taken effect with the value `x`, or has been refused. -/
def loadSettled (x : Int) (s : State) : State :=
  if tmuState s = 0 ∧ (rdReg Reg.TMU_SET s).toNat < 2 ^ 62 ∧ 0 ≤ x ∧ x < 2 ^ 62 then
    clearExpired { loadEnded s with gtime := BitVec.ofInt 64 x }
  else evcPulse 193 135 (loadEnded s)

/-- The State in which an edge has been seen that is not to be sampled, as MODE is not REF. -/
def edgeSeen (now : Nat) (s : State) : State :=
  setRf Reg.TMU_STAT 6 6 1 (withTmu (fun t => { t with lastEdge := some now, pps := none }) s)

theorem exec_ppsEdge (fall : Bool) (s : State) : exec (.ppsEdge fall) s = execPpsEdge fall s := by rfl

section Edge

variable {s : State}

theorem loadAtEdge_none (h : s.tmu.loadWaits = false) : loadAtEdge s = s := if_neg (by simp [h])

theorem loadAtEdge_waiting (h : s.tmu.loadWaits = true) :
    loadAtEdge s = loadSettled ((rdReg Reg.TMU_SET s).toNat + ppsDelay s) s := by
  rw [loadAtEdge, if_pos h, loadSettled, ← ite_not]
  refine if_congr ?_ rfl rfl
  simp only [Bool.or_eq_true, bne_iff_ne, decide_eq_true_eq]
  omega

theorem tmuCtrl_not_countReg : ¬CountReg Reg.TMU_CTRL := by
  rw [CountReg]
  decide

theorem tmuMode_loadEnded : tmuMode (loadEnded s) = tmuMode s := by
  rw [tmuMode, rf, loadEnded, setRf, rdReg_wrReg_same, bits_setBits_out _ _ (by decide) (by decide) (.inl (by decide))]
  rfl

theorem tmuMode_loadSettled (x : Int) : tmuMode (loadSettled x s) = tmuMode s := by
  have hmode {t : State} (h : rdReg Reg.TMU_CTRL t = rdReg Reg.TMU_CTRL (loadEnded s)) : tmuMode t = tmuMode s := by
    rw [← tmuMode_loadEnded (s := s), tmuMode, tmuMode, rf, rf, h]
  unfold loadSettled
  split
  · exact hmode (rdReg_clearExpired (by decide) _)
  · exact hmode (evcPulse_keeps (uncounted_rdReg tmuCtrl_not_countReg) ..)

theorem loadSettled_now (x : Int) : (loadSettled x s).now = s.now := by
  unfold loadSettled
  split
  · rfl
  · exact evcPulseD_now ..

variable {fall : Bool}

theorem does_ppsEdge_ignored (h : bit 0 (rdReg Reg.TMU_REF s) = false ∨ bit 3 (rdReg Reg.TMU_REF s) ≠ fall) :
    DoesOnly (.ppsEdge fall) s s :=
  doesOnly_of_exec (exec_ppsEdge ..) (if_pos (by simpa using h))

variable (hon : bit 0 (rdReg Reg.TMU_REF s) = true) (hedge : bit 3 (rdReg Reg.TMU_REF s) = fall)
include hon hedge

/-- An active edge of a reference that is in use, in another MODE than REF. -/
theorem does_ppsEdge_seen {u : State} (hload : loadAtEdge s = u) (hnow : u.now = s.now) (hmode : tmuMode u ≠ 3) :
    DoesOnly (.ppsEdge fall) s (edgeSeen s.now u) := by
  refine doesOnly_of_exec (exec_ppsEdge ..) ((if_neg (by simp [hon, hedge])).trans ?_)
  have href : (tmuMode u == 3) = false := beq_eq_false_iff_ne.mpr hmode
  simp only [hload, href, hnow, Bool.false_and, Bool.false_eq_true, if_false, edgeSeen]

/-- In MODE REF, once STATE has been LOCKED, an edge more than 0.5 ms from its second is discarded. -/
theorem does_ppsEdge_far (hload : s.tmu.loadWaits = false) (hmode : tmuMode s = 3) (hlocked : everLocked s = true)
    (hfar : 8000000 < (refOffset s.gtime s).natAbs) : DoesOnly (.ppsEdge fall) s (evcPulse 193 135 s) := by
  refine doesOnly_of_exec (exec_ppsEdge ..) ((if_neg (by simp [hon, hedge])).trans ?_)
  rw [loadAtEdge_none hload]
  exact if_pos (by simp [hmode, hlocked, hfar])

end Edge

theorem exec_ppsLoss (s : State) : exec .ppsLoss s = execPpsLoss s := by rfl

/-- 1.5 s have passed since the last edge, or since the last loss. -/
theorem does_ppsLoss {time : Nat} {s : State} (hlast : s.tmu.lastEdge = some time) :
    let t := setRf Reg.TMU_STAT 6 6 0 (advanceTo (time + us 1500000) s)
    let from_ (x : Option Nat) : State := withTmu (fun u => { u with lastEdge := x }) t
    (tmuMode t = 3 → DoesOnly .ppsLoss s (noSample (from_ (some t.now)))) ∧ (tmuMode t ≠ 3 → DoesOnly .ppsLoss s (from_ none)) := by
  intro t from_
  have hloss {u : State} (h : (if tmuMode t == 3 then noSample (from_ (some t.now)) else from_ none) = u) : DoesOnly .ppsLoss s u :=
    doesOnly_of_exec (exec_ppsLoss s) (by simpa only [hlast] using h)
  exact ⟨fun hmode => hloss (if_pos (beq_iff_eq.mpr hmode)), fun hmode => hloss (if_neg (by simpa using hmode))⟩

theorem exec_holdMaxExpiry (s : State) : exec .holdMaxExpiry s = execHoldMaxExpiry s := by rfl

theorem does_holdMaxExpiry {time : Nat} {s : State} (hstate : tmuState s = 3) (hsince : s.tmu.holdSince = some time) :
    DoesOnly .holdMaxExpiry s (demoteUnscheduled (advanceTo (time + 1000 * us (nz (rf Reg.TMU_CFG 15 8 s)) + 1) s)) :=
  doesOnly_of_exec (exec_holdMaxExpiry s) ((if_neg (by simp [hstate])).trans (by simp only [hsince]))

theorem does_refLockChange (locked : Bool) (s : State) :
    DoesOnly (.refLockChange locked) s
      (setRf Reg.TMU_STAT 5 5 (if locked = true ∧ rf Reg.TMU_REF 1 1 s = 1 then 1 else 0) s) :=
  doesOnly_of_exec rfl (by simp only [Bool.and_eq_true, beq_iff_eq])

/-! ### GTIME is read (R333) -/

theorem exec_gtimeLoRead (f : FnRead) (s : State) : exec (.gtimeLoRead f) s = execGtimeLoRead f s := by rfl

theorem does_gtimeLoRead {f : Fn} {s : State} (h : HostReaches f.toNat s) (wide : Bool) :
    DoesOnly (.gtimeLoRead ⟨f, wide⟩) s
      (emit (.bar0Read f.toNat Reg.TMU_GTIME_LO (if wide then s.gtime else BitVec.ofNat 64 (bits 31 0 s.gtime)))
        (setFf f.toNat Reg.TMU_GTIME_HI 31 0 (bits 63 32 s.gtime) s)) := by
  obtain ⟨hreach, hready⟩ := h
  exact doesOnly_of_exec (exec_gtimeLoRead ..) ((if_neg (by simp [hreach])).trans (if_pos hready))

/-- Settles O38: the servo runs on what its mode samples; a LOAD, a MODE, an edge and an expiry each meet the cases of their function. -/
theorem timeUnitCommands : Obligations.TimeUnitCommands := by
  intro m mode f fall locked e ports time c s v ref
  refine ⟨fun hmode => ⟨(does_servoRun_follow hmode).1, (does_servoRun_follow hmode).2 e ports⟩, does_servoRun_ref, does_servoRun_idle,
    fun hw => ?load, fun hw => ?mode, fun hf => ⟨does_gtimeLoRead hf false, does_gtimeLoRead hf true⟩,
    fun hon hedge hload hmode => does_ppsEdge_seen hon hedge (loadAtEdge_none hload) rfl hmode, does_ppsEdge_far,
    fun hon hedge hload hmode => ?edge, does_ppsEdge_ignored, does_ppsLoss, does_holdMaxExpiry, does_refLockChange locked s⟩
  case load =>
    refine ⟨fun h => does_gtimeLoad hw (gtimeLoadGo_refused h), fun hstate hset hwaits => ?_,
      fun hstate hset hnone => ⟨fun href hpps => ?_, fun h => ?_⟩⟩
    all_goals refine does_gtimeLoad hw ((gtimeLoadGo_taken hstate hset).trans ?_)
    · exact if_pos hwaits
    · simp only [hnone, href, hpps, Bool.false_eq_true, if_false, and_self, if_true]
    · have hnow : ¬(rf Reg.TMU_REF 0 0 s = 1 ∧ rf Reg.TMU_STAT 6 6 s = 1) := by obtain h | h := h <;> simp [h]
      simp only [hnone, hnow, Bool.false_eq_true, if_false, v]
  case mode =>
    refine ⟨fun h => ?disabled, fun h => ?root, fun h => ?follow, fun h hother => ?ref, fun h hsame => ?still⟩ <;> subst h
    case still => exact does_tmuModeWrite hw (writeMode_still_ref hsame)
    case ref => exact does_tmuModeWrite hw ((writeMode_watch (.inr hother)).trans (by rw [watchEdge_toNat]; rfl))
    all_goals exact does_tmuModeWrite hw ((writeMode_watch (.inl (by decide))).trans (by rw [watchEdge_toNat]; rfl))
  case edge =>
    have hsettled := does_ppsEdge_seen hon hedge (loadAtEdge_waiting hload) (loadSettled_now _) ((tmuMode_loadSettled _).trans_ne hmode)
    refine ⟨fun htaken => ?_, fun hrefused => ?_⟩
    · rwa [loadSettled, if_pos htaken] at hsettled
    · rwa [loadSettled, if_neg hrefused] at hsettled

end Sys2Proof.Machine

/-! ## The queue, the atomic operations, and the semaphores' order (R369 to R375) -/

namespace Sys2Proof.Machine

open Sys2Proof.Claims

/-- Settles O1: it is the step's own case of a queue with a first command. -/
theorem stepExecutesFront : Obligations.StepExecutesFront := by
  intro c rest s h
  rw [step, h]

/-! ### Atomic operations (R375) -/

/-- The signed value that the atomic unit reads in `w` bytes is that of the bit vector. -/
theorem toInt_of_lt_half {n w : Nat} (hn : 8 * w = n) (hpos : 0 < n) (v : BitVec n) :
    (if v.toNat < 2 ^ (8 * w) / 2 then (v.toNat : Int) else (v.toNat : Int) - (2 ^ (8 * w) : Nat)) = v.toInt := by
  subst hn
  have hhalf : 2 * 2 ^ (8 * w - 1) = 2 ^ (8 * w) := by rw [← Nat.pow_succ']; congr 1; omega
  rw [BitVec.toInt_eq_toNat_cond]
  by_cases hv : 2 * v.toNat < 2 ^ (8 * w)
  · rw [if_pos hv, if_pos (by omega)]
  · rw [if_neg hv, if_neg (by omega)]

/-- Settles O26: operands below 2^n are themselves modulo 2^n, and each operation of numbers is that of the bit vectors. -/
theorem atomicOperations : Obligations.AtomicOperations := by
  intro n old op cmp hn r
  have hw : 8 * (n / 8) = n := by omega
  have hpos : 0 < n := by omega
  have hop : op.toNat % 2 ^ (8 * (n / 8)) = op.toNat := by rw [hw]; exact op.toNat_mod_cancel
  have hcmp : cmp.toNat % 2 ^ (8 * (n / 8)) = cmp.toNat := by rw [hw]; exact cmp.toNat_mod_cancel
  have hsigned := toInt_of_lt_half hw hpos
  simp only [r, atomicOp, hop, hcmp, hsigned]
  refine ⟨?add, rfl, ?cas, ?and, ?or, ?xor, ?min, ?max, rfl, rfl, rfl⟩
  case add => simp only [hw, BitVec.toNat_add]; rfl
  case cas =>
    simp only [BitVec.toNat_inj, beq_iff_eq, apply_ite BitVec.toNat]; rfl
  case and => exact (BitVec.toNat_and ..).symm
  case or => exact (BitVec.toNat_or ..).symm
  case xor => exact (BitVec.toNat_xor ..).symm
  case min => exact (apply_ite BitVec.toNat ..).symm
  case max => exact (apply_ite BitVec.toNat ..).symm

end Sys2Proof.Machine

/-! ## The memories inside the block: what leaves them as they are (R231, R233, R490 to R496)

Few operations write LDM, CSM, the flash or the MGT's memory. For every other one a rule says that it leaves all four as they are, in the
order in which the operations are defined, so that each rule rests on those of the operations that it calls. -/

namespace Sys2Proof.Machine

open Sys2Proof

/-- The memories inside the block: LDM, CSM, the flash, and the MGT's own. -/
structure Mems where
  ldm : List Host.Cell
  csm : List Host.Cell
  flash : List Host.Cell
  mem : List Host.Cell

/-- The memories of a State. -/
def mems (s : State) : Mems := ⟨s.tpr.ldm, s.tpr.csm, s.mgt.flash, s.mgt.mem⟩

/-! ### Forms of operations -/

/-- Of a State only the Taper's part and the MGT's hold memories. -/
@[simp] theorem mems_mk (regs fregs now gtime hif cmp xlt qpc txe rxe mte stg xbr links llt tmu col mbx tpr sems snf clk sec jtag ltn mgt out
      free pending) :
    mems ⟨regs, fregs, now, gtime, hif, cmp, xlt, qpc, txe, rxe, mte, stg, xbr, links, llt, tmu, col, mbx, tpr, sems, snf, clk, sec, jtag,
      ltn, mgt, out, free, pending⟩ = ⟨tpr.ldm, tpr.csm, mgt.flash, mgt.mem⟩ := by rfl

@[simp] theorem mems_fold (s : State) : Mems.mk s.tpr.ldm s.tpr.csm s.mgt.flash s.mgt.mem = mems s := by rfl

@[simp] theorem mems_withTpr (f : Tpr → Tpr) (s : State) :
    mems (withTpr f s) = ⟨(f s.tpr).ldm, (f s.tpr).csm, s.mgt.flash, s.mgt.mem⟩ := by rfl

@[simp] theorem mems_withMgt (f : Mgt → Mgt) (s : State) :
    mems (withMgt f s) = ⟨s.tpr.ldm, s.tpr.csm, (f s.mgt).flash, (f s.mgt).mem⟩ := by rfl

@[simp] theorem mems_ite (c : Prop) [Decidable c] (s t : State) : mems (if c then s else t) = if c then mems s else mems t :=
  apply_ite ..

theorem mems_branch {c : Prop} [Decidable c] {a b s : State} (ha : mems a = mems s) (hb : mems b = mems s) :
    mems (if c then a else b) = mems s := by
  split <;> assumption

/-- The State that an operation answers beside a value. -/
theorem mems_of_snd {α : Type} {z : α × State} {a : α} {t : State} (h : z = (a, t)) : mems t = mems z.2 := by
  rw [h]

@[simp] theorem mems_foldl {α : Type} {f : State → α → State} (h : ∀ s x, mems (f s x) = mems s) (l : List α) (s : State) :
    mems (l.foldl f s) = mems s :=
  foldl_keeps mems h l s

@[simp] theorem mems_foldl_snd {α β : Type} {f : β × State → α → β × State} (h : ∀ z x, mems (f z x).2 = mems z.2) (l : List α)
    (z : β × State) : mems (l.foldl f z).2 = mems z.2 := by
  induction l generalizing z with
  | nil => rfl
  | cons x l ih => rw [List.foldl_cons, ih, h]

@[simp] theorem mems_foldr {α : Type} {f : α → State → State} (h : ∀ x s, mems (f x s) = mems s) (l : List α) (s : State) :
    mems (l.foldr f s) = mems s := by
  induction l with
  | nil => rfl
  | cons x l ih => rw [List.foldr_cons, h, ih]

theorem uncounted_mems : Uncounted mems := ⟨fun _ _ _ _ => rfl, fun _ _ _ _ => rfl, fun _ _ => rfl, fun _ _ _ => rfl⟩

/-! ### The operations -/

/-! #### Registers, counting, messages, faults as they are captured, requests to host memory -/

@[simp] theorem mems_wrReg (off v s) : mems (wrReg off v s) = mems s := by rfl
@[simp] theorem mems_setRf (off hi lo x s) : mems (setRf off hi lo x s) = mems s := by simp [setRf]
@[simp] theorem mems_wrFn (f off v s) : mems (wrFn f off v s) = mems s := by rfl
@[simp] theorem mems_setFf (f off hi lo x s) : mems (setFf f off hi lo x s) = mems s := by simp [setFf]
@[simp] theorem mems_writeReg (off v s) : mems (writeReg off v s) = mems s := by unfold writeReg; split <;> simp
@[simp] theorem mems_emit (o s) : mems (emit o s) = mems s := by rfl
@[simp] theorem mems_fresh (s) : mems (fresh s).2 = mems s := by rfl
@[simp] theorem mems_evcAdd (n d s) : mems (evcAdd n d s).1 = mems s := by unfold evcAdd; dsimp only; (repeat' split) <;> simp
@[simp] theorem mems_pulseLost (ev s) : mems (pulseLost ev s) = mems s := by simp [pulseLost]
@[simp] theorem mems_pulseCross (ev key dt d s) : mems (pulseCross ev key dt d s).2 = mems s := pulseCross_keeps uncounted_mems ..
@[simp] theorem mems_wakeLink (l s) : mems (wakeLink l s) = mems s := by simp [wakeLink]
@[simp] theorem mems_msixSend (f vec s) : mems (msixSend f vec s) = mems s := by simp [msixSend]
theorem mems_msixTry {f vec s t} (h : msixTry f vec s = some t) : mems t = mems s := by
  unfold msixTry at h
  dsimp only at h
  split at h
  · cases h
  · split at h <;> cases h <;> simp
@[simp] theorem mems_evcPulseD (a b c d s) : mems (evcPulseD a b c d s) = mems s := evcPulseD_keeps uncounted_mems ..
@[simp] theorem mems_evcPulse (ev inst s) : mems (evcPulse ev inst s) = mems s := by simp [evcPulse]
@[simp] theorem mems_evcPulses (ev inst d s) : mems (evcPulses ev inst d s) = mems s := by simp [evcPulses]
@[simp] theorem mems_ignored (src s) : mems (ignored src s) = mems s := by simp [ignored]
@[simp] theorem mems_holdReq (r s) : mems (holdReq r s) = mems s := by rfl
@[simp] theorem mems_msixSignal (f vec s) : mems (msixSignal f vec s) = mems s := by
  unfold msixSignal
  cases h : msixTry f vec s with
  | none => simp
  | some t => exact mems_msixTry h
@[simp] theorem mems_evcMeet (n inc s) : mems (evcMeet n inc s) = mems s := evcMeet_keeps uncounted_mems ..
@[simp] theorem mems_ltnPut (rs s) : mems (ltnPut rs s) = mems s := by rfl
@[simp] theorem mems_ltnEnd (s) : mems (ltnEnd s) = mems s := by simp [ltnEnd]
@[simp] theorem mems_ltnTrig (cause s) : mems (ltnTrig cause s) = mems s := by simp [ltnTrig]
@[simp] theorem mems_lanternMark (src isl s) : mems (lanternMark src isl s) = mems s := by unfold lanternMark; split <;> simp
@[simp] theorem mems_mgtLog (typ body s) : mems (mgtLog typ body s) = mems s := by simp [mgtLog]
@[simp] theorem mems_fcuOccurIn (isl src s) : mems (fcuOccurIn isl src s) = mems s := by simp [fcuOccurIn]
@[simp] theorem mems_fcuOccur (src s) : mems (fcuOccur src s) = mems s := by simp [fcuOccur]
@[simp] theorem mems_hostWriteOn (link f always addr bs ro s) : mems (hostWriteOn link f always addr bs ro s) = mems s := by
  unfold hostWriteOn
  split
  · rfl
  · split <;> simp
@[simp] theorem mems_hostWrite (f addr bs s) : mems (hostWrite f addr bs s) = mems s := by simp [hostWrite]
@[simp] theorem mems_ringWrite (f addr bs s) : mems (ringWrite f addr bs s) = mems s := by simp [ringWrite]
@[simp] theorem mems_hostReadOn (link f addr len ro s) : mems (hostReadOn link f addr len ro s) = mems s := by simp [hostReadOn]
@[simp] theorem mems_hostRead (f addr len s) : mems (hostRead f addr len s) = mems s := by simp [hostRead]

/-! #### Command Rings, Head Mirrors and Arrival Rings (02) -/

@[simp] theorem mems_putRing (f r g s) : mems (putRing f r g s) = mems s := by rfl
@[simp] theorem mems_writeMirror (f g state s) : mems (writeMirror f g state s) = mems s := by simp [writeMirror]
@[simp] theorem mems_publish (f r s) : mems (publish f r s) = mems s := by unfold publish; split <;> simp
@[simp] theorem mems_finishEntry (ref st dt s) : mems (finishEntry ref st dt s) = mems s := by unfold finishEntry; split <;> simp
@[simp] theorem mems_markIssued (ref s) : mems (markIssued ref s) = mems s := by unfold markIssued; split <;> simp
@[simp] theorem mems_issueFinish (ref st dt s) : mems (issueFinish ref st dt s) = mems s := by simp [issueFinish]
@[simp] theorem mems_setIssuing (ref issuing reading s) : mems (setIssuing ref issuing reading s) = mems s :=
    by unfold setIssuing; split <;> simp
@[simp] theorem mems_setRingState (f r st s) : mems (setRingState f r st s) = mems s := by unfold setRingState; split <;> simp
@[simp] theorem mems_putArv (f a g s) : mems (putArv f a g s) = mems s := by rfl
theorem mems_arvTake {f a b s t} (h : arvTake f a b s = some t) : mems t = mems s := by
  unfold arvTake at h
  split at h
  · split at h
    · cases h
    · cases h; simp
  · cases h
@[simp] theorem mems_arvGive (f a b s) : mems (arvGive f a b s) = mems s := by unfold arvGive; split <;> simp
@[simp] theorem mems_writeNotice (f a b n s) : mems (writeNotice f a b n s) = mems s := by unfold writeNotice; split <;> simp
@[simp] theorem mems_errLost (f a s) : mems (errLost f a s) = mems s := by unfold errLost; split <;> simp
@[simp] theorem mems_errorNotice (f a n s) : mems (errorNotice f a n s) = mems s := by unfold errorNotice; (repeat' split) <;> simp

/-! #### The translation unit (03) -/

@[simp] theorem mems_cacheDesc (f idx d s) : mems (cacheDesc f idx d s) = mems s := by simp [cacheDesc]
@[simp] theorem mems_writeDesc (f idx d s) : mems (writeDesc f idx d s) = mems s := by simp [writeDesc]
@[simp] theorem mems_fillXtc (l s) : mems (fillXtc l s) = mems s := by unfold fillXtc; split <;> simp
@[simp] theorem mems_fillWalk (e s) : mems (fillWalk e s) = mems s := by simp [fillWalk]
@[simp] theorem mems_countFault (f detail s) : mems (countFault f detail s) = mems s := by simp [countFault]
@[simp] theorem mems_admitAccess (s) : mems (admitAccess s).2 = mems s := by rfl
@[simp] theorem mems_suspend (acc own w s) : mems (suspend acc own w s) = mems s := by rfl
@[simp] theorem mems_xltStart (acc s) : mems (xltStart acc s) = mems s := by simp [xltStart]
@[simp] theorem mems_xltRun (acc own s) : mems (xltRun acc own s).2 = mems s := by unfold xltRun; dsimp only; (repeat' split) <;> simp
@[simp] theorem mems_fillCaches (w l s) : mems (fillCaches w l s) = mems s := by simp [fillCaches]
@[simp] theorem mems_flushRead (link f a s) : mems (flushRead link f a s) = mems s := by simp [flushRead]
@[simp] theorem mems_flushLinks (why s) : mems (flushLinks why s) = mems s := by simp [flushLinks]
@[simp] theorem mems_drainEnd (d s) : mems (drainEnd d s) = mems s := by unfold drainEnd; split <;> simp
@[simp] theorem mems_withDrains (ds s) : mems (withDrains ds s) = mems s := by rfl
@[simp] theorem mems_drainStep (s) : mems (drainStep s) = mems s := by simp [drainStep]
@[simp] theorem mems_drainsOn (s) : mems (drainsOn s) = mems s := by simp [drainsOn]
@[simp] theorem mems_drained (serial s) : mems (drained serial s) = mems s := by simp [drained]
@[simp] theorem mems_renameDrained (old new s) : mems (renameDrained old new s) = mems s := by simp [renameDrained]
@[simp] theorem mems_startDrain (ref kind caught s) : mems (startDrain ref kind caught s) = mems s := by simp [startDrain]
@[simp] theorem mems_dropIssue (f r s) : mems (dropIssue f r s) = mems s := by unfold dropIssue; (repeat' split) <;> simp
@[simp] theorem mems_sweepRing (f r st s) : mems (sweepRing f r st s) = mems s := by unfold sweepRing; dsimp only; (repeat' split) <;> simp
@[simp] theorem mems_freezeRings (f s) : mems (freezeRings f s) = mems s := by simp [freezeRings]
@[simp] theorem mems_freezeCore (f cause s) : mems (freezeCore f cause s) = mems s := by simp [freezeCore]

/-! #### Forms that the units share -/

@[simp] theorem mems_levelPulses (dt s x) : mems (levelPulses dt s x) = mems s := by simp [levelPulses]
@[simp] theorem mems_levelsPass (dt s) : mems (levelsPass dt s) = mems s := by simp [levelsPass]
@[simp] theorem mems_timePass (dt s) : mems (timePass dt s) = mems s := by simp [timePass]
@[simp] theorem mems_reachGtime (g s) : mems (reachGtime g s) = mems s := by simp [reachGtime]
@[simp] theorem mems_advanceTo (a s) : mems (advanceTo a s) = mems s := by simp [advanceTo]
@[simp] theorem mems_writeSegs (link f ro a b s) : mems (writeSegs link f ro a b s) = mems s := by
  induction a generalizing b s with
  | nil => rfl
  | cons g t ih => rw [writeSegs, ih, mems_hostWriteOn]
@[simp] theorem mems_readSegs (link f ro a s) : mems (readSegs link f ro a s) = mems s := by
  induction a generalizing s with
  | nil => rfl
  | cons g t ih => rw [readSegs, ih, mems_hostReadOn]

/-! #### The staging queues (05) -/

@[simp] theorem mems_putStg (k n q s) : mems (putStg k n q s) = mems s := by rfl
@[simp] theorem mems_stgJoin (k n id p wr rd s) : mems (stgJoin k n id p wr rd s).2 = mems s := by simp [stgJoin]
@[simp] theorem mems_stgNumbered (s) : mems (stgNumbered s).2 = mems s := by rfl
@[simp] theorem mems_stgLeave (k n which s) : mems (stgLeave k n which s) = mems s :=
    by unfold stgLeave; dsimp only; (repeat' split) <;> simp
@[simp] theorem mems_stgEmpty (k n s) : mems (stgEmpty k n s).2 = mems s := by unfold stgEmpty; dsimp only; (repeat' split) <;> simp
@[simp] theorem mems_stgStrike (k n off s) : mems (stgStrike k n off s) = mems s := by simp [stgStrike]
@[simp] theorem mems_stgRestart (k n s) : mems (stgRestart k n s) = mems s := by simp [stgRestart]

/-! #### The switch core (09) -/

@[simp] theorem mems_withXbr (f s) : mems (withXbr f s) = mems s := by rfl
@[simp] theorem mems_xbrDrop (s) : mems (xbrDrop s) = mems s := by simp [xbrDrop]
@[simp] theorem mems_stagedIn (k n wr inp idx up p s) : mems (stagedIn k n wr inp idx up p s).2 = mems s := by simp [stagedIn]
@[simp] theorem mems_enqueue (i p out fixed s) : mems (enqueue i p out fixed s) = mems s := by simp [enqueue]
@[simp] theorem mems_viaChoice (i s) : mems (viaChoice i s).2 = mems s := by unfold viaChoice; dsimp only; (repeat' split) <;> simp
@[simp] theorem mems_routeOnce (i p s) : mems (routeOnce i p s).2 = mems s := by unfold routeOnce; dsimp only; (repeat' split) <;> simp
@[simp] theorem mems_routePlain (i s) : mems (routePlain i s).2 = mems s := by
  unfold routePlain
  split
  · rfl
  · dsimp only
    split
    next t he => split <;> simp [mems_of_snd he]
    · simp
@[simp] theorem mems_grantShared (p s idx) : mems (grantShared p s idx) = mems s := by unfold grantShared; split <;> simp
@[simp] theorem mems_sendControl (p ct body s) : mems (sendControl p ct body s) = mems s := by simp [sendControl]
@[simp] theorem mems_sendCredit (p is s) : mems (sendCredit p is s) = mems s := by simp [sendCredit]
@[simp] theorem mems_creditBack (i s) : mems (creditBack i s) = mems s := by unfold creditBack; split <;> simp
@[simp] theorem mems_deliver (i s) : mems (deliver i s) = mems s := by unfold deliver; split <;> simp
@[simp] theorem mems_routeOut (i s) : mems (routeOut i s) = mems s := by
  unfold routeOut
  split
  all_goals next he => simp [mems_of_snd he]
@[simp] theorem mems_routePacket (i s) : mems (routePacket i s) = mems s := by unfold routePacket; (repeat' split) <;> simp
@[simp] theorem mems_caddMoved (n i s) : mems (caddMoved n i s) = mems s := by unfold caddMoved; split <;> simp
@[simp] theorem mems_decideAgain (demoted i s) : mems (decideAgain demoted i s) = mems s := by simp [decideAgain]
@[simp] theorem mems_demoteQ1 (p which s) : mems (demoteQ1 p which s) = mems s := by simp [demoteQ1]
@[simp] theorem mems_demoteUnscheduled (s) : mems (demoteUnscheduled s) = mems s := by simp [demoteUnscheduled]
@[simp] theorem mems_redecide (p s) : mems (redecide p s) = mems s := by simp [redecide]
@[simp] theorem mems_joinInput (i s) : mems (joinInput i s) = mems s := by simp [joinInput]
@[simp] theorem mems_inject (att p s) : mems (inject att p s) = mems s := by simp [inject]
@[simp] theorem mems_ownOut (out i s) : mems (ownOut out i s) = mems s := by unfold ownOut; (repeat' split) <;> simp
@[simp] theorem mems_enter (i go s) (hgo : ∀ t, mems (go t) = mems t) : mems (enter i go s) = mems s := by
  unfold enter
  split
  · simp
  · exact hgo s
@[simp] theorem mems_sendOwn (budget copy p out s) : mems (sendOwn budget copy p out s) = mems s := by simp [sendOwn]

/-! #### Itzor Link, and the selection at an egress (10, 11) -/

@[simp] theorem mems_putLink (p l s) : mems (putLink p l s) = mems s := by rfl
@[simp] theorem mems_modLink (p f s) : mems (modLink p f s) = mems s := by simp [modLink]
@[simp] theorem mems_setLstat (p hi lo x s) : mems (setLstat p hi lo x s) = mems s := by simp [setLstat]
@[simp] theorem mems_setLstate (p x s) : mems (setLstate p x s) = mems s := by simp [setLstate]
@[simp] theorem mems_lnkIgnored (s) : mems (lnkIgnored s) = mems s := by simp [lnkIgnored]
@[simp] theorem mems_startPages (p s) : mems (startPages p s) = mems s := by simp [startPages]
@[simp] theorem mems_tryStart (p s) : mems (tryStart p s) = mems s := by simp [tryStart]
@[simp] theorem mems_holdFor (p a down s) : mems (holdFor p a down s) = mems s := by simp [holdFor]
@[simp] theorem mems_stepLimit (p a s) : mems (stepLimit p a s) = mems s := by simp [stepLimit]
@[simp] theorem mems_attemptFails (p cause lanes s) : mems (attemptFails p cause lanes s) = mems s := by simp [attemptFails]
@[simp] theorem mems_resolvePort (p u page s) : mems (resolvePort p u page s) = mems s := by unfold resolvePort; split <;> simp
@[simp] theorem mems_pageCome (p lane v s) : mems (pageCome p lane v s) = mems s := by unfold pageCome; dsimp only; (repeat' split) <;> simp
@[simp] theorem mems_showPort (p s) : mems (showPort p s) = mems s := by simp [showPort]
@[simp] theorem mems_portComesUp (p s) : mems (portComesUp p s) = mems s := by simp [portComesUp]
@[simp] theorem mems_startTs (p s) : mems (startTs p s) = mems s := by simp [startTs]
@[simp] theorem mems_sendAllCredits (p a b s) : mems (sendAllCredits p a b s) = mems s := by
  induction a generalizing b s with
  | zero => rfl
  | succ n ih =>
    unfold sendAllCredits
    split
    · rfl
    · rw [ih, mems_sendCredit]
@[simp] theorem mems_linkInit (p s) : mems (linkInit p s) = mems s := by simp [linkInit]
@[simp] theorem mems_tsDrop (p s) : mems (tsDrop p s) = mems s := by simp [tsDrop]
@[simp] theorem mems_linkDown (p s) : mems (linkDown p s) = mems s := by simp [linkDown]
@[simp] theorem mems_askReplay (p s) : mems (askReplay p s) = mems s := by simp [askReplay]
@[simp] theorem mems_acceptPacket (p idx pkt s) : mems (acceptPacket p idx pkt s) = mems s := by simp [acceptPacket]
@[simp] theorem mems_framingError (p s) : mems (framingError p s) = mems s := by simp [framingError]
@[simp] theorem mems_frameCome (p fr s) : mems (frameCome p fr s) = mems s := by simp [frameCome]
@[simp] theorem mems_lackCovers (p lack s) : mems (lackCovers p lack s) = mems s :=
    by unfold lackCovers; dsimp only; (repeat' split) <;> simp
@[simp] theorem mems_controlCome (p ct raw bad s) : mems (controlCome p ct raw bad s).2 = mems s :=
    by unfold controlCome; (repeat' split) <;> simp
@[simp] theorem mems_creditEntry (p e s) : mems (creditEntry p e s) = mems s := by simp [creditEntry]
@[simp] theorem mems_creditCome (p body s) : mems (creditCome p body s) = mems s := by simp [creditCome]
@[simp] theorem mems_sendFrame (p h s) : mems (sendFrame p h s) = mems s := by simp [sendFrame]
@[simp] theorem mems_replayFrom (p lack s) : mems (replayFrom p lack s) = mems s := by simp [replayFrom]
@[simp] theorem mems_tsAnswer (p body s) : mems (tsAnswer p body s) = mems s := by simp [tsAnswer]
@[simp] theorem mems_tsKeep (p theta d s) : mems (tsKeep p theta d s) = mems s := by simp [tsKeep]
@[simp] theorem mems_tsCome (p body s) : mems (tsCome p body s) = mems s := by unfold tsCome; dsimp only; (repeat' split) <;> simp
@[simp] theorem mems_sendReconf (p s) : mems (sendReconf p s) = mems s := by unfold sendReconf; dsimp only; (repeat' split) <;> simp
@[simp] theorem mems_startReconf (p ll s) : mems (startReconf p ll s) = mems s := by simp [startReconf]
@[simp] theorem mems_adoptReconf (p lanes ll s) : mems (adoptReconf p lanes ll s) = mems s := by simp [adoptReconf]
@[simp] theorem mems_answerReconf (p body s) : mems (answerReconf p body s) = mems s := by simp [answerReconf]
@[simp] theorem mems_reconfAcked (p body s) : mems (reconfAcked p body s) = mems s := by unfold reconfAcked; split <;> simp
@[simp] theorem mems_laneFails (p lane s) : mems (laneFails p lane s) = mems s := by simp [laneFails]
@[simp] theorem mems_withLlt (f s) : mems (withLlt f s) = mems s := by rfl
@[simp] theorem mems_takePacket (p e s) : mems (takePacket p e s) = mems s := by simp [takePacket]
@[simp] theorem mems_selectWeighted (p a s) : mems (selectWeighted p a s) = mems s := by
  induction a generalizing s with
  | zero => rfl
  | succ n ih => unfold selectWeighted; dsimp only; (repeat' split) <;> simp [ih]
@[simp] theorem mems_egressSelect (p s) : mems (egressSelect p s) = mems s := by unfold egressSelect; dsimp only; (repeat' split) <;> simp

/-! #### Queue pairs (04) -/

@[simp] theorem mems_putQp (q x s) : mems (putQp q x s) = mems s := by rfl
@[simp] theorem mems_modQp (q f s) : mems (modQp q f s) = mems s := by unfold modQp; split <;> simp
@[simp] theorem mems_withMte (f s) : mems (withMte f s) = mems s := by rfl
@[simp] theorem mems_withRxe (f s) : mems (withRxe f s) = mems s := by rfl
@[simp] theorem mems_writeImage (q s) : mems (writeImage q s) = mems s := by unfold writeImage; split <;> simp
@[simp] theorem mems_putFetch (q x s) : mems (putFetch q x s) = mems s := by rfl
@[simp] theorem mems_issueFetch (q x s) : mems (issueFetch q x s) = mems s := by unfold issueFetch; split <;> simp
@[simp] theorem mems_startFetch (q job s) : mems (startFetch q job s) = mems s := by unfold startFetch; split <;> simp
@[simp] theorem mems_issueWaiting (s) : mems (issueWaiting s) = mems s := by simp [issueWaiting]
@[simp] theorem mems_transmitOn (half1 hp p s) : mems (transmitOn half1 hp p s) = mems s := by simp [transmitOn]
@[simp] theorem mems_transmit (hp p s) : mems (transmit hp p s) = mems s := by simp [transmit]
@[simp] theorem mems_sendNak (p code detail s) : mems (sendNak p code detail s) = mems s := by simp [sendNak]
@[simp] theorem mems_sendAck (q h s) : mems (sendAck q h s) = mems s := by unfold sendAck; split <;> simp
@[simp] theorem mems_spend (r s) : mems (spend r s) = mems s := by simp [spend]
@[simp] theorem mems_flushRecv (r src bytes s) : mems (flushRecv r src bytes s) = mems s := by simp [flushRecv]
@[simp] theorem mems_dropUnexpected (q s) : mems (dropUnexpected q s) = mems s := by
  unfold dropUnexpected
  dsimp only
  rw [mems_foldl (fun t u => by split <;> simp), mems_withMte]
@[simp] theorem mems_stopBound (q s) : mems (stopBound q s) = mems s := by
  unfold stopBound
  dsimp only
  rw [mems_foldl (fun t u => by split <;> simp)]
  simp
@[simp] theorem mems_putDest (hp ep d s) : mems (putDest hp ep d s) = mems s := by rfl
@[simp] theorem mems_tidyDest (hp ep s) : mems (tidyDest hp ep s) = mems s := by unfold tidyDest; split <;> simp
@[simp] theorem mems_uncharge (hp ep n s) : mems (uncharge hp ep n s) = mems s := by unfold uncharge; split <;> simp
@[simp] theorem mems_finishMsg (m st dt s) : mems (finishMsg m st dt s) = mems s := by unfold finishMsg; split <;> simp
@[simp] theorem mems_endTrans (q st s) : mems (endTrans q st s) = mems s := by unfold endTrans; (repeat' split) <;> simp
@[simp] theorem mems_dropResults (q s) : mems (dropResults q s) = mems s := by simp [dropResults]
@[simp] theorem mems_ageResults (q psn s) : mems (ageResults q psn s) = mems s := by simp [ageResults]
@[simp] theorem mems_flushIssuing (q s) : mems (flushIssuing q s) = mems s := by simp [flushIssuing]
@[simp] theorem mems_forgetNoticed (q s) : mems (forgetNoticed q s) = mems s := by rfl
@[simp] theorem mems_forgetHalf1 (q s) : mems (forgetHalf1 q s) = mems s := by rfl
@[simp] theorem mems_abandonQp (q s) : mems (abandonQp q s) = mems s := by unfold abandonQp; (repeat' split) <;> simp
@[simp] theorem mems_enterError (q cause detail s) : mems (enterError q cause detail s) = mems s := by unfold enterError; split <;> simp
@[simp] theorem mems_failMsg (q m st dt s) : mems (failMsg q m st dt s) = mems s := by unfold failMsg; dsimp only; (repeat' split) <;> simp
@[simp] theorem mems_flushPosted (q s) : mems (flushPosted q s) = mems s := by simp [flushPosted]
@[simp] theorem mems_returnIncarn (f blk p s) : mems (returnIncarn f blk p s) = mems s := by simp [returnIncarn]
@[simp] theorem mems_destroyQp (q s) : mems (destroyQp q s) = mems s := by unfold destroyQp; split <;> simp
@[simp] theorem mems_transCheck (q s) : mems (transCheck q s) = mems s := by unfold transCheck; (repeat' split) <;> simp

/-! #### Matching (06) -/

@[simp] theorem mems_queueMsg (q m s) : mems (queueMsg q m s) = mems s := by simp [queueMsg]
@[simp] theorem mems_countSearch (f arv pd m src s) : mems (countSearch f arv pd m src s) = mems s := by simp [countSearch]
@[simp] theorem mems_countRecvSearch (r s) : mems (countRecvSearch r s) = mems s := by simp [countRecvSearch]
@[simp] theorem mems_queueRelease (b s) : mems (queueRelease b s) = mems s := by simp [queueRelease]
@[simp] theorem mems_endRelease (recv release s) : mems (endRelease recv release s) = mems s := by unfold endRelease; split <;> simp
@[simp] theorem mems_deliverNotice (half1 f arv b n recv release s) : mems (deliverNotice half1 f arv b n recv release s) = mems s :=
    by simp [deliverNotice]
@[simp] theorem mems_recvDone (b half1 release s) : mems (recvDone b half1 release s) = mems s := by simp [recvDone]
@[simp] theorem mems_pulledDone (b s) : mems (pulledDone b s) = mems s := by simp [pulledDone]
@[simp] theorem mems_queuePull (b s) : mems (queuePull b s) = mems s := by simp [queuePull]
@[simp] theorem mems_startPull (b s) : mems (startPull b s) = mems s := by unfold startPull; dsimp only; (repeat' split) <;> simp
@[simp] theorem mems_copyFailed (u r st dt s) : mems (copyFailed u r st dt s) = mems s := by simp [copyFailed]
@[simp] theorem mems_startCopy (u r s) : mems (startCopy u r s) = mems s := by simp [startCopy]
@[simp] theorem mems_bindUnexp (u r s) : mems (bindUnexp u r s) = mems s := by simp [bindUnexp]
@[simp] theorem mems_unpost (r s) : mems (unpost r s) = mems s := by simp [unpost]
@[simp] theorem mems_processPending (u s) : mems (processPending u s) = mems s :=
    by unfold processPending; dsimp only; (repeat' split) <;> simp
@[simp] theorem mems_processEligible (q a s) : mems (processEligible q a s) = mems s := by
  induction a generalizing s with
  | zero => rfl
  | succ n ih => unfold processEligible; (repeat' split) <;> simp [ih]
@[simp] theorem mems_processAll (q s) : mems (processAll q s) = mems s := by simp [processAll]
theorem mems_admitUnexp {u s t} (h : admitUnexp u s = some t) : mems t = mems s := by
  unfold admitUnexp at h
  dsimp only at h
  split at h
  · cases h
  · generalize (if u.announce = true then _ else _ : Option (List Nat)) = pieces at h
    split at h
    · cases h
    · split at h
      · cases h
      next ht => cases h; simp [mems_arvTake ht]
@[simp] theorem mems_ackCount (q p since delivered s) : mems (ackCount q p since delivered s) = mems s := by simp [ackCount]
@[simp] theorem mems_deliverSend (q psn0 half1 s) : mems (deliverSend q psn0 half1 s) = mems s :=
    by unfold deliverSend; dsimp only; (repeat' split) <;> simp
@[simp] theorem mems_markHalf1 (q half1 s) : mems (markHalf1 q half1 s) = mems s := by simp [markHalf1]
@[simp] theorem mems_noteHalf1 (q msn half1 s) : mems (noteHalf1 q msn half1 s) = mems s := by simp [noteHalf1]
@[simp] theorem mems_countPacket (q p since half1 s) : mems (countPacket q p since half1 s).1 = mems s :=
    by unfold countPacket; (repeat' split) <;> simp

/-! #### The transmit engine (05) -/

@[simp] theorem mems_takeHalf (f s) : mems (takeHalf f s).2 = mems s := by unfold takeHalf; split <;> simp
@[simp] theorem mems_pace (hp ep charge s) : mems (pace hp ep charge s) = mems s := by unfold pace; split <;> simp
@[simp] theorem mems_txRecord (q x i m run charge p d s) : mems (txRecord q x i m run charge p d s) = mems s := by simp [txRecord]
@[simp] theorem mems_txSend_go (q x i m payload hp psn d s) : mems (txSend.go q x i m payload hp psn d s) = mems s := by simp [txSend.go]
@[simp] theorem mems_txSend (q x i m payload s) : mems (txSend q x i m payload s) = mems s := by
  unfold txSend
  dsimp only
  (repeat' split) <;> simp
@[simp] theorem mems_resendPkt (hp a s) : mems (resendPkt hp a s).2 = mems s := by simp [resendPkt]
@[simp] theorem mems_resendList (hp which a s) : mems (resendList hp which a s).2 = mems s := by
  induction a generalizing s with
  | nil => rfl
  | cons t l ih => unfold resendList; split <;> simp [ih]
@[simp] theorem mems_resendWhere (q which s) : mems (resendWhere q which s) = mems s := by
  unfold resendWhere
  dsimp only
  split
  · rfl
  · split
    · rfl
    · rw [mems_modQp, mems_foldl_snd (fun z m => by dsimp only; split <;> simp)]
@[simp] theorem mems_afterAck (q freed latest s) : mems (afterAck q freed latest s) = mems s := by unfold afterAck; (repeat' split) <;> simp
@[simp] theorem mems_ackWhere (q which covers s) : mems (ackWhere q which covers s) = mems s := by unfold ackWhere; split <;> simp
@[simp] theorem mems_destAck (q p isAck s) : mems (destAck q p isAck s) = mems s := by unfold destAck; dsimp only; (repeat' split) <;> simp

/-! #### The receive engine (05, 06, 12) -/

@[simp] theorem mems_remoteErrorNotice (q p detail s) : mems (remoteErrorNotice q p detail s) = mems s :=
    by unfold remoteErrorNotice; split <;> simp
@[simp] theorem mems_refuseRemote (q p detail s) : mems (refuseRemote q p detail s) = mems s := by simp [refuseRemote]
@[simp] theorem mems_refuseInvalid (q p s) : mems (refuseInvalid q p s) = mems s := by simp [refuseInvalid]
@[simp] theorem mems_placeSegs (q p since kind serial segs bytes s) : mems (placeSegs q p since kind serial segs bytes s) = mems s :=
    by simp [placeSegs]
@[simp] theorem mems_openRec (q p psn0 slot s) : mems (openRec q p psn0 slot s) = mems s := by simp [openRec]
@[simp] theorem mems_atomRequest (j p s) : mems (atomRequest j p s) = mems s := by simp [atomRequest]
@[simp] theorem mems_startAtoms (s) : mems (startAtoms s) = mems s := by
  unfold startAtoms
  dsimp only
  rw [mems_withRxe, mems_foldl_snd (fun z j => by (repeat' split) <;> simp)]
@[simp] theorem mems_pushAtom (j s) : mems (pushAtom j s) = mems s := by simp [pushAtom]
@[simp] theorem mems_sendResp (at_ p j data s) : mems (sendResp at_ p j data s) = mems s := by simp [sendResp]
@[simp] theorem mems_releaseSend (q p s) : mems (releaseSend q p s) = mems s := by unfold releaseSend; dsimp only; (repeat' split) <;> simp
@[simp] theorem mems_markCount (q p s) : mems (markCount q p s) = mems s := by simp [markCount]
theorem mems_notifySlot {q x p s t} (h : notifySlot q x p s = some t) : mems t = mems s := by
  unfold notifySlot at h
  split at h
  · exact mems_arvTake h
  · cases h; rfl
@[simp] theorem mems_passWrite (q x p since serial segs s) : mems (passWrite q x p since serial segs s) = mems s := by
  unfold passWrite
  split
  · simp
  · split
    · simp
    next h => simp [mems_notifySlot h]
@[simp] theorem mems_passCounterAdd (q x p since serial segs s) : mems (passCounterAdd q x p since serial segs s) = mems s := by
  unfold passCounterAdd
  split
  · simp
  · split
    · simp
    · split
      · simp
      next h => simp [mems_notifySlot h]
      next h => simp [mems_notifySlot h]
@[simp] theorem mems_resendResult (q x p s) : mems (resendResult q x p s) = mems s := by unfold resendResult; split <;> simp
@[simp] theorem mems_passAtomic (q x p serial segs s) : mems (passAtomic q x p serial segs s) = mems s :=
    by unfold passAtomic; (repeat' split) <;> simp
@[simp] theorem mems_readPieces (q at_ p serial segs a b s) : mems (readPieces q at_ p serial segs a b s) = mems s := by
  induction a generalizing b s with
  | zero => rfl
  | succ n ih => rw [readPieces, ih]; simp
@[simp] theorem mems_passRead (q x p since serial segs s) : mems (passRead q x p since serial segs s) = mems s := by simp [passRead]
@[simp] theorem mems_readDelivered (q m s) : mems (readDelivered q m s) = mems s :=
    by unfold readDelivered; dsimp only; (repeat' split) <;> simp
@[simp] theorem mems_readPlaced (q psn n s) : mems (readPlaced q psn n s) = mems s := by unfold readPlaced; (repeat' split) <;> simp
@[simp] theorem mems_respMark (q x p s) : mems (respMark q x p s) = mems s := by unfold respMark; dsimp only; (repeat' split) <;> simp
@[simp] theorem mems_noteWritten (recv psn n s) : mems (noteWritten recv psn n s) = mems s := by simp [noteWritten]
@[simp] theorem mems_rxReadResp (q x p s) : mems (rxReadResp q x p s) = mems s := by unfold rxReadResp; split <;> simp
@[simp] theorem mems_passResp (q x p serial segs s) : mems (passResp q x p serial segs s) = mems s := by unfold passResp; split <;> simp
@[simp] theorem mems_rxKeyed (p since c s) : mems (rxKeyed p since c s) = mems s := by unfold rxKeyed; dsimp only; (repeat' split) <;> simp
@[simp] theorem mems_markAnnounce (q p since s) : mems (markAnnounce q p since s) = mems s := by simp [markAnnounce]
@[simp] theorem mems_placeSend (q p since b s) : mems (placeSend q p since b s) = mems s := by simp [placeSend]
@[simp] theorem mems_placePiece (q p since u s) : mems (placePiece q p since u s) = mems s := by simp [placePiece]
@[simp] theorem mems_noteSend (q p s) : mems (noteSend q p s) = mems s := by simp [noteSend]
@[simp] theorem mems_rxSendFirst (q x p since s) : mems (rxSendFirst q x p since s) = mems s := by
  unfold rxSendFirst
  dsimp only
  split
  · split <;> simp
  · split
    · simp
    next h =>
      have ht := mems_admitUnexp h
      (repeat' split) <;> simp [ht]
@[simp] theorem mems_rxSend (q x p since s) : mems (rxSend q x p since s) = mems s := by unfold rxSend; dsimp only; (repeat' split) <;> simp
@[simp] theorem mems_rxSendChecked (p recv since c s) : mems (rxSendChecked p recv since c s) = mems s :=
    by unfold rxSendChecked; dsimp only; (repeat' split) <;> simp
@[simp] theorem mems_noteSource (p s) : mems (noteSource p s) = mems s := by simp [noteSource]
@[simp] theorem mems_rxRequest (q x p since s) : mems (rxRequest q x p since s) = mems s :=
    by unfold rxRequest; dsimp only; (repeat' split) <;> simp

/-! #### Responses at the sender (05) -/

@[simp] theorem mems_rxAck (q x p s) : mems (rxAck q x p s) = mems s := by simp [rxAck]
@[simp] theorem mems_busyTime (b s) : mems (busyTime b s).2 = mems s := by simp [busyTime]
@[simp] theorem mems_busyNak (q x m psn s) : mems (busyNak q x m psn s) = mems s := by simp [busyNak]
@[simp] theorem mems_rxNak (q x p s) : mems (rxNak q x p s) = mems s := by unfold rxNak; split <;> simp
@[simp] theorem mems_writeRecord (f bus value st dt gen s) : mems (writeRecord f bus value st dt gen s) = mems s := by simp [writeRecord]
@[simp] theorem mems_atomicDone (q m s) : mems (atomicDone q m s) = mems s := by simp [atomicDone]
@[simp] theorem mems_rxAtomicResp (q x p s) : mems (rxAtomicResp q x p s) = mems s := by unfold rxAtomicResp; split <;> simp
@[simp] theorem mems_atomicRecordChecked (p c s) : mems (atomicRecordChecked p c s) = mems s :=
    by unfold atomicRecordChecked; dsimp only; (repeat' split) <;> simp
@[simp] theorem mems_missPacket (q p s) : mems (missPacket q p s) = mems s := by simp [missPacket]
@[simp] theorem mems_rxResident (q x p since s) : mems (rxResident q x p since s) = mems s :=
    by unfold rxResident; dsimp only; (repeat' split) <;> simp
@[simp] theorem mems_rxArrive (p s) : mems (rxArrive p s) = mems s := by unfold rxArrive; dsimp only; (repeat' split) <;> simp
@[simp] theorem mems_txNext (q s) : mems (txNext q s) = mems s := by unfold txNext; dsimp only; (repeat' split) <;> simp
@[simp] theorem mems_stopBuilding (q psn s) : mems (stopBuilding q psn s) = mems s := by simp [stopBuilding]
@[simp] theorem mems_txDataChecked (q psn c s) : mems (txDataChecked q psn c s) = mems s :=
    by unfold txDataChecked; (repeat' split) <;> simp
@[simp] theorem mems_txDataCome (q psn d s) : mems (txDataCome q psn d s) = mems s := by unfold txDataCome; (repeat' split) <;> simp
@[simp] theorem mems_respEnd (serial s) : mems (respEnd serial s) = mems s := by simp [respEnd]
@[simp] theorem mems_respDataCome (q psn d s) : mems (respDataCome q psn d s) = mems s := by unfold respDataCome; (repeat' split) <;> simp
@[simp] theorem mems_leaveHost (k hp which s) : mems (leaveHost k hp which s) = mems s := by simp [leaveHost]
@[simp] theorem mems_placementDone (q psn resp s) : mems (placementDone q psn resp s) = mems s :=
    by unfold placementDone; dsimp only; (repeat' split) <;> simp
@[simp] theorem mems_rtoExpire (q s) : mems (rtoExpire q s) = mems s := by unfold rtoExpire; (repeat' split) <;> simp
@[simp] theorem mems_probeAgain (q x m s) : mems (probeAgain q x m s) = mems s := by simp [probeAgain]
@[simp] theorem mems_backoffEnd (q s) : mems (backoffEnd q s) = mems s := by unfold backoffEnd; dsimp only; (repeat' split) <;> simp
@[simp] theorem mems_ackExpire (q s) : mems (ackExpire q s) = mems s := by unfold ackExpire; (repeat' split) <;> simp

/-! #### Issue of entries (02) -/

@[simp] theorem mems_failEntry (ref q st dt s) : mems (failEntry ref q st dt s) = mems s := by simp [failEntry]
@[simp] theorem mems_issueMsg (ref q m s) : mems (issueMsg ref q m s) = mems s := by simp [issueMsg]
@[simp] theorem mems_askEntry (ref acc s) : mems (askEntry ref acc s) = mems s := by simp [askEntry]
@[simp] theorem mems_askTable (ref q x e s) : mems (askTable ref q x e s) = mems s := by simp [askTable]
@[simp] theorem mems_askZero (ref q x e s) : mems (askZero ref q x e s) = mems s := by simp [askZero]
@[simp] theorem mems_issueSend (ref q x e s) : mems (issueSend ref q x e s) = mems s := by simp [issueSend]
@[simp] theorem mems_issueWrite (ref q x e s) : mems (issueWrite ref q x e s) = mems s := by simp [issueWrite]
@[simp] theorem mems_issueRead (ref q x e s) : mems (issueRead ref q x e s) = mems s := by simp [issueRead]
@[simp] theorem mems_issueAtomic (ref q a e s) : mems (issueAtomic ref q a e s) = mems s := by simp [issueAtomic]
@[simp] theorem mems_issueCounterAdd (ref q a e s) : mems (issueCounterAdd ref q a e s) = mems s := by simp [issueCounterAdd]
@[simp] theorem mems_issueQp (op post go f r s) (hgo : ∀ u v w x t, mems (go u v w x t) = mems t) :
    mems (issueQp op post go f r s) = mems s :=
    by
  unfold issueQp
  (repeat' split) <;> simp [hgo]
@[simp] theorem mems_entryGoesOn (ref post go s) (hgo : ∀ u t, mems (go u t) = mems t) : mems (entryGoesOn ref post go s) = mems s := by
  unfold entryGoesOn
  (repeat' split) <;> simp [hgo]
@[simp] theorem mems_sendTested (ref c s) : mems (sendTested ref c s) = mems s := by unfold sendTested; split <;> simp
@[simp] theorem mems_zeroChecked (ref c s) : mems (zeroChecked ref c s) = mems s := by unfold zeroChecked; split <;> simp
@[simp] theorem mems_askRecv (ref q x parts s) : mems (askRecv ref q x parts s) = mems s := by simp [askRecv]
@[simp] theorem mems_issuePostRecv (ref q x e s) : mems (issuePostRecv ref q x e s) = mems s := by simp [issuePostRecv]
@[simp] theorem mems_acceptRecv (r s) : mems (acceptRecv r s) = mems s := by unfold acceptRecv; dsimp only; (repeat' split) <;> simp
@[simp] theorem mems_postRecvChecked (ref parts c s) : mems (postRecvChecked ref parts c s) = mems s := by
  unfold postRecvChecked
  dsimp only
  split
  · simp
  · rw [mems_entryGoesOn]
    · simp
    · intro x t
      split
      · simp
      next h => split <;> simp [mems_arvTake h]
@[simp] theorem mems_notePd (ref e s) : mems (notePd ref e s) = mems s := by unfold notePd; split <;> simp
@[simp] theorem mems_tableChecked (ref c s) : mems (tableChecked ref c s) = mems s := by unfold tableChecked; split <;> simp
@[simp] theorem mems_fragmentsCome (ref e bs s) : mems (fragmentsCome ref e bs s) = mems s := by simp [fragmentsCome]
@[simp] theorem mems_waitCtrLook (f r idx w s) : mems (waitCtrLook f r idx w s) = mems s :=
    by unfold waitCtrLook; dsimp only; (repeat' split) <;> simp
@[simp] theorem mems_waitCtrChecked (ref w c s) : mems (waitCtrChecked ref w c s) = mems s :=
    by unfold waitCtrChecked; (repeat' split) <;> simp
@[simp] theorem mems_issueSignal (f r s) : mems (issueSignal f r s) = mems s := by unfold issueSignal; split <;> simp
@[simp] theorem mems_signalChecked (ref c s) : mems (signalChecked ref c s) = mems s := by unfold signalChecked; (repeat' split) <;> simp

/-! #### Admin entries (02, 03) -/

@[simp] theorem mems_blkWrite (ref e at_ k v s) : mems (blkWrite ref e at_ k v s) = mems s := by simp [blkWrite]
@[simp] theorem mems_adminRun (op f d go s) (hgo : ∀ u v w t, mems (go u v w t) = mems t) : mems (adminRun op f d go s) = mems s := by
  unfold adminRun
  dsimp only
  (repeat' split) <;> simp [hgo]
@[simp] theorem mems_setPage (f page u s) : mems (setPage f page u s) = mems s := by rfl
@[simp] theorem mems_newRing (f id page log2 fmt8520 base mirror start s) :
    mems (newRing f id page log2 fmt8520 base mirror start s) = mems s :=
    by simp [newRing]
@[simp] theorem mems_ringCreateGo (a b c s) : mems (ringCreateGo a b c s) = mems s :=
    by unfold ringCreateGo; dsimp only; (repeat' split) <;> simp
@[simp] theorem mems_dropRing (f id s) : mems (dropRing f id s) = mems s := by unfold dropRing; dsimp only; (repeat' split) <;> simp
@[simp] theorem mems_ringDestroyGo (a b c s) : mems (ringDestroyGo a b c s) = mems s :=
    by unfold ringDestroyGo; dsimp only; (repeat' split) <;> simp
@[simp] theorem mems_ringResumeGo (a b c s) : mems (ringResumeGo a b c s) = mems s :=
    by unfold ringResumeGo; dsimp only; (repeat' split) <;> simp
@[simp] theorem mems_arvCreateGo (a b c s) : mems (arvCreateGo a b c s) = mems s :=
    by unfold arvCreateGo; dsimp only; (repeat' split) <;> simp
@[simp] theorem mems_arvDestroyGo (a b c s) : mems (arvDestroyGo a b c s) = mems s :=
    by unfold arvDestroyGo; dsimp only; (repeat' split) <;> simp
@[simp] theorem mems_pdAllocGo (a b c s) : mems (pdAllocGo a b c s) = mems s := by unfold pdAllocGo; dsimp only; (repeat' split) <;> simp
@[simp] theorem mems_stopFills (hit gone s) : mems (stopFills hit gone s) = mems s := by rfl
@[simp] theorem mems_pdFreeGo (a b c s) : mems (pdFreeGo a b c s) = mems s := by unfold pdFreeGo; dsimp only; (repeat' split) <;> simp
@[simp] theorem mems_askDesc (ref idx purpose s) : mems (askDesc ref idx purpose s) = mems s := by simp [askDesc]
@[simp] theorem mems_registerGo (ref b s) : mems (registerGo ref b s) = mems s := by unfold registerGo; dsimp only; (repeat' split) <;> simp
@[simp] theorem mems_revokeGo (ref b s) : mems (revokeGo ref b s) = mems s := by unfold revokeGo; dsimp only; (repeat' split) <;> simp
@[simp] theorem mems_mrRegisterGo (a b c s) : mems (mrRegisterGo a b c s) = mems s := by simp [mrRegisterGo]
@[simp] theorem mems_mrRevokeGo (a b c s) : mems (mrRevokeGo a b c s) = mems s := by simp [mrRevokeGo]
@[simp] theorem mems_xltInvalidateGo (a b c s) : mems (xltInvalidateGo a b c s) = mems s :=
    by unfold xltInvalidateGo; dsimp only; (repeat' split) <;> simp
@[simp] theorem mems_lockWalk (ref pd va s) : mems (lockWalk ref pd va s) = mems s := by unfold lockWalk; split <;> simp
@[simp] theorem mems_xltLockGo (a b c s) : mems (xltLockGo a b c s) = mems s := by unfold xltLockGo; (repeat' split) <;> simp
@[simp] theorem mems_lockLeaf (ref w l s) : mems (lockLeaf ref w l s) = mems s := by unfold lockLeaf; dsimp only; (repeat' split) <;> simp
@[simp] theorem mems_xltUnlockGo (a b c s) : mems (xltUnlockGo a b c s) = mems s :=
    by unfold xltUnlockGo; dsimp only; (repeat' split) <;> simp
@[simp] theorem mems_btrSetGo (a b c s) : mems (btrSetGo a b c s) = mems s := by unfold btrSetGo; dsimp only; (repeat' split) <;> simp

/-! #### Contexts of queue pairs (04) -/

@[simp] theorem mems_setBound (q f p s) : mems (setBound q f p s) = mems s := by rfl
@[simp] theorem mems_qpCreateGo (a b c s) : mems (qpCreateGo a b c s) = mems s := by unfold qpCreateGo; dsimp only; (repeat' split) <;> simp
@[simp] theorem mems_createDone (ref b incarn s) : mems (createDone ref b incarn s) = mems s := by unfold createDone; split <;> simp
@[simp] theorem mems_modifyDone (ref q blk s) : mems (modifyDone ref q blk s) = mems s := by unfold modifyDone; split <;> simp
@[simp] theorem mems_modifyPerform (ref q b x st blk s) : mems (modifyPerform ref q b x st blk s) = mems s :=
    by unfold modifyPerform; split <;> simp
@[simp] theorem mems_modifyResident (ref b blk x s) : mems (modifyResident ref b blk x s) = mems s :=
    by unfold modifyResident; (repeat' split) <;> simp
@[simp] theorem mems_qpModifyGo (a b c s) : mems (qpModifyGo a b c s) = mems s := by unfold qpModifyGo; dsimp only; (repeat' split) <;> simp
@[simp] theorem mems_queryWrite (ref bs s) : mems (queryWrite ref bs s) = mems s := by simp [queryWrite]
@[simp] theorem mems_qpQueryGo (a b c s) : mems (qpQueryGo a b c s) = mems s := by unfold qpQueryGo; dsimp only; (repeat' split) <;> simp
@[simp] theorem mems_destroyResident (ref q x s) : mems (destroyResident ref q x s) = mems s := by simp [destroyResident]
@[simp] theorem mems_qpDestroyGo (a b c s) : mems (qpDestroyGo a b c s) = mems s :=
    by unfold qpDestroyGo; dsimp only; (repeat' split) <;> simp
@[simp] theorem mems_serveFetch (q jobs s) (hjobs : ∀ t, mems (jobs t) = mems t) : mems (serveFetch q jobs s) = mems s := by
  unfold serveFetch
  dsimp only
  rw [mems_foldl (fun t p => by (repeat' split) <;> simp), hjobs]
  simp
@[simp] theorem mems_jobUnbound (q x j s) : mems (jobUnbound q x j s) = mems s := by unfold jobUnbound; split <;> simp
@[simp] theorem mems_destroyFails (ref q s) : mems (destroyFails ref q s) = mems s := by simp [destroyFails]
@[simp] theorem mems_jobGo (q incarn j s) : mems (jobGo q incarn j s) = mems s := by unfold jobGo; (repeat' split) <;> simp
@[simp] theorem mems_jobsGo (q a b s) : mems (jobsGo q a b s) = mems s := by
  induction b generalizing a s with
  | nil => rfl
  | cons j t ih => rw [jobsGo, ih, mems_jobGo]
@[simp] theorem mems_jobFailed (q pcie j s) : mems (jobFailed q pcie j s) = mems s := by unfold jobFailed; (repeat' split) <;> simp
@[simp] theorem mems_installQp (q f x s) : mems (installQp q f x s) = mems s := by unfold installQp; dsimp only; (repeat' split) <;> simp
@[simp] theorem mems_installFetched (q f y s) : mems (installFetched q f y s) = mems s := by unfold installFetched; split <;> simp
@[simp] theorem mems_endFetch (q s) : mems (endFetch q s) = mems s := by rfl
@[simp] theorem mems_fetchFailed (q f x pcie s) : mems (fetchFailed q f x pcie s) = mems s := by simp [fetchFailed]
@[simp] theorem mems_fetchCome (q d s) : mems (fetchCome q d s) = mems s := by unfold fetchCome; (repeat' split) <;> simp
@[simp] theorem mems_fetchRetry (q s) : mems (fetchRetry q s) = mems s := by unfold fetchRetry; split <;> simp
@[simp] theorem mems_evictOne (s) : mems (evictOne s) = mems s := by unfold evictOne; dsimp only; (repeat' split) <;> simp
@[simp] theorem mems_eviction (s) : mems (eviction s) = mems s := by simp [eviction]
@[simp] theorem mems_enableTable (f ctrl ok s) : mems (enableTable f ctrl ok s) = mems s := by simp [enableTable]
@[simp] theorem mems_disableTable (f ctrl held s) : mems (disableTable f ctrl held s) = mems s := by simp [disableTable]
@[simp] theorem mems_keytabOff (f s) : mems (keytabOff f s) = mems s := by simp [keytabOff]
@[simp] theorem mems_adminEnable (f start s) : mems (adminEnable f start s) = mems s := by simp [adminEnable]
@[simp] theorem mems_adminDisable (f s) : mems (adminDisable f s) = mems s := by simp [adminDisable]
@[simp] theorem mems_takeWaiting (which s) : mems (takeWaiting which s).2 = mems s := by rfl
@[simp] theorem mems_setWaits (which f s) : mems (setWaits which f s) = mems s := by rfl
@[simp] theorem mems_descCome (f idx d s) : mems (descCome f idx d s) = mems s := by
  unfold descCome
  dsimp only
  split
  · rfl
  · rw [mems_foldl (fun t w => by split <;> simp)]
    split <;> simp
@[simp] theorem mems_walkAborts (w detail s) : mems (walkAborts w detail s) = mems s := by unfold walkAborts; split <;> simp
@[simp] theorem mems_walkCome (serial d s) : mems (walkCome serial d s) = mems s := by unfold walkCome; (repeat' split) <;> simp
@[simp] theorem mems_flushCome (link d s) : mems (flushCome link d s) = mems s := by unfold flushCome; (repeat' split) <;> simp

/-! #### The lock unit (12) -/

@[simp] theorem mems_putSem (n x s) : mems (putSem n x s) = mems s := by rfl
@[simp] theorem mems_lckIgnored (s) : mems (lckIgnored s) = mems s := by simp [lckIgnored]
@[simp] theorem mems_modAct (c f s) : mems (modAct c f s) = mems s := by unfold modAct; split <;> simp
@[simp] theorem mems_semReturn (m n st s) : mems (semReturn m n st s) = mems s := by simp [semReturn]
@[simp] theorem mems_semGrant (n m s) : mems (semGrant n m s) = mems s := by simp [semGrant]
@[simp] theorem mems_semFree (n ab s) : mems (semFree n ab s) = mems s := by unfold semFree; dsimp only; (repeat' split) <;> simp
@[simp] theorem mems_semAbandon (n m s) : mems (semAbandon n m s) = mems s := by simp [semAbandon]
@[simp] theorem mems_semAcquire (n m s) : mems (semAcquire n m s) = mems s := by simp [semAcquire]
@[simp] theorem mems_semCancel (n m s) : mems (semCancel n m s) = mems s := by simp [semCancel]
@[simp] theorem mems_semNoExcuse (n m s) : mems (semNoExcuse n m s) = mems s := by simp [semNoExcuse]
@[simp] theorem mems_semRead (n m s) : mems (semRead n m s) = mems s := by simp [semRead]
@[simp] theorem mems_semResetGo (m s) : mems (semResetGo m s) = mems s := by simp [semResetGo]
@[simp] theorem mems_semReset (m s) : mems (semReset m s) = mems s := by simp [semReset]
@[simp] theorem mems_semLose (s) : mems (semLose s) = mems s := by simp [semLose]

/-! #### Taper: events, activations, invocations (08) -/

@[simp] theorem mems_tprIgnored (s) : mems (tprIgnored s) = mems s := by simp [tprIgnored]
@[simp] theorem mems_putCore (c x s) : mems (putCore c x s) = mems s := by simp [putCore]
@[simp] theorem mems_resetCores (cs s) : mems (resetCores cs s) = mems s := by simp [resetCores]
@[simp] theorem mems_putInvoc (i v s) : mems (putInvoc i v s) = mems s := by simp [putInvoc]
@[simp] theorem mems_modInvoc (i f s) : mems (modInvoc i f s) = mems s := by simp [modInvoc]
@[simp] theorem mems_tprSend (att p s) : mems (tprSend att p s) = mems s := by simp [tprSend]
@[simp] theorem mems_pushReady (c r s) : mems (pushReady c r s) = mems s := by simp [pushReady]
@[simp] theorem mems_invSched (i s) : mems (invSched i s) = mems s := by unfold invSched; (repeat' split) <;> simp
@[simp] theorem mems_invEvent (i w s) : mems (invEvent i w s) = mems s := by unfold invEvent; split <;> simp
@[simp] theorem mems_ownerEvent (o w s) : mems (ownerEvent o w s) = mems s := by unfold ownerEvent; split <;> simp
@[simp] theorem mems_showProg (h s) : mems (showProg h s) = mems s := by unfold showProg; split <;> simp
@[simp] theorem mems_imageSweep (i s) : mems (imageSweep i s) = mems s := by simp [imageSweep]
@[simp] theorem mems_progDrain (h s) : mems (progDrain h s) = mems s := by unfold progDrain; dsimp only; (repeat' split) <;> simp
@[simp] theorem mems_freeCore (c s) : mems (freeCore c s) = mems s := by unfold freeCore; split <;> simp
@[simp] theorem mems_stopAct (i s) : mems (stopAct i s) = mems s := by unfold stopAct; dsimp only; (repeat' split) <;> simp
@[simp] theorem mems_dropInvoc (i s) : mems (dropInvoc i s) = mems s := by unfold dropInvoc; split <;> simp

/-! #### Collective instances (07) -/

@[simp] theorem mems_withCol (f s) : mems (withCol f s) = mems s := by rfl
@[simp] theorem mems_colIgnored (s) : mems (colIgnored s) = mems s := by simp [colIgnored]
@[simp] theorem mems_putInst (i x s) : mems (putInst i x s) = mems s := by simp [putInst]
@[simp] theorem mems_modInst (i f s) : mems (modInst i f s) = mems s := by simp [modInst]
@[simp] theorem mems_meet (i ep s) : mems (meet i ep s) = mems s := by simp [meet]
@[simp] theorem mems_colRemember (i op hp p s) : mems (colRemember i op hp p s) = mems s := by simp [colRemember]
@[simp] theorem mems_colOut (hp p s) : mems (colOut hp p s) = mems s := by simp [colOut]
@[simp] theorem mems_colSend (i op hp p s) : mems (colSend i op hp p s) = mems s := by simp [colSend]
@[simp] theorem mems_colAnswer (p s) : mems (colAnswer p s) = mems s := by simp [colAnswer]
@[simp] theorem mems_putMbx (n x s) : mems (putMbx n x s) = mems s := by rfl
@[simp] theorem mems_mbxSet (n st dt value s) : mems (mbxSet n st dt value s) = mems s := by simp [mbxSet]
@[simp] theorem mems_mbxFill (n st dt value s) : mems (mbxFill n st dt value s) = mems s := by simp [mbxFill]
@[simp] theorem mems_instEvent (x w s) : mems (instEvent x w s) = mems s := by simp [instEvent]
@[simp] theorem mems_dropTx (i op s) : mems (dropTx i op s) = mems s := by simp [dropTx]
@[simp] theorem mems_dropInst (i s) : mems (dropInst i s) = mems s := by simp [dropInst]
@[simp] theorem mems_instFinish (i st dt s) : mems (instFinish i st dt s) = mems s := by unfold instFinish; split <;> simp
@[simp] theorem mems_writeRecordAt (f bus idx st dt value s) : mems (writeRecordAt f bus idx st dt value s) = mems s :=
    by simp [writeRecordAt]
@[simp] theorem mems_opDrains (o s) : mems (opDrains o s) = mems s := by unfold opDrains; split <;> simp
@[simp] theorem mems_instFailOn (sched i st dt s) : mems (instFailOn sched i st dt s) = mems s := by unfold instFailOn; split <;> simp
@[simp] theorem mems_instFail (i st dt s) : mems (instFail i st dt s) = mems s := by simp [instFail]
@[simp] theorem mems_invFail (i st dt s) : mems (invFail i st dt s) = mems s := by unfold invFail; split <;> simp
@[simp] theorem mems_conclude (i s) : mems (conclude i s) = mems s := by unfold conclude; dsimp only; (repeat' split) <;> simp
@[simp] theorem mems_opFinish (i op st dt s) : mems (opFinish i op st dt s) = mems s := by unfold opFinish; (repeat' split) <;> simp
@[simp] theorem mems_opFail (i op st dt s) : mems (opFail i op st dt s) = mems s := by unfold opFail; (repeat' split) <;> simp
@[simp] theorem mems_instAbortOn (sched i dt s) : mems (instAbortOn sched i dt s) = mems s := by unfold instAbortOn; split <;> simp
@[simp] theorem mems_instAbort (i dt s) : mems (instAbort i dt s) = mems s := by simp [instAbort]

/-! #### Collective operations (07) -/

@[simp] theorem mems_chunkBytes (n bs s) : mems (chunkBytes n bs s).2 = mems s := by unfold chunkBytes; split <;> simp
@[simp] theorem mems_setPhase (i op ph s) : mems (setPhase i op ph s) = mems s := by simp [setPhase]
@[simp] theorem mems_sendHost (i x o ps s) : mems (sendHost i x o ps s) = mems s := by simp [sendHost]
@[simp] theorem mems_sendCredited (i o ps a b s) : mems (sendCredited i o ps a b s) = mems s := by
  induction a generalizing b s with
  | zero => rfl
  | succ n ih => unfold sendCredited; dsimp only; (repeat' split) <;> simp [ih]
@[simp] theorem mems_sendMore (i o sent s) : mems (sendMore i o sent s) = mems s := by unfold sendMore; (repeat' split) <;> simp
@[simp] theorem mems_sendGo (i x o d s) : mems (sendGo i x o d s) = mems s := by simp [sendGo]
@[simp] theorem mems_sendCopy (dir k budget copy p s) : mems (sendCopy dir k budget copy p s) = mems s := by unfold sendCopy; split <;> simp
@[simp] theorem mems_placeFor (i p s) : mems (placeFor i p s) = mems s := by unfold placeFor; split <;> simp
@[simp] theorem mems_mcastGo (i x o d s) : mems (mcastGo i x o d s) = mems s := by simp [mcastGo]
@[simp] theorem mems_outGo (i x o d part s) : mems (outGo i x o d part s) = mems s := by unfold outGo; dsimp only; (repeat' split) <;> simp
@[simp] theorem mems_placeGo (i x o d s) : mems (placeGo i x o d s) = mems s := by simp [placeGo]
@[simp] theorem mems_dataGo (i op d s) : mems (dataGo i op d s) = mems s := by unfold dataGo; (repeat' split) <;> simp
@[simp] theorem mems_dataStart (i x o r s) : mems (dataStart i x o r s) = mems s :=
    by unfold dataStart; dsimp only; (repeat' split) <;> simp
@[simp] theorem mems_reduceStart (i x o s) : mems (reduceStart i x o s) = mems s := by unfold reduceStart; (repeat' split) <;> simp
@[simp] theorem mems_gatherInputs (x o a b s) : mems (gatherInputs x o a b s).2 = mems s := by
  induction a generalizing b s with
  | nil => rfl
  | cons n t ih =>
    unfold gatherInputs
    dsimp only
    (repeat' split) <;> simp [ih]
@[simp] theorem mems_keepLacs (r ls s) : mems (keepLacs r ls s) = mems s := by simp [keepLacs]
@[simp] theorem mems_reduceGo (i x o host s) : mems (reduceGo i x o host s) = mems s :=
    by unfold reduceGo; dsimp only; (repeat' split) <;> simp
@[simp] theorem mems_reduceDone (i op d s) : mems (reduceDone i op d s) = mems s :=
    by unfold reduceDone; dsimp only; (repeat' split) <;> simp
@[simp] theorem mems_colReadChecked (i op r c s) : mems (colReadChecked i op r c s) = mems s :=
    by unfold colReadChecked; dsimp only; (repeat' split) <;> simp
@[simp] theorem mems_colWriteChecked (i op bs c s) : mems (colWriteChecked i op bs c s) = mems s :=
    by unfold colWriteChecked; (repeat' split) <;> simp
@[simp] theorem mems_colPlaceChecked (i p c s) : mems (colPlaceChecked i p c s) = mems s :=
    by unfold colPlaceChecked; (repeat' split) <;> simp
@[simp] theorem mems_colRecordChecked (i op st dt v c s) : mems (colRecordChecked i op st dt v c s) = mems s :=
    by unfold colRecordChecked; (repeat' split) <;> simp

/-! #### Collective packets (07) -/

theorem mems_modEarly {hp comm seq f s t} (h : modEarly hp comm seq f s = some t) : mems t = mems s := by
  unfold modEarly at h
  split at h
  · cases h; simp
  · split at h
    · cases h
    · cases h; simp
@[simp] theorem mems_tidyEarly (s) : mems (tidyEarly s) = mems s := by simp [tidyEarly]
theorem mems_leaveTomb {hp comm seq s t} (h : leaveTomb hp comm seq s = some t) : mems t = mems s := mems_modEarly h
@[simp] theorem mems_tombExpire (hp comm seq s) : mems (tombExpire hp comm seq s) = mems s := by
  unfold tombExpire
  split
  · rw [mems_tidyEarly]
    cases h : modEarly hp comm seq _ _ with
    | none => rfl
    | some t => simp [mems_modEarly h]
  · rfl
@[simp] theorem mems_putComb (c x s) : mems (putComb c x s) = mems s := by simp [putComb]
@[simp] theorem mems_ackCustody (u s) : mems (ackCustody u s) = mems s := by unfold ackCustody; split <;> simp
@[simp] theorem mems_combDone (c s) : mems (combDone c s) = mems s := by unfold combDone; split <;> simp
@[simp] theorem mems_combRefuse (c s) : mems (combRefuse c s) = mems s := by
  unfold combRefuse
  split
  · rfl
  · dsimp only
    rw [mems_foldl (fun t u => by split <;> simp)]
    simp
@[simp] theorem mems_combApply (c s) : mems (combApply c s) = mems s := by
  unfold combApply
  split
  · rfl
  · dsimp only
    split
    · split <;> simp <;> exact mems_foldl (fun t u => by split <;> simp) _ _
    · split
      next h => simp [mems_modEarly h]
      · simp
@[simp] theorem mems_caddChecked (c k s) : mems (caddChecked c k s) = mems s := by unfold caddChecked; dsimp only; (repeat' split) <;> simp
@[simp] theorem mems_combEmit (x s) : mems (combEmit x s) = mems s := by simp [combEmit]
@[simp] theorem mems_combClose (c s) : mems (combClose c s) = mems s := by unfold combClose; split <;> simp
@[simp] theorem mems_combResend (c s) : mems (combResend c s) = mems s := by unfold combResend; split <;> simp
theorem mems_combJoin {egress budget p u s t} (h : combJoin egress budget p u s = some t) : mems t = mems s := by
  unfold combJoin at h
  split at h
  · cases h; simp
  · obtain ⟨c, -, rfl⟩ := Option.map_eq_some_iff.mp h
    simp
@[simp] theorem mems_caddCome (inp p s) : mems (caddCome inp p s).2 = mems s := by
  unfold caddCome
  (repeat' split) <;> simp
  next h => exact mems_combJoin h
@[simp] theorem mems_caddAcked (inp p s) : mems (caddAcked inp p s) = mems s := by unfold caddAcked; (repeat' split) <;> simp
@[simp] theorem mems_copCreditGo (i x o s) : mems (copCreditGo i x o s) = mems s := by simp [copCreditGo]
@[simp] theorem mems_copCaddGo (i x o s) : mems (copCaddGo i x o s) = mems s := by
  unfold copCaddGo
  dsimp only
  split
  · rfl
  · split
    · simp
    · split
      next h => simp [mems_combJoin h]
      · rfl
@[simp] theorem mems_copResultGo (i x o s) : mems (copResultGo i x o s) = mems s := by simp [copResultGo]
@[simp] theorem mems_copFreeGo (i x o s) : mems (copFreeGo i x o s) = mems s := by simp [copFreeGo]
@[simp] theorem mems_copAbortGo (i x o s) : mems (copAbortGo i x o s) = mems s := by simp [copAbortGo]
@[simp] theorem mems_copEndGo (i x a s) : mems (copEndGo i x a s) = mems s := by simp [copEndGo]
@[simp] theorem mems_copMcastGo (d i x o s) : mems (copMcastGo d i x o s) = mems s := by simp [copMcastGo]
@[simp] theorem mems_copStep (cop i go s) (hgo : ∀ u v w t, mems (go u v w t) = mems t) : mems (copStep cop i go s) = mems s := by
  unfold copStep
  (repeat' split) <;> simp [hgo]
@[simp] theorem mems_colopPut (i desc s) : mems (colopPut i desc s) = mems s := by unfold colopPut; split <;> simp
@[simp] theorem mems_dataToBuf (p s) : mems (dataToBuf p s) = mems s := by unfold dataToBuf; dsimp only; (repeat' split) <;> simp
@[simp] theorem mems_columnStep (p s) : mems (columnStep p s) = mems s := by simp [columnStep]
@[simp] theorem mems_colDataCome (p s) : mems (colDataCome p s) = mems s := by simp [colDataCome]
@[simp] theorem mems_sendsGoOn (i s) : mems (sendsGoOn i s) = mems s := by
  unfold sendsGoOn
  split
  · rfl
  · exact mems_foldl (fun t o => by (repeat' split) <;> simp) _ _
@[simp] theorem mems_colCreditCome (p s) : mems (colCreditCome p s) = mems s := by
  unfold colCreditCome
  dsimp only
  split
  · simp
  · split
    · simp
    · split
      · simp
      · split
        next h => simp [mems_modEarly h]
        · rfl
@[simp] theorem mems_colAckCome (p s) : mems (colAckCome p s) = mems s := by unfold colAckCome; dsimp only; (repeat' split) <;> simp
@[simp] theorem mems_colAbortCome (p s) : mems (colAbortCome p s) = mems s := by
  unfold colAbortCome
  split
  · simp
  · split
    · simp
    · split
      · simp
      · split
        next h => simp [mems_leaveTomb h]
        · rfl
@[simp] theorem mems_colResend (id s) : mems (colResend id s) = mems s := by unfold colResend; split <;> simp
@[simp] theorem mems_earlyGive (i s) : mems (earlyGive i s) = mems s := by unfold earlyGive; (repeat' split) <;> simp

/-! #### Taper cores at work (08) -/

@[simp] theorem mems_tprRun (c k s) (hk : ∀ u t, mems (k u t) = mems t) : mems (tprRun c k s) = mems s := by
  unfold tprRun
  (repeat' split) <;> simp [hk]
@[simp] theorem mems_setAct (c a s) : mems (setAct c a s) = mems s := by simp [setAct]
@[simp] theorem mems_writeW (c a d v s) : mems (writeW c a d v s) = mems s := by simp [writeW]
@[simp] theorem mems_writeV (c a d v s) : mems (writeV c a d v s) = mems s := by simp [writeV]
@[simp] theorem mems_endMsgAct (c a s) : mems (endMsgAct c a s) = mems s := by simp [endMsgAct]
@[simp] theorem mems_tprExc (c a dt s) : mems (tprExc c a dt s) = mems s := by unfold tprExc; split <;> simp
@[simp] theorem mems_progFreeze (h image s) : mems (progFreeze h image s) = mems s := by unfold progFreeze; split <;> simp
@[simp] theorem mems_tprProtection (c a s) : mems (tprProtection c a s) = mems s := by simp [tprProtection]
@[simp] theorem mems_tAccess (c a addr n wr heapOnly k s) (hk : ∀ u t, mems (k u t) = mems t) :
    mems (tAccess c a addr n wr heapOnly k s) = mems s :=
    by
  unfold tAccess
  (repeat' split) <;> simp [hk]
@[simp] theorem mems_tprAlu (c rd ra rb f s) : mems (tprAlu c rd ra rb f s) = mems s := by simp [tprAlu]
@[simp] theorem mems_tprImm (c rd ra f s) : mems (tprImm c rd ra f s) = mems s := by simp [tprImm]
@[simp] theorem mems_tprShift (c rd ra imm f s) : mems (tprShift c rd ra imm f s) = mems s := by simp [tprShift]
@[simp] theorem mems_tprLoad (c rd ra imm n s) : mems (tprLoad c rd ra imm n s) = mems s := by simp [tprLoad]
@[simp] theorem mems_tprJump (c a b s) : mems (tprJump c a b s) = mems s := by simp [tprJump]
@[simp] theorem mems_tprBranch (c ra rb off cond s) : mems (tprBranch c ra rb off cond s) = mems s := by simp [tprBranch]
@[simp] theorem mems_putQueue (c a q s) : mems (putQueue c a q s) = mems s := by unfold putQueue; split <;> simp
@[simp] theorem mems_takeSlots (c a n k s) (hk : ∀ t, mems (k t) = mems t) : mems (takeSlots c a n k s) = mems s :=
    by unfold takeSlots; dsimp only; (repeat' split) <;> simp [*]
@[simp] theorem mems_addOp (a s) : mems (addOp a s) = mems s := by unfold addOp; split <;> simp
@[simp] theorem mems_ownerDone (o w s) : mems (ownerDone o w s) = mems s := by unfold ownerDone; dsimp only; (repeat' split) <;> simp
@[simp] theorem mems_tprWaitev (c rd imm a s) : mems (tprWaitev c rd imm a s) = mems s := by unfold tprWaitev; split <;> simp
@[simp] theorem mems_tprPollev (c rd imm a s) : mems (tprPollev c rd imm a s) = mems s := by unfold tprPollev; split <;> simp
@[simp] theorem mems_tprTimer (c b a s) : mems (tprTimer c b a s) = mems s := by simp [tprTimer]
@[simp] theorem mems_tprRet (c a s) : mems (tprRet c a s) = mems s := by unfold tprRet; split <;> simp
@[simp] theorem mems_tprEnd (c x a s) : mems (tprEnd c x a s) = mems s := by unfold tprEnd; dsimp only; (repeat' split) <;> simp
@[simp] theorem mems_tprCrd (c vd r a s) : mems (tprCrd c vd r a s) = mems s := by unfold tprCrd; split <;> simp
@[simp] theorem mems_tprCwr (c x r a s) : mems (tprCwr c x r a s) = mems s := by unfold tprCwr; dsimp only; (repeat' split) <;> simp
@[simp] theorem mems_tprCfree (c a s) : mems (tprCfree c a s) = mems s := by unfold tprCfree; split <;> simp
@[simp] theorem mems_noChunk (i x s) : mems (noChunk i x s) = mems s := by simp [noChunk]
@[simp] theorem mems_tprColop (c x a s) : mems (tprColop c x a s) = mems s := by
  unfold tprColop
  split
  · simp
  · split
    · simp
    · refine mems_takeSlots _ _ _ _ _ fun t => ?_
      dsimp only
      (repeat' split) <;> simp
@[simp] theorem mems_tprMsg (c x a s) : mems (tprMsg c x a s) = mems s := by simp [tprMsg]
@[simp] theorem mems_tprHxfer (c x a s) : mems (tprHxfer c x a s) = mems s := by simp [tprHxfer]
@[simp] theorem mems_hxferDone (id st dt s) : mems (hxferDone id st dt s) = mems s := by unfold hxferDone; split <;> simp
@[simp] theorem mems_hxferChecked (id k s) : mems (hxferChecked id k s) = mems s := by unfold hxferChecked; split <;> simp
@[simp] theorem mems_tprMbxput (c rd r v a s) : mems (tprMbxput c rd r v a s) = mems s := by simp [tprMbxput]
@[simp] theorem mems_tprSemacq (c rd r a s) : mems (tprSemacq c rd r a s) = mems s := by simp [tprSemacq]
@[simp] theorem mems_tprSemrel (c r a s) : mems (tprSemrel c r a s) = mems s := by unfold tprSemrel; dsimp only; (repeat' split) <;> simp
@[simp] theorem mems_tprNote (c rb x a s) : mems (tprNote c rb x a s) = mems s := by
  unfold tprNote
  dsimp only
  split
  · simp
  · split
    · simp
    · split
      · simp
      next h => simp [mems_arvTake h]
@[simp] theorem mems_startAct (c a s) : mems (startAct c a s) = mems s := by simp [startAct]
@[simp] theorem mems_dispatchTo (c cl r s) : mems (dispatchTo c cl r s) = mems s := by unfold dispatchTo; (repeat' split) <;> simp
@[simp] theorem mems_dispatch (cl s) : mems (dispatch cl s) = mems s := by unfold dispatch; dsimp only; (repeat' split) <;> simp
@[simp] theorem mems_tprWatchdog (c s) : mems (tprWatchdog c s) = mems s := by unfold tprWatchdog; split <;> simp
@[simp] theorem mems_timerExpire (c inv s) : mems (timerExpire c inv s) = mems s := by unfold timerExpire; (repeat' split) <;> simp

/-! #### Taper programs, invocations and messages (08) -/

@[simp] theorem mems_unloadProg (ref h s) : mems (unloadProg ref h s) = mems s := by unfold unloadProg; split <;> simp
@[simp] theorem mems_taperLoadGo (a b c s) : mems (taperLoadGo a b c s) = mems s :=
    by unfold taperLoadGo; dsimp only; (repeat' split) <;> simp
@[simp] theorem mems_taperLoadRow (which f blk s) : mems (taperLoadRow which f blk s) = mems s := by simp [taperLoadRow]
@[simp] theorem mems_newInvoc (ref e h p m cl inst desc s) : mems (newInvoc ref e h p m cl inst desc s).2 = mems s := by simp [newInvoc]
@[simp] theorem mems_invokeGo (ref e desc s) : mems (invokeGo ref e desc s) = mems s :=
    by unfold invokeGo; dsimp only; (repeat' split) <;> simp
@[simp] theorem mems_issueInvoke (f r s) : mems (issueInvoke f r s) = mems s := by unfold issueInvoke; split <;> simp
@[simp] theorem mems_colStartGo (ref e desc s) : mems (colStartGo ref e desc s) = mems s :=
    by unfold colStartGo; dsimp only; (repeat' split) <;> simp
@[simp] theorem mems_issueColStart (f r s) : mems (issueColStart f r s) = mems s := by unfold issueColStart; split <;> simp
@[simp] theorem mems_issueCollAbort (f r s) : mems (issueCollAbort f r s) = mems s := by
  unfold issueCollAbort
  split
  · rfl
  · split
    · simp
    · split
      next h => simp [mems_leaveTomb h]
      · rfl
@[simp] theorem mems_entryReadCome (f r d s) : mems (entryReadCome f r d s) = mems s := by unfold entryReadCome; (repeat' split) <;> simp
@[simp] theorem mems_tmsgAnswer (cl p code s) : mems (tmsgAnswer cl p code s) = mems s := by simp [tmsgAnswer]
@[simp] theorem mems_tmsgCome (p s) : mems (tmsgCome p s) = mems s := by unfold tmsgCome; dsimp only; (repeat' split) <;> simp
@[simp] theorem mems_tmsgDone (m code s) : mems (tmsgDone m code s) = mems s := by simp [tmsgDone]
@[simp] theorem mems_tmsgAcked (p s) : mems (tmsgAcked p s) = mems s := by unfold tmsgAcked; (repeat' split) <;> simp
@[simp] theorem mems_tmsgResend (psn s) : mems (tmsgResend psn s) = mems s := by unfold tmsgResend; split <;> simp
@[simp] theorem mems_acceptExpire (chip psn s) : mems (acceptExpire chip psn s) = mems s := by unfold acceptExpire; split <;> simp
@[simp] theorem mems_progUnfreeze (h s) : mems (progUnfreeze h s) = mems s := by unfold progUnfreeze; split <;> simp
@[simp] theorem mems_fnStopTaper (f s) : mems (fnStopTaper f s) = mems s := by simp [fnStopTaper]
@[simp] theorem mems_fnDropProgs (f s) : mems (fnDropProgs f s) = mems s := by simp [fnDropProgs]

/-! #### Accesses that go on, freezing, and who may write -/

@[simp] theorem mems_copyCome (q psn0 d s) : mems (copyCome q psn0 d s) = mems s := by unfold copyCome; (repeat' split) <;> simp
@[simp] theorem mems_uxCopyChecked (q psn0 bs c s) : mems (uxCopyChecked q psn0 bs c s) = mems s := by unfold uxCopyChecked; split <;> simp
@[simp] theorem mems_xltResume (acc c s) : mems (xltResume acc c s) = mems s := by unfold xltResume; split <;> simp
@[simp] theorem mems_settleN (a s) : mems (settleN a s) = mems s := by
  induction a generalizing s with
  | zero => rfl
  | succ n ih =>
    unfold settleN
    split
    · rfl
    · dsimp only
      split
      · rw [ih, mems_xltResume, mems_drained]; split <;> simp
      · split
        all_goals next he => simp [ih, mems_of_snd he]
@[simp] theorem mems_settle (s) : mems (settle s) = mems s := by simp [settle]
@[simp] theorem mems_transAll (s) : mems (transAll s) = mems s := by simp [transAll]
@[simp] theorem mems_freeze (f cause s) : mems (freeze f cause s) = mems s := by simp [freeze]
@[simp] theorem mems_violation (src f cause s) : mems (violation src f cause s) = mems s := by simp [violation]
@[simp] theorem mems_cross (src r k s) (hk : ∀ t, mems (k t) = mems t) : mems (cross src r k s) = mems s := by
  unfold cross
  split <;> simp [hk]
@[simp] theorem mems_hostWr (f src inP2 k s) (hk : ∀ t, mems (k t) = mems t) : mems (hostWr f src inP2 k s) = mems s := by
  unfold hostWr
  (repeat' split) <;> simp [hk]
@[simp] theorem mems_mgtWr (m k s) (hk : ∀ t, mems (k t) = mems t) : mems (mgtWr m k s) = mems s := by
  have hpriv (t : State) : mems (if m == 0 && rf Reg.HIF_MGTPRIV 0 0 t == 1 then k t else violation 162 m.toNat 6 t) = mems t := by
    split <;> simp [hk]
  unfold mgtWr
  split_ifs
  · rfl
  · exact hk s
  · exact hk s
  · rfl
  · exact mems_hostWr _ _ _ _ _ hpriv
  · rfl
@[simp] theorem mems_mgtWrOff (m k s) (hk : ∀ t, mems (k t) = mems t) : mems (mgtWrOff m k s) = mems s := by
  unfold mgtWrOff
  split
  · rfl
  · exact mems_mgtWr _ _ _ hk

/-! #### Commands of the CMP (02) -/

@[simp] theorem mems_doorbellRejected (f page cause s) : mems (doorbellRejected f page cause s) = mems s := by simp [doorbellRejected]
@[simp] theorem mems_ringTail (f page id a s) : mems (ringTail f page id a s) = mems s := by unfold ringTail; split <;> simp
@[simp] theorem mems_arvFence (f a g s) : mems (arvFence f a g s) = mems s := by simp [arvFence]
@[simp] theorem mems_arvReturn (f a c s) : mems (arvReturn f a c s) = mems s := by unfold arvReturn; split <;> simp
@[simp] theorem mems_doorbell (f page off bytes v s) : mems (doorbell f page off bytes v s) = mems s := by
  unfold doorbell
  refine mems_hostWr _ _ _ _ _ fun t => ?_
  (repeat' split) <;> simp
@[simp] theorem mems_takeEntry (f r g i e s) : mems (takeEntry f r g i e s) = mems s := by unfold takeEntry; split <;> simp
@[simp] theorem mems_entryCome (f r d s) : mems (entryCome f r d s) = mems s := by unfold entryCome; dsimp only; (repeat' split) <;> simp
@[simp] theorem mems_issueFree (op f r s) : mems (issueFree op f r s) = mems s := by unfold issueFree; split <;> simp
theorem mems_blockOps {op : Nat} {go : AdminGo} (h : (op, go) ∈ blockOps) (u v w t) : mems (go u v w t) = mems t := by
  simp only [blockOps, List.mem_cons, Prod.mk.injEq, List.not_mem_nil, or_false] at h
  rcases h with h | h | h | h | h | h | h | h | h | h | h | h | h <;> simp [h.2]
@[simp] theorem mems_blockCome (f d s) : mems (blockCome f d s) = mems s := by
  unfold blockCome
  split
  · rfl
  · split
    next h =>
      split
      · rfl
      · exact mems_adminRun _ _ _ _ _ (mems_blockOps (List.mem_of_find?_eq_some h))
    · rfl

/-! #### Tables of functions (03, 04, 06) -/

@[simp] theorem mems_writeRange (f v s) : mems (writeRange f v s) = mems s := by simp [writeRange]

/-! #### Commands of the transport (05) -/

@[simp] theorem mems_rxTake (p s) : mems (rxTake p s) = mems s := by simp [rxTake]
@[simp] theorem mems_undefinedOp (p s) : mems (undefinedOp p s) = mems s := by simp [undefinedOp]
@[simp] theorem mems_modDest (hp ep f s) : mems (modDest hp ep f s) = mems s := by unfold modDest; split <;> simp
@[simp] theorem mems_destTimer (hp ep due f s) : mems (destTimer hp ep due f s) = mems s := by unfold destTimer; split <;> simp
@[simp] theorem mems_flushHtx (n s) : mems (flushHtx n s) = mems s := by rfl
@[simp] theorem mems_flushRxp (n s) : mems (flushRxp n s) = mems s := by simp [flushRxp]
@[simp] theorem mems_rxdLost (n s e) : mems (rxdLost n s e) = mems s := by simp [rxdLost]
@[simp] theorem mems_flushRxd (n s) : mems (flushRxd n s) = mems s := by simp [flushRxd]
@[simp] theorem mems_loseRxd (n which s) : mems (loseRxd n which s) = mems s := by simp [loseRxd]
@[simp] theorem mems_cutFrames (p seq s) : mems (cutFrames p seq s) = mems s := by simp [cutFrames]
@[simp] theorem mems_flushLtx (p s) : mems (flushLtx p s) = mems s := by unfold flushLtx; (repeat' split) <;> simp
@[simp] theorem mems_loseStaged (id s) : mems (loseStaged id s) = mems s := by unfold loseStaged; dsimp only; (repeat' split) <;> simp
@[simp] theorem mems_flushInput (k n s) : mems (flushInput k n s) = mems s := by simp [flushInput]
@[simp] theorem mems_flushStaging (k n s) : mems (flushStaging k n s) = mems s := by unfold flushStaging; split <;> simp
@[simp] theorem mems_counterAdded (q p since s) : mems (counterAdded q p since s) = mems s := by unfold counterAdded; split <;> simp
@[simp] theorem mems_counterRefused (q p s) : mems (counterRefused q p s) = mems s := by unfold counterRefused; split <;> simp
@[simp] theorem mems_atomicPerformed (q p old s) : mems (atomicPerformed q p old s) = mems s := by unfold atomicPerformed; split <;> simp
@[simp] theorem mems_atomDone (j old s) : mems (atomDone j old s) = mems s := by unfold atomDone; split <;> simp
@[simp] theorem mems_atomFailed (j s) : mems (atomFailed j s) = mems s := by unfold atomFailed; split <;> simp
@[simp] theorem mems_atomFrozen (j old s) : mems (atomFrozen j old s) = mems s := by unfold atomFrozen; (repeat' split) <;> simp
@[simp] theorem mems_atomCome (f addr d s) : mems (atomCome f addr d s) = mems s := by unfold atomCome; dsimp only; (repeat' split) <;> simp

/-! #### Commands of the collective engine (07) -/

@[simp] theorem mems_caddArrive (inp p s) : mems (caddArrive inp p s) = mems s := by
  unfold caddArrive
  dsimp only
  split
  · simp
  · split
    · simp
    · split
      next he => simp [mems_of_snd he]
      · simp
@[simp] theorem mems_mbxReleaseGo (f n off bytes v s) : mems (mbxReleaseGo f n off bytes v s) = mems s := by simp [mbxReleaseGo]
@[simp] theorem mems_mbxRelease (f n off bytes v s) : mems (mbxRelease f n off bytes v s) = mems s := by simp [mbxRelease]
@[simp] theorem mems_writeMbxAlloc (n v s) : mems (writeMbxAlloc n v s) = mems s := by simp [writeMbxAlloc]

/-! #### Commands of the switch core (09) -/

@[simp] theorem mems_noteRate (n i s) : mems (noteRate n i s) = mems s := by unfold noteRate; split <;> simp
@[simp] theorem mems_begun (i s) : mems (begun i s).2 = mems s := by unfold begun; dsimp only; (repeat' split) <;> simp
@[simp] theorem mems_routeHead (inp idx s) : mems (routeHead inp idx s) = mems s := by
  unfold routeHead
  split
  · rfl
  · split
    · rfl
    · dsimp only
      split
      · simp
      · split
        · split
          next he =>
            simp [mems_of_snd he]
          · simp
        · split <;> simp
@[simp] theorem mems_discardQueued (s) : mems (discardQueued s) = mems s := by simp [discardQueued]
@[simp] theorem mems_writeChip (v s) : mems (writeChip v s) = mems s := by simp [writeChip]
@[simp] theorem mems_writePort (p v s) : mems (writePort p v s) = mems s := by simp [writePort]
@[simp] theorem mems_xbrReject (off s) : mems (xbrReject off s) = mems s := by simp [xbrReject]
@[simp] theorem mems_writeXbr (off v s) : mems (writeXbr off v s) = mems s := by unfold writeXbr; split <;> simp
@[simp] theorem mems_mgtTake (inp p s) : mems (mgtTake inp p s) = mems s := by simp [mgtTake]
@[simp] theorem mems_mgtSend (p s) : mems (mgtSend p s) = mems s := by simp [mgtSend]
@[simp] theorem mems_mgtRoute (inp pkt s) : mems (mgtRoute inp pkt s) = mems s := by simp [mgtRoute]

/-! #### Commands of the links (10) -/

@[simp] theorem mems_bringupLate (p lanes s) : mems (bringupLate p lanes s) = mems s :=
    by unfold bringupLate; dsimp only; (repeat' split) <;> simp
@[simp] theorem mems_holdOver (p down s) : mems (holdOver p down s) = mems s := by simp [holdOver]
@[simp] theorem mems_startRetrain (p s) : mems (startRetrain p s) = mems s := by simp [startRetrain]
@[simp] theorem mems_laneFit (p lane s) : mems (laneFit p lane s) = mems s := by simp [laneFit]
@[simp] theorem mems_reneg (p s) : mems (reneg p s) = mems s := by simp [reneg]
@[simp] theorem mems_adminDown (p s) : mems (adminDown p s) = mems s := by simp [adminDown]

/-! #### Commands of the time unit and the schedule (11) -/

@[simp] theorem mems_withTmu (f s) : mems (withTmu f s) = mems s := by rfl
@[simp] theorem mems_tmuIgnored (s) : mems (tmuIgnored s) = mems s := by simp [tmuIgnored]
@[simp] theorem mems_lltIgnored (s) : mems (lltIgnored s) = mems s := by simp [lltIgnored]
@[simp] theorem mems_setTmuState (x s) : mems (setTmuState x s) = mems s := by simp [setTmuState]
@[simp] theorem mems_clearExpired (s) : mems (clearExpired s) = mems s := by rfl
@[simp] theorem mems_gtimeStep (e s) : mems (gtimeStep e s) = mems s := by simp [gtimeStep]
@[simp] theorem mems_slewEvenly (d s) : mems (slewEvenly d s) = mems s := by simp [slewEvenly]
@[simp] theorem mems_noSample (s) : mems (noSample s) = mems s := by simp [noSample]
@[simp] theorem mems_servoJudge (e s) : mems (servoJudge e s) = mems s := by simp [servoJudge]
@[simp] theorem mems_servoRunWith (e s) : mems (servoRunWith e s) = mems s := by simp [servoRunWith]
@[simp] theorem mems_loadAtEdge (s) : mems (loadAtEdge s) = mems s := by simp [loadAtEdge]
@[simp] theorem mems_gtimeLoadGo (s) : mems (gtimeLoadGo s) = mems s := by simp [gtimeLoadGo]
@[simp] theorem mems_watchEdge (mode s) : mems (watchEdge mode s) = mems s := by simp [watchEdge]
@[simp] theorem mems_writeMode (mode s) : mems (writeMode mode s) = mems s := by simp [writeMode]
@[simp] theorem mems_gclWrite0 (p e v s) : mems (gclWrite0 p e v s) = mems s := by simp [gclWrite0]
@[simp] theorem mems_gclWrite1 (p e v s) : mems (gclWrite1 p e v s) = mems s := by simp [gclWrite1]
@[simp] theorem mems_writeLlt (off be v s) : mems (writeLlt off be v s) = mems s := by simp [writeLlt]
@[simp] theorem mems_histQueue (p q s) : mems (histQueue p q s) = mems s := by simp [histQueue]

/-! #### Commands of the lock unit (12) -/

@[simp] theorem mems_semReleaseBy (n f s) : mems (semReleaseBy n f s) = mems s := by unfold semReleaseBy; split <;> simp
@[simp] theorem mems_semWriteGo (f kind n bytes s) : mems (semWriteGo f kind n bytes s) = mems s := by simp [semWriteGo]
@[simp] theorem mems_semWrite (f kind n bytes s) : mems (semWrite f kind n bytes s) = mems s := by simp [semWrite]
@[simp] theorem mems_semStatGo (f n off bytes s) : mems (semStatGo f n off bytes s) = mems s := by simp [semStatGo]
@[simp] theorem mems_semStatRead (f n off bytes s) : mems (semStatRead f n off bytes s) = mems s := by simp [semStatRead]
@[simp] theorem mems_semForce (v s) : mems (semForce v s) = mems s := by unfold semForce; dsimp only; (repeat' split) <;> simp
@[simp] theorem mems_writeLckAlloc (n v s) : mems (writeLckAlloc n v s) = mems s := by simp [writeLckAlloc]

/-! #### Resets (18) -/

@[simp] theorem mems_flrRings (p s) : mems (flrRings p s) = mems s := by rfl
@[simp] theorem mems_flrXlt (p s) : mems (flrXlt p s) = mems s := by rfl
@[simp] theorem mems_flrQps (p s) : mems (flrQps p s) = mems s := by simp [flrQps]
@[simp] theorem mems_flrTaper (p s) : mems (flrTaper p s) = mems s := by simp [flrTaper]
@[simp] theorem mems_flrLocks (p s) : mems (flrLocks p s) = mems s := by simp [flrLocks]
@[simp] theorem mems_showFrozen (s) : mems (showFrozen s) = mems s := by simp [showFrozen]
@[simp] theorem mems_flrRegs (p s) : mems (flrRegs p s) = mems s := by simp [flrRegs]
@[simp] theorem mems_ltnGap (islands s) : mems (ltnGap islands s) = mems s := by simp [ltnGap]
@[simp] theorem mems_ltnBack (s) : mems (ltnBack s) = mems s := by simp [ltnBack]
@[simp] theorem mems_ltnSpillLost (s) : mems (ltnSpillLost s) = mems s := by simp [ltnSpillLost]
@[simp] theorem mems_flrSteps (p s) : mems (flrSteps p s) = mems s := by simp [flrSteps]
@[simp] theorem mems_flrSet (p s) : mems (flrSet p s) = mems s := by simp [flrSet]
@[simp] theorem mems_flrController (j s) : mems (flrController j s) = mems s := by simp [flrController]
@[simp] theorem mems_linkRegDown (l s) : mems (linkRegDown l s) = mems s := by simp [linkRegDown]
@[simp] theorem mems_halfDown (j s) : mems (halfDown j s) = mems s := by simp [halfDown]
@[simp] theorem mems_controllerDown (j s) : mems (controllerDown j s) = mems s := by simp [controllerDown]
@[simp] theorem mems_loseRegs (hit s) : mems (loseRegs hit s) = mems s := by rfl
@[simp] theorem mems_loseFregs (hit s) : mems (loseFregs hit s) = mems s := by rfl
@[simp] theorem mems_driveFlash (s) : mems (driveFlash s) = mems s := by simp [driveFlash]
@[simp] theorem mems_mgtReset (cause s) : mems (mgtReset cause s) = mems s := by simp [mgtReset]
@[simp] theorem mems_newNonce (s) : mems (newNonce s) = mems s := by simp [newNonce]
@[simp] theorem mems_setStraps (straps s) : mems (setStraps straps s) = mems s := by simp [setStraps]

/-! #### Units, islands and domains (13, 14) -/

@[simp] theorem mems_markFenced (u on s) : mems (markFenced u on s) = mems s := by unfold markFenced; (repeat' split) <;> simp
@[simp] theorem mems_snapStart (s) : mems (snapStart s) = mems s := by unfold snapStart; split <;> simp
@[simp] theorem mems_snapDone (parts s) : mems (snapDone parts s) = mems s := by unfold snapDone; split <;> simp
@[simp] theorem mems_islandStop (s i) : mems (islandStop s i) = mems s := by simp [islandStop]
@[simp] theorem mems_islandStart (s i) : mems (islandStart s i) = mems s := by simp [islandStart]
@[simp] theorem mems_addSpare (u l s) : mems (addSpare u l s) = mems s := by rfl
@[simp] theorem mems_dropSpare (u s) : mems (dropSpare u s) = mems s := by rfl
@[simp] theorem mems_coreLost (l s) : mems (coreLost l s) = mems s := by unfold coreLost; dsimp only; (repeat' split) <;> simp
@[simp] theorem mems_rduLost (l s) : mems (rduLost l s) = mems s := by unfold rduLost; dsimp only; (repeat' split) <;> simp
@[simp] theorem mems_spareFails (u s) : mems (spareFails u s) = mems s := by unfold spareFails; split <;> simp
@[simp] theorem mems_fenceCore (site s) : mems (fenceCore site s) = mems s := by unfold fenceCore; dsimp only; (repeat' split) <;> simp
@[simp] theorem mems_fenceRdu (site s) : mems (fenceRdu site s) = mems s := by unfold fenceRdu; dsimp only; (repeat' split) <;> simp
@[simp] theorem mems_fencePort (p s) : mems (fencePort p s) = mems s := by simp [fencePort]
@[simp] theorem mems_lostNow (s) : mems (lostNow s).2 = mems s := by simp [lostNow]
@[simp] theorem mems_loseEgress (a s) : mems (loseEgress a s) = mems s := by
  induction a generalizing s with
  | nil => rfl
  | cons e t ih => unfold loseEgress; dsimp only; rw [ih]; split <;> simp
@[simp] theorem mems_loseInput (a s) : mems (loseInput a s) = mems s := by
  induction a generalizing s with
  | nil => rfl
  | cons i t ih => unfold loseInput; dsimp only; rw [ih]; split <;> simp
@[simp] theorem mems_losePackets (s) : mems (losePackets s) = mems s := by simp [losePackets]
@[simp] theorem mems_loseOne (s) : mems (loseOne s) = mems s := by unfold loseOne; dsimp only; (repeat' split) <;> simp
@[simp] theorem mems_fenceCluster (c s) : mems (fenceCluster c s) = mems s := by
  unfold fenceCluster
  dsimp only
  simp
  rw [mems_foldl (fun t k => by split <;> simp)]
  simp
@[simp] theorem mems_fenceTile (a s) : mems (fenceTile a s) = mems s := by simp [fenceTile]
@[simp] theorem mems_frozenInPlace (f r k s) : mems (frozenInPlace f r k s) = mems s := by unfold frozenInPlace; (repeat' split) <;> simp
@[simp] theorem mems_ringDeviceStop (s key) : mems (ringDeviceStop s key) = mems s :=
    by unfold ringDeviceStop; dsimp only; (repeat' split) <;> simp
@[simp] theorem mems_ringDeviceBack (s key) : mems (ringDeviceBack s key) = mems s :=
    by unfold ringDeviceBack; dsimp only; (repeat' split) <;> simp
@[simp] theorem mems_txeForget (s) : mems (txeForget s) = mems s := by simp [txeForget]
@[simp] theorem mems_rxeForget (s) : mems (rxeForget s) = mems s := by simp [rxeForget]
@[simp] theorem mems_xltForget (s) : mems (xltForget s) = mems s := by rfl
@[simp] theorem mems_secFails (s) : mems (secFails s) = mems s := by unfold secFails; split <;> simp
@[simp] theorem mems_restartDown (n s) : mems (restartDown n s) = mems s := by simp [restartDown]
@[simp] theorem mems_overflowAll (s) : mems (overflowAll s) = mems s := by simp [overflowAll]
@[simp] theorem mems_restartBack (n s) : mems (restartBack n s) = mems s := by simp [restartBack]
@[simp] theorem mems_restartUnit (n s) : mems (restartUnit n s) = mems s := by simp [restartUnit]
@[simp] theorem mems_fenceUnit (u s) : mems (fenceUnit u s) = mems s := by unfold fenceUnit; split <;> simp
@[simp] theorem mems_siteBack (map site s) : mems (siteBack map site s) = mems s := by simp [siteBack]
@[simp] theorem mems_clearStrikes (u s) : mems (clearStrikes u s) = mems s := by rfl
@[simp] theorem mems_unitBack (u s) : mems (unitBack u s) = mems s := by unfold unitBack; split <;> simp

/-! #### Faults (13) -/

@[simp] theorem mems_strike (src s u) : mems (strike src s u) = mems s := by unfold strike; split <;> simp
@[simp] theorem mems_semLostOne (n s) : mems (semLostOne n s) = mems s := by simp [semLostOne]
@[simp] theorem mems_missLost (k s) : mems (missLost k s) = mems s := by unfold missLost; split <;> simp
@[simp] theorem mems_clusterLost (c k s) : mems (clusterLost c k s) = mems s := by unfold clusterLost; split <;> simp
@[simp] theorem mems_entryLost (key s) : mems (entryLost key s) = mems s := by unfold entryLost; dsimp only; (repeat' split) <;> simp
@[simp] theorem mems_xltWordLost (v s) : mems (xltWordLost v s) = mems s := by unfold xltWordLost; dsimp only; (repeat' split) <;> simp
@[simp] theorem mems_fetchLost (c k s) : mems (fetchLost c k s) = mems s := by unfold fetchLost; split <;> simp
@[simp] theorem mems_hxferLost (c v s) : mems (hxferLost c v s) = mems s := by unfold hxferLost; (repeat' split) <;> simp
@[simp] theorem mems_memoryLost (c v s) : mems (memoryLost c v s) = mems s := by simp [memoryLost]
@[simp] theorem mems_txWordLost (v s) : mems (txWordLost v s) = mems s := by unfold txWordLost; split <;> simp
@[simp] theorem mems_rxWordLost (v s) : mems (rxWordLost v s) = mems s := by unfold rxWordLost; (repeat' split) <;> simp
@[simp] theorem mems_matchWordLost (v s) : mems (matchWordLost v s) = mems s := by unfold matchWordLost; (repeat' split) <;> simp
@[simp] theorem mems_dataLoss (src u s) : mems (dataLoss src u s) = mems s := by
  unfold dataLoss
  refine mems_branch (by simp) ?_
  rcases h : fresh s with ⟨n, t⟩
  rw [← mems_fresh s, ← mems_of_snd h]
  dsimp only
  repeat' refine mems_branch ?_ ?_
  all_goals (repeat' split) <;> simp
@[simp] theorem mems_stagingCompare (k i s) : mems (stagingCompare k i s) = mems s := by simp [stagingCompare]
@[simp] theorem mems_stagingFault (src s) : mems (stagingFault src s) = mems s := by simp [stagingFault]
@[simp] theorem mems_fcuOccurAt (src u s) : mems (fcuOccurAt src u s) = mems s := by simp [fcuOccurAt]
@[simp] theorem mems_strikeUnits (src u s) : mems (strikeUnits src u s) = mems s := by simp [strikeUnits]
@[simp] theorem mems_wordWrong (src s) : mems (wordWrong src s).2 = mems s := by unfold wordWrong; split <;> simp
@[simp] theorem mems_reactions (src u word strikes s) : mems (reactions src u word strikes s) = mems s := by simp [reactions]
@[simp] theorem mems_gtimeDiffers (s) : mems (gtimeDiffers s) = mems s := by simp [gtimeDiffers]
@[simp] theorem mems_occurFull (src u s) : mems (occurFull src u s) = mems s := by simp [occurFull]
@[simp] theorem mems_clockLost (i s) : mems (clockLost i s) = mems s := by unfold clockLost; split <;> simp
@[simp] theorem mems_injectCount (s) : mems (injectCount s) = mems s := by simp [injectCount]
@[simp] theorem mems_injected (src u s) : mems (injected src u s) = mems s := by simp [injected]
@[simp] theorem mems_spareServes (u l s) : mems (spareServes u l s) = mems s := by unfold spareServes; split <;> simp
@[simp] theorem mems_restoreEnd (result s) : mems (restoreEnd result s) = mems s := by simp [restoreEnd]
@[simp] theorem mems_restoreGo (s) : mems (restoreGo s) = mems s := by unfold restoreGo; split <;> simp
@[simp] theorem mems_injectWrite (v s) : mems (injectWrite v s) = mems s := by simp [injectWrite]
@[simp] theorem mems_injectRecheck (s) : mems (injectRecheck s) = mems s := by simp [injectRecheck]
@[simp] theorem mems_injectDisarm (st s) : mems (injectDisarm st s) = mems s := by simp [injectDisarm]

/-! #### Clocks and power (14) -/

@[simp] theorem mems_portOff (p s) : mems (portOff p s) = mems s := by simp [portOff]
@[simp] theorem mems_latticeOff (s) : mems (latticeOff s) = mems s := by simp [latticeOff]
@[simp] theorem mems_dropPackets (ins outs s) : mems (dropPackets ins outs s) = mems s := by simp [dropPackets]
@[simp] theorem mems_tileOff (a s) : mems (tileOff a s) = mems s := by simp [tileOff]
@[simp] theorem mems_markDom (d on s) : mems (markDom d on s) = mems s := by simp [markDom]
@[simp] theorem mems_domainOn (d s) : mems (domainOn d s) = mems s := by simp [domainOn]
@[simp] theorem mems_unramp (d s) : mems (unramp d s) = mems s := by rfl
@[simp] theorem mems_portsFollow (s) : mems (portsFollow s) = mems s := by simp [portsFollow]
@[simp] theorem mems_enterPhase (s) : mems (enterPhase s) = mems s := by unfold enterPhase; split <;> simp
@[simp] theorem mems_pstateGo (target s) : mems (pstateGo target s) = mems s := by simp [pstateGo]
@[simp] theorem mems_showPstate (v s) : mems (showPstate v s) = mems s := by simp [showPstate]
@[simp] theorem mems_restoreWake (s) : mems (restoreWake s) = mems s := by simp [restoreWake]
@[simp] theorem mems_writeKeep (off v s) : mems (writeKeep off v s) = mems s := by simp [writeKeep]
@[simp] theorem mems_pcieSupplyLost (s) : mems (pcieSupplyLost s) = mems s := by simp [pcieSupplyLost]
@[simp] theorem mems_resetPins (test s) : mems (resetPins test s) = mems s := by simp [resetPins]
@[simp] theorem mems_tripPins (s) : mems (tripPins s) = mems s := by simp [tripPins]

/-! #### Counters and the Lantern (16) -/

@[simp] theorem mems_evcNone (n count k s) (hk : ∀ t, mems (k t) = mems t) : mems (evcNone n count k s) = mems s := by
  unfold evcNone
  split <;> simp [hk]
@[simp] theorem mems_writeEvcCtl (n v s) : mems (writeEvcCtl n v s) = mems s := by simp [writeEvcCtl]
@[simp] theorem mems_pageClear (b s) : mems (pageClear b s) = mems s := by simp [pageClear]
@[simp] theorem mems_writePageEn (b v s) : mems (writePageEn b v s) = mems s := by simp [writePageEn]
@[simp] theorem mems_frameOut (f s) : mems (frameOut f s) = mems s := by unfold frameOut; split <;> simp
@[simp] theorem mems_frameDone (s) : mems (frameDone s) = mems s := by unfold frameDone; dsimp only; (repeat' split) <;> simp
@[simp] theorem mems_ltnPack (s r) : mems (ltnPack s r) = mems s := by simp [ltnPack]
@[simp] theorem mems_ltnDrain (s) : mems (ltnDrain s) = mems s := by simp [ltnDrain]
@[simp] theorem mems_ltnFlush (s) : mems (ltnFlush s) = mems s := by simp [ltnFlush]
@[simp] theorem mems_lanternSet (k v s) : mems (lanternSet k v s) = mems s := by rfl
@[simp] theorem mems_ltnBegin (s) : mems (ltnBegin s) = mems s := by simp [ltnBegin]
@[simp] theorem mems_snapRecs (s) : mems (snapRecs s).2 = mems s := by unfold snapRecs; split <;> simp
@[simp] theorem mems_writeLtnMode (mode s) : mems (writeLtnMode mode s) = mems s := by simp [writeLtnMode]
@[simp] theorem mems_ltnInputs (s) : mems (ltnInputs s) = mems s := by simp [ltnInputs]
@[simp] theorem mems_ltnTick (s) : mems (ltnTick s) = mems s := by simp [ltnTick]

/-! #### Security and debug (15) -/

@[simp] theorem mems_withSec (f s) : mems (withSec f s) = mems s := by rfl
@[simp] theorem mems_putSecBuf (bs s) : mems (putSecBuf bs s) = mems s := by simp [putSecBuf]
@[simp] theorem mems_showFuses (s) : mems (showFuses s) = mems s := by simp [showFuses]
@[simp] theorem mems_blow (f s) : mems (blow f s) = mems s := by simp [blow]
@[simp] theorem mems_releaseHalts (s) : mems (releaseHalts s) = mems s := by simp [releaseHalts]
@[simp] theorem mems_setLevel (x s) : mems (setLevel x s) = mems s := by simp [setLevel]
@[simp] theorem mems_secProvision (s) : mems (secProvision s) = mems s := by simp [secProvision]
@[simp] theorem mems_secEffect (op s) : mems (secEffect op s) = mems s := by unfold secEffect; split <;> simp
@[simp] theorem mems_secRuns (op result s) : mems (secRuns op result s) = mems s := by simp [secRuns]
@[simp] theorem mems_secEnd (op result s) : mems (secEnd op result s) = mems s := by simp [secEnd]
@[simp] theorem mems_secTick (s) : mems (secTick s) = mems s := by unfold secTick; split <;> simp
@[simp] theorem mems_secCut (op s) : mems (secCut op s) = mems s := by simp [secCut]
@[simp] theorem mems_secRun (op vqps s) : mems (secRun op vqps s) = mems s := by simp [secRun]
@[simp] theorem mems_secIgnored (f s) : mems (secIgnored f s) = mems s := by simp [secIgnored]
@[simp] theorem mems_secWr (m r k s) (hk : ∀ t, mems (k t) = mems t) : mems (secWr m r k s) = mems s := by
  unfold secWr
  split
  · simp
  · exact mems_mgtWr _ _ _ fun t => mems_cross _ _ _ _ hk
@[simp] theorem mems_loadIr (x s) : mems (loadIr x s) = mems s := by simp [loadIr]
@[simp] theorem mems_jtagOther (s) : mems (jtagOther s) = mems s := by simp [jtagOther]
@[simp] theorem mems_tokenRun (blk vqps s) : mems (tokenRun blk vqps s) = mems s := by simp [tokenRun]
@[simp] theorem mems_haltDo (core on s) : mems (haltDo core on s) = mems s := by simp [haltDo]
@[simp] theorem mems_replayBegin (s) : mems (replayBegin s) = mems s := by simp [replayBegin]
@[simp] theorem mems_msixResend (f s) : mems (msixResend f s) = mems s := by simp [msixResend]
@[simp] theorem mems_unfreeze (f s) : mems (unfreeze f s) = mems s := by unfold unfreeze; dsimp only; (repeat' split) <;> simp
@[simp] theorem mems_unfreezeWrite (v s) : mems (unfreezeWrite v s) = mems s := by simp [unfreezeWrite]

/-! #### The host interface (17) -/

@[simp] theorem mems_flushesFail (link s) : mems (flushesFail link s) = mems s := by simp [flushesFail]
@[simp] theorem mems_halfReadsFail (link s) : mems (halfReadsFail link s) = mems s := by simp [halfReadsFail]
@[simp] theorem mems_setCfg (f c s) : mems (setCfg f c s) = mems s := by rfl
@[simp] theorem mems_vfClear (j s) : mems (vfClear j s) = mems s := by simp [vfClear]
@[simp] theorem mems_partPass (period s) : mems (partPass period s) = mems s := by simp [partPass]
@[simp] theorem mems_timeoutPass (f s) : mems (timeoutPass f s) = mems s := by simp [timeoutPass]
@[simp] theorem mems_writeWin (f k v s) : mems (writeWin f k v s) = mems s := by simp [writeWin]
@[simp] theorem mems_writePriv (m v s) : mems (writePriv m v s) = mems s := by simp [writePriv]
@[simp] theorem mems_vecUnmask (f v s) : mems (vecUnmask f v s) = mems s := by simp [vecUnmask]
@[simp] theorem mems_fnUnmask (f s) : mems (fnUnmask f s) = mems s := by simp [fnUnmask]
@[simp] theorem mems_cfgApply (f r s) : mems (cfgApply f r s) = mems s := by unfold cfgApply; split <;> simp
@[simp] theorem mems_auxApply (j r s) : mems (auxApply j r s) = mems s := by unfold auxApply; split <;> simp

/-! #### Start-up and the event log (18) -/

@[simp] theorem mems_startOp (s) : mems (startOp s) = mems s := by unfold startOp; split <;> simp
@[simp] theorem mems_beginOps (ops s) : mems (beginOps ops s) = mems s := by simp [beginOps]
@[simp] theorem mems_writeHeader (slot x s) : mems (writeHeader slot x s) = mems s := by simp [writeHeader]
@[simp] theorem mems_measure (img s) : mems (measure img s) = mems s := by
  unfold measure
  exact mems_foldl (fun t k => by simp) _ _
@[simp] theorem mems_setBoot (b s) : mems (setBoot b s) = mems s := by simp [setBoot]
@[simp] theorem mems_recovery (s) : mems (recovery s) = mems s := by simp [recovery]
@[simp] theorem mems_runSlot (slot s) : mems (runSlot slot s) = mems s := by simp [runSlot]
@[simp] theorem mems_bootAuth (n slot s) : mems (bootAuth n slot s) = mems s := by simp [bootAuth]
@[simp] theorem mems_bootStep (b s) : mems (bootStep b s) = mems s := by unfold bootStep; dsimp only; (repeat' split) <;> simp
@[simp] theorem mems_logNext (s) : mems (logNext s) = mems s := by unfold logNext; (repeat' split) <;> simp
@[simp] theorem mems_mgtReg (m r k s) (hk : ∀ t, mems (k t) = mems t) : mems (mgtReg m r k s) = mems s := by
  unfold mgtReg
  split
  · simp
  · exact mems_mgtWr _ _ _ fun t => mems_cross _ _ _ _ hk
@[simp] theorem mems_restartMgt (s) : mems (restartMgt s) = mems s := by simp [restartMgt]
@[simp] theorem mems_readyWrite (m s) : mems (readyWrite m s) = mems s := by simp [readyWrite]

/-! #### Reads and writes of registers (17) -/

@[simp] theorem mems_mgmtRead (off s) : mems (mgmtRead off s).2 = mems s := by unfold mgmtRead; dsimp only; (repeat' split) <;> simp
@[simp] theorem mems_writeStg (k n off v s) : mems (writeStg k n off v s) = mems s := by simp [writeStg]
@[simp] theorem mems_writeLnkCtrl (p v s) : mems (writeLnkCtrl p v s) = mems s := by simp [writeLnkCtrl]
@[simp] theorem mems_writeTmuCtrl (v s) : mems (writeTmuCtrl v s) = mems s := by simp [writeTmuCtrl]
@[simp] theorem mems_writeHistCfg (v s) : mems (writeHistCfg v s) = mems s := by simp [writeHistCfg]
@[simp] theorem mems_writeFcuCfg (n v s) : mems (writeFcuCfg n v s) = mems s := by simp [writeFcuCfg]
@[simp] theorem mems_writeSnfCtrl (v s) : mems (writeSnfCtrl v s) = mems s := by simp [writeSnfCtrl]
@[simp] theorem mems_writePstate (v s) : mems (writePstate v s) = mems s := by simp [writePstate]
@[simp] theorem mems_writeSecCmd (v s) : mems (writeSecCmd v s) = mems s := by simp [writeSecCmd]
@[simp] theorem mems_writeLtnCtrl (v s) : mems (writeLtnCtrl v s) = mems s := by simp [writeLtnCtrl]
@[simp] theorem mems_writeFnReg (f d off be v s) : mems (writeFnReg f d off be v s) = mems s := by simp [writeFnReg]
@[simp] theorem mems_writeCtl (f off v on offF s) (hon : ∀ t, mems (on t) = mems t) (hoffF : ∀ t, mems (offF t) = mems t) :
    mems (writeCtl f off v on offF s) = mems s :=
    by unfold writeCtl; dsimp only; (repeat' split) <;> simp [*]
@[simp] theorem mems_writeAdminCtl (f v s) : mems (writeAdminCtl f v s) = mems s := by simp [writeAdminCtl]
@[simp] theorem mems_writeFnOne (f d off be v s) : mems (writeFnOne f d off be v s) = mems s := by simp [writeFnOne]
@[simp] theorem mems_fnGo (f off be v s) : mems (fnGo f off be v s) = mems s := by unfold fnGo; dsimp only; (repeat' split) <;> simp
@[simp] theorem mems_fnWrite (f off be v s) : mems (fnWrite f off be v s) = mems s := by simp [fnWrite]
@[simp] theorem mems_lockWrite (f off bytes s) : mems (lockWrite f off bytes s) = mems s := by simp [lockWrite]
@[simp] theorem mems_barWrite (f off be v s) : mems (barWrite f off be v s) = mems s := by simp [barWrite]
@[simp] theorem mems_poisonedWrite (f s) : mems (poisonedWrite f s) = mems s := by simp [poisonedWrite]
@[simp] theorem mems_windowBroken (f off wr s) : mems (windowBroken f off wr s) = mems s := by unfold windowBroken; (repeat' split) <;> simp

end Sys2Proof.Machine

/-! ## The memories inside the block: the commands that leave them as they are -/

namespace Sys2Proof.Machine

open Sys2Proof

/-- The memories that a command leaves, if it answers a next state. -/
def outMems (o : Host.Outcome State Fault Refusal) : Option Mems :=
  match o with
  | .next t => some (mems t)
  | .fault _ => none
  | .refused _ => none

@[simp] theorem outMems_next (t : State) : outMems (.next t) = some (mems t) := by rfl

@[simp] theorem outMems_act (f : State → State) (s : State) :
    outMems (act f s) = some (if running s then mems (f s) else mems s) := by
  unfold act; split <;> simp

@[simp] theorem outMems_plain (f : State → State) (s : State) :
    outMems (plain f s) = some (if running s then mems (f s) else mems s) := by
  unfold plain; split <;> simp

theorem outMems_act_of {f : State → State} {s : State} (h : mems (f s) = mems s) : outMems (act f s) = some (mems s) := by
  rw [outMems_act, h, ite_self]

theorem outMems_plain_of {f : State → State} {s : State} (h : mems (f s) = mems s) : outMems (plain f s) = some (mems s) := by
  rw [outMems_plain, h, ite_self]


/-! #### Commands of the CMP (02) -/

@[simp] theorem outMems_execNop (f r s) : outMems (execNop f r s) = some (mems s) := by simp [execNop]
@[simp] theorem outMems_execSend (f r s) : outMems (execSend f r s) = some (mems s) := by simp [execSend]
@[simp] theorem outMems_execWrite (f r s) : outMems (execWrite f r s) = some (mems s) := by simp [execWrite]
@[simp] theorem outMems_execRead (f r s) : outMems (execRead f r s) = some (mems s) := by simp [execRead]
@[simp] theorem outMems_execAtomic (f r s) : outMems (execAtomic f r s) = some (mems s) := by simp [execAtomic]
@[simp] theorem outMems_execCounterAdd (f r s) : outMems (execCounterAdd f r s) = some (mems s) := by simp [execCounterAdd]
@[simp] theorem outMems_execPostRecv (f r s) : outMems (execPostRecv f r s) = some (mems s) := by simp [execPostRecv]
@[simp] theorem outMems_execFence (f r s) : outMems (execFence f r s) = some (mems s) := by simp [execFence]
@[simp] theorem outMems_execWaitCtr (f r idx w s) : outMems (execWaitCtr f r idx w s) = some (mems s) := by simp [execWaitCtr]
@[simp] theorem outMems_execSignal (f r s) : outMems (execSignal f r s) = some (mems s) := by simp [execSignal]
@[simp] theorem outMems_execColStart (f r s) : outMems (execColStart f r s) = some (mems s) := by simp [execColStart]
@[simp] theorem outMems_execCollAbort (f r s) : outMems (execCollAbort f r s) = some (mems s) := by simp [execCollAbort]
@[simp] theorem outMems_execTaperInvoke (f r s) : outMems (execTaperInvoke f r s) = some (mems s) := by simp [execTaperInvoke]
@[simp] theorem outMems_execTaperLoad (f blk s) : outMems (execTaperLoad f blk s) = some (mems s) := by simp [execTaperLoad]
@[simp] theorem outMems_execTaperLoadReplace (f blk s) : outMems (execTaperLoadReplace f blk s) = some (mems s) := by
  simp [execTaperLoadReplace]
@[simp] theorem outMems_execTaperLoadUnload (f blk s) : outMems (execTaperLoadUnload f blk s) = some (mems s) := by
  simp [execTaperLoadUnload]
@[simp] theorem outMems_execRingCreate (f blk s) : outMems (execRingCreate f blk s) = some (mems s) := by simp [execRingCreate]
@[simp] theorem outMems_execRingDestroy (f s) : outMems (execRingDestroy f s) = some (mems s) := by simp [execRingDestroy]
@[simp] theorem outMems_execRingResume (f s) : outMems (execRingResume f s) = some (mems s) := by simp [execRingResume]
@[simp] theorem outMems_execArvCreate (f blk s) : outMems (execArvCreate f blk s) = some (mems s) := by simp [execArvCreate]
@[simp] theorem outMems_execArvDestroy (f s) : outMems (execArvDestroy f s) = some (mems s) := by simp [execArvDestroy]
@[simp] theorem outMems_execPdAlloc (f blk s) : outMems (execPdAlloc f blk s) = some (mems s) := by simp [execPdAlloc]
@[simp] theorem outMems_execPdFree (f s) : outMems (execPdFree f s) = some (mems s) := by simp [execPdFree]
@[simp] theorem outMems_execMrRegister (f blk s) : outMems (execMrRegister f blk s) = some (mems s) := by simp [execMrRegister]
@[simp] theorem outMems_execMrRevoke (f blk s) : outMems (execMrRevoke f blk s) = some (mems s) := by simp [execMrRevoke]
@[simp] theorem outMems_execXltInvalidate (f blk s) : outMems (execXltInvalidate f blk s) = some (mems s) := by simp [execXltInvalidate]
@[simp] theorem outMems_execXltLock (f blk s) : outMems (execXltLock f blk s) = some (mems s) := by simp [execXltLock]
@[simp] theorem outMems_execXltUnlock (f blk s) : outMems (execXltUnlock f blk s) = some (mems s) := by simp [execXltUnlock]
@[simp] theorem outMems_execBtrSet (f blk s) : outMems (execBtrSet f blk s) = some (mems s) := by simp [execBtrSet]
@[simp] theorem outMems_execQpCreate (f blk s) : outMems (execQpCreate f blk s) = some (mems s) := by simp [execQpCreate]
@[simp] theorem outMems_execQpModify (f blk s) : outMems (execQpModify f blk s) = some (mems s) := by simp [execQpModify]
@[simp] theorem outMems_execQpQuery (f blk s) : outMems (execQpQuery f blk s) = some (mems s) := by simp [execQpQuery]
@[simp] theorem outMems_execQpDestroy (f s) : outMems (execQpDestroy f s) = some (mems s) := by simp [execQpDestroy]
@[simp] theorem outMems_execCommandRingDoorbell (f page off bytes v s) :
    outMems (execCommandRingDoorbell f page off bytes v s) = some (mems s) := by
  simp [execCommandRingDoorbell]
@[simp] theorem outMems_execArrivalRingDoorbell (f page off bytes v s) :
    outMems (execArrivalRingDoorbell f page off bytes v s) = some (mems s) := by
  simp [execArrivalRingDoorbell]
@[simp] theorem outMems_execEntryFetch (f r d s) : outMems (execEntryFetch f r d s) = some (mems s) := by simp [execEntryFetch]
@[simp] theorem outMems_execOwnershipReread (f r s) : outMems (execOwnershipReread f r s) = some (mems s) := by
  refine outMems_act_of ?_
  (repeat' split) <;> simp
@[simp] theorem outMems_execHeadMirrorPublish (f r s) : outMems (execHeadMirrorPublish f r s) = some (mems s) := by
  refine outMems_act_of ?_
  (repeat' split) <;> simp
@[simp] theorem outMems_execWaitCtrTimeout (f r idx s) : outMems (execWaitCtrTimeout f r idx s) = some (mems s) := by
  refine outMems_act_of ?_
  dsimp only
  (repeat' split) <;> simp
@[simp] theorem outMems_execAdminRingEnable (f start s) : outMems (execAdminRingEnable f start s) = some (mems s) := by
  simp [execAdminRingEnable]
@[simp] theorem outMems_execAdminRingDisable (f s) : outMems (execAdminRingDisable f s) = some (mems s) := by simp [execAdminRingDisable]
@[simp] theorem outMems_execParamBlockReadComplete (f d s) : outMems (execParamBlockReadComplete f d s) = some (mems s) := by
  simp [execParamBlockReadComplete]

/-! #### Tables of functions (03, 04, 06) -/

@[simp] theorem outMems_execKeytabEnable (f s) : outMems (execKeytabEnable f s) = some (mems s) := by simp [execKeytabEnable]
@[simp] theorem outMems_execKeytabDisable (f s) : outMems (execKeytabDisable f s) = some (mems s) := by simp [execKeytabDisable]
@[simp] theorem outMems_execKeytabDescriptorRead (f index d s) : outMems (execKeytabDescriptorRead f index d s) = some (mems s) := by
  simp [execKeytabDescriptorRead]
@[simp] theorem outMems_execWalkEntryRead (serial d s) : outMems (execWalkEntryRead serial d s) = some (mems s) := by
  simp [execWalkEntryRead]
@[simp] theorem outMems_execFlushingReadComplete (link d s) : outMems (execFlushingReadComplete link d s) = some (mems s) := by
  simp [execFlushingReadComplete]
@[simp] theorem outMems_execCtxtabEnable (f s) : outMems (execCtxtabEnable f s) = some (mems s) := by simp [execCtxtabEnable]
@[simp] theorem outMems_execCtxtabDisable (f s) : outMems (execCtxtabDisable f s) = some (mems s) := by simp [execCtxtabDisable]
@[simp] theorem outMems_execQpcRangeWrite (m f v s) : outMems (execQpcRangeWrite m f v s) = some (mems s) := by simp [execQpcRangeWrite]
@[simp] theorem outMems_execContextFetchComplete (q d s) : outMems (execContextFetchComplete q d s) = some (mems s) := by
  simp [execContextFetchComplete]
@[simp] theorem outMems_execContextFetchRetry (q s) : outMems (execContextFetchRetry q s) = some (mems s) := by simp [execContextFetchRetry]
@[simp] theorem outMems_execContextEviction (s) : outMems (execContextEviction s) = some (mems s) := by simp [execContextEviction]
@[simp] theorem outMems_execUxpoolEnable (f s) : outMems (execUxpoolEnable f s) = some (mems s) := by simp [execUxpoolEnable]
@[simp] theorem outMems_execUxpoolDisable (f s) : outMems (execUxpoolDisable f s) = some (mems s) := by simp [execUxpoolDisable]

/-! #### Commands of the transport (05) -/

@[simp] theorem outMems_rxRow (op p s) : outMems (rxRow op p s) = some (mems s) := by simp [rxRow]
@[simp] theorem outMems_execSendPacket (p s) : outMems (execSendPacket p s) = some (mems s) := by simp [execSendPacket]
@[simp] theorem outMems_execWritePacket (p s) : outMems (execWritePacket p s) = some (mems s) := by simp [execWritePacket]
@[simp] theorem outMems_execReadReq (p s) : outMems (execReadReq p s) = some (mems s) := by simp [execReadReq]
@[simp] theorem outMems_execReadResp (p s) : outMems (execReadResp p s) = some (mems s) := by simp [execReadResp]
@[simp] theorem outMems_execAtomicReq (p s) : outMems (execAtomicReq p s) = some (mems s) := by simp [execAtomicReq]
@[simp] theorem outMems_execAtomicResp (p s) : outMems (execAtomicResp p s) = some (mems s) := by simp [execAtomicResp]
@[simp] theorem outMems_execCounterAddPacket (p s) : outMems (execCounterAddPacket p s) = some (mems s) := by simp [execCounterAddPacket]
@[simp] theorem outMems_execAck (p s) : outMems (execAck p s) = some (mems s) := by simp [execAck]
@[simp] theorem outMems_execNak (p s) : outMems (execNak p s) = some (mems s) := by simp [execNak]
@[simp] theorem outMems_execPacketUndefinedOp (p s) : outMems (execPacketUndefinedOp p s) = some (mems s) := by simp [execPacketUndefinedOp]
@[simp] theorem outMems_execAckDelayExpiry (q s) : outMems (execAckDelayExpiry q s) = some (mems s) := by simp [execAckDelayExpiry]
@[simp] theorem outMems_execRetransmitTimeout (q s) : outMems (execRetransmitTimeout q s) = some (mems s) := by simp [execRetransmitTimeout]
@[simp] theorem outMems_execBusyBackoffExpiry (q s) : outMems (execBusyBackoffExpiry q s) = some (mems s) := by simp [execBusyBackoffExpiry]
@[simp] theorem outMems_execPacketTransmit (q s) : outMems (execPacketTransmit q s) = some (mems s) := by simp [execPacketTransmit]
@[simp] theorem outMems_execRateUpdate (hp ep s) : outMems (execRateUpdate hp ep s) = some (mems s) := by simp [execRateUpdate]
@[simp] theorem outMems_execRoundTripUpdate (hp ep s) : outMems (execRoundTripUpdate hp ep s) = some (mems s) := by
  simp [execRoundTripUpdate]
@[simp] theorem outMems_execBaseRttWindowRestart (hp ep s) : outMems (execBaseRttWindowRestart hp ep s) = some (mems s) := by
  simp [execBaseRttWindowRestart]
@[simp] theorem outMems_execPlacementComplete (q psn resp s) : outMems (execPlacementComplete q psn resp s) = some (mems s) := by
  simp [execPlacementComplete]
@[simp] theorem outMems_execHostDataReadComplete (q psn resp d s) : outMems (execHostDataReadComplete q psn resp d s) = some (mems s) := by
  unfold execHostDataReadComplete; split <;> simp
@[simp] theorem outMems_execStagingFlush (k n s) : outMems (execStagingFlush k n s) = some (mems s) := by simp [execStagingFlush]
@[simp] theorem outMems_execRndvProbeExpiry (q psn s) : outMems (execRndvProbeExpiry q psn s) = some (mems s) := by
  refine outMems_act_of ?_
  (repeat' split) <;> simp
@[simp] theorem outMems_execUnexpectedCopyComplete (q psn0 d s) : outMems (execUnexpectedCopyComplete q psn0 d s) = some (mems s) := by
  simp [execUnexpectedCopyComplete]
@[simp] theorem outMems_execAtomicUpdateReadComplete (f addr d s) : outMems (execAtomicUpdateReadComplete f addr d s) = some (mems s) := by
  simp [execAtomicUpdateReadComplete]
@[simp] theorem outMems_execAtomicResultExpiry (q psn s) : outMems (execAtomicResultExpiry q psn s) = some (mems s) := by
  refine outMems_plain_of ?_
  dsimp only
  (repeat' split) <;> simp

/-! #### Commands of the collective engine (07) -/

@[simp] theorem outMems_execCopCredit (i s) : outMems (execCopCredit i s) = some (mems s) := by simp [execCopCredit]
@[simp] theorem outMems_execCopSend (i d s) : outMems (execCopSend i d s) = some (mems s) := by simp [execCopSend]
@[simp] theorem outMems_execCopMcast (i d s) : outMems (execCopMcast i d s) = some (mems s) := by simp [execCopMcast]
@[simp] theorem outMems_execCopReduce (i s) : outMems (execCopReduce i s) = some (mems s) := by simp [execCopReduce]
@[simp] theorem outMems_execCopPlace (i d s) : outMems (execCopPlace i d s) = some (mems s) := by simp [execCopPlace]
@[simp] theorem outMems_execCopCadd (i s) : outMems (execCopCadd i s) = some (mems s) := by simp [execCopCadd]
@[simp] theorem outMems_execCopResult (i s) : outMems (execCopResult i s) = some (mems s) := by simp [execCopResult]
@[simp] theorem outMems_execCopFree (i s) : outMems (execCopFree i s) = some (mems s) := by simp [execCopFree]
@[simp] theorem outMems_execCopAbort (i s) : outMems (execCopAbort i s) = some (mems s) := by simp [execCopAbort]
@[simp] theorem outMems_execCopEnd (i s) : outMems (execCopEnd i s) = some (mems s) := by simp [execCopEnd]
@[simp] theorem outMems_execReduceComplete (i op d s) : outMems (execReduceComplete i op d s) = some (mems s) := by
  simp [execReduceComplete]
@[simp] theorem outMems_execColData (p s) : outMems (execColData p s) = some (mems s) := by simp [execColData]
@[simp] theorem outMems_execColCredit (p s) : outMems (execColCredit p s) = some (mems s) := by simp [execColCredit]
@[simp] theorem outMems_execColAck (p s) : outMems (execColAck p s) = some (mems s) := by simp [execColAck]
@[simp] theorem outMems_execColAbort (p s) : outMems (execColAbort p s) = some (mems s) := by simp [execColAbort]
@[simp] theorem outMems_execCadd (inp p s) : outMems (execCadd inp p s) = some (mems s) := by simp [execCadd]
@[simp] theorem outMems_execCaddAck (inp p s) : outMems (execCaddAck inp p s) = some (mems s) := by simp [execCaddAck]
@[simp] theorem outMems_execColRtoExpiry (id s) : outMems (execColRtoExpiry id s) = some (mems s) := by simp [execColRtoExpiry]
@[simp] theorem outMems_execCaddHopTimeout (c s) : outMems (execCaddHopTimeout c s) = some (mems s) := by simp [execCaddHopTimeout]
@[simp] theorem outMems_execCombIntExpiry (c s) : outMems (execCombIntExpiry c s) = some (mems s) := by simp [execCombIntExpiry]
@[simp] theorem outMems_execTombTimeExpiry (hp comm seq s) : outMems (execTombTimeExpiry hp comm seq s) = some (mems s) := by
  simp [execTombTimeExpiry]
@[simp] theorem outMems_execMbxRelease (f n off bytes v s) : outMems (execMbxRelease f n off bytes v s) = some (mems s) := by
  simp [execMbxRelease]
@[simp] theorem outMems_execMbxAllocWrite (m n v s) : outMems (execMbxAllocWrite m n v s) = some (mems s) := by simp [execMbxAllocWrite]

/-! #### Taper instructions (08) -/

@[simp] theorem outMems_execTAdd (c rd ra rb s) : outMems (execTAdd c rd ra rb s) = some (mems s) := by simp [execTAdd]
@[simp] theorem outMems_execTSub (c rd ra rb s) : outMems (execTSub c rd ra rb s) = some (mems s) := by simp [execTSub]
@[simp] theorem outMems_execTAnd (c rd ra rb s) : outMems (execTAnd c rd ra rb s) = some (mems s) := by simp [execTAnd]
@[simp] theorem outMems_execTOr (c rd ra rb s) : outMems (execTOr c rd ra rb s) = some (mems s) := by simp [execTOr]
@[simp] theorem outMems_execTXor (c rd ra rb s) : outMems (execTXor c rd ra rb s) = some (mems s) := by simp [execTXor]
@[simp] theorem outMems_execTShl (c rd ra rb s) : outMems (execTShl c rd ra rb s) = some (mems s) := by simp [execTShl]
@[simp] theorem outMems_execTShr (c rd ra rb s) : outMems (execTShr c rd ra rb s) = some (mems s) := by simp [execTShr]
@[simp] theorem outMems_execTSar (c rd ra rb s) : outMems (execTSar c rd ra rb s) = some (mems s) := by simp [execTSar]
@[simp] theorem outMems_execTMul (c rd ra rb s) : outMems (execTMul c rd ra rb s) = some (mems s) := by simp [execTMul]
@[simp] theorem outMems_execTMulhu (c rd ra rb s) : outMems (execTMulhu c rd ra rb s) = some (mems s) := by simp [execTMulhu]
@[simp] theorem outMems_execTSlt (c rd ra rb s) : outMems (execTSlt c rd ra rb s) = some (mems s) := by simp [execTSlt]
@[simp] theorem outMems_execTSltu (c rd ra rb s) : outMems (execTSltu c rd ra rb s) = some (mems s) := by simp [execTSltu]
@[simp] theorem outMems_execTAddi (c rd ra imm s) : outMems (execTAddi c rd ra imm s) = some (mems s) := by simp [execTAddi]
@[simp] theorem outMems_execTAndi (c rd ra imm s) : outMems (execTAndi c rd ra imm s) = some (mems s) := by simp [execTAndi]
@[simp] theorem outMems_execTOri (c rd ra imm s) : outMems (execTOri c rd ra imm s) = some (mems s) := by simp [execTOri]
@[simp] theorem outMems_execTXori (c rd ra imm s) : outMems (execTXori c rd ra imm s) = some (mems s) := by simp [execTXori]
@[simp] theorem outMems_execTShli (c rd ra imm s) : outMems (execTShli c rd ra imm s) = some (mems s) := by simp [execTShli]
@[simp] theorem outMems_execTShri (c rd ra imm s) : outMems (execTShri c rd ra imm s) = some (mems s) := by simp [execTShri]
@[simp] theorem outMems_execTSari (c rd ra imm s) : outMems (execTSari c rd ra imm s) = some (mems s) := by simp [execTSari]
@[simp] theorem outMems_execTSlti (c rd ra imm s) : outMems (execTSlti c rd ra imm s) = some (mems s) := by simp [execTSlti]
@[simp] theorem outMems_execTSltiu (c rd ra imm s) : outMems (execTSltiu c rd ra imm s) = some (mems s) := by simp [execTSltiu]
@[simp] theorem outMems_execTMovz (c rd lane imm s) : outMems (execTMovz c rd lane imm s) = some (mems s) := by simp [execTMovz]
@[simp] theorem outMems_execTMovk (c rd lane imm s) : outMems (execTMovk c rd lane imm s) = some (mems s) := by simp [execTMovk]
@[simp] theorem outMems_execTLd (c rd ra imm s) : outMems (execTLd c rd ra imm s) = some (mems s) := by simp [execTLd]
@[simp] theorem outMems_execTLw (c rd ra imm s) : outMems (execTLw c rd ra imm s) = some (mems s) := by simp [execTLw]
@[simp] theorem outMems_execTLh (c rd ra imm s) : outMems (execTLh c rd ra imm s) = some (mems s) := by simp [execTLh]
@[simp] theorem outMems_execTLb (c rd ra imm s) : outMems (execTLb c rd ra imm s) = some (mems s) := by simp [execTLb]
@[simp] theorem outMems_execTVld (c vd ra imm s) : outMems (execTVld c vd ra imm s) = some (mems s) := by simp [execTVld]
@[simp] theorem outMems_execTVins (c vd ra lane s) : outMems (execTVins c vd ra lane s) = some (mems s) := by simp [execTVins]
@[simp] theorem outMems_execTVext (c rb vb lane s) : outMems (execTVext c rb vb lane s) = some (mems s) := by simp [execTVext]
@[simp] theorem outMems_execTVmov (c vd vb s) : outMems (execTVmov c vd vb s) = some (mems s) := by simp [execTVmov]
@[simp] theorem outMems_execTVzero (c vd s) : outMems (execTVzero c vd s) = some (mems s) := by simp [execTVzero]
@[simp] theorem outMems_execTBeq (c ra rb off s) : outMems (execTBeq c ra rb off s) = some (mems s) := by simp [execTBeq]
@[simp] theorem outMems_execTBne (c ra rb off s) : outMems (execTBne c ra rb off s) = some (mems s) := by simp [execTBne]
@[simp] theorem outMems_execTBlt (c ra rb off s) : outMems (execTBlt c ra rb off s) = some (mems s) := by simp [execTBlt]
@[simp] theorem outMems_execTBge (c ra rb off s) : outMems (execTBge c ra rb off s) = some (mems s) := by simp [execTBge]
@[simp] theorem outMems_execTBltu (c ra rb off s) : outMems (execTBltu c ra rb off s) = some (mems s) := by simp [execTBltu]
@[simp] theorem outMems_execTBgeu (c ra rb off s) : outMems (execTBgeu c ra rb off s) = some (mems s) := by simp [execTBgeu]
@[simp] theorem outMems_execTJmp (c off s) : outMems (execTJmp c off s) = some (mems s) := by simp [execTJmp]
@[simp] theorem outMems_execTCall (c off s) : outMems (execTCall c off s) = some (mems s) := by simp [execTCall]
@[simp] theorem outMems_execTJr (c ra s) : outMems (execTJr c ra s) = some (mems s) := by simp [execTJr]
@[simp] theorem outMems_execTRet (c s) : outMems (execTRet c s) = some (mems s) := by simp [execTRet]
@[simp] theorem outMems_execTEnd (c s) : outMems (execTEnd c s) = some (mems s) := by simp [execTEnd]
@[simp] theorem outMems_execTBrk (c imm s) : outMems (execTBrk c imm s) = some (mems s) := by simp [execTBrk]
@[simp] theorem outMems_execTWaitev (c rd imm s) : outMems (execTWaitev c rd imm s) = some (mems s) := by simp [execTWaitev]
@[simp] theorem outMems_execTPollev (c rd imm s) : outMems (execTPollev c rd imm s) = some (mems s) := by simp [execTPollev]
@[simp] theorem outMems_execTTimer (c ra s) : outMems (execTTimer c ra s) = some (mems s) := by simp [execTTimer]
@[simp] theorem outMems_execTRdtime (c rd s) : outMems (execTRdtime c rd s) = some (mems s) := by simp [execTRdtime]
@[simp] theorem outMems_execTSys (c rd imm s) : outMems (execTSys c rd imm s) = some (mems s) :=
  outMems_act_of (mems_tprRun _ _ _ fun a t => by split <;> simp)
@[simp] theorem outMems_execTCrd (c vd ra imm s) : outMems (execTCrd c vd ra imm s) = some (mems s) := by simp [execTCrd]
@[simp] theorem outMems_execTCwr (c vb ra imm s) : outMems (execTCwr c vb ra imm s) = some (mems s) := by simp [execTCwr]
@[simp] theorem outMems_execTCfree (c s) : outMems (execTCfree c s) = some (mems s) := by simp [execTCfree]
@[simp] theorem outMems_execTColop (c vb s) : outMems (execTColop c vb s) = some (mems s) := by simp [execTColop]
@[simp] theorem outMems_execTMsg (c vb s) : outMems (execTMsg c vb s) = some (mems s) := by simp [execTMsg]
@[simp] theorem outMems_execTHxfer (c vb s) : outMems (execTHxfer c vb s) = some (mems s) := by simp [execTHxfer]
@[simp] theorem outMems_execTMbxput (c rd ra rb s) : outMems (execTMbxput c rd ra rb s) = some (mems s) := by simp [execTMbxput]
@[simp] theorem outMems_execTSemacq (c rd ra s) : outMems (execTSemacq c rd ra s) = some (mems s) := by simp [execTSemacq]
@[simp] theorem outMems_execTSemrel (c ra s) : outMems (execTSemrel c ra s) = some (mems s) := by simp [execTSemrel]
@[simp] theorem outMems_execTNote (c vb rb s) : outMems (execTNote c vb rb s) = some (mems s) := by simp [execTNote]
@[simp] theorem outMems_execIllegalOpcode (c word s) : outMems (execIllegalOpcode c word s) = some (mems s) := by simp [execIllegalOpcode]
@[simp] theorem outMems_execTmsg (p s) : outMems (execTmsg p s) = some (mems s) := by simp [execTmsg]
@[simp] theorem outMems_execTmsgAck (p s) : outMems (execTmsgAck p s) = some (mems s) := by simp [execTmsgAck]
@[simp] theorem outMems_execTmRtoExpiry (psn s) : outMems (execTmRtoExpiry psn s) = some (mems s) := by simp [execTmRtoExpiry]
@[simp] theorem outMems_execAcceptanceEntryExpiry (chip psn s) : outMems (execAcceptanceEntryExpiry chip psn s) = some (mems s) := by
  simp [execAcceptanceEntryExpiry]
@[simp] theorem outMems_execTimerExpiry (c inv s) : outMems (execTimerExpiry c inv s) = some (mems s) := by simp [execTimerExpiry]
@[simp] theorem outMems_execWatchdogExpiry (c s) : outMems (execWatchdogExpiry c s) = some (mems s) := by simp [execWatchdogExpiry]
@[simp] theorem outMems_execActivationDispatch (cluster s) : outMems (execActivationDispatch cluster s) = some (mems s) := by
  simp [execActivationDispatch]
@[simp] theorem outMems_execTprUnfreeze (m v s) : outMems (execTprUnfreeze m v s) = some (mems s) := by simp [execTprUnfreeze]

/-! #### Commands of the switch core (09) -/

@[simp] theorem outMems_execRouteDecision (inp idx s) : outMems (execRouteDecision inp idx s) = some (mems s) := by simp [execRouteDecision]
@[simp] theorem outMems_execXbrChipWrite (m v s) : outMems (execXbrChipWrite m v s) = some (mems s) := by simp [execXbrChipWrite]
@[simp] theorem outMems_execXbrConfigWrite (m off v s) : outMems (execXbrConfigWrite m off v s) = some (mems s) := by
  simp [execXbrConfigWrite]
@[simp] theorem outMems_execMgtLocal (p pkt s) : outMems (execMgtLocal p pkt s) = some (mems s) := by simp [execMgtLocal]
@[simp] theorem outMems_execMgtRouted (inp pkt s) : outMems (execMgtRouted inp pkt s) = some (mems s) := by simp [execMgtRouted]
@[simp] theorem outMems_execMgtWaitExpiry (p s) : outMems (execMgtWaitExpiry p s) = some (mems s) := by
  refine outMems_act_of ?_
  dsimp only
  (repeat' split) <;> simp

/-! #### Commands of the links (10) -/

@[simp] theorem outMems_execSignalDetect (p _lane s) : outMems (execSignalDetect p _lane s) = some (mems s) := by simp [execSignalDetect]
@[simp] theorem outMems_execCapabilityPage (p lane raw s) : outMems (execCapabilityPage p lane raw s) = some (mems s) := by
  simp [execCapabilityPage]
@[simp] theorem outMems_execPageSendTimer (p s) : outMems (execPageSendTimer p s) = some (mems s) := by simp [execPageSendTimer]
@[simp] theorem outMems_execBringupTimeout (p lanes s) : outMems (execBringupTimeout p lanes s) = some (mems s) := by
  simp [execBringupTimeout]
@[simp] theorem outMems_execTrainingComplete (p lanes low s) : outMems (execTrainingComplete p lanes low s) = some (mems s) := by
  simp [execTrainingComplete]
@[simp] theorem outMems_execAlignmentComplete (p s) : outMems (execAlignmentComplete p s) = some (mems s) := by simp [execAlignmentComplete]
@[simp] theorem outMems_execHoldExpiry (p s) : outMems (execHoldExpiry p s) = some (mems s) := by simp [execHoldExpiry]
@[simp] theorem outMems_execDownHoldExpiry (p s) : outMems (execDownHoldExpiry p s) = some (mems s) := by simp [execDownHoldExpiry]
@[simp] theorem outMems_execDataFrame (p fr s) : outMems (execDataFrame p fr s) = some (mems s) := by simp [execDataFrame]
@[simp] theorem outMems_controlRow (p ct raw bad k s) (hk : ∀ u v t, mems (k u v t) = mems t) :
    outMems (controlRow p ct raw bad k s) = some (mems s) :=
  by
  refine outMems_act_of ?_
  have h := mems_controlCome p.toNat ct raw bad s
  split
  all_goals next he => rw [he] at h; simpa [hk] using h
@[simp] theorem outMems_execIdle (p raw bad s) : outMems (execIdle p raw bad s) = some (mems s) := by simp [execIdle]
@[simp] theorem outMems_execCredit (p raw bad s) : outMems (execCredit p raw bad s) = some (mems s) := by simp [execCredit]
@[simp] theorem outMems_execRetryReq (p raw bad s) : outMems (execRetryReq p raw bad s) = some (mems s) := by simp [execRetryReq]
@[simp] theorem outMems_execTsReq (p raw bad s) : outMems (execTsReq p raw bad s) = some (mems s) := by simp [execTsReq]
@[simp] theorem outMems_execTsResp (p raw bad s) : outMems (execTsResp p raw bad s) = some (mems s) := by simp [execTsResp]
@[simp] theorem outMems_execReconfig (p raw bad s) : outMems (execReconfig p raw bad s) = some (mems s) := by simp [execReconfig]
@[simp] theorem outMems_execReconfigAck (p raw bad s) : outMems (execReconfigAck p raw bad s) = some (mems s) := by simp [execReconfigAck]
@[simp] theorem outMems_execControlFrameTimer (p s) : outMems (execControlFrameTimer p s) = some (mems s) := by simp [execControlFrameTimer]
@[simp] theorem outMems_execCreditRefresh (p s) : outMems (execCreditRefresh p s) = some (mems s) := by simp [execCreditRefresh]
@[simp] theorem outMems_execRetryToExpiry (p s) : outMems (execRetryToExpiry p s) = some (mems s) := by simp [execRetryToExpiry]
@[simp] theorem outMems_execLinkToExpiry (p s) : outMems (execLinkToExpiry p s) = some (mems s) := by simp [execLinkToExpiry]
@[simp] theorem outMems_execEgressSelect (p s) : outMems (execEgressSelect p s) = some (mems s) := by simp [execEgressSelect]
@[simp] theorem outMems_execLaneLockLoss (p lane s) : outMems (execLaneLockLoss p lane s) = some (mems s) := by simp [execLaneLockLoss]
@[simp] theorem outMems_execLaneErrorThreshold (p lane s) : outMems (execLaneErrorThreshold p lane s) = some (mems s) := by
  simp [execLaneErrorThreshold]
@[simp] theorem outMems_execLlUncorrThreshold (p s) : outMems (execLlUncorrThreshold p s) = some (mems s) := by simp [execLlUncorrThreshold]
@[simp] theorem outMems_execReconfigResend (p s) : outMems (execReconfigResend p s) = some (mems s) := by
  refine outMems_act_of ?_
  (repeat' split) <;> simp
@[simp] theorem outMems_execReconfigTimeout (p s) : outMems (execReconfigTimeout p s) = some (mems s) := by
  refine outMems_act_of ?_
  (repeat' split) <;> simp
@[simp] theorem outMems_execLaneRetrain (p s) : outMems (execLaneRetrain p s) = some (mems s) := by simp [execLaneRetrain]
@[simp] theorem outMems_execLaneRestoreQualified (p lane s) : outMems (execLaneRestoreQualified p lane s) = some (mems s) := by
  simp [execLaneRestoreQualified]
@[simp] theorem outMems_execTsIntervalExpiry (p s) : outMems (execTsIntervalExpiry p s) = some (mems s) := by simp [execTsIntervalExpiry]
@[simp] theorem outMems_execLinkRestore (m p s) : outMems (execLinkRestore m p s) = some (mems s) := by simp [execLinkRestore]
@[simp] theorem outMems_execLinkReneg (m p s) : outMems (execLinkReneg m p s) = some (mems s) := by simp [execLinkReneg]
@[simp] theorem outMems_execAdminUpSet (m p s) : outMems (execAdminUpSet m p s) = some (mems s) := by simp [execAdminUpSet]
@[simp] theorem outMems_execAdminUpClear (m p s) : outMems (execAdminUpClear m p s) = some (mems s) := by simp [execAdminUpClear]

/-! #### Commands of the time unit and the schedule (11) -/

@[simp] theorem outMems_execServoRun (s) : outMems (execServoRun s) = some (mems s) := by
  refine outMems_plain_of ?_
  dsimp only
  (repeat' split) <;> simp
@[simp] theorem outMems_execPpsEdge (fall s) : outMems (execPpsEdge fall s) = some (mems s) := by simp [execPpsEdge]
@[simp] theorem outMems_execPpsLoss (s) : outMems (execPpsLoss s) = some (mems s) := by
  refine outMems_plain_of ?_
  (repeat' split) <;> simp
@[simp] theorem outMems_execHoldMaxExpiry (s) : outMems (execHoldMaxExpiry s) = some (mems s) := by
  refine outMems_plain_of ?_
  (repeat' split) <;> simp
@[simp] theorem outMems_execGtimeLoad (m s) : outMems (execGtimeLoad m s) = some (mems s) := by simp [execGtimeLoad]
@[simp] theorem outMems_execTmuModeWrite (m mode s) : outMems (execTmuModeWrite m mode s) = some (mems s) := by simp [execTmuModeWrite]
@[simp] theorem outMems_execGtimeLoRead (f s) : outMems (execGtimeLoRead f s) = some (mems s) := by simp [execGtimeLoRead]
@[simp] theorem outMems_execRefLockChange (locked s) : outMems (execRefLockChange locked s) = some (mems s) := by simp [execRefLockChange]
@[simp] theorem outMems_execEpochStart (s) : outMems (execEpochStart s) = some (mems s) := by simp [execEpochStart]
@[simp] theorem outMems_execGuardBandStart (p s) : outMems (execGuardBandStart p s) = some (mems s) := by simp [execGuardBandStart]
@[simp] theorem outMems_execEarlyExpiry (p s) : outMems (execEarlyExpiry p s) = some (mems s) := by
  refine outMems_plain_of ?_
  (repeat' split) <;> simp
@[simp] theorem outMems_execGclWord0Write (m p e v s) : outMems (execGclWord0Write m p e v s) = some (mems s) := by simp [execGclWord0Write]
@[simp] theorem outMems_execGclWord1Write (m p e v s) : outMems (execGclWord1Write m p e v s) = some (mems s) := by simp [execGclWord1Write]
@[simp] theorem outMems_execHistSample (s) : outMems (execHistSample s) = some (mems s) := by simp [execHistSample]
@[simp] theorem outMems_execHistClear (m s) : outMems (execHistClear m s) = some (mems s) := by simp [execHistClear]

/-! #### Commands of the lock unit (12) -/

@[simp] theorem outMems_execLckAcq (f n bytes s) : outMems (execLckAcq f n bytes s) = some (mems s) := by simp [execLckAcq]
@[simp] theorem outMems_execLckRel (f n bytes s) : outMems (execLckRel f n bytes s) = some (mems s) := by simp [execLckRel]
@[simp] theorem outMems_execLckCancel (f n bytes s) : outMems (execLckCancel f n bytes s) = some (mems s) := by simp [execLckCancel]
@[simp] theorem outMems_execLckStatRead (f n bytes s) : outMems (execLckStatRead f n bytes s) = some (mems s) := by simp [execLckStatRead]
@[simp] theorem outMems_execLckForce (m v s) : outMems (execLckForce m v s) = some (mems s) := by simp [execLckForce]
@[simp] theorem outMems_execLckAllocWrite (m n v s) : outMems (execLckAllocWrite m n v s) = some (mems s) := by simp [execLckAllocWrite]

/-! #### Faults (13) -/

@[simp] theorem outMems_execFaultOccurrence (src u inj s) : outMems (execFaultOccurrence src u inj s) = some (mems s) := by
  simp [execFaultOccurrence]
@[simp] theorem outMems_execSpareInService (u s) : outMems (execSpareInService u s) = some (mems s) := by
  refine outMems_act_of ?_
  (repeat' split) <;> simp
@[simp] theorem outMems_execUnitRestore (m v s) : outMems (execUnitRestore m v s) = some (mems s) := by simp [execUnitRestore]
@[simp] theorem outMems_execFcuInjectWrite (m v s) : outMems (execFcuInjectWrite m v s) = some (mems s) := by simp [execFcuInjectWrite]
@[simp] theorem outMems_execStickyClear (m merged w v s) : outMems (execStickyClear m merged w v s) = some (mems s) := by
  simp [execStickyClear]
@[simp] theorem outMems_execScrub (src n hour s) : outMems (execScrub src n hour s) = some (mems s) := by simp [execScrub]
@[simp] theorem outMems_execThermalWarning (s) : outMems (execThermalWarning s) = some (mems s) := by simp [execThermalWarning]
@[simp] theorem outMems_execSupplyOutOfRange (s) : outMems (execSupplyOutOfRange s) = some (mems s) := by simp [execSupplyOutOfRange]

/-! #### Clocks and power (14) -/

@[simp] theorem outMems_execDomainSwitchOn (d s) : outMems (execDomainSwitchOn d s) = some (mems s) := by simp [execDomainSwitchOn]
@[simp] theorem outMems_execClockMonitorWindow (island bad s) : outMems (execClockMonitorWindow island bad s) = some (mems s) := by
  simp [execClockMonitorWindow]
@[simp] theorem outMems_execPstateToP0 (m s) : outMems (execPstateToP0 m s) = some (mems s) := by simp [execPstateToP0]
@[simp] theorem outMems_execPstateToP1 (m s) : outMems (execPstateToP1 m s) = some (mems s) := by simp [execPstateToP1]
@[simp] theorem outMems_execPstateToP2 (m s) : outMems (execPstateToP2 m s) = some (mems s) := by simp [execPstateToP2]
@[simp] theorem outMems_execPstateToP3 (m s) : outMems (execPstateToP3 m s) = some (mems s) := by simp [execPstateToP3]
@[simp] theorem outMems_execClkP1KeepWrite (m w v s) : outMems (execClkP1KeepWrite m w v s) = some (mems s) := by simp [execClkP1KeepWrite]

/-! #### Counters and the Lantern (16) -/

@[simp] theorem outMems_execEvcCtlWrite (m n v s) : outMems (execEvcCtlWrite m n v s) = some (mems s) :=
  outMems_plain_of (mems_mgtWr _ _ _ fun _ => mems_evcNone _ _ _ _ fun _ => by simp)
@[simp] theorem outMems_execEvcCntWrite (m n v inc s) : outMems (execEvcCntWrite m n v inc s) = some (mems s) :=
  outMems_plain_of (mems_mgtWr _ _ _ fun _ => mems_evcNone _ _ _ _ fun _ => by simp)
@[simp] theorem outMems_execEvcPageEnWrite (m b v s) : outMems (execEvcPageEnWrite m b v s) = some (mems s) :=
  outMems_plain_of (mems_mgtWr _ _ _ fun _ => mems_evcNone _ _ _ _ fun _ => by simp)
@[simp] theorem outMems_execEvcFreeze (m on s) : outMems (execEvcFreeze m on s) = some (mems s) := by simp [execEvcFreeze]
@[simp] theorem outMems_execLtnStart (m s) : outMems (execLtnStart m s) = some (mems s) := by simp [execLtnStart]
@[simp] theorem outMems_execLtnTrigger (m s) : outMems (execLtnTrigger m s) = some (mems s) := by simp [execLtnTrigger]
@[simp] theorem outMems_execLtnTimeTrigger (s) : outMems (execLtnTimeTrigger s) = some (mems s) := by simp [execLtnTimeTrigger]
@[simp] theorem outMems_execLtnModeWrite (m mode s) : outMems (execLtnModeWrite m mode s) = some (mems s) := by simp [execLtnModeWrite]
@[simp] theorem outMems_execReplayStop (mark s) : outMems (execReplayStop mark s) = some (mems s) := by
  unfold execReplayStop; split <;> simp

/-! #### Security and debug (15) -/

@[simp] theorem outMems_secCommand (op m vqps s) : outMems (secCommand op m vqps s) = some (mems s) := by simp [secCommand]
@[simp] theorem outMems_execProvision (m vqps s) : outMems (execProvision m vqps s) = some (mems s) := by simp [execProvision]
@[simp] theorem outMems_execAddOwnerKey (m vqps s) : outMems (execAddOwnerKey m vqps s) = some (mems s) := by simp [execAddOwnerKey]
@[simp] theorem outMems_execRevokeOwnerKey (m vqps s) : outMems (execRevokeOwnerKey m vqps s) = some (mems s) := by
  simp [execRevokeOwnerKey]
@[simp] theorem outMems_execSeal (m vqps s) : outMems (execSeal m vqps s) = some (mems s) := by simp [execSeal]
@[simp] theorem outMems_execRma (m vqps s) : outMems (execRma m vqps s) = some (mems s) := by simp [execRma]
@[simp] theorem outMems_execSvnAdvance (m vqps s) : outMems (execSvnAdvance m vqps s) = some (mems s) := by simp [execSvnAdvance]
@[simp] theorem outMems_execDebugUnlock (m s) : outMems (execDebugUnlock m s) = some (mems s) := by simp [execDebugUnlock]
@[simp] theorem outMems_execDebugLower (m s) : outMems (execDebugLower m s) = some (mems s) := by simp [execDebugLower]
@[simp] theorem outMems_execAttest (m s) : outMems (execAttest m s) = some (mems s) := by simp [execAttest]
@[simp] theorem outMems_execNonce (m s) : outMems (execNonce m s) = some (mems s) := by simp [execNonce]
@[simp] theorem outMems_jtagShift (f s) (hf : ∀ t, mems (f t) = mems t) : outMems (jtagShift f s) = some (mems s) := by
  unfold jtagShift; split <;> simp [hf]
@[simp] theorem outMems_execBypass (s) : outMems (execBypass s) = some (mems s) := by simp [execBypass]
@[simp] theorem outMems_execIdcode (s) : outMems (execIdcode s) = some (mems s) := by simp [execIdcode]
@[simp] theorem outMems_execSecNonce (s) : outMems (execSecNonce s) = some (mems s) := by simp [execSecNonce]
@[simp] theorem outMems_execSecToken (blk vqps s) : outMems (execSecToken blk vqps s) = some (mems s) := by simp [execSecToken]
@[simp] theorem outMems_execSamplePreload (v s) : outMems (execSamplePreload v s) = some (mems s) := by simp [execSamplePreload]
@[simp] theorem outMems_execExtest (s) : outMems (execExtest s) = some (mems s) := by simp [execExtest]
@[simp] theorem outMems_execClamp (s) : outMems (execClamp s) = some (mems s) := by simp [execClamp]
@[simp] theorem outMems_execHighz (s) : outMems (execHighz s) = some (mems s) := by simp [execHighz]
@[simp] theorem outMems_debugDo (bytes permitted f s) (hf : ∀ t, mems (f t) = mems t) :
    outMems (debugDo bytes permitted f s) = some (mems s) :=
  by
  refine outMems_act_of ?_
  dsimp only
  (repeat' split) <;> simp [hf]
@[simp] theorem outMems_execReplay (s) : outMems (execReplay s) = some (mems s) := by simp [execReplay]
@[simp] theorem outMems_execSecUnfreeze (m v s) : outMems (execSecUnfreeze m v s) = some (mems s) := by simp [execSecUnfreeze]

/-! #### The host interface (17) -/

@[simp] theorem outMems_execFlr (f s) : outMems (execFlr f s) = some (mems s) := by simp [execFlr]
@[simp] theorem outMems_execControllerReset (j s) : outMems (execControllerReset j s) = some (mems s) := by simp [execControllerReset]
@[simp] theorem outMems_execPcieLinkLoss (l s) : outMems (execPcieLinkLoss l s) = some (mems s) := by simp [execPcieLinkLoss]
@[simp] theorem outMems_execD3hotToD0 (f s) : outMems (execD3hotToD0 f s) = some (mems s) := by simp [execD3hotToD0]
@[simp] theorem outMems_execVfEnableClear (j s) : outMems (execVfEnableClear j s) = some (mems s) := by simp [execVfEnableClear]
@[simp] theorem outMems_execDescriptorReadComplete (f r d s) : outMems (execDescriptorReadComplete f r d s) = some (mems s) := by
  simp [execDescriptorReadComplete]
@[simp] theorem outMems_execHifWinWrite (m f k v s) : outMems (execHifWinWrite m f k v s) = some (mems s) := by simp [execHifWinWrite]
@[simp] theorem outMems_execHifMgtprivWrite (m v s) : outMems (execHifMgtprivWrite m v s) = some (mems s) := by simp [execHifMgtprivWrite]
@[simp] theorem outMems_execMsixUnmask (f vec s) : outMems (execMsixUnmask f vec s) = some (mems s) := by
  unfold execMsixUnmask; split <;> simp
@[simp] theorem outMems_execConfigRequest (t r s) : outMems (execConfigRequest t r s) = some (mems s) := by
  unfold execConfigRequest; split <;> simp
@[simp] theorem outMems_execEnumerationTimeout (j s) : outMems (execEnumerationTimeout j s) = some (mems s) := by
  refine outMems_act_of ?_
  dsimp only
  (repeat' split) <;> simp
@[simp] theorem outMems_execPerstNRelease (j s) : outMems (execPerstNRelease j s) = some (mems s) := by simp [execPerstNRelease]
@[simp] theorem outMems_execPcieLinkUp (l rate width s) : outMems (execPcieLinkUp l rate width s) = some (mems s) := by
  simp [execPcieLinkUp]
@[simp] theorem outMems_execAspmL1Entry (l s) : outMems (execAspmL1Entry l s) = some (mems s) := by simp [execAspmL1Entry]

/-! #### Start-up and the event log (18) -/

@[simp] theorem outMems_execRecoveryReselect (s) : outMems (execRecoveryReselect s) = some (mems s) := by simp [execRecoveryReselect]
@[simp] theorem outMems_execMgtRestart (m s) : outMems (execMgtRestart m s) = some (mems s) := by simp [execMgtRestart]
@[simp] theorem outMems_execHostReady (m s) : outMems (execHostReady m s) = some (mems s) := by simp [execHostReady]
@[simp] theorem outMems_execSelfTestComplete (u pass s) : outMems (execSelfTestComplete u pass s) = some (mems s) := by
  simp [execSelfTestComplete]

/-! #### Reads and writes of registers (17) -/

@[simp] theorem outMems_execDbgRead (off s) : outMems (execDbgRead off s) = some (mems s) := by unfold execDbgRead; split <;> simp
@[simp] theorem outMems_execBar0WindowViolation (f off wr s) : outMems (execBar0WindowViolation f off wr s) = some (mems s) := by
  simp [execBar0WindowViolation]

end Sys2Proof.Machine

/-! ## The memories inside the block: what writes them keeps their form (R231, R242, R247, R268, R403, R430, R482, R483, R493) -/

namespace Sys2Proof.Machine

open Sys2Proof

/-- Every memory has its canonical form. -/
def Mems.Good (m : Mems) : Prop :=
  Memory.wf 0 m.ldm = true ∧ Memory.wf 0 m.csm = true ∧ Memory.wf 0xFF m.flash = true ∧ Memory.wf 0 m.mem = true

/-! ### The operations that write a memory -/

theorem Memory.wf_filter {d : Byte} (p : Host.Cell → Bool) {m : List Host.Cell} (h : Memory.wf d m = true) :
    Memory.wf d (m.filter p) = true := by
  induction m with
  | nil => rfl
  | cons c t ih =>
    obtain ⟨k, v⟩ := c
    have hkeep := ih (Memory.wf_tail h)
    rw [List.filter_cons]
    split
    · exact Memory.wf_cons (Memory.wf_head h) (fun x hx => Memory.wf_above h x (List.mem_of_mem_filter hx)) hkeep
    · exact hkeep

/-- What each step of a fold keeps, the fold keeps. -/
theorem good_foldl {α : Type} {f : State → α → State} (hf : ∀ s x, (mems s).Good → (mems (f s x)).Good) (l : List α) {s : State}
    (h : (mems s).Good) : (mems (l.foldl f s)).Good := by
  induction l generalizing s with
  | nil => exact h
  | cons x l ih => exact ih (hf s x h)

@[simp] theorem good_ite (c : Prop) [Decidable c] (a b : Mems) : (if c then a else b).Good ↔ (c → a.Good) ∧ (¬c → b.Good) := by
  split <;> simp [*]

section Writers

variable {s : State} (h : (mems s).Good)
include h

@[simp] theorem good_writeLdm (core a bs) : (mems (writeLdm core a bs s)).Good := by
  obtain ⟨hl, hc, hf, hm⟩ := h
  exact ⟨memWrite_wf _ _ _ hl, hc, hf, hm⟩

@[simp] theorem good_writeCsm (cl a bs) : (mems (writeCsm cl a bs s)).Good := by
  obtain ⟨hl, hc, hf, hm⟩ := h
  exact ⟨hl, memWrite_wf _ _ _ hc, hf, hm⟩

@[simp] theorem good_clearCsm (cl a n) : (mems (clearCsm cl a n s)).Good := by
  obtain ⟨hl, hc, hf, hm⟩ := h
  exact ⟨hl, Memory.wf_filter _ hc, hf, hm⟩

@[simp] theorem good_tWrite (c t bs) : (mems (tWrite c t bs s)).Good := by
  unfold tWrite; split <;> simp [h]

@[simp] theorem good_opLeaves (ok op) : (mems (opLeaves ok op s)).Good := by
  obtain ⟨hl, hc, hf, hm⟩ := h
  unfold opLeaves
  split
  next a =>
    have herased := Memory.wf_filter (fun c => c.1 < a || a + 65536 ≤ c.1) hf
    dsimp only
    split
    · exact ⟨hl, hc, herased, hm⟩
    · exact ⟨hl, hc, memWrite_wf _ _ _ herased, hm⟩
  · split
    · exact ⟨hl, hc, memWrite_wf _ _ _ hf, hm⟩
    · exact ⟨hl, hc, memWrite_wf _ _ _ hf, hm⟩

@[simp] theorem good_opCut : (mems (opCut s)).Good := by
  unfold opCut; split <;> simp [h]

@[simp] theorem good_haltWrite (core a bs) : (mems (haltWrite core a bs s)).Good := by
  unfold haltWrite
  split
  · exact h
  · split
    · obtain ⟨hl, hc, hf, hm⟩ := h
      exact ⟨hl, hc, hf, memWrite_wf _ _ _ hm⟩
    · split
      · simp [h]
      · split <;> simp [h]

@[simp] theorem good_clusterOff (c) : (mems (clusterOff c s)).Good := by
  obtain ⟨hl, hc, hf, hm⟩ := h
  unfold clusterOff
  dsimp only
  split
  · rw [mems_loseRegs]
    exact ⟨rfl, rfl, hf, hm⟩
  · exact ⟨Memory.wf_filter _ hl, Memory.wf_filter _ hc, hf, hm⟩

/-! ### Resets (R482, R483) -/

@[simp] theorem good_coldState (straps) : (mems (coldState straps s)).Good := by
  obtain ⟨-, -, hflash, -⟩ : (mems (driveFlash (opCut s))).Good := by simpa using good_opCut h
  unfold coldState
  simp only [mems_newNonce, mems_setStraps, mems_wrReg]
  exact ⟨rfl, rfl, hflash, rfl⟩

@[simp] theorem good_coldReset (straps) : (mems (coldReset straps s)).Good := by
  unfold coldReset
  dsimp only
  repeat' split
  all_goals simp [h]

@[simp] theorem good_warmState : (mems (warmState s)).Good := by
  obtain ⟨-, -, hflash, -⟩ : (mems (driveFlash s)).Good := by simpa using h
  unfold warmState
  simp
  exact ⟨rfl, rfl, hflash, rfl⟩

@[simp] theorem good_heldOff : (mems (heldOff s)).Good := by
  simpa [heldOff] using good_coldState h (strapBits s)

/-! ### Stores of the Taper cores, transfers and images (R236, R242, R250) -/

theorem good_tprRun {c : Nat} {k : Act → State → State} (hk : ∀ a t, (mems t).Good → (mems (k a t)).Good) :
    (mems (tprRun c k s)).Good := by
  unfold tprRun
  split
  · split
    · exact h
    · exact hk _ _ h
  · exact h

theorem good_tAccess {c a addr n wr heapOnly} {k : TAddr → State → State} (hk : ∀ u t, (mems t).Good → (mems (k u t)).Good) :
    (mems (tAccess c a addr n wr heapOnly k s)).Good := by
  unfold tAccess
  split
  · simp [h]
  · split
    · exact hk _ _ h
    · simp [h]

@[simp] theorem good_tprStore (c rd ra imm n) : (mems (tprStore c rd ra imm n s)).Good :=
  good_tprRun h fun a t ht => good_tAccess ht fun u v hv => by simp [hv]

@[simp] theorem good_tprAtomic (c rd ra f) : (mems (tprAtomic c rd ra f s)).Good :=
  good_tprRun h fun a t ht => good_tAccess ht fun u v hv => by simp [hv]

@[simp] theorem good_tprCcpy (c dst r n a) : (mems (tprCcpy c dst r n a s)).Good := by
  unfold tprCcpy
  repeat' split
  all_goals simp [h]

@[simp] theorem good_hxferData (id d) : (mems (hxferData id d s)).Good := by
  unfold hxferData
  split
  · exact h
  · split
    · exact h
    · dsimp only
      split
      · simp [h]
      · split <;> simp [h]

@[simp] theorem good_installIn (b bs cl pl) : (mems (installIn b bs s cl pl)).Good := by
  obtain ⟨code, ia, ds⟩ := pl
  refine good_writeCsm ?_ ..
  split <;> simp [h]

@[simp] theorem good_installImage (ref e b bs) : (mems (installImage ref e b bs s)).Good := by
  unfold installImage
  split
  · simp [h]
  next place _ =>
    have hin := good_foldl (f := fun s (x : Nat × Nat × Nat × Nat) => installIn b bs s x.1 x.2) (fun _ _ ht => good_installIn ht ..) place h
    dsimp only
    generalize place.foldl _ s = t at hin ⊢
    repeat' split
    all_goals simp [hin]

@[simp] theorem good_imageCome (f d) : (mems (imageCome f d s)).Good := by
  unfold imageCome
  split
  · exact h
  next l _ =>
    have hl : (mems (withTpr (fun t => { t with loads := tdel t.loads f }) s)).Good := h
    dsimp only
    generalize withTpr _ s = t at hl ⊢
    repeat' split
    all_goals simp [hl]

/-! ### Domains that are switched off (R402, R403) -/

@[simp] theorem good_domainLoses (d) : (mems (domainLoses d s)).Good := by
  simp [domainLoses, h]

@[simp] theorem good_domainOff (d) : (mems (domainOff d s)).Good := by
  simp [domainOff, h]

@[simp] theorem good_domainsFollow : (mems (domainsFollow s)).Good := by
  have hoff := good_foldl (f := fun s d => if domOn d s && !domWanted d s then domainOff d s else s)
    (fun t d ht => by split <;> simp [ht]) (List.range 212) h
  simpa [domainsFollow] using hoff

@[simp] theorem good_phaseDone (t) : (mems (phaseDone t s)).Good := by
  unfold phaseDone
  dsimp only
  repeat' split
  all_goals simp [h]

/-! ### The flash, and the MGT (R487, R493, R495) -/

@[simp] theorem good_timedOut (r) : (mems (timedOut r s)).Good := by
  unfold timedOut
  repeat' split
  all_goals simp [h]

@[simp] theorem good_tripCut : (mems (tripCut s)).Good := by
  unfold tripCut
  dsimp only
  split <;> simp [h]

@[simp] theorem good_opDone (ok) : (mems (opDone ok s)).Good := by
  unfold opDone
  dsimp only
  repeat' split
  all_goals simp [h]

@[simp] theorem good_mgtTick : (mems (mgtTick s)).Good := by
  unfold mgtTick
  dsimp only
  repeat' split
  all_goals simp [h]

@[simp] theorem good_warmReset : (mems (warmReset s)).Good := by
  unfold warmReset
  rcases hn : fresh (warmState s) with ⟨n, t⟩
  have ht : (mems t).Good := by
    rw [mems_of_snd hn, mems_fresh]
    exact good_warmState h
  dsimp only
  split
  · simp [ht]
  · split <;> simp [ht]

/-! ### Writes of management space, made or held (R389, R471) -/

@[simp] theorem good_writeMgt (m base v) : (mems (writeMgt m base v s)).Good := by
  unfold writeMgt
  repeat' split
  all_goals simp [h]

@[simp] theorem good_writeOne (m d off be v) : (mems (writeOne m d off be v s)).Good := by
  simp [writeOne, h]

@[simp] theorem good_mgmtReg (m o be v) : (mems (mgmtReg m o be v s)).Good := by
  unfold mgmtReg
  dsimp only
  repeat' split
  all_goals simp [h]

@[simp] theorem good_mgmtGo (m off be v) : (mems (mgmtGo m off be v s)).Good := by
  unfold mgmtGo
  dsimp only
  split <;> simp [h]

@[simp] theorem good_mgmtWrite (m off be v) : (mems (mgmtWrite m off be v s)).Good := by
  unfold mgmtWrite cross
  split <;> simp [h]

@[simp] theorem good_heldGo (r) : (mems (heldGo s r)).Good := by
  unfold heldGo
  split <;> simp [h]

@[simp] theorem good_heldRelease : (mems (heldRelease s)).Good :=
  good_foldl (fun _ r ht => good_heldGo ht r) _ h

@[simp] theorem good_idleTick : (mems (idleTick s)).Good := by
  unfold idleTick
  split <;> simp [h]


/-! ### The commands -/

/-- If a command answers a next state, that one's memories have their form. -/
def GoodNext (o : Host.Outcome State Fault Refusal) : Prop := ∀ m ∈ outMems o, m.Good

omit h in
@[simp] theorem goodNext_next (t : State) : GoodNext (.next t) ↔ (mems t).Good := by simp [GoodNext]

theorem goodNext_act {f : State → State} (hf : (mems (f s)).Good) : GoodNext (act f s) := by
  simp [GoodNext, h, hf]

theorem goodNext_of_outMems {o : Host.Outcome State Fault Refusal} (ho : outMems o = some (mems s)) : GoodNext o := by
  simpa [GoodNext, ho] using h

theorem goodNext_execTSt (c rd ra imm) : GoodNext (execTSt c rd ra imm s) := goodNext_act h (good_tprStore h ..)
theorem goodNext_execTSw (c rd ra imm) : GoodNext (execTSw c rd ra imm s) := goodNext_act h (good_tprStore h ..)
theorem goodNext_execTSh (c rd ra imm) : GoodNext (execTSh c rd ra imm s) := goodNext_act h (good_tprStore h ..)
theorem goodNext_execTSb (c rd ra imm) : GoodNext (execTSb c rd ra imm s) := goodNext_act h (good_tprStore h ..)
theorem goodNext_execTAadd (c rd ra rb) : GoodNext (execTAadd c rd ra rb s) := goodNext_act h (good_tprAtomic h ..)
theorem goodNext_execTAswp (c rd ra rb) : GoodNext (execTAswp c rd ra rb s) := goodNext_act h (good_tprAtomic h ..)
theorem goodNext_execTAcas (c rd ra rb) : GoodNext (execTAcas c rd ra rb s) := goodNext_act h (good_tprAtomic h ..)
theorem goodNext_execTVst (c vb ra imm) : GoodNext (execTVst c vb ra imm s) :=
  goodNext_act h (good_tprRun h fun a t ht => good_tAccess ht fun u v hv => by simp [hv])
theorem goodNext_execTCcpy (c rd ra rb) : GoodNext (execTCcpy c rd ra rb s) :=
  goodNext_act h (good_tprRun h fun _ _ ht => good_tprCcpy ht ..)
theorem goodNext_execHxferComplete (id d) : GoodNext (execHxferComplete id d s) := goodNext_act h (good_hxferData h ..)
theorem goodNext_execDomainSwitchOff (d) : GoodNext (execDomainSwitchOff d s) := goodNext_act h (by split <;> simp [h])
theorem goodNext_execPstateTransitionComplete : GoodNext (execPstateTransitionComplete s) :=
  goodNext_act h (by (repeat' split) <;> simp [h])
theorem goodNext_execBrownOut (rail) : GoodNext (execBrownOut rail s) := by
  unfold execBrownOut
  dsimp only
  repeat' split
  · simpa using good_heldOff h
  · simp [h]
  · exact goodNext_act h (by simp [h])
  · exact goodNext_act h (by simp [h])
  · simp [h]
theorem goodNext_execThermalTrip : GoodNext (execThermalTrip s) := by
  unfold execThermalTrip
  split
  · simp [h]
  · split
    · simp [h]
    · exact goodNext_act h (by simp [h])

theorem goodNext_debugDo {n : Nat} {p : State → Bool} {f : State → State} (hf : ∀ t, (mems t).Good → (mems (f t)).Good) :
    GoodNext (debugDo n p f s) :=
  goodNext_act h (by
    dsimp only
    split
    · exact hf _ (by simpa using h)
    · simp [h])
theorem goodNext_execHalt (core on addr bytes) : GoodNext (execHalt core on addr bytes s) := by
  unfold execHalt
  refine goodNext_debugDo h fun t ht => ?_
  rw [mems_haltDo]
  refine good_haltWrite ?_ ..
  split <;> simp [ht]
theorem goodNext_execDbgWrite (off be v) : GoodNext (execDbgWrite off be v s) :=
  goodNext_debugDo h fun t ht => by dsimp only; split <;> simp [ht]
theorem goodNext_execCompletionTimeout (r) : GoodNext (execCompletionTimeout r s) := goodNext_act h (by split <;> simp [h])
theorem goodNext_execTaperImageReadComplete (f d) : GoodNext (execTaperImageReadComplete f d s) := goodNext_act h (good_imageCome h ..)
theorem goodNext_execXspiOperationComplete (ok) : GoodNext (execXspiOperationComplete ok s) := goodNext_act h (good_opDone h ok)
theorem goodNext_execColdReset (straps) : GoodNext (execColdReset straps s) := by
  have hcold := good_coldState h (straps.toNat % 512)
  unfold execColdReset
  dsimp only
  split
  · simpa using hcold
  · split
    · simpa using hcold
    · simp [h]
theorem goodNext_execSupplyReturn : GoodNext (execSupplyReturn s) := by
  unfold execSupplyReturn
  (repeat' split) <;> simp [h]

theorem good_mgtWr {m : Master} {k : State → State} (hk : ∀ t, (mems t).Good → (mems (k t)).Good) : (mems (mgtWr m k s)).Good := by
  have hhost : ∀ j : State → State, (∀ t, (mems t).Good → (mems (j t)).Good) → (mems (hostWr m.toNat 118 false j s)).Good := by
    intro j hj
    unfold hostWr
    split_ifs
    · exact h
    · simp [h]
    · simp [h]
    · simp [h]
    · exact hj s h
  unfold mgtWr
  split_ifs
  · exact h
  · exact hk s h
  · exact hk s h
  · exact h
  · exact hhost _ fun t ht => by split <;> simp [hk, ht]
  · exact h
theorem goodNext_execWarmReset (m) : GoodNext (execWarmReset m s) :=
  goodNext_act h (by
    unfold mgtReg
    split
    · simp [h]
    · exact good_mgtWr h fun t ht => by unfold cross; split <;> simp [ht])
theorem goodNext_execRegisterWrite (m off be w) : GoodNext (execRegisterWrite m off be w s) :=
  goodNext_act h (by
    dsimp only
    split
    · split <;> simp [h]
    · split_ifs
      · simp [h]
      · exact h
      · simp [h]
      · exact h
      · exact good_mgtWr h fun t ht => good_mgmtWrite ht ..)
theorem goodNext_execLtnSnapshotComplete : GoodNext (execLtnSnapshotComplete s) :=
  have hdone : (mems (snapDone (snapRecs s).1 (snapRecs s).2)).Good := by simpa using h
  goodNext_act h (good_heldRelease hdone)
theorem goodNext_execRestartComplete (src) : GoodNext (execRestartComplete src s) := goodNext_act h (by split <;> simp [h])
theorem goodNext_execRestoreSelfTestComplete (pass) : GoodNext (execRestoreSelfTestComplete pass s) :=
  goodNext_act h (by (repeat' split) <;> simp [h])
theorem goodNext_execDomainRampComplete (d) : GoodNext (execDomainRampComplete d s) :=
  goodNext_act h (by dsimp only; (repeat' split) <;> simp [h])

/-- Every command's answer leaves every memory its form. The commands that reach no writer of a memory leave them all as they are. -/
theorem goodNext_exec (i : Instr) : GoodNext (exec i s) := by
  cases i with
  | tSt c rd ra imm => exact goodNext_execTSt h c rd ra imm
  | tSw c rd ra imm => exact goodNext_execTSw h c rd ra imm
  | tSh c rd ra imm => exact goodNext_execTSh h c rd ra imm
  | tSb c rd ra imm => exact goodNext_execTSb h c rd ra imm
  | tAadd c rd ra rb => exact goodNext_execTAadd h c rd ra rb
  | tAswp c rd ra rb => exact goodNext_execTAswp h c rd ra rb
  | tAcas c rd ra rb => exact goodNext_execTAcas h c rd ra rb
  | tVst c vb ra imm => exact goodNext_execTVst h c vb ra imm
  | tCcpy c rd ra rb => exact goodNext_execTCcpy h c rd ra rb
  | hxferComplete id d => exact goodNext_execHxferComplete h id d
  | domainSwitchOff d => exact goodNext_execDomainSwitchOff h d
  | domainRampComplete d => exact goodNext_execDomainRampComplete h d
  | pstateTransitionComplete => exact goodNext_execPstateTransitionComplete h
  | brownOut rail => exact goodNext_execBrownOut h rail
  | thermalTrip => exact goodNext_execThermalTrip h
  | halt core on addr bytes => exact goodNext_execHalt h core on addr bytes
  | dbgWrite off be v => exact goodNext_execDbgWrite h off be v
  | ltnSnapshotComplete => exact goodNext_execLtnSnapshotComplete h
  | completionTimeout r => exact goodNext_execCompletionTimeout h r
  | coldReset straps => exact goodNext_execColdReset h straps
  | supplyReturn => exact goodNext_execSupplyReturn h
  | warmReset m => exact goodNext_execWarmReset h m
  | registerWrite m off be w => exact goodNext_execRegisterWrite h m off be w
  | taperImageReadComplete f d => exact goodNext_execTaperImageReadComplete h f d
  | xspiOperationComplete ok => exact goodNext_execXspiOperationComplete h ok
  | restartComplete src => exact goodNext_execRestartComplete h src
  | restoreSelfTestComplete pass => exact goodNext_execRestoreSelfTestComplete h pass
  | _ => exact goodNext_of_outMems h (by simp [exec])

end Writers

/-- Settles O58: a step is a command's meaning, or the tick of an empty queue. -/
theorem everyStepKeepsMemoryForm : Obligations.EveryStepKeepsMemoryForm := by
  intro s t hs hstep
  have hgood : (mems s).Good := hs
  unfold step at hstep
  split at hstep
  · cases hstep
    exact good_idleTick hgood
  next c rest _ =>
    have hnext : GoodNext (exec c { s with pending := rest }) := goodNext_exec (s := { s with pending := rest }) hgood c
    rw [hstep] at hnext
    exact (goodNext_next t).mp hnext

end Sys2Proof.Machine

/-! ## The lock unit (12) -/

namespace Sys2Proof.Machine

open Sys2Proof.Claims

/-! ### A semaphore's own order -/

/-- The order that `LocksOrdered` asks of one semaphore. -/
def Sem.Ordered (x : Sem) : Prop :=
  (x.holder = none → x.queue = []) ∧ x.queue.Nodup ∧ ∀ m, x.holder = some m → m ∉ x.queue

/-- The semaphore with a master taken out of its queue. -/
def Sem.without (m : BitVec 12) (x : Sem) : Sem := { x with queue := x.queue.filter (· != m) }

theorem ordered_of_no_queue {x : Sem} (hq : x.queue = []) : x.Ordered := by
  simp [Sem.Ordered, hq]

theorem ordered_without {x : Sem} (h : x.Ordered) (m : BitVec 12) : (x.without m).Ordered := by
  obtain ⟨hfree, hnodup, hout⟩ := h
  refine ⟨fun hn => ?_, hnodup.filter _, fun k hk hin => hout k hk (List.mem_of_mem_filter hin)⟩
  rw [Sem.without, hfree hn, List.filter_nil]

theorem locksOrdered_iff {s : State} : LocksOrdered s ↔ ∀ n, (getSem n s).Ordered := Iff.rfl

theorem getSem_congr {s t : State} (h : s.sems = t.sems) (n : Nat) : getSem n s = getSem n t := by
  rw [getSem, getSem, h]

theorem locksOrdered_congr {s t : State} (h : s.sems = t.sems) : LocksOrdered s ↔ LocksOrdered t := by
  simp only [locksOrdered_iff, getSem_congr h]

theorem getSem_putSem (n k : Nat) (x : Sem) (s : State) : getSem k (putSem n x s) = if k = n then x else getSem k s := by
  unfold getSem
  rw [putSem_sems, tget_tset]
  split <;> rfl

@[simp] theorem getSem_putSem_same (n : Nat) (x : Sem) (s : State) : getSem n (putSem n x s) = x := by
  rw [getSem_putSem, if_pos rfl]

/-- Writing one semaphore keeps the order when what is written has it. -/
theorem locksOrdered_putSem {n : Nat} {x : Sem} {s : State} (hx : x.Ordered) (h : ∀ k, k ≠ n → (getSem k s).Ordered) :
    LocksOrdered (putSem n x s) := by
  rw [locksOrdered_iff]
  intro k
  rw [getSem_putSem]
  split
  · exact hx
  next hk => exact h k hk

@[simp] theorem modAct_sems (c : Nat) (f : Act → Act) (s : State) : (modAct c f s).sems = s.sems := by
  unfold modAct
  split <;> rfl

@[simp] theorem semReturn_sems (m : BitVec 12) (n st : Nat) (s : State) : (semReturn m n st s).sems = s.sems := modAct_sems ..

theorem uncounted_sems : Uncounted State.sems := ⟨fun _ _ _ _ => rfl, fun _ _ _ _ => rfl, fun _ _ => rfl, fun _ _ _ => rfl⟩

theorem lckIgnored_sems (s : State) : (lckIgnored s).sems = s.sems := evcPulse_keeps uncounted_sems ..

/-! ### The unit's operations keep the order -/

theorem semGrant_sems (n : Nat) (m : BitVec 12) (s : State) :
    (semGrant n m s).sems =
      (putSem n { getSem n s with holder := some m, grants := (getSem n s).grants + 1,
                                  abandoned := (getSem n s).abandoned && !isCore m } s).sems := by
  unfold semGrant
  dsimp only
  split
  · exact semReturn_sems ..
  · rfl

/-- A grant to a master that does not wait. -/
theorem locksOrdered_semGrant {n : Nat} {m : BitVec 12} {s : State} (hq : (getSem n s).queue.Nodup) (hm : m ∉ (getSem n s).queue)
    (h : ∀ k, k ≠ n → (getSem k s).Ordered) : LocksOrdered (semGrant n m s) := by
  rw [locksOrdered_congr (semGrant_sems n m s)]
  refine locksOrdered_putSem ⟨fun hn => (Option.some_ne_none m hn).elim, hq, fun k hk => ?_⟩ h
  obtain rfl := Option.some.inj hk
  exact hm

theorem locksOrdered_semFree {s : State} (h : LocksOrdered s) (n : Nat) (ab : Bool) : LocksOrdered (semFree n ab s) := by
  rw [locksOrdered_iff] at h
  obtain ⟨-, hnodup, -⟩ := h n
  cases hq : (getSem n s).queue with
  | nil =>
    rw [semFree_last hq]
    exact locksOrdered_putSem (ordered_of_no_queue hq) fun k _ => h k
  | cons m t =>
    rw [hq, List.nodup_cons] at hnodup
    obtain ⟨hm, ht⟩ := hnodup
    rw [semFree_next hq]
    refine locksOrdered_semGrant (by simpa using ht) (by simpa using hm) fun k hk => ?_
    rw [getSem_putSem, if_neg hk]
    exact h k

theorem locksOrdered_semAbandon {s : State} (h : LocksOrdered s) (n : Nat) (m : BitVec 12) : LocksOrdered (semAbandon n m s) :=
  locksOrdered_semFree (locksOrdered_putSem (x := { getSem n s with excused := some m }) (h n) fun k _ => h k) n true

theorem locksOrdered_semAcquire {s : State} (h : LocksOrdered s) (n : Nat) (m : BitVec 12) : LocksOrdered (semAcquire n m s) := by
  unfold semAcquire
  obtain ⟨hfree, hnodup, hout⟩ := h n
  dsimp only
  split_ifs with htwice hnone hfull
  · exact (locksOrdered_congr (lckIgnored_sems s)).2 h
  · refine locksOrdered_semGrant hnodup ?_ fun k _ => h k
    simp [hfree (Option.isNone_iff_eq_none.1 hnone)]
  · exact h
  · simp only [Bool.or_eq_true, beq_iff_eq, List.contains_iff_mem, not_or] at htwice
    obtain ⟨hnot, hwait⟩ := htwice
    refine locksOrdered_putSem ⟨fun hn => absurd (Option.isNone_iff_eq_none.2 hn) hnone, ?_, fun k hk => ?_⟩ fun k _ => h k
    · exact List.Nodup.append hnodup (List.nodup_singleton m) (by simpa using hwait)
    · simp only [List.mem_append, List.mem_singleton, not_or]
      exact ⟨hout k hk, fun hkm => hnot (hkm ▸ hk)⟩

theorem locksOrdered_semCancel {s : State} (h : LocksOrdered s) (n : Nat) (m : BitVec 12) : LocksOrdered (semCancel n m s) := by
  unfold semCancel
  dsimp only
  split
  · exact locksOrdered_putSem (ordered_without (h n) m) fun k _ => h k
  · exact (locksOrdered_congr (lckIgnored_sems s)).2 h

/-- A change of every listed semaphore that leaves the keys. -/
theorem tget_map_snd {α : Type} (g : α → α) (t : Tab α) (i : Nat) : tget (t.map fun e => (e.1, g e.2)) i = (tget t i).map g := by
  induction t with
  | nil => rfl
  | cons e t ih =>
    simp only [List.map_cons, tget, ih]
    split_ifs <;> rfl

theorem locksOrdered_semResetGo {s : State} (h : LocksOrdered s) (m : BitVec 12) : LocksOrdered (semResetGo m s) := by
  have hfiltered : LocksOrdered { s with sems := s.sems.map fun e => (e.1, e.2.without m) } := by
    rw [locksOrdered_iff]
    intro n
    have hn : ((tget s.sems n).getD Sem.free).Ordered := h n
    simp only [getSem, tget_map_snd]
    cases hx : tget s.sems n with
    | none => exact ordered_of_no_queue rfl
    | some x => exact ordered_without (by rwa [hx] at hn) m
  have hfold (l : List Nat) {t : State} (ht : LocksOrdered t) :
      LocksOrdered (l.foldl (fun s n => if (getSem n s).holder == some m then semAbandon n m s else s) t) := by
    induction l generalizing t with
    | nil => exact ht
    | cons n l ih =>
      rw [List.foldl_cons]
      refine ih ?_
      split
      · exact locksOrdered_semAbandon ht n m
      · exact ht
  exact hfold _ hfiltered

theorem locksOrdered_semReset {s : State} (h : LocksOrdered s) (m : BitVec 12) : LocksOrdered (semReset m s) := by
  unfold semReset
  split
  · exact h
  · exact locksOrdered_semResetGo h m

/-- What a table lists stands in it. -/
theorem mem_of_tget {α : Type} {t : Tab α} {i : Nat} {x : α} (h : tget t i = some x) : (i, x) ∈ t := by
  induction t with
  | nil => cases h
  | cons e t ih =>
    simp only [tget, beq_iff_eq] at h
    split_ifs at h with hk
    · obtain rfl := Option.some.inj h
      exact hk ▸ List.mem_cons_self
    · exact List.mem_cons_of_mem _ (ih h)

theorem queue_of_listed_empty {g : Nat → Sem} (hg : ∀ k, (g k).queue = []) (l : List Nat) (n : Nat) :
    ((tget (l.map fun k => (k, g k)) n).getD Sem.free).queue = [] := by
  cases hx : tget (l.map fun k => (k, g k)) n with
  | none => rfl
  | some x =>
    obtain ⟨k, -, hk⟩ := List.mem_map.1 (mem_of_tget hx)
    obtain rfl := (Prod.mk.inj hk).2
    exact hg k

theorem locksOrdered_semLose (s : State) : LocksOrdered (semLose s) := by
  unfold semLose
  generalize List.range 1024 = l
  refine (locksOrdered_congr (foldl_keeps State.sems (fun s e => ?_) _ _)).2 (locksOrdered_iff.2 fun n => ?_)
  · dsimp only
    split
    · exact semReturn_sems ..
    · rfl
  · refine ordered_of_no_queue ?_
    exact queue_of_listed_empty (fun _ => rfl) l n

theorem locksOrdered_semForce {s : State} (h : LocksOrdered s) (v : BitVec 32) : LocksOrdered (semForce v s) := by
  have hset : LocksOrdered (setRf Reg.LCK_FORCE 9 0 (bits 9 0 v) s) := (locksOrdered_congr (wrReg_sems ..)).2 h
  unfold semForce
  dsimp only
  split
  · exact hset
  · split
    · exact (locksOrdered_congr (lckIgnored_sems _)).2 hset
    next hm => exact locksOrdered_semAbandon hset _ _

theorem locksOrdered_semRead {s : State} (h : LocksOrdered s) (n : Nat) (m : BitVec 12) : LocksOrdered (semRead n m s) := by
  unfold semRead
  dsimp only
  split
  · exact locksOrdered_putSem (h n) fun k _ => h k
  · exact h

theorem locksOrdered_semNoExcuse {s : State} (h : LocksOrdered s) (n : Nat) (m : BitVec 12) : LocksOrdered (semNoExcuse n m s) := by
  unfold semNoExcuse
  dsimp only
  split
  · exact locksOrdered_putSem (h n) fun k _ => h k
  · exact h

/-- Settles O44: each operation of the lock unit keeps the order. -/
theorem lockUnitKeepsOrder : Obligations.LockUnitKeepsOrder := fun n m ab v s h =>
  ⟨locksOrdered_semAcquire h n m, locksOrdered_semFree h n ab, locksOrdered_semAbandon h n m, locksOrdered_semCancel h n m,
    locksOrdered_semReset h m, locksOrdered_semLose s, locksOrdered_semForce h v, locksOrdered_semRead h n m,
    locksOrdered_semNoExcuse h n m⟩

end Sys2Proof.Machine

/-! ## The semaphores' commands (12) -/

namespace Sys2Proof.Machine

open Sys2Proof.Claims

theorem exec_lckAcq (f : Fn) (n : BitVec 10) (bytes : BitVec 4) (s : State) :
    exec (.lckAcq f n bytes) s = act (semWrite f 0 n bytes.toNat) s := by rfl

theorem exec_lckRel (f : Fn) (n : BitVec 10) (bytes : BitVec 4) (s : State) :
    exec (.lckRel f n bytes) s = act (semWrite f 1 n bytes.toNat) s := by rfl

theorem exec_lckCancel (f : Fn) (n : BitVec 10) (bytes : BitVec 4) (s : State) :
    exec (.lckCancel f n bytes) s = act (semWrite f 2 n bytes.toNat) s := by rfl

theorem exec_lckStatRead (f : Fn) (n : BitVec 10) (off : BitVec 6) (bytes : BitVec 4) (s : State) :
    exec (.lckStatRead f n ⟨off, bytes⟩) s = act (semStatRead f.toNat n.toNat off.toNat bytes.toNat) s := by rfl

theorem exec_lckForce (m : Master) (v : BitVec 32) (s : State) :
    exec (.lckForce m v) s = plain (mgtWr m (cross 136 (regReq m Reg.LCK_FORCE (v.setWidth 64)) (semForce v))) s := by rfl

theorem exec_lckAllocWrite (m : Master) (n : BitVec 10) (v : BitVec 64) (s : State) :
    exec (.lckAllocWrite m n v) s =
      plain (mgtWr m (cross 136 (regReq m (Reg.LCK_ALLOC + 8 * n.toNat) v) (writeLckAlloc n.toNat v))) s := by rfl

/-- A function's write in the register window of a block that P2 leaves on is taken when the function is not frozen (R419, R440). -/
theorem hostWr_taken_always {f src : Nat} {k : State → State} {s : State} (hr : HostReaches f s) (hz : frozen f s = false) :
    hostWr f src true k s = k s := by
  obtain ⟨hreach, hready⟩ := hr
  simp [hostWr, hreach, hready, hz]

section Write

variable {f : Fn} {n : BitVec 10} {kind bytes : Nat} {s : State}

theorem semWrite_served (hr : HostReaches f.toNat s) (hz : frozen f.toNat s = false) (hup : unitFenced 136 s = false) :
    semWrite f kind n bytes s = semWriteGo f.toNat kind n.toNat bytes s := by
  rw [semWrite, hostWr_taken_always hr hz, hup]
  rfl

theorem semWrite_fenced (hr : HostReaches f.toNat s) (hz : frozen f.toNat s = false) (hf : unitFenced 136 s = true) :
    semWrite f kind n bytes s = holdReq (.lck f.toNat kind n.toNat bytes) s := by
  rw [semWrite, hostWr_taken_always hr hz, hf]
  rfl

end Write

section Go

variable {f kind n bytes : Nat} {s : State}

theorem semWriteGo_stranger (ha : semAllowed n f s = false) : semWriteGo f kind n bytes s = violation 161 f 4 s := by
  simp only [semWriteGo, ha, Bool.not_false, if_true]

theorem semWriteGo_width (ha : semAllowed n f s = true) (hb : bytes ≠ 8) : semWriteGo f kind n bytes s = evcPulse 193 136 s := by
  simp [semWriteGo, ha, hb, lckIgnored, ignored]

theorem semWriteGo_acquire (ha : semAllowed n f s = true) (hx : semNoExcuse n (BitVec.ofNat 12 f) s = s) :
    semWriteGo f 0 n 8 s = semAcquire n (BitVec.ofNat 12 f) s := by
  simp [semWriteGo, ha, hx]

theorem semWriteGo_release (ha : semAllowed n f s = true) : semWriteGo f 1 n 8 s = semReleaseBy n f s := by
  simp [semWriteGo, ha]

theorem semWriteGo_cancel (ha : semAllowed n f s = true) (hx : semNoExcuse n (BitVec.ofNat 12 f) s = s) :
    semWriteGo f 2 n 8 s = semCancel n (BitVec.ofNat 12 f) s := by
  simp [semWriteGo, ha, hx]

end Go

section Semaphore

variable {n : Nat} {m : BitVec 12} {s : State}

theorem semNoExcuse_other (h : (getSem n s).excused ≠ some m) : semNoExcuse n m s = s := by simp [semNoExcuse, h]

/-- A free semaphore is granted to a host function that does not wait for it. -/
theorem semAcquire_free (hh : (getSem n s).holder = none) (hq : m ∉ (getSem n s).queue) (hc : isCore m = false) :
    semAcquire n m s = putSem n { getSem n s with holder := some m, grants := (getSem n s).grants + 1 } s := by
  simp [semAcquire, semGrant, hh, hq, hc]

theorem semAcquire_held {h : BitVec 12} (hh : (getSem n s).holder = some h) (hm : h ≠ m) (hq : m ∉ (getSem n s).queue) :
    semAcquire n m s =
      if 4096 ≤ semWaiters s then s else putSem n { getSem n s with queue := (getSem n s).queue ++ [m] } s := by
  simp [semAcquire, hh, hq, hm]

theorem semAcquire_twice (h : (getSem n s).holder = some m ∨ m ∈ (getSem n s).queue) : semAcquire n m s = evcPulse 193 136 s := by
  simp [semAcquire, h, lckIgnored, ignored]

theorem semCancel_waiting (h : m ∈ (getSem n s).queue) :
    semCancel n m s = putSem n { getSem n s with queue := (getSem n s).queue.filter (· != m) } s := by
  simp [semCancel, h]

theorem semCancel_absent (h : m ∉ (getSem n s).queue) : semCancel n m s = evcPulse 193 136 s := by
  simp [semCancel, h, lckIgnored, ignored]

end Semaphore

section Release

variable {n f : Nat} {s : State}

theorem semReleaseBy_own (h : (getSem n s).holder = some (BitVec.ofNat 12 f)) : semReleaseBy n f s = semFree n false s := by
  simp [semReleaseBy, semRelKind, h]

theorem semReleaseBy_excused (hh : (getSem n s).holder ≠ some (BitVec.ofNat 12 f)) (hx : (getSem n s).excused = some (BitVec.ofNat 12 f)) :
    semReleaseBy n f s = evcPulse 193 136 s := by
  simp [semReleaseBy, semRelKind, hh, hx, lckIgnored, ignored]

theorem semReleaseBy_foreign (hh : (getSem n s).holder ≠ some (BitVec.ofNat 12 f))
    (hx : (getSem n s).excused ≠ some (BitVec.ofNat 12 f)) :
    semReleaseBy n f s = violation 161 f 5 (evcPulse 228 n s) := by
  simp [semReleaseBy, semRelKind, hh, hx]

end Release

section Read

variable {f n off bytes : Nat} {s : State}

theorem semStatRead_fenced (hr : HostReaches f s) (hf : unitFenced 136 s = true) :
    semStatRead f n off bytes s = holdReq (.stat f n off bytes) s := by
  obtain ⟨hreach, hready⟩ := hr
  simp [semStatRead, hreach, hready, hf]

theorem semStatRead_served (hr : HostReaches f s) (hup : unitFenced 136 s = false) :
    semStatRead f n off bytes s = semStatGo f n off bytes s := by
  obtain ⟨hreach, hready⟩ := hr
  simp [semStatRead, hreach, hready, hup]

theorem semStatGo_stranger (ha : semAllowed n f s = false) :
    semStatGo f n off bytes s = violation 161 f 4 (emit (.bar0Read f (lckOff n off) 0) s) := by
  simp only [semStatGo, ha, Bool.not_false, if_true]

theorem semStatGo_form (ha : semAllowed n f s = true) (h : bytes ≠ 8 ∨ 0x20 ≤ off ∨ off % 8 ≠ 0) :
    semStatGo f n off bytes s = evcPulse 193 136 (emit (.bar0Read f (lckOff n off) 0) s) := by
  have hform : (bytes != 8 || 0x20 ≤ off || off % 8 != 0) = true := by simpa [or_assoc] using h
  simp only [semStatGo, ha, hform, lckIgnored, ignored, Bool.not_true, Bool.false_eq_true, if_false, if_true]

theorem semStatGo_zero (ha : semAllowed n f s = true) (h : off = 0 ∨ off = 8 ∨ off = 16) :
    semStatGo f n off 8 s = emit (.bar0Read f (lckOff n off) 0) s := by
  obtain rfl | rfl | rfl := h <;> simp [semStatGo, ha]

theorem semStatGo_stat (ha : semAllowed n f s = true) :
    semStatGo f n 0x18 8 s =
      semRead n (BitVec.ofNat 12 f) (emit (.bar0Read f (lckOff n 0x18) (semStat n (BitVec.ofNat 12 f) s)) s) := by
  simp [semStatGo, ha]

end Read

section Force

variable {v : BitVec 32} {s : State}

theorem semForce_off (hb : bit 10 v = false) : semForce v s = setRf Reg.LCK_FORCE 9 0 (bits 9 0 v) s := by
  simp [semForce, hb]

theorem semForce_free (hb : bit 10 v = true) (hh : (getSem (bits 9 0 v) (setRf Reg.LCK_FORCE 9 0 (bits 9 0 v) s)).holder = none) :
    semForce v s = evcPulse 193 136 (setRf Reg.LCK_FORCE 9 0 (bits 9 0 v) s) := by
  simp [semForce, hb, hh, lckIgnored, ignored]

theorem semForce_held {h : BitVec 12} (hb : bit 10 v = true)
    (hh : (getSem (bits 9 0 v) (setRf Reg.LCK_FORCE 9 0 (bits 9 0 v) s)).holder = some h) :
    semForce v s = semAbandon (bits 9 0 v) h (setRf Reg.LCK_FORCE 9 0 (bits 9 0 v) s) := by
  simp [semForce, hb, hh]

end Force

theorem writeLckAlloc_idle {n : Nat} {w : BitVec 64} {s : State} (hh : (getSem n s).holder = none) (hq : (getSem n s).queue = []) :
    writeLckAlloc n w s = writeReg (Reg.LCK_ALLOC + 8 * n) w s := by
  simp [writeLckAlloc, hh, hq]

theorem writeLckAlloc_busy {n : Nat} {w : BitVec 64} {s : State} (h : (getSem n s).holder ≠ none ∨ (getSem n s).queue ≠ []) :
    writeLckAlloc n w s = evcPulse 193 136 s := by
  simp [writeLckAlloc, lckIgnored, ignored, Option.isSome_iff_ne_none, h]

section Commands

variable {f : Fn} {n : BitVec 10} {bytes : BitVec 4} {s t : State}

/-- The three writes to a semaphore, by what the unit does with each kind. -/
theorem does_each_lckWrite (h : ∀ kind < 3, semWrite f kind n bytes.toNat s = t) :
    ∀ i ∈ [Instr.lckAcq f n bytes, .lckRel f n bytes, .lckCancel f n bytes], Does i s t := by
  simp only [List.forall_mem_cons, List.not_mem_nil, false_imp_iff, implies_true, and_true]
  exact ⟨does_of_exec (exec_lckAcq ..) (h 0 (by omega)), does_of_exec (exec_lckRel ..) (h 1 (by omega)),
    does_of_exec (exec_lckCancel ..) (h 2 (by omega))⟩

end Commands

/-- Settles O43: each command through the lemma on its unit's operation. -/
theorem semaphoresAreGrantedInOrder : Obligations.SemaphoresAreGrantedInOrder := by
  intro f k m v w bytes off s n me x up served place allowed counted
  have acquire {t : State} : served → semWriteGo f.toNat 0 n 8 s = t → Does (.lckAcq f k 8) s t :=
    fun ⟨hr, hz, hup⟩ ht => does_of_exec (exec_lckAcq ..) ((semWrite_served hr hz hup).trans ht)
  have release {t : State} : served → semWriteGo f.toNat 1 n 8 s = t → Does (.lckRel f k 8) s t :=
    fun ⟨hr, hz, hup⟩ ht => does_of_exec (exec_lckRel ..) ((semWrite_served hr hz hup).trans ht)
  have cancel {t : State} : served → semWriteGo f.toNat 2 n 8 s = t → Does (.lckCancel f k 8) s t :=
    fun ⟨hr, hz, hup⟩ ht => does_of_exec (exec_lckCancel ..) ((semWrite_served hr hz hup).trans ht)
  have read {o : BitVec 6} {b : BitVec 4} {t : State} (hr : HostReaches f.toNat s) (hup : up)
      (ht : semStatGo f.toNat n o.toNat b.toNat s = t) : Does (.lckStatRead f k ⟨o, b⟩) s t :=
    does_of_exec (exec_lckStatRead ..) ((semStatRead_served hr hup).trans ht)
  refine ⟨fun hs ha => does_each_lckWrite fun kind hk => ?_, fun hs ha hb => does_each_lckWrite fun kind hk => ?_,
    fun hs ha hx => ?_, fun hs ha => ?_, fun hr hz hf => ?_, fun hr hup ha => ?_, fun hr hup ha => ?_, fun hr hf => ?_,
    fun hm hopen => ?_⟩
  · obtain ⟨hr, hz, hup⟩ := hs
    exact (semWrite_served hr hz hup).trans (semWriteGo_stranger (Bool.not_eq_true _ ▸ ha))
  · obtain ⟨hr, hz, hup⟩ := hs
    exact (semWrite_served hr hz hup).trans (semWriteGo_width ha fun hw => hb (BitVec.eq_of_toNat_eq hw))
  · have hx := semNoExcuse_other hx
    refine ⟨fun hh hq hc => acquire hs ?_, fun h hh hne hq => ⟨fun hroom => acquire hs ?_, fun hfull => acquire hs ?_⟩,
      fun h => acquire hs ?_, fun h => cancel hs ?_, fun h => cancel hs ?_⟩
    · exact (semWriteGo_acquire ha hx).trans (semAcquire_free hh hq hc)
    · rw [semWriteGo_acquire ha hx, semAcquire_held hh hne hq, if_neg (by omega)]
    · rw [semWriteGo_acquire ha hx, semAcquire_held hh hne hq, if_pos hfull]
    · exact (semWriteGo_acquire ha hx).trans (semAcquire_twice h)
    · exact (semWriteGo_cancel ha hx).trans (semCancel_waiting h)
    · exact (semWriteGo_cancel ha hx).trans (semCancel_absent h)
  · refine ⟨fun hh hq => release hs ?_, fun q t hh hq => release hs ?_, fun hh hx => release hs ?_, fun hh hx => release hs ?_⟩
    · rw [semWriteGo_release ha, semReleaseBy_own hh, semFree_last hq]
    · rw [semWriteGo_release ha, semReleaseBy_own hh, semFree_next hq]
    · rw [semWriteGo_release ha, semReleaseBy_excused hh hx]
    · rw [semWriteGo_release ha, semReleaseBy_foreign hh hx]
  · have hf := Bool.eq_true_of_not_eq_false hf
    exact ⟨does_of_exec (exec_lckAcq ..) (semWrite_fenced hr hz hf), does_of_exec (exec_lckRel ..) (semWrite_fenced hr hz hf),
      does_of_exec (exec_lckCancel ..) (semWrite_fenced hr hz hf)⟩
  · refine ⟨read hr hup ?_, fun hform => read hr hup ?_, fun hoff => read hr hup ?_⟩
    · have hplace : lckOff n 0x18 = 0x03000018 + 64 * n := by unfold lckOff; omega
      exact hplace ▸ semStatGo_stat ha
    · exact semStatGo_form ha (hform.imp_left fun hb hw => hb (BitVec.eq_of_toNat_eq hw))
    · refine semStatGo_zero ha ?_
      rcases hoff with rfl | rfl | rfl <;> decide
  · exact read hr hup (semStatGo_stranger (Bool.not_eq_true _ ▸ ha))
  · exact does_of_exec (exec_lckStatRead ..) (semStatRead_fenced hr (Bool.eq_true_of_not_eq_false hf))
  · have force {u : State} (hu : semForce v s = u) : DoesOnly (.lckForce m v) s u :=
      doesOnly_of_exec (exec_lckForce ..) ((mgtWr_taken hm).trans ((cross_open hopen).trans hu))
    have alloc {u : State} (hu : writeLckAlloc n w s = u) : DoesOnly (.lckAllocWrite m k w) s u :=
      doesOnly_of_exec (exec_lckAllocWrite ..) ((mgtWr_taken hm).trans ((cross_open hopen).trans hu))
    exact ⟨fun hb => force (semForce_off hb), fun hb hh => force (semForce_free hb hh), fun h hb hh => force (semForce_held hb hh),
      fun hh hq => alloc (writeLckAlloc_idle hh hq), fun h => alloc (writeLckAlloc_busy h)⟩

end Sys2Proof.Machine

/-! ## First occurrences (13: R383 to R385) -/

namespace Sys2Proof.Machine

open Sys2Proof.Claims

/-- The registers that an occurrence may write beside its own sticky and merged bits: those of counting, and LTN_CTRL, in which a trigger
ends a recording. -/
def OccurReg (o : Nat) : Prop := CountReg o ∨ o = Reg.LTN_CTRL

/-- The registers of the FCU's captured bits. -/
def CaptureReg (o : Nat) : Prop := ∃ w < 3, o = Reg.FCU_STICKY + 8 * w ∨ o = Reg.FCU_MERGED + 8 * w

theorem captureReg_sticky {src : Nat} (h : src < 192) : CaptureReg (Reg.FCU_STICKY + 8 * (src / 64)) := ⟨src / 64, by omega, .inl rfl⟩

theorem captureReg_merged {src : Nat} (h : src < 192) : CaptureReg (Reg.FCU_MERGED + 8 * (src / 64)) := ⟨src / 64, by omega, .inr rfl⟩

theorem CaptureReg.not_occurReg {o : Nat} (h : CaptureReg o) : ¬OccurReg o := by
  obtain ⟨w, hw, h⟩ := h
  simp only [OccurReg, CountReg, Reg.HIF_LINK, Reg.CLK_PULSE_OVR, Reg.LTN_CTRL, Reg.FCU_STICKY, Reg.FCU_MERGED] at h ⊢
  omega

theorem sticky_ne_merged {a b : Nat} (ha : a < 192) : Reg.FCU_STICKY + 8 * (a / 64) ≠ Reg.FCU_MERGED + 8 * (b / 64) := by
  simp only [Reg.FCU_STICKY, Reg.FCU_MERGED]
  omega

section Keeps

variable {o : Nat} (ho : ¬OccurReg o)
include ho

theorem OccurReg.uncounted : Uncounted (rdReg o) := uncounted_rdReg fun h => ho (.inl h)

theorem rdReg_msixSignal {f vec : Nat} (hf : f < 4096) (s : State) : rdReg o (msixSignal f vec s) = rdReg o s := by
  have hp := OccurReg.uncounted ho
  unfold msixSignal
  cases h : msixTry f vec s with
  | none => exact evcPulse_keeps hp ..
  | some t => exact msixTry_keeps hp hf h

theorem rdReg_ltnEnd (s : State) : rdReg o (ltnEnd s) = rdReg o s := by
  have hne : o ≠ Reg.LTN_CTRL := fun h => ho (.inr h)
  simp only [ltnEnd]
  rw [rdReg_setRf_ne _ _ _ _ hne, rdReg_setRf_ne _ _ _ _ hne]
  rfl

theorem rdReg_ltnTrig (cause : Nat) (s : State) : rdReg o (ltnTrig cause s) = rdReg o s := by
  have hne : o ≠ Reg.LTN_CTRL := fun h => ho (.inr h)
  simp only [ltnTrig]
  split_ifs
  · rfl
  · rfl
  · rw [rdReg_ltnEnd ho, rdReg_setRf_ne _ _ _ _ hne]
    rfl
  · rw [rdReg_setRf_ne _ _ _ _ hne]
    rfl

theorem rdReg_lanternMark (src : Nat) (isl : Option Nat) (s : State) : rdReg o (lanternMark src isl s) = rdReg o s := by
  unfold lanternMark
  cases isl with
  | none => rfl
  | some i =>
    dsimp only
    split_ifs
    · exact rdReg_ltnTrig ho ..
    all_goals rfl

omit ho in
@[simp] theorem rdReg_mgtLog (typ : Nat) (body : List Byte) (s : State) : rdReg o (mgtLog typ body s) = rdReg o s := by
  unfold mgtLog
  split <;> rfl

end Keeps

/-- What each step of a fold over the listed values keeps, the fold keeps. -/
theorem foldl_keeps_of_mem {α β : Type} (p : State → β) {f : State → α → State} {l : List α} (h : ∀ x ∈ l, ∀ s, p (f s x) = p s)
    (s : State) : p (l.foldl f s) = p s := by
  induction l generalizing s with
  | nil => rfl
  | cons x l ih => rw [List.foldl_cons, ih fun y hy => h y (List.mem_cons_of_mem _ hy), h x List.mem_cons_self]

/-- What a first occurrence sends and marks, its sticky bit set (R383). -/
def fcuTell (isl : Option Nat) (src : Nat) (s : State) : State :=
  let cfg := rdReg (Reg.FCU_CFG + 8 * src) s
  let s := mgtLog 0x11 (leBytes 4 src) (emit (.mgtEvent src) s)
  let s := if bit 1 cfg then
      (List.range 4).foldl (fun s j =>
        if bit j (rdReg (Reg.HIF_EVROUTE + 8 * src) s) then msixSignal (0x100 * j) src s else s) s
    else s
  if bit 2 cfg then lanternMark src isl s else s

theorem fcuOccurIn_eq (isl : Option Nat) (src : Nat) (s : State) :
    fcuOccurIn isl src s =
      if sticky src (evcPulse src 0 s) then setRf (Reg.FCU_MERGED + 8 * (src / 64)) (src % 64) (src % 64) 1 (evcPulse src 0 s)
      else fcuTell isl src (setRf (Reg.FCU_STICKY + 8 * (src / 64)) (src % 64) (src % 64) 1 (evcPulse src 0 s)) := by rfl

theorem rdReg_fcuTell {o : Nat} (ho : ¬OccurReg o) (isl : Option Nat) (src : Nat) (s : State) :
    rdReg o (fcuTell isl src s) = rdReg o s := by
  have hlog (t : State) : rdReg o (mgtLog 0x11 (leBytes 4 src) (emit (.mgtEvent src) t)) = rdReg o t := rdReg_mgtLog ..
  have hsend (t : State) : rdReg o ((List.range 4).foldl (fun s j =>
      if bit j (rdReg (Reg.HIF_EVROUTE + 8 * src) s) then msixSignal (0x100 * j) src s else s) t) = rdReg o t := by
    refine foldl_keeps_of_mem (rdReg o) (fun j hj u => ?_) t
    rw [List.mem_range] at hj
    split
    · exact rdReg_msixSignal ho (by omega) u
    · rfl
  simp only [fcuTell]
  split_ifs <;> simp only [rdReg_lanternMark ho, hsend, hlog]

/-- An occurrence leaves every register but its bits' own two, those of counting and LTN_CTRL. -/
theorem rdReg_fcuOccurIn {isl : Option Nat} {src : Nat} {s : State} {o : Nat} (ho : ¬OccurReg o)
    (hs : o ≠ Reg.FCU_STICKY + 8 * (src / 64)) (hm : o ≠ Reg.FCU_MERGED + 8 * (src / 64)) :
    rdReg o (fcuOccurIn isl src s) = rdReg o s := by
  have hpulse : rdReg o (evcPulse src 0 s) = rdReg o s := evcPulse_keeps (OccurReg.uncounted ho) ..
  rw [fcuOccurIn_eq]
  split
  · rw [rdReg_setRf_ne _ _ _ _ hm, hpulse]
  · rw [rdReg_fcuTell ho, rdReg_setRf_ne _ _ _ _ hs, hpulse]

section Captured

variable {isl : Option Nat} {src : Nat} {s : State} (h : src < 192)
include h

omit h in
theorem rdReg_captured_evcPulse {o : Nat} (ho : CaptureReg o) (ev inst : Nat) : rdReg o (evcPulse ev inst s) = rdReg o s :=
  evcPulse_keeps (OccurReg.uncounted ho.not_occurReg) ..

/-- A first occurrence sets its sticky bit. -/
theorem rdReg_fcuOccurIn_first (hs : sticky src s = false) {o : Nat} (ho : CaptureReg o) :
    rdReg o (fcuOccurIn isl src s) =
      if o = Reg.FCU_STICKY + 8 * (src / 64) then setBits (src % 64) (src % 64) 1 (rdReg o s) else rdReg o s := by
  have hkeep : sticky src (evcPulse src 0 s) = false := by
    rwa [sticky, rdReg_captured_evcPulse (captureReg_sticky h)]
  rw [fcuOccurIn_eq, hkeep, if_neg Bool.false_ne_true, rdReg_fcuTell ho.not_occurReg, setRf, rdReg_wrReg]
  split
  next heq => rw [← heq, rdReg_captured_evcPulse ho]
  · rw [rdReg_captured_evcPulse ho]

/-- A later one sets its merged bit. -/
theorem rdReg_fcuOccurIn_merged (hs : sticky src s = true) {o : Nat} (ho : CaptureReg o) :
    rdReg o (fcuOccurIn isl src s) =
      if o = Reg.FCU_MERGED + 8 * (src / 64) then setBits (src % 64) (src % 64) 1 (rdReg o s) else rdReg o s := by
  have hkeep : sticky src (evcPulse src 0 s) = true := by
    rwa [sticky, rdReg_captured_evcPulse (captureReg_sticky h)]
  rw [fcuOccurIn_eq, hkeep, if_pos rfl, setRf, rdReg_wrReg]
  split
  next heq => rw [← heq, rdReg_captured_evcPulse ho]
  · rw [rdReg_captured_evcPulse ho]

end Captured

/-- Setting one bit of a word. -/
theorem bit_setBits_one {k i : Nat} (hk : k < 64) (v : BitVec 64) : bit i (setBits k k 1 v) = (decide (i = k) || bit i v) := by
  by_cases hi : i = k
  · subst hi
    rw [bit_eq_getLsbD, getLsbD_setBits i i 1 i v le_rfl hk]
    simp
  · rw [bit_setBits_out k k 1 i v le_rfl hk (by omega)]
    simp [hi]

/-- A bit of an array of words after the bit of `src` is set: that of another source is as it was. -/
theorem bit_set_source {a src k : Nat} (v : BitVec 64) (hk : k ≠ src) (hw : a + 8 * (k / 64) = a + 8 * (src / 64)) :
    bit (k % 64) (setBits (src % 64) (src % 64) 1 v) = bit (k % 64) v := by
  have hne : k % 64 ≠ src % 64 := by omega
  rw [bit_setBits_one (Nat.mod_lt _ (by decide)), decide_eq_false hne, Bool.false_or]

/-- Settles O45, by the two cases of the sticky bit. -/
theorem firstOccurrenceIsCaptured : Obligations.FirstOccurrenceIsCaptured := by
  intro src s h t
  have hmod : src % 64 < 64 := Nat.mod_lt _ (by decide)
  cases hs : sticky src s with
  | false =>
    have hread {o : Nat} (ho : CaptureReg o) : rdReg o t = _ := rdReg_fcuOccurIn_first (isl := srcIsland src) h hs ho
    refine ⟨?_, fun hset => absurd hset Bool.false_ne_true, fun k hk hne => ⟨?_, ?_⟩⟩
    · rw [sticky, hread (captureReg_sticky h), if_pos rfl, bit_setBits_one hmod]
      simp
    · rw [sticky, hread (captureReg_sticky hk), sticky]
      split
      next hw => exact bit_set_source _ hne hw
      · rfl
    · rw [hread (captureReg_merged hk), if_neg (sticky_ne_merged h).symm]
  | true =>
    have hread {o : Nat} (ho : CaptureReg o) : rdReg o t = _ := rdReg_fcuOccurIn_merged (isl := srcIsland src) h hs ho
    refine ⟨?_, fun _ => ?_, fun k hk hne => ⟨?_, ?_⟩⟩
    · rwa [sticky, hread (captureReg_sticky h), if_neg (sticky_ne_merged h)]
    · rw [hread (captureReg_merged h), if_pos rfl, bit_setBits_one hmod]
      simp
    · rw [sticky, hread (captureReg_sticky hk), if_neg (sticky_ne_merged hk), sticky]
    · rw [hread (captureReg_merged hk)]
      split
      next hw => exact bit_set_source _ hne hw
      · rfl

end Sys2Proof.Machine

/-! ## Restores and injections (13) -/

namespace Sys2Proof.Machine

open Sys2Proof.Claims

theorem exec_unitRestore (m : Master) (v : BitVec 64) (s : State) :
    exec (.unitRestore m v) s = act (mgtWr m (fun s =>
      if rf Reg.SNF_CTRL 31 31 s == 1 then ignored 143 s
      else
        let s := setRf Reg.SNF_CTRL 15 0 (bits 15 0 v) (setRf Reg.SNF_CTRL 26 24 (bits 26 24 v) s)
        if bit 31 v then restoreGo (setRf Reg.SNF_CTRL 33 32 0 (setRf Reg.SNF_CTRL 31 31 1 s)) else s)) s := by rfl

theorem exec_fcuInjectWrite (m : Master) (v : BitVec 64) (s : State) :
    exec (.fcuInjectWrite m v) s = plain (mgtWr m (injectWrite v)) s := by rfl

theorem exec_stickyClear (m : Master) (merged : Bool) (w : BitVec 2) (v : BitVec 64) (s : State) :
    exec (.stickyClear m merged w v) s = plain (mgtWr m (fun s =>
      if w == 3 then ignored 144 s
      else writeReg ((if merged then Reg.FCU_MERGED else Reg.FCU_STICKY) + 8 * w.toNat) v s)) s := by rfl

theorem exec_restoreSelfTestComplete (pass : Bool) (s : State) :
    exec (.restoreSelfTestComplete pass) s = act (fun s =>
      match s.snf.restore with
      | none => s
      | some u =>
        if !domOn (unitDomain u) s then s
        else if pass then heldRelease (unitBack u (restoreEnd 1 (clearStrikes u s)))
        else restoreEnd 2 (clearStrikes u s)) s := by rfl

section Restore

variable {u : SUnit} {s : State}

theorem restoreGo_no_unit (h : ctrlUnit (rdReg Reg.SNF_CTRL s) = none) : restoreGo s = restoreEnd 3 s := by
  simp [restoreGo, h]

theorem restoreGo_not_fenced (h : ctrlUnit (rdReg Reg.SNF_CTRL s) = some u) (hf : isFenced u s = false) :
    restoreGo s = restoreEnd 3 s := by
  simp [restoreGo, h, hf]

theorem restoreGo_waits (h : ctrlUnit (rdReg Reg.SNF_CTRL s) = some u) (hf : isFenced u s = true)
    (hk : stateKeeps (effState s) (unitDomain u) s = false) :
    restoreGo s = { s with clk := { s.clk with restoreWaits := true } } := by
  simp [restoreGo, h, hf, hk]

theorem restoreGo_starts (h : ctrlUnit (rdReg Reg.SNF_CTRL s) = some u) (hf : isFenced u s = true)
    (hk : stateKeeps (effState s) (unitDomain u) s = true) :
    restoreGo s = { s with snf := { s.snf with restore := some u } } := by
  simp [restoreGo, h, hf, hk]

end Restore

theorem injectWrite_refused {v : BitVec 64} {s : State} (hn : bits 47 40 v ≠ 0) (hr : injectRefused v s = true) (hc : bit 30 v = false) :
    injectWrite v s = setRf Reg.FCU_INJECT 30 30 1 (setRf Reg.FCU_INJECT 31 31 0 s) := by
  simp [injectWrite, hn, hr, hc]

theorem injectWrite_taken {v : BitVec 64} {s : State} (h : injectRefused v s = false ∨ bits 47 40 v = 0) (hc : bit 30 v = false) :
    injectWrite v s =
      setRf Reg.FCU_INJECT 31 31 (if bits 47 40 v = 0 then 0 else 1)
        (setRf Reg.FCU_INJECT 7 0 (bits 7 0 v) (setRf Reg.FCU_INJECT 34 32 (bits 34 32 v)
          (setRf Reg.FCU_INJECT 47 40 (bits 47 40 v) s))) := by
  have hno : (bits 47 40 v != 0 && injectRefused v s) = false := by
    rcases h with hr | hz
    · rw [hr, Bool.and_false]
    · rw [hz, bne_self_eq_false, Bool.false_and]
  simp only [injectWrite, hc, hno, beq_iff_eq, Bool.false_eq_true, if_false]

/-- Settles O47: each command by the state of the unit or of the write. -/
theorem unitsAreRestoredAndInjected : Obligations.UnitsAreRestoredAndInjected := by
  intro m v u merged w s fields going base
  refine ⟨fun hm => ⟨fun hgo => ?_, fun hgo => ?_, fun hn hr hc => ?_, fun h hc => ?_, fun hw => ?_, fun hw => ?_⟩,
    fun hu hd => ⟨?_, ?_⟩⟩
  · refine does_of_exec (exec_unitRestore m v s) ((mgtWr_taken hm).trans ?_)
    rw [hgo]
    rfl
  · have write {t : State} (ht : (if bit 31 v then restoreGo going else fields) = t) : Does (.unitRestore m v) s t := by
      refine does_of_exec (exec_unitRestore m v s) ((mgtWr_taken hm).trans ?_)
      rw [beq_eq_false_iff_ne.2 hgo]
      exact ht
    refine ⟨fun hb => write (if_neg (by simp [hb])), fun hb hx => write ((if_pos hb).trans (restoreGo_no_unit hx)),
      fun hb hx => ⟨fun hf => ?_, fun hf hk => ?_, fun hf hk => ?_⟩⟩
    · exact write ((if_pos hb).trans (restoreGo_not_fenced hx hf))
    · exact write ((if_pos hb).trans (restoreGo_starts hx hf hk))
    · exact write ((if_pos hb).trans (restoreGo_waits hx hf hk))
  · exact doesOnly_of_exec (exec_fcuInjectWrite m v s) ((mgtWr_taken hm).trans (injectWrite_refused hn hr hc))
  · exact doesOnly_of_exec (exec_fcuInjectWrite m v s) ((mgtWr_taken hm).trans (injectWrite_taken h hc))
  · exact doesOnly_of_exec (exec_stickyClear m merged w v s) ((mgtWr_taken hm).trans (if_neg (by simpa using hw)))
  · exact doesOnly_of_exec (exec_stickyClear m merged w v s) ((mgtWr_taken hm).trans (if_pos (by simpa using hw)))
  · refine does_of_exec (exec_restoreSelfTestComplete true s) ?_
    simp [hu, hd]
  · refine does_of_exec (exec_restoreSelfTestComplete false s) ?_
    simp [hu, hd]

end Sys2Proof.Machine

/-! ## Domains and supplies (14) -/

namespace Sys2Proof.Machine

open Sys2Proof.Claims

/-! ### Writes that a shut crossing holds -/

section Held

variable {i : Instr} {m : Master} {f src : Nat} {r : HeldReq} {k : State → State} {s : State}

theorem mgtWr_cross_held (hm : MgtWrites m s) (hx : crossingShut src s = true) : mgtWr m (cross src r k) s = holdReq r s :=
  (mgtWr_taken hm).trans (cross_shut hx)

theorem mgtWrOff_cross_held (hm : MgtWritesOff m s) (hx : crossingShut src s = true) : mgtWrOff m (cross src r k) s = holdReq r s :=
  (mgtWrOff_taken hm).trans (cross_shut hx)

theorem hostWr_cross_held {inP2 : Bool} (hw : HostWrites f s) (hx : crossingShut src s = true) :
    hostWr f src inP2 (cross src r k) s = holdReq r s :=
  (hostWr_taken hw).trans (cross_shut hx)

end Held

/-- A write to a register of management space whose block's crossing is shut is held. -/
theorem registerWrite_held {m : Master} {off : BitVec 28} {v : BitVec 64} {s : State} (hm : MgtWrites m s) (hj : m ≠ 0x801)
    (hlo : 0x08000000 ≤ off.toNat) (hsec : secReg off.toNat = false) (hx : crossingShut (regUnit (off.toNat / 8 * 8)) s = true) :
    Does (.registerWrite m off 0xFF (.data v)) s (holdReq (.reg m (off.toNat / 8 * 8) 0xFF v) s) := by
  intro hr
  rw [regUnit_align] at hx
  rw [exec_registerWrite_mgmt hr hm hj hlo hsec, mgmtWrite, cross_shut hx]

/-! ### Domains -/

theorem exec_domainSwitchOff (d : BitVec 8) (s : State) :
    exec (.domainSwitchOff d) s = act (fun s => if domOn d.toNat s && !domWanted d.toNat s then domainOff d.toNat s else s) s := by rfl

theorem exec_domainSwitchOn (d : BitVec 8) (s : State) :
    exec (.domainSwitchOn d) s = act (fun s =>
      let n := d.toNat
      if domWanted n s && !domOn n s && !s.clk.ramping.contains n && s.clk.ramping.length < 4 && !mustWait n s then
        { s with clk := { s.clk with ramping := s.clk.ramping ++ [n] } }
      else s) s := by rfl

theorem exec_domainRampComplete (d : BitVec 8) (s : State) :
    exec (.domainRampComplete d) s = act (fun s =>
      let n := d.toNat
      if !s.clk.ramping.contains n then s
      else if domWanted n s then heldRelease (domainOn n (unramp n s))
      else unramp n s) s := by rfl

theorem exec_clockMonitorWindow (island : BitVec 9) (bad : Bool) (s : State) :
    exec (.clockMonitorWindow island bad) s =
      act (fun s => if bad && islandRuns island.toNat s then clockLost island.toNat (fcuOccur 186 s) else s) s := by rfl

theorem exec_clkP1KeepWrite (m : Master) (w : BitVec 1) (v : BitVec 64) (s : State) :
    exec (.clkP1KeepWrite m w v) s = act (mgtWr m (writeKeep (Reg.CLK_P1_KEEP + 8 * w.toNat) v)) s := by rfl

/-! ### Supplies -/

theorem exec_brownOut (rail : BitVec 3) (s : State) : exec (.brownOut rail) s = execBrownOut rail s := by rfl

theorem exec_thermalTrip (s : State) : exec .thermalTrip s = execThermalTrip s := by rfl

/-- The rails whose brown-out holds the block: it stops, the rail is listed, and the pin shows the state while its own rail is good. -/
theorem brownOut_core {rail : BitVec 3} (s : State) (h : rail = 0 ∨ rail = 1 ∨ rail = 5) :
    ∃ t, exec (.brownOut rail) s = .next t ∧ running t = false ∧ rail.toNat ∈ t.clk.brown ∧
      (5 ∉ t.clk.brown → t.out.head? = some (.pstateOut (if s.clk.testEn then 3 else 0))) := by
  have hcore : (rail.toNat == 0 || rail.toNat == 1 || rail.toNat == 5) = true := by
    rcases h with rfl | rfl | rfl <;> decide
  have hpins (b : Bool) (c : State) : (resetPins b c).clk = c.clk := by
    unfold resetPins
    split <;> rfl
  refine ⟨_, by rw [exec_brownOut, execBrownOut, hcore, if_pos rfl], ?_, ?_, ?_⟩
  · rw [running, hpins]
    rfl
  · rw [hpins]
    dsimp only
    split
    next hc => exact List.contains_iff_mem.1 hc
    · exact List.mem_append_right _ (List.mem_singleton_self _)
  · rw [hpins]
    intro h5
    rw [resetPins, if_neg (by simpa using h5)]
    rfl

theorem brownOut_links {rail : BitVec 3} (s : State) (h : rail = 2 ∨ rail = 3) :
    exec (.brownOut rail) s = act (fun s => (List.range 128).foldl (fun s p => linkDown p s) s) s := by
  rcases h with rfl | rfl <;> rfl

theorem brownOut_pcie (s : State) : exec (.brownOut 4) s = act pcieSupplyLost s := by rfl

theorem thermalTrip_running {s : State} (ht : s.clk.trip = none) (hr : running s = true) :
    exec .thermalTrip s = act (fun s => domainsFollow (portsFollow (tripPins s))) s := by
  have hon : s.clk.off = false := by simpa [running] using hr
  simp [exec_thermalTrip, execThermalTrip, ht, hon]

theorem thermalTrip_held {s : State} (ht : s.clk.trip = none) (ho : s.clk.off = true) (hte : s.clk.testEn = false) (hb : s.clk.brown = []) :
    exec .thermalTrip s = .next (emit .thermTrip { s with clk := { s.clk with trip := some s.now } }) := by
  simp [exec_thermalTrip, execThermalTrip, ht, ho, hte, hb]

theorem thermalTrip_again {s : State} (ht : s.clk.trip ≠ none) : exec .thermalTrip s = .next s := by
  rw [exec_thermalTrip, execThermalTrip, if_pos (Option.isSome_iff_ne_none.2 ht)]

/-- Settles O48: held writes by the crossing, and each command by its own guard. -/
theorem domainsAndSupplies : Obligations.DomainsAndSupplies := by
  intro m d island w v rail w32 box off f sem pair port e on s n ramped x hist late lateOnly
  refine ⟨fun hon hw => ?_, fun h => ?_, fun hoff hw hr hwait => ?_, fun hr => ⟨fun hw => ?_, fun hw => ?_⟩,
    fun hm hlo hsec hj => ⟨?_, ?_⟩,
    fun hw => ?_, fun hi => ?_, fun hi => ?_, ?_, fun hm => ?_, brownOut_core s, fun h => ?_, fun h => ?_,
    fun ht => ⟨fun hr => ?_, thermalTrip_held ht⟩, thermalTrip_again⟩
  · refine does_of_exec (exec_domainSwitchOff d s) (if_pos ?_)
    simp only [n] at hon hw
    simp [hon, hw]
  · refine does_of_exec (exec_domainSwitchOff d s) (if_neg ?_)
    simp only [n] at h
    rcases h with h | h <;> simp [h]
  · have hroom (k : Prop) [Decidable k] : (domWanted n s && !domOn n s && !s.clk.ramping.contains n && k && !mustWait n s) = decide k := by
      simp [hoff, hw, hr, hwait]
    refine ⟨fun h4 => does_of_exec (exec_domainSwitchOn d s) (if_pos ?_), fun h4 => does_of_exec (exec_domainSwitchOn d s) (if_neg ?_)⟩
    · exact (hroom _).trans (decide_eq_true h4)
    · exact ne_true_of_eq_false ((hroom _).trans (decide_eq_false (Nat.not_lt.2 h4)))
  · refine does_of_exec (exec_domainRampComplete d s) ?_
    simp only [n] at hr hw
    simp [hr, hw, ramped, n]
  · refine does_of_exec (exec_domainRampComplete d s) ?_
    simp only [n] at hr hw
    simp [hr, hw, ramped, n]
  · simp only [late, List.forall_mem_cons, List.not_mem_nil, false_imp_iff, implies_true, and_true]
    obtain ⟨hmg, -⟩ := id hm
    exact ⟨fun hx => does_of_exec (exec_mbxAllocWrite ..) (mgtWr_cross_held hmg hx), fun hx => does_of_exec rfl (mgtWrOff_cross_held hm hx),
      fun hx => does_of_exec rfl (mgtWrOff_cross_held hm hx), fun hx => does_of_exec rfl (mgtWrOff_cross_held hm hx),
      fun hx => does_of_exec rfl (mgtWrOff_cross_held hm hx), fun hx => registerWrite_held hmg hj hlo hsec hx⟩
  · simp only [lateOnly, List.forall_mem_cons, List.not_mem_nil, false_imp_iff, implies_true, and_true]
    obtain ⟨hmg, -⟩ := id hm
    exact ⟨fun hx => doesOnly_of_exec rfl (mgtWr_cross_held hmg hx), fun hx => doesOnly_of_exec rfl (mgtWr_cross_held hmg hx),
      fun hx => doesOnly_of_exec rfl (mgtWr_cross_held hmg hx), fun hx => doesOnly_of_exec rfl (mgtWr_cross_held hmg hx),
      fun hx => doesOnly_of_exec rfl ((mgtWrOff_taken hm).trans (cross_shut hx)),
      fun hx => doesOnly_of_exec rfl (mgtWrOff_cross_held hm hx), fun hx => doesOnly_of_exec rfl (mgtWrOff_cross_held hm hx),
      fun hx => doesOnly_of_exec rfl (mgtWr_cross_held hmg hx)⟩
  · simp only [List.forall_mem_cons, List.not_mem_nil, false_imp_iff, implies_true, and_true]
    exact ⟨fun hx => does_of_exec rfl (hostWr_cross_held hw hx), fun hx => does_of_exec rfl (hostWr_cross_held hw hx),
      fun hx => does_of_exec rfl (hostWr_cross_held hw hx), fun hx => does_of_exec rfl (hostWr_cross_held hw hx)⟩
  · exact does_of_exec (exec_clockMonitorWindow island true s) (if_pos (by simpa using hi))
  · exact does_of_exec (exec_clockMonitorWindow island true s) (if_neg (by simp [hi]))
  · exact does_of_exec (exec_clockMonitorWindow island false s) rfl
  · exact does_of_exec (exec_clkP1KeepWrite m w v s) (mgtWr_taken hm)
  · exact does_of_exec (brownOut_links s h) rfl
  · subst h
    exact does_of_exec (brownOut_pcie s) rfl
  · exact does_of_exec (thermalTrip_running ht hr) rfl hr

end Sys2Proof.Machine

/-! ## Security commands (15) -/

namespace Sys2Proof.Machine

open Sys2Proof.Claims

/-- The SEC is of no recorded island and of no power domain: its crossing is shut by its fence alone. -/
theorem crossingShut_sec (s : State) : crossingShut 140 s = unitFenced 140 s := by
  have hisl : srcIsland 140 = none := rfl
  have hdoms : blockDoms 140 = [] := rfl
  cases hh : s.ltn.todo.head? <;> simp [crossingShut, hisl, hdoms, hh]

section Write

variable {m : Master} {r : HeldReq} {k : State → State} {s : State}

theorem secWr_taken (h : SecWrites m s) : secWr m r k s = k s := by
  obtain ⟨hm, hf, hw⟩ := h
  rw [secWr, if_neg (Nat.not_lt.2 hm), mgtWr_taken hw, cross_open ((crossingShut_sec s).trans hf)]

theorem secWr_host (hm : m.toNat < 0x400) (hw : HostWrites m.toNat s) : secWr m r k s = evcPulse 193 140 s := by
  rw [secWr, if_pos hm, secIgnored, hostWr_taken hw]
  rfl

theorem secWr_absent (hm : m.toNat < 0x400) (hp : presented m.toNat s = false) : secWr m r k s = s := by
  rw [secWr, if_pos hm, secIgnored, hostWr, reaches, hp]
  rfl

end Write

section Run

variable {op : Nat} {vqps : Bool} {s : State}

theorem secRun_busy (h : rf Reg.SEC_CMD 16 16 s = 1) : secRun op vqps s = evcPulse 193 140 s := by
  rw [secRun, h]
  rfl

/-- The order of the tests (log entry 169). -/
theorem secRun_idle (h : rf Reg.SEC_CMD 16 16 s ≠ 1) :
    secRun op vqps s =
      let t := setRf Reg.SEC_CMD 7 0 op s
      if secPermitted op t = false then secRuns op 2 t
      else if secBad op t = true then secRuns op 4 t
      else if ¬(authOk op t = true ∧ (op = 9 → rf Reg.SEC_STATE 11 11 t ≠ 0)) then secRuns op 3 t
      else if op ≤ 6 ∧ vqps = false then secRuns op 5 (secCut op t)
      else secRuns op 1 (secEffect op t) := by
  have hgo : (rf Reg.SEC_CMD 16 16 s == 1) = false := beq_eq_false_iff_ne.2 h
  simp only [secRun, hgo, Bool.false_eq_true, if_false, Bool.not_eq_true', Bool.or_eq_true, Bool.and_eq_true, beq_iff_eq,
    decide_eq_true_eq, not_and_or, Bool.not_eq_true, Classical.not_imp, ne_eq, not_not]

end Run

theorem secTick_due {j : SecJob} {s : State} (hj : s.sec.job = some j) (hd : j.due ≤ s.now) : secTick s = secEnd j.op j.result s := by
  simp [secTick, hj, hd]

theorem secTick_early {j : SecJob} {s : State} (hj : s.sec.job = some j) (hd : s.now < j.due) : secTick s = s := by
  simp [secTick, hj, Nat.not_le.2 hd]

/-- Settles O50: who may write, the order of the tests, and the end of a command. -/
theorem securityCommandsRun : Obligations.SecurityCommandsRun := by
  intro m vqps s rows arg effect ends
  have heffect : ∀ op t, secEffect op t = effect op t
    | 0, _ | 1, _ | 2, _ | 3, _ | 4, _ | 5, _ | 6, _ | 7, _ | 8, _ | 9, _ | _ + 10, _ => rfl
  have hends (j : SecJob) : secEnd j.op j.result s = ends j s := by
    simp only [secEnd, Bool.or_eq_true, beq_iff_eq, or_assoc]
    rfl
  have hrows : ∀ r ∈ rows, exec r.1 s = secCommand r.2.1 m r.2.2 s := by
    simp only [rows, List.forall_mem_cons, List.not_mem_nil, false_imp_iff, implies_true, and_true]
    exact ⟨rfl, rfl, rfl, rfl, rfl, rfl, rfl, rfl, rfl, rfl⟩
  refine ⟨fun j hj => ⟨fun hd => (secTick_due hj hd).trans (hends j), secTick_early hj⟩, ?_⟩
  intro r hr op t authorised runs
  have command {x : State} (hx : secWr m (.sec op r.2.2) (secRun op r.2.2) s = x) : DoesOnly r.1 s x := doesOnly_of_exec (hrows r hr) hx
  refine ⟨fun hm => ?_, fun hm hw => command (secWr_host hm hw), fun hm hp => command (secWr_absent hm hp)⟩
  refine ⟨fun hgo => command ((secWr_taken hm).trans (secRun_busy hgo)), fun hgo => ?_⟩
  have run {x : State} (hx : _ = x) : DoesOnly r.1 s x := command ((secWr_taken hm).trans ((secRun_idle hgo).trans hx))
  refine ⟨fun hp => run (if_pos hp), fun hp hb => run ?_, fun hp hb => ?_⟩
  · rw [if_neg (ne_false_of_eq_true hp), if_pos hb]
    rfl
  · have hpass : ∀ x, (if secPermitted op t = false then secRuns op 2 t else if secBad op t = true then secRuns op 4 t else x) = x := by
      intro x
      rw [if_neg (ne_false_of_eq_true hp), if_neg (ne_true_of_eq_false hb)]
    refine ⟨fun ha => run ((hpass _).trans (if_pos ha)), fun ha h6 hv => run ((hpass _).trans ?_), fun ha hv => run ((hpass _).trans ?_)⟩
    · rw [if_neg (not_not_intro ha), if_pos ⟨h6, hv⟩]
      rfl
    · rw [if_neg (not_not_intro ha), if_neg (fun ⟨h6, hf⟩ => ne_true_of_eq_false hf (hv h6)), heffect]
      rfl

end Sys2Proof.Machine

/-! ## The debug port and the window (15) -/

namespace Sys2Proof.Machine

open Sys2Proof.Claims

/-! ### JTAG instructions -/

theorem doesOnly_of_shift {i : Instr} {f : State → State} {s : State} (he : exec i s = jtagShift f s) : DoesOnly i s (f s) := by
  intro hr
  rw [he, jtagShift, hr]
  rfl

section Debug

variable {i : Instr} {bytes : Nat} {permitted : State → Bool} {f : State → State} {s : State}
    (he : exec i s = debugDo bytes permitted f s)
include he

/-- A debug instruction that the level permits. -/
theorem does_debug (hp : permitted (jtagOther s) = true) : Does i s (f (jtagOther s)) :=
  does_of_exec he (if_pos hp)

theorem does_debug_refused (hp : permitted (jtagOther s) = false) :
    Does i s (emit (.tdo (List.replicate bytes 0xFF)) (jtagOther s)) :=
  does_of_exec he (if_neg (ne_true_of_eq_false hp))

end Debug

theorem exec_dbgRead (off : BitVec 28) (s : State) :
    exec (.dbgRead off) s = debugDo 8 (fun s => 1 ≤ debugLevel s)
      (fun s =>
        let (v, s) := if off.toNat < 0x08000000 then (0, s) else mgmtRead off.toNat s
        emit (.tdo (toBytes 8 v)) s) s := by rfl

theorem exec_dbgWrite (off : BitVec 28) (be : BitVec 8) (v : BitVec 64) (s : State) :
    exec (.dbgWrite off be v) s = debugDo 8 (fun s => debugLevel s == 2)
      (fun s =>
        let o := off.toNat
        if o < 0x08000000 || blockOff (o / 8 * 8) s then s else mgmtWrite 0x801 o be v s) s := by rfl

theorem exec_halt (core : Option CoreId) (on : Bool) (addr : BitVec 22) (bytes : List Byte) (s : State) :
    exec (.halt core on addr bytes) s =
      debugDo 8 (fun s => debugLevel s == 2 && (powerState s != 2 || (core.map BitVec.toNat).isNone))
        (fun s => haltDo (core.map BitVec.toNat) on
          (haltWrite (core.map BitVec.toNat) addr.toNat bytes (if on then haltDo (core.map BitVec.toNat) true s else s))) s := by rfl

theorem exec_replay (s : State) :
    exec .replay s = debugDo 8 (fun s =>
      debugLevel s == 2 && powerState s == 0 && rf Reg.CLK_PSTATE 9 9 s == 0 && quiet s &&
        (List.range 128).all (fun p => !adminUp p s)) replayBegin s := by rfl

theorem exec_bypass (s : State) : exec .bypass s = jtagShift (fun s => emit (.tdo []) (loadIr .bypass s)) s := by rfl

theorem exec_idcode (s : State) :
    exec .idcode s = jtagShift (fun s => emit (.tdo (toBytes 4 Config.idcode)) (loadIr .idcode s)) s := by rfl

theorem exec_secNonce (s : State) : exec .secNonce s = plain (fun s => emit (.tdo (nonceBytes s)) (jtagOther s)) s := by rfl

theorem exec_samplePreload (v : List Bool) (s : State) :
    exec (.samplePreload v) s = plain (fun s =>
      let s := loadIr .samplePreload s
      { s with jtag := { s.jtag with boundary := v } }) s := by rfl

theorem exec_extest (s : State) : exec .extest s = plain (fun s => emit (.pins true s.jtag.boundary) (loadIr .extest s)) s := by rfl

theorem exec_clamp (s : State) : exec .clamp s = plain (fun s => emit (.pins true s.jtag.boundary) (loadIr .clamp s)) s := by rfl

theorem exec_highz (s : State) : exec .highz s = plain (fun s => emit (.pins false []) (loadIr .highz s)) s := by rfl

theorem exec_secToken (blk : List Byte) (vqps : Bool) (s : State) :
    exec (.secToken blk vqps) s = act (fun s => tokenRun blk vqps (jtagOther s)) s := by rfl

theorem exec_secUnfreeze (m : Master) (v : BitVec 32) (s : State) :
    exec (.secUnfreeze m v) s = act (secWr m (regReq m Reg.SEC_UNFREEZE (v.setWidth 64)) (unfreezeWrite (v.setWidth 64))) s := by rfl

theorem exec_bar0WindowViolation (f : Fn) (off : BitVec 28) (wr : Bool) (s : State) :
    exec (.bar0WindowViolation f off wr) s = act (windowBroken f off.toNat wr) s := by rfl

theorem halt_permitted {core : Option CoreId} {s : State} (hl : debugLevel s = 2) (hp : powerState s ≠ 2 ∨ core = none) :
    (debugLevel s == 2 && (powerState s != 2 || (core.map BitVec.toNat).isNone)) = true := by
  rw [hl]
  rcases hp with hp | rfl
  · simp [hp]
  · simp

theorem halt_refused {core : Option CoreId} {s : State} (hl : debugLevel s ≠ 2) :
    (debugLevel s == 2 && (powerState s != 2 || (core.map BitVec.toNat).isNone)) = false := by
  rw [beq_eq_false_iff_ne.2 hl, Bool.false_and]

theorem replay_refused {s : State} (hl : debugLevel s ≠ 2) :
    (debugLevel s == 2 && powerState s == 0 && rf Reg.CLK_PSTATE 9 9 s == 0 && quiet s &&
      (List.range 128).all (fun p => !adminUp p s)) = false := by
  simp only [beq_eq_false_iff_ne.2 hl, Bool.false_and]

theorem replay_permitted {s : State} (hl : debugLevel s = 2) (hp : powerState s = 0) (hb : rf Reg.CLK_PSTATE 9 9 s = 0)
    (hq : quiet s = true) (ha : ∀ p < 128, adminUp p s = false) :
    (debugLevel s == 2 && powerState s == 0 && rf Reg.CLK_PSTATE 9 9 s == 0 && quiet s &&
      (List.range 128).all (fun p => !adminUp p s)) = true := by
  have hall : (List.range 128).all (fun p => !adminUp p s) = true :=
    List.all_eq_true.2 fun p hmem => by rw [ha p (List.mem_range.1 hmem)]; rfl
  simp only [hl, hp, hb, hq, hall, beq_self_eq_true, Bool.and_self]

section Level

variable {core : Option CoreId} {on : Bool} {addr : BitVec 22} {bytes : List Byte} {s : State}

theorem halt_low (hl : debugLevel (jtagOther s) ≠ 2) :
    Does (.halt core on addr bytes) s (emit (.tdo (List.replicate 8 0xFF)) (jtagOther s)) :=
  does_debug_refused (exec_halt core on addr bytes s) (halt_refused hl)

theorem halt_invasive (hl : debugLevel (jtagOther s) = 2) (hp : powerState (jtagOther s) ≠ 2 ∨ core = none) :
    Does (.halt core on addr bytes) s
      (haltDo (core.map BitVec.toNat) on (haltWrite (core.map BitVec.toNat) addr.toNat bytes
        (if on then haltDo (core.map BitVec.toNat) true (jtagOther s) else jtagOther s))) := by
  have h := does_debug (exec_halt core on addr bytes s) (halt_permitted hl hp)
  exact h

theorem replay_low (hl : debugLevel (jtagOther s) ≠ 2) : Does .replay s (emit (.tdo (List.replicate 8 0xFF)) (jtagOther s)) :=
  does_debug_refused (exec_replay s) (replay_refused hl)

end Level

section Token

variable {blk : List Byte} {vqps : Bool} {s : State} (hf : unitFenced 140 s = false)
include hf

theorem tokenRun_busy (hgo : rf Reg.SEC_CMD 16 16 s = 1) : tokenRun blk vqps s = evcPulse 193 140 s := by
  rw [tokenRun, hf, hgo]
  rfl

theorem tokenRun_idle (hgo : rf Reg.SEC_CMD 16 16 s ≠ 1) :
    tokenRun blk vqps s = secRun (leNat ((fitBytes 328 blk).take 1)) vqps (putSecBuf (fitBytes 328 blk) s) := by
  rw [tokenRun, hf, beq_eq_false_iff_ne.2 hgo]
  rfl

end Token

/-! ### Accesses outside the window -/

section Window

variable {f : Fn} {off : Nat} {s : State}

/-- A misread of an own counter page leaves no window. -/
theorem windowCause_of_misread (h : pageMisread f.toNat off s = true) : windowCause f.toNat off false s = none := by
  simp only [pageMisread, Bool.and_eq_true, decide_eq_true_eq] at h
  obtain ⟨⟨⟨hlo, hhi⟩, hmine⟩, -⟩ := h
  have hbar : ¬off < 0x100000 := by omega
  have hdb : ¬(0x100 ≤ off / 0x10000 ∧ off / 0x10000 < 0x200) := by omega
  have hmbx : off / 0x10000 ≠ 0x200 := by omega
  have hlck : off / 0x10000 ≠ 0x300 := by omega
  simp [windowCause, hbar, hdb, hmbx, hlck, hlo, hhi, hmine]

theorem windowBroken_sec (hw : HostWrites f.toNat s) (h : secReg off = true) : windowBroken f off true s = evcPulse 193 140 s := by
  obtain ⟨⟨hreach, -⟩, -⟩ := id hw
  simp only [windowBroken, hreach, h, Bool.not_true, Bool.false_eq_true, Bool.true_and, if_true, if_false]
  rw [secIgnored, hostWr_taken hw]
  rfl

theorem windowBroken_misread (hw : HostWrites f.toNat s) (h : pageMisread f.toNat off s = true) :
    windowBroken f off false s = evcPulse 193 138 (emit (.bar0Read f.toNat off 0) s) := by
  obtain ⟨⟨hreach, hready⟩, hp2, -⟩ := hw
  have hready' : hostReadyOn (emit (.bar0Read f.toNat off 0) s) = true := hready
  have hp2' : (powerState (emit (.bar0Read f.toNat off 0) s) != 2) = true := bne_iff_ne.2 hp2
  simp only [windowBroken, hreach, h, hready', hp2', Bool.not_true, Bool.not_false, Bool.false_and, Bool.and_true,
    Bool.false_eq_true, if_true, if_false]
  rfl

/-- A function that leaves its window is frozen. -/
theorem windowBroken_freezes {wr : Bool} {src cause : Nat} (hw : HostWrites f.toNat s) (hsec : wr = true → secReg off = false)
    (hmis : wr = false → pageMisread f.toNat off s = false) (h : windowCause f.toNat off wr s = some (src, cause)) (hc : cause ≠ 2) :
    windowBroken f off wr s =
      violation src f.toNat cause (if wr then s else emit (.bar0Read f.toNat off 0) s) := by
  obtain ⟨⟨hreach, hready⟩, hp2, hfrozen⟩ := hw
  have hc : (cause == 2) = false := beq_eq_false_iff_ne.2 hc
  have hp2 : (powerState s == 2) = false := beq_eq_false_iff_ne.2 hp2
  have seen (t : State) (ht : t.regs = s.regs) : hostReadyOn t = true ∧ (powerState t == 2) = false ∧ frozen f.toNat t = false := by
    simp only [hostReadyOn, powerState, rf, frozen, rdReg_congr ht] at hready hp2 hfrozen ⊢
    exact ⟨hready, hp2, hfrozen⟩
  obtain ⟨h1, h2, h3⟩ := seen (if wr then s else emit (.bar0Read f.toNat off 0) s) (by split <;> rfl)
  have hs : (wr && secReg off) = false := by cases wr <;> simp_all
  have hm : (!wr && pageMisread f.toNat off s) = false := by cases wr <;> simp_all
  simp only [windowBroken, hreach, hs, hm, h, h1, h2, h3, hc, Bool.not_true, Bool.false_and, Bool.false_eq_true, if_false]

theorem windowBroken_inside {wr : Bool} (hsec : wr = true → secReg off = false) (hmis : wr = false → pageMisread f.toNat off s = false)
    (h : windowCause f.toNat off wr s = none) : windowBroken f off wr s = s := by
  have hs : (wr && secReg off) = false := by cases wr <;> simp_all
  have hm : (!wr && pageMisread f.toNat off s) = false := by cases wr <;> simp_all
  simp only [windowBroken, hs, hm, h, Bool.false_eq_true, if_false, ite_self]

end Window

theorem unfreezeWrite_frozen {v : BitVec 64} {s : State} (hg : bits 11 0 v ≤ 0x3FF) (hf : frozen (bits 11 0 v) s = true) :
    unfreezeWrite v s = unfreeze (bits 11 0 v) s := by
  simp [unfreezeWrite, Nat.not_lt.2 hg, hf]

theorem unfreezeWrite_other {v : BitVec 64} {s : State} (h : 0x3FF < bits 11 0 v ∨ frozen (bits 11 0 v) s = false) :
    unfreezeWrite v s = evcPulse 193 140 s := by
  simp [unfreezeWrite, h, ignored]

/-- Settles O51: each JTAG instruction, the end of a freeze and the window's violations. -/
theorem debugPortAndFreezes : Obligations.DebugPortAndFreezes := by
  intro blk vqps v off be x w core on wr addr bytes m u f src cause s t j ones pins c
  refine ⟨doesOnly_of_shift (exec_bypass s), doesOnly_of_shift (exec_idcode s), doesOnly_of_exec (exec_secNonce s) rfl,
    fun hf hgo => ?_, fun hf hgo => ?_, ?_, doesOnly_of_exec (exec_extest s) rfl, doesOnly_of_exec (exec_clamp s) rfl,
    doesOnly_of_exec (exec_highz s) rfl, fun hl ho hr => ?_, fun hl => ?_, fun hl ho hb => ?_,
    fun hl => ⟨?_, ?_, ?_⟩, fun hl hp => ⟨?_, ?_⟩, fun hl hp hb hq ha => ?_, ?_, fun h hc hsec hw => ?_, fun h hc hw => ?_,
    fun hsec hw => ?_, fun hmis hw => ?_, fun h hsec hmis => ?_⟩
  · exact does_of_exec (exec_secToken blk vqps s) (tokenRun_busy hf hgo)
  · exact does_of_exec (exec_secToken blk vqps s) (tokenRun_idle hf hgo)
  · rintro l rfl
    exact doesOnly_of_exec (exec_samplePreload v s) rfl
  · have hread := does_debug (exec_dbgRead off s) (decide_eq_true hl)
    rw [if_neg (Nat.not_lt.2 ho)] at hread
    change mgmtRead off.toNat (jtagOther s) = (w, t) at hr
    rwa [hr] at hread
  · exact does_debug_refused (exec_dbgRead off s) (decide_eq_false (by rw [show debugLevel (jtagOther s) = 0 from hl]; decide))
  · have hwrite := does_debug (exec_dbgWrite off be x s) (beq_iff_eq.2 hl)
    have hout : (decide (off.toNat < 0x08000000) || blockOff (off.toNat / 8 * 8) (jtagOther s)) = false := by
      rw [decide_eq_false (Nat.not_lt.2 ho), Bool.false_or]
      exact hb
    simpa only [hout, Bool.false_eq_true, if_false] using hwrite
  · exact does_debug_refused (exec_dbgWrite off be x s) (beq_eq_false_iff_ne.2 hl)
  · exact halt_low hl
  · exact replay_low hl
  · exact halt_invasive hl hp
  · exact halt_invasive hl hp
  · exact does_debug (exec_replay s) (replay_permitted hl hp hb hq ha)
  · intro hm g
    exact ⟨fun hg hf => does_of_exec (exec_secUnfreeze m u s) ((secWr_taken hm).trans (unfreezeWrite_frozen hg hf)),
      fun h => does_of_exec (exec_secUnfreeze m u s) ((secWr_taken hm).trans (unfreezeWrite_other h))⟩
  · exact does_of_exec (exec_bar0WindowViolation f off true s) (windowBroken_freezes hw (fun _ => hsec) (fun h => nomatch h) h hc)
  · refine does_of_exec (exec_bar0WindowViolation f off false s) (windowBroken_freezes hw (fun h => nomatch h) (fun _ => ?_) h hc)
    refine Bool.eq_false_iff.2 fun hmis => ?_
    rw [windowCause_of_misread hmis] at h
    cases h
  · exact does_of_exec (exec_bar0WindowViolation f off true s) (windowBroken_sec hw hsec)
  · exact does_of_exec (exec_bar0WindowViolation f off false s) (windowBroken_misread hw hmis)
  · exact does_of_exec (exec_bar0WindowViolation f off wr s) (windowBroken_inside hsec hmis h)

end Sys2Proof.Machine

/-! ## The time trigger of a recording (16) -/

namespace Sys2Proof.Machine

open Sys2Proof.Claims

theorem exec_ltnTimeTrigger (s : State) :
    exec .ltnTimeTrigger s = plain (fun s =>
      if rf Reg.LTN_CTRL 4 4 s == 1 && rf Reg.LTN_CTRL 6 6 s == 1 then ltnTrig 2 (reachGtime (rdReg Reg.LTN_TRIG_TIME s).toNat s)
      else s) s := by rfl

@[simp] theorem ltnEnd_now (s : State) : (ltnEnd s).now = s.now := by rfl

@[simp] theorem ltnTrig_now (cause : Nat) (s : State) : (ltnTrig cause s).now = s.now := by
  simp only [ltnTrig]
  split_ifs
  · rfl
  · rfl
  · exact ltnEnd_now _
  · rfl

/-- The clock shows the time of the trigger once GTIME, slewed as it is, has come to it. -/
theorem ltnTimeTrigger_now {s t : State} (hr : running s = true) (htime : rf Reg.LTN_CTRL 4 4 s = 1) (hgo : rf Reg.LTN_CTRL 6 6 s = 1)
    (hahead : s.gtime.toNat < (rdReg Reg.LTN_TRIG_TIME s).toNat) (h : exec .ltnTimeTrigger s = .next t) :
    t.now = s.now + gtimeWait ((rdReg Reg.LTN_TRIG_TIME s).toNat - s.gtime.toNat) s := by
  rw [exec_ltnTimeTrigger, plain_running hr] at h
  obtain rfl := Host.Outcome.next.inj h
  simp only [htime, hgo, beq_self_eq_true, Bool.and_self, if_true, ltnTrig_now]
  rw [reachGtime, if_neg (Nat.not_le.2 hahead), timePass_now]

/-- A recording with TIME_TRIG at a GTIME 62.5 us ahead, GTIME slewed by 200 ppm. -/
def recordsWhileSlewed : State :=
  withTmu (fun t => { t with slew := 3200, slewT := 1000000, slewAcc := 0, slewLeft := 1000000 })
    (setRf Reg.LTN_CTRL 4 4 1 (setRf Reg.LTN_CTRL 6 6 1 (wrReg Reg.LTN_TRIG_TIME 1000000 State.reset)))

/-- Refutes O52: TIME_TRIG is reached when GTIME has the value of LTN_TRIG_TIME (R453, R454), and GTIME slewed by 200 ppm gains 1,000,000
units in 999,801 units of time (R330, R336). The statement lets as much time pass as GTIME lacks. -/
theorem not_countersAndRecording : ¬ Obligations.CountersAndRecording := by
  intro h
  have hr : running recordsWhileSlewed = true := by decide +kernel
  have htime : rf Reg.LTN_CTRL 4 4 recordsWhileSlewed = 1 := by decide +kernel
  have hgo : rf Reg.LTN_CTRL 6 6 recordsWhileSlewed = 1 := by decide +kernel
  obtain ⟨-, -, -, htrigger, -⟩ := h 0 0 0 0 0 false 0 0 [] false 0 0 recordsWhileSlewed
  have hnow := ltnTimeTrigger_now hr htime hgo (by decide +kernel) (htrigger htime hgo hr)
  rw [ltnTrig_now, timePass_now] at hnow
  exact absurd hnow (by decide +kernel)

end Sys2Proof.Machine

/-! ## Start-up (18) -/

namespace Sys2Proof.Machine

open Sys2Proof.Claims

/-! ### What an occurrence leaves -/

/-- What depends neither on registers nor on what counting, the event log and the Lantern record change. -/
structure Unreported {β : Type} (p : State → β) : Prop where
  wrReg : ∀ o v s, p (wrReg o v s) = p s
  wrFn : ∀ f o v s, p (wrFn f o v s) = p s
  emit : ∀ o s, p (emit o s) = p s
  clk : ∀ k n s, p { s with clk := k, free := n } = p s
  log : ∀ l (s : State), p { s with mgt := { s.mgt with log := l } } = p s
  ltn : ∀ l (s : State), p { s with ltn := l } = p s

section Unreported

variable {β : Type} {p : State → β} (hp : Unreported p)
include hp

theorem Unreported.uncounted : Uncounted p := ⟨fun _ _ _ _ => hp.wrReg .., hp.wrFn, hp.emit, hp.clk⟩

theorem Unreported.setRf (o hi lo x : Nat) (s : State) : p (setRf o hi lo x s) = p s := hp.wrReg ..

theorem msixSignal_keeps {f : Nat} (hf : f < 4096) (vec : Nat) (s : State) : p (msixSignal f vec s) = p s := by
  unfold msixSignal
  cases h : msixTry f vec s with
  | none => exact evcPulse_keeps hp.uncounted ..
  | some t => exact msixTry_keeps hp.uncounted hf h

theorem ltnPut_keeps (rs : List LtnRec) (s : State) : p (ltnPut rs s) = p s := hp.ltn _ s

theorem ltnEnd_keeps (s : State) : p (ltnEnd s) = p s := by
  simp only [ltnEnd, hp.setRf]
  exact (hp.ltn _ _).trans (ltnPut_keeps hp _ s)

theorem ltnTrig_keeps (cause : Nat) (s : State) : p (ltnTrig cause s) = p s := by
  simp only [ltnTrig]
  split_ifs
  · rfl
  · exact ltnPut_keeps hp ..
  · rw [ltnEnd_keeps hp, hp.setRf]
    exact (hp.ltn _ _).trans (ltnPut_keeps hp ..)
  · rw [hp.setRf]
    exact (hp.ltn _ _).trans (ltnPut_keeps hp ..)

theorem lanternMark_keeps (src : Nat) (isl : Option Nat) (s : State) : p (lanternMark src isl s) = p s := by
  unfold lanternMark
  cases isl with
  | none => rfl
  | some i =>
    dsimp only
    split_ifs
    · exact (ltnTrig_keeps hp ..).trans (ltnPut_keeps hp ..)
    · exact ltnPut_keeps hp ..
    · exact hp.ltn ..
    · rfl

theorem mgtLog_keeps (typ : Nat) (body : List Byte) (s : State) : p (mgtLog typ body s) = p s := by
  unfold mgtLog
  split
  · exact hp.log ..
  · rfl

theorem fcuTell_keeps (isl : Option Nat) (src : Nat) (s : State) : p (fcuTell isl src s) = p s := by
  have hlog (t : State) : p (mgtLog 0x11 (leBytes 4 src) (emit (.mgtEvent src) t)) = p t := (mgtLog_keeps hp ..).trans (hp.emit ..)
  have hsend (t : State) : p ((List.range 4).foldl (fun s j =>
      if bit j (rdReg (Reg.HIF_EVROUTE + 8 * src) s) then msixSignal (0x100 * j) src s else s) t) = p t := by
    refine foldl_keeps_of_mem p (fun j hj u => ?_) t
    rw [List.mem_range] at hj
    split
    · exact msixSignal_keeps hp (by omega) ..
    · rfl
  simp only [fcuTell]
  split_ifs <;> simp only [lanternMark_keeps hp, hsend, hlog]

theorem fcuOccurIn_keeps (isl : Option Nat) (src : Nat) (s : State) : p (fcuOccurIn isl src s) = p s := by
  have hpulse : p (evcPulse src 0 s) = p s := evcPulse_keeps hp.uncounted ..
  rw [fcuOccurIn_eq]
  split
  · exact (hp.setRf ..).trans hpulse
  · rw [fcuTell_keeps hp, hp.setRf, hpulse]

theorem fcuOccur_keeps (src : Nat) (s : State) : p (fcuOccur src s) = p s := fcuOccurIn_keeps hp ..

end Unreported

theorem unreported_restart : Unreported (fun s : State => s.mgt.restart) :=
  ⟨fun _ _ _ => rfl, fun _ _ _ _ => rfl, fun _ _ => rfl, fun _ _ _ => rfl, fun _ _ => rfl, fun _ _ => rfl⟩

/-! ### The flash's operations -/

theorem flash_restart (g : Mgt → List Host.Cell) (s : State) :
    (withMgt (fun m => { m with flash := g m }) s).mgt.restart = s.mgt.restart := rfl

theorem opLeaves_restart (ok : Bool) (op : XOp) (s : State) : (opLeaves ok op s).mgt.restart = s.mgt.restart := by
  match op, ok with
  | .erase _, true | .program _ _, true => rw [opLeaves, if_pos rfl, flash_restart]
  | .erase _, false | .program _ _, false =>
    rw [opLeaves, if_neg Bool.false_ne_true]
    exact flash_restart _ _

theorem tripCut_none {s : State} (h : s.clk.trip = none) : tripCut s = s := by simp [tripCut, h]

theorem tripCut_cuts {trip : Nat} {s : State} (h : s.clk.trip = some trip) (ht : trip + us 1000 < s.now) (hx : s.mgt.xops ≠ []) :
    tripCut s = withMgt (fun m => { m with xops := [], restart := none }) (opCut s) := by
  have hgoes : (!s.mgt.xops.isEmpty) = true := by simpa using hx
  rw [tripCut, h, Option.any_some, decide_eq_true ht, hgoes]
  rfl

theorem exec_xspiOperationComplete (ok : Bool) (s : State) : exec (.xspiOperationComplete ok) s = act (opDone ok) s := by rfl

section Op

variable {op : XOp} {rest : List XOp} {s : State} (hx : s.mgt.xops = op :: rest) (hr : s.mgt.restart = none) (ht : s.clk.trip = none)
include hx hr ht

theorem opDone_good : opDone true s = startOp (withMgt (fun m => { m with xops := rest }) (opLeaves true op s)) := by
  have hkeep : (withMgt (fun m => { m with xops := rest }) (opLeaves true op s)).mgt.restart = none :=
    (opLeaves_restart true op s).trans hr
  simp only [opDone, tripCut_none ht, hx, if_true, hkeep]

theorem opDone_bad :
    opDone false s = startOp (fcuOccur 184 (withMgt (fun m => { m with xops := [], sector := none }) (opLeaves false op s))) := by
  have hkeep : (fcuOccur 184 (withMgt (fun m => { m with xops := [], sector := none }) (opLeaves false op s))).mgt.restart = none :=
    (fcuOccur_keeps unreported_restart ..).trans ((opLeaves_restart false op s).trans hr)
  simp only [opDone, tripCut_none ht, hx, Bool.false_eq_true, if_false, hkeep]

end Op

theorem opDone_cut {ok : Bool} {trip : Nat} {s : State} (h : s.clk.trip = some trip) (ht : trip + us 1000 < s.now) (hx : s.mgt.xops ≠ []) :
    opDone ok s = withMgt (fun m => { m with xops := [], restart := none }) (opCut s) := by
  rw [opDone, tripCut_cuts h ht hx]
  rfl

theorem opDone_idle {ok : Bool} {s : State} (hx : s.mgt.xops = []) : opDone ok s = s := by
  have hcut : tripCut s = s := by simp [tripCut, hx]
  simp only [opDone, hcut, hx]

/-! ### A WARM reset finds every link awake -/

theorem wakeLink_awake {l : Nat} {s : State} (h : bit 4 (rdReg (Reg.HIF_LINK + 8 * l) s) = false) : wakeLink l s = s := by
  simp [wakeLink, h]

theorem asleep_wakeLink (l k : Nat) (s : State) :
    bit 4 (rdReg (Reg.HIF_LINK + 8 * k) (wakeLink l s)) = (bit 4 (rdReg (Reg.HIF_LINK + 8 * k) s) && decide (k ≠ l)) := by
  by_cases hk : k = l
  · subst hk
    cases h : bit 4 (rdReg (Reg.HIF_LINK + 8 * k) s) with
    | false => rw [wakeLink_awake h, h, Bool.false_and]
    | true =>
      have hclear : bit 4 (setBits 4 4 0 (rdReg (Reg.HIF_LINK + 8 * k) s)) = false := by
        rw [bit_eq_getLsbD, getLsbD_setBits 4 4 0 4 _ le_rfl (by omega)]
        simp
      simp only [wakeLink, h, if_true, setRf, rdReg_wrReg_same, ne_eq, not_true, decide_false, Bool.and_false]
      rw [bit_setBits_out 15 15 1 4 _ le_rfl (by omega) (Or.inl (by omega)), hclear]
  · have hne : Reg.HIF_LINK + 8 * k ≠ Reg.HIF_LINK + 8 * l := by omega
    unfold wakeLink
    dsimp only
    split
    · rw [rdReg_setRf_ne _ _ _ _ hne, rdReg_setRf_ne _ _ _ _ hne]
      simp [hk]
    · simp [hk]

theorem awake_wakeLinks (ls : List Nat) {k : Nat} {s : State} (h : k ∈ ls ∨ bit 4 (rdReg (Reg.HIF_LINK + 8 * k) s) = false) :
    bit 4 (rdReg (Reg.HIF_LINK + 8 * k) (ls.foldl (fun s l => wakeLink l s) s)) = false := by
  induction ls generalizing s with
  | nil => simpa using h
  | cons l ls ih =>
    refine ih ?_
    rw [asleep_wakeLink]
    rcases h with hk | hk
    · rcases List.mem_cons.1 hk with rfl | hk
      · simp
      · exact .inl hk
    · simp [hk]

/-- Waking links that are awake changes nothing. -/
theorem wakeLinks_awake {ls : List Nat} {s : State} (h : ∀ k ∈ ls, bit 4 (rdReg (Reg.HIF_LINK + 8 * k) s) = false) :
    ls.foldl (fun s l => wakeLink l s) s = s := by
  induction ls with
  | nil => rfl
  | cons l ls ih =>
    rw [List.foldl_cons, wakeLink_awake (h l List.mem_cons_self)]
    exact ih fun k hk => h k (List.mem_cons_of_mem _ hk)

@[simp] theorem resetCores_regs (cs : List Nat) (s : State) : (resetCores cs s).regs = s.regs := by
  unfold resetCores
  refine foldl_keeps State.regs (fun _ _ => ?_) cs s
  rfl

@[simp] theorem resetCores_clk (cs : List Nat) (s : State) : (resetCores cs s).clk = s.clk := by
  unfold resetCores
  refine foldl_keeps State.clk (fun _ _ => ?_) cs s
  rfl

@[simp] theorem showFrozen_regs (s : State) : (showFrozen s).regs = s.regs := by
  unfold showFrozen
  exact foldl_keeps State.regs (fun s f => by split <;> rfl) _ s

@[simp] theorem showFrozen_clk (s : State) : (showFrozen s).clk = s.clk := by
  unfold showFrozen
  exact foldl_keeps State.clk (fun s f => by split <;> rfl) _ s

theorem wakeLink_clk (l : Nat) (s : State) : (wakeLink l s).clk = s.clk := by
  unfold wakeLink
  dsimp only
  split <;> rfl

/-- A WARM reset wakes every link. -/
theorem warmState_awake {l : Nat} (hl : l < 8) (s : State) : bit 4 (rdReg (Reg.HIF_LINK + 8 * l) (warmState s)) = false := by
  have hne : Reg.HIF_LINK + 8 * l ≠ Reg.MGT_BOOT := by simp only [Reg.HIF_LINK, Reg.MGT_BOOT]; omega
  rw [warmState, rdReg_congr (showFrozen_regs _), rdReg_setRf_ne _ _ _ _ hne, rdReg_congr (resetCores_regs _ _)]
  exact awake_wakeLinks _ (.inl (List.mem_range.2 hl))

theorem driveFlash_clk (s : State) : (driveFlash s).clk = s.clk := by
  unfold driveFlash
  split <;> rfl

theorem warmState_trip (s : State) : (warmState s).clk.trip = s.clk.trip := by
  have hwake (t : State) : ((List.range 8).foldl (fun s l => wakeLink l s) t).clk = t.clk :=
    foldl_keeps State.clk (fun s l => wakeLink_clk l s) _ t
  simp only [warmState, showFrozen_clk, setRf, wrReg_clk, resetCores_clk, hwake, driveFlash_clk]

/-- The pin shows P0; links that are awake stay as they are. -/
theorem showPstate_awake {s : State} (h : ∀ k ∈ List.range 8, bit 4 (rdReg (Reg.HIF_LINK + 8 * k) s) = false) (ht : s.clk.trip = none) :
    showPstate 0 s = emit (.pstateOut 0) s := by
  have hwake : (if (0 == 2) = true then s else (List.range 8).foldl (fun s l => wakeLink l s) s) = s :=
    (if_neg (by decide)).trans (wakeLinks_awake h)
  rw [showPstate, hwake, ht]
  rfl

/-- The state that a WARM reset leaves, its end a free value of at most `d` away (R484). -/
def warmUntil (d : Nat) (w : State) : State :=
  { w with free := w.free + 1, mgt := { w.mgt with warm := w.now + Config.warmTime w.free % d } }

@[simp] theorem warmUntil_regs (d : Nat) (w : State) : (warmUntil d w).regs = w.regs := by rfl

@[simp] theorem warmUntil_clk (d : Nat) (w : State) : (warmUntil d w).clk = w.clk := by rfl

/-- A WARM reset's last part, for every bound on its length. -/
theorem warmUntil_free (d : Nat) (w : State) (was : Nat) :
    (let (n, s) := fresh w
     let s := withMgt (fun m => { m with warm := s.now + Config.warmTime n % d }) s
     if s.clk.trip.isSome then domainsFollow s else if was == 0 then s else showPstate 0 s) =
      let t := warmUntil d w
      if w.clk.trip.isSome then domainsFollow t else if was == 0 then t else showPstate 0 t := by rfl

theorem warmUntil_shown {d was : Nat} {w : State} (trip : Option Nat) (ht : w.clk.trip = trip)
    (h : ∀ k ∈ List.range 8, bit 4 (rdReg (Reg.HIF_LINK + 8 * k) w) = false) :
    (if w.clk.trip.isSome then domainsFollow (warmUntil d w) else if was == 0 then warmUntil d w else showPstate 0 (warmUntil d w)) =
      if trip.isSome then domainsFollow (warmUntil d w) else if was = 0 then warmUntil d w else emit (.pstateOut 0) (warmUntil d w) := by
  rw [ht]
  cases trip with
  | some trip => rw [Option.isSome_some, if_pos rfl, if_pos rfl]
  | none =>
    have hawake (k : Nat) (hk : k ∈ List.range 8) : bit 4 (rdReg (Reg.HIF_LINK + 8 * k) (warmUntil d w)) = false := by
      rw [rdReg_congr (warmUntil_regs d w)]
      exact h k hk
    have htrip : (warmUntil d w).clk.trip = none := by rw [warmUntil_clk, ht]
    simp only [showPstate_awake hawake htrip, beq_iff_eq]

theorem warmReset_until (s : State) :
    warmReset s =
      let t := warmUntil (us 20000 + 1) (warmState s)
      if (warmState s).clk.trip.isSome then domainsFollow t else if powerState s == 0 then t else showPstate 0 t :=
  (warmReset.eq_1 s).trans (warmUntil_free (us 20000 + 1) (warmState s) (powerState s))

theorem warmReset_eq (s : State) :
    warmReset s =
      let t := warmUntil (us 20000 + 1) (warmState s)
      if s.clk.trip.isSome then domainsFollow t else if powerState s = 0 then t else emit (.pstateOut 0) t :=
  (warmReset_until s).trans (warmUntil_shown _ (warmState_trip s) fun _ hk => warmState_awake (List.mem_range.1 hk) s)

theorem restartMgt_idle {s : State} (h : s.mgt.xops = []) : restartMgt s = mgtReset 2 s := by simp [restartMgt, h]

theorem restartMgt_waits {s : State} (h : s.mgt.xops ≠ []) :
    restartMgt s = setRf Reg.MGT_RESET 1 1 1 (withMgt (fun m => { m with restart := some 2 }) s) := by
  simp [restartMgt, h]

/-! ### What a COLD reset leaves to the queue -/

theorem flash_pending (g : Mgt → List Host.Cell) (s : State) : (withMgt (fun m => { m with flash := g m }) s).pending = s.pending := rfl

theorem opLeaves_pending (ok : Bool) (op : XOp) (s : State) : (opLeaves ok op s).pending = s.pending := by
  match op, ok with
  | .erase _, true | .program _ _, true => rw [opLeaves, if_pos rfl, flash_pending]
  | .erase _, false | .program _ _, false =>
    rw [opLeaves, if_neg Bool.false_ne_true]
    exact flash_pending _ _

theorem opCut_pending (s : State) : (opCut s).pending = s.pending := by
  unfold opCut
  split
  · rfl
  · exact opLeaves_pending ..

theorem driveFlash_pending (s : State) : (driveFlash s).pending = s.pending := by
  unfold driveFlash
  split <;> rfl

theorem setStraps_pending (straps : Nat) (s : State) : (setStraps straps s).pending = s.pending := by
  unfold setStraps
  refine (foldl_keeps State.pending (fun t j => ?_) _ _).trans rfl
  split <;> rfl

theorem newNonce_pending (s : State) : (newNonce s).pending = s.pending := by rfl

theorem coldState_pending (straps : Nat) (s : State) : (coldState straps s).pending = s.pending := by
  rw [coldState, newNonce_pending, setStraps_pending, wrReg_pending, driveFlash_pending, opCut_pending]

/-! ### The commands -/

theorem exec_coldReset (straps : BitVec 10) (s : State) : exec (.coldReset straps) s = execColdReset straps s := by rfl

theorem exec_supplyReturn (s : State) : exec .supplyReturn s = execSupplyReturn s := by rfl

theorem exec_warmReset (m : Master) (s : State) : exec (.warmReset m) s = act (mgtReg m (regReq m Reg.MGT_RESET 1) warmReset) s := by rfl

theorem exec_mgtRestart (m : Master) (s : State) : exec (.mgtRestart m) s = act (mgtReg m (regReq m Reg.MGT_RESET 2) restartMgt) s := by rfl

theorem exec_hostReady (m : Master) (s : State) : exec (.hostReady m) s = act (mgtReg m (regReq m Reg.MGT_BOOT 0x80) (readyWrite m)) s := by rfl

theorem exec_selfTestComplete (u : SUnit) (pass : Bool) (s : State) :
    exec (.selfTestComplete u pass) s = act (fun s =>
      if !s.snf.tests.contains u then s
      else
        let s : State := { s with snf := { s.snf with tests := s.snf.tests.filter (· != u) } }
        if pass then s else fcuOccur (unitSource u) (fenceUnit u s)) s := by rfl

theorem exec_recoveryReselect (s : State) :
    exec .recoveryReselect s = act (fun s =>
      if rf Reg.MGT_BOOT 3 2 s == 2 && rf Reg.MGT_STRAP 6 6 s == 0 then
        setBoot (some (.try_ 0)) (setRf Reg.MGT_BOOT 3 2 0 (emit (.xspiFloats false) (advanceTo s.mgt.again s)))
      else s) s := by rfl

theorem mgtReg_taken {m : Master} {r : HeldReq} {k : State → State} {s : State} (hm : MgtWrites m s) (hj : m ≠ 0x801) (hopen : Open 141 s) :
    mgtReg m r k s = k s := by
  rw [mgtReg, if_neg (by simpa using hj), mgtWr_taken hm, cross_open hopen]

/-- A COLD reset with a rail out, or under TEST_EN, leaves a block that is held. -/
theorem coldReset_held {straps : BitVec 10} {s : State} (h : s.clk.brown ≠ [] ∨ bit 9 straps = true) :
    ∃ t, exec (.coldReset straps) s = .next t ∧ running t = false ∧ t.pending = s.pending := by
  have hpins (b : Bool) (c : State) : (resetPins b c).clk = c.clk ∧ (resetPins b c).pending = c.pending := by
    unfold resetPins
    split <;> exact ⟨rfl, rfl⟩
  rw [exec_coldReset, execColdReset]
  dsimp only
  split_ifs with hbrown htest
  · obtain ⟨hclk, hpend⟩ := hpins (bit 9 straps)
      { coldState (straps.toNat % 512) s with
        clk := { (coldState (straps.toNat % 512) s).clk with off := true, testEn := bit 9 straps, brown := s.clk.brown } }
    refine ⟨_, rfl, ?_, hpend.trans (coldState_pending _ s)⟩
    rw [running, hclk]
    rfl
  · exact ⟨_, rfl, rfl, coldState_pending _ s⟩
  · simp_all

/-- Settles O54: each command by the state that it meets. -/
theorem startUpCommands : Obligations.StartUpCommands := by
  intro straps m u op rest s st less
  refine ⟨fun hb ht => ?_, coldReset_held, fun hb ht => ?_, fun hb => ?_, fun hm hj hopen => ⟨?_, fun hx => ?_, fun hx => ?_,
    fun h8 hr => ?_,
    fun h8 hr => ?_, fun h8 => ?_⟩, fun hu => ⟨?_, ?_⟩, fun hx hr ht => ⟨?_, ?_⟩, fun trip ok ht hnow hx => ?_, fun hx ok => ?_,
    fun hb hs => ?_, fun hb => ?_⟩
  · rw [exec_coldReset, execColdReset, hb, ht]
    rfl
  · rw [exec_supplyReturn, execSupplyReturn, if_neg (by simpa using hb), ht]
    rfl
  · rw [exec_supplyReturn, execSupplyReturn, hb]
    rfl
  · exact does_of_exec (exec_warmReset m s) ((mgtReg_taken hm hj hopen).trans (warmReset_eq s))
  · exact does_of_exec (exec_mgtRestart m s) ((mgtReg_taken hm hj hopen).trans (restartMgt_idle hx))
  · exact does_of_exec (exec_mgtRestart m s) ((mgtReg_taken hm hj hopen).trans (restartMgt_waits hx))
  · exact does_of_exec (exec_hostReady m s) ((mgtReg_taken hm hj hopen).trans (by simp [readyWrite, h8, hr]))
  · exact does_of_exec (exec_hostReady m s) ((mgtReg_taken hm hj hopen).trans (by simp [readyWrite, h8, hr]))
  · exact does_of_exec (exec_hostReady m s) ((mgtReg_taken hm hj hopen).trans (if_neg (mt beq_iff_eq.1 h8)))
  · exact does_of_exec (exec_selfTestComplete u true s) (by simp [hu, less])
  · exact does_of_exec (exec_selfTestComplete u false s) (by simp [hu, less])
  · exact does_of_exec (exec_xspiOperationComplete true s) (opDone_good hx hr ht)
  · exact does_of_exec (exec_xspiOperationComplete false s) (opDone_bad hx hr ht)
  · exact does_of_exec (exec_xspiOperationComplete ok s) (opDone_cut ht hnow hx)
  · exact does_of_exec (exec_xspiOperationComplete ok s) (opDone_idle hx)
  · exact does_of_exec (exec_recoveryReselect s) (if_pos (by simp [hb, hs]))
  · exact does_of_exec (exec_recoveryReselect s) (if_neg (by simp [hb]))

end Sys2Proof.Machine

/-! ## Faults (13) -/

namespace Sys2Proof.Machine

open Sys2Proof.Claims

theorem exec_faultOccurrence (src : BitVec 8) (u : SUnit) (inj : Bool) (s : State) :
    exec (.faultOccurrence src u inj) s = execFaultOccurrence src u inj s := by rfl

theorem exec_spareInService (u : SUnit) (s : State) :
    exec (.spareInService u) s = act (fun s =>
      match s.snf.spares.find? (fun x => x.1 == u) with
      | some x => if domOn (unitDomain u) s then spareServes u x.2.1 (advanceTo x.2.2 s) else s
      | none => s) s := by rfl

theorem exec_restartComplete (src : BitVec 8) (s : State) :
    exec (.restartComplete src) s = act (fun s =>
      if s.snf.restarting.contains src.toNat then
        heldRelease (restartBack src.toNat { s with snf := { s.snf with restarting := s.snf.restarting.filter (· != src.toNat) } })
      else s) s := by rfl

theorem exec_scrub (src : BitVec 8) (n hour : BitVec 32) (s : State) :
    exec (.scrub src n hour) s = plain (fun s =>
      let c := rdReg Reg.SNF_SCRUB s
      if 192 ≤ src.toNat then s
      else
        let s := evcPulses 192 src.toNat n.toNat s
        if nz (bits 31 16 c) < hour.toNat then fcuOccur 187 s else s) s := by rfl

theorem exec_thermalWarning (s : State) : exec .thermalWarning s = plain (fcuOccur 164) s := by rfl

theorem exec_supplyOutOfRange (s : State) : exec .supplyOutOfRange s = plain (fcuOccur 165) s := by rfl

/-! ### Whether an occurrence arises -/

/-- The sources that occur by themselves (R382): not those that never occur, nor those of an access that breaks a rule. -/
def OccursItself (k : Nat) : Prop := k < 188 ∧ k ≠ 124 ∧ ¬(161 ≤ k ∧ k ≤ 163)

section Occurrence

variable {src : BitVec 8} {u : SUnit} {inj : Bool} {s : State}

theorem faultOccurrence_arises (hk : OccursItself src.toNat) (hc : canOccur src.toNat u s = true) :
    exec (.faultOccurrence src u inj) s = act (fun s =>
      if inReplay src.toNat u s then
        if Config.markRecorded s.free then { s with free := s.free + 1 } else setRf Reg.LTN_RSTAT 1 0 2 { s with free := s.free + 1 }
      else if inj then injected src.toNat u s
      else occurFull src.toNat u s) s := by
  obtain ⟨h188, h124, hprot⟩ := hk
  have hpass : (decide (188 ≤ src.toNat) || src.toNat == 124 || (decide (161 ≤ src.toNat) && decide (src.toNat ≤ 163)) ||
      !canOccur src.toNat u s) = false := by
    simp only [hc, Bool.not_true, Bool.or_false, Bool.or_eq_false_iff, decide_eq_false_iff_not, beq_eq_false_iff_ne,
      ← Bool.decide_and]
    exact ⟨⟨by omega, h124⟩, hprot⟩
  rw [exec_faultOccurrence, execFaultOccurrence, act, act]
  dsimp only
  rw [hpass]
  rfl

theorem faultOccurrence_recorded (hk : OccursItself src.toNat) (hc : canOccur src.toNat u s = true) (hr : inReplay src.toNat u s = true) :
    Does (.faultOccurrence src u inj) s
      (if Config.markRecorded s.free then { s with free := s.free + 1 } else setRf Reg.LTN_RSTAT 1 0 2 { s with free := s.free + 1 }) :=
  does_of_exec (faultOccurrence_arises hk hc) (if_pos hr)

theorem faultOccurrence_full {t : State} (hk : OccursItself src.toNat) (hc : canOccur src.toNat u s = true)
    (hr : inReplay src.toNat u s = false) (h : occurFull src.toNat u s = t) : Does (.faultOccurrence src u false) s t :=
  does_of_exec (faultOccurrence_arises hk hc) ((if_neg (ne_true_of_eq_false hr)).trans h)

theorem faultOccurrence_injected {t : State} (hk : OccursItself src.toNat) (hc : canOccur src.toNat u s = true)
    (hr : inReplay src.toNat u s = false) (h : injected src.toNat u s = t) : Does (.faultOccurrence src u true) s t :=
  does_of_exec (faultOccurrence_arises hk hc) ((if_neg (ne_true_of_eq_false hr)).trans h)

theorem faultOccurrence_none (hc : canOccur src.toNat u s = false) : Does (.faultOccurrence src u inj) s s := by
  refine does_of_exec (exec_faultOccurrence src u inj s) (if_pos ?_)
  simp only [hc, Bool.not_false, Bool.or_true]

end Occurrence

/-! ### What an occurrence does -/

section Full

variable {k : Nat} {u : SUnit} {s : State}

theorem occurFull_staging (h : k = 122 ∨ k = 129 ∨ k = 131 ∨ k = 132) : occurFull k u s = stagingFault k s := by
  refine if_pos ?_
  simpa [or_assoc] using h

/-- Every source that is not a staging queue's. -/
theorem occurFull_other (h : ¬(k = 122 ∨ k = 129 ∨ k = 131 ∨ k = 132)) :
    occurFull k u s =
      if k = 135 then gtimeDiffers s
      else if captureSource k then fcuOccur k s
      else reactions k u (wordWrong k s).1 true (fcuOccurAt k u (wordWrong k s).2) := by
  have hno : (k == 122 || k == 129 || k == 131 || k == 132) = false := by simpa [not_or, and_assoc] using h
  simp only [occurFull, hno, Bool.false_eq_true, if_false, beq_iff_eq]

theorem wordWrong_no_compare (h : hasCompare k = false) : wordWrong k s = (true, s) := by simp [wordWrong, h]

theorem injected_armed (hb : bit 31 (rdReg Reg.FCU_INJECT s) = true) (hk : bits 7 0 (rdReg Reg.FCU_INJECT s) = k) :
    injected k u s =
      if bits 33 32 (rdReg Reg.FCU_INJECT s) = 1 then evcPulse 192 k (injectCount s)
      else if k = 135 then setTmuState 1 (fcuOccur k (injectCount s))
      else if captureSource k then occurFull k u (injectCount s)
      else reactions k u (bits 33 32 (rdReg Reg.FCU_INJECT s) == 2) (bit 34 (rdReg Reg.FCU_INJECT s)) (fcuOccurAt k u (injectCount s)) := by
  simp only [injected, hb, hk, Bool.not_true, bne_self_eq_false, Bool.or_self, Bool.false_eq_true, if_false, beq_iff_eq]

theorem injected_unarmed (h : bit 31 (rdReg Reg.FCU_INJECT s) = false ∨ bits 7 0 (rdReg Reg.FCU_INJECT s) ≠ k) : injected k u s = s := by
  refine if_pos ?_
  rcases h with hb | hk
  · simp [hb]
  · simp [hk]

/-- The reactions as the statement writes them (R387, R394, R396). -/
theorem reactions_eq (word strikes : Bool) (seen : State) :
    reactions k u word strikes seen =
      let lost (x : State) : State := if word then dataLoss k u x else x
      let struck (x : State) : State := if strikes then strikeUnits k u x else x
      if 64 ≤ k ∧ k < 80 then (if isFenced u (struck seen) then struck seen else lost (struck seen)) else struck (lost seen) := by
  simp only [reactions, Bool.and_eq_true, decide_eq_true_eq]

end Full

/-- Settles O46: whether the occurrence arises, and what its source's kind makes of it. -/
theorem faultsReact : Obligations.FaultsReact := by
  intro src u n hour l due s k v occurs staging reacts
  have hreacts (word strikes : Bool) (seen : State) : reactions k u word strikes seen = reacts word strikes seen :=
    reactions_eq word strikes seen
  refine ⟨?_, fun h1 h2 h3 hc hr b => faultOccurrence_recorded ⟨h1, h2, h3⟩ hc hr, fun hc b => faultOccurrence_none hc, fun hx hd => ?_,
    fun hr => ?_, fun h192 => ⟨fun hh => ?_, fun hh => ?_⟩, doesOnly_of_exec (exec_thermalWarning s) rfl,
    doesOnly_of_exec (exec_supplyOutOfRange s) rfl⟩
  · rintro ⟨h1, h2, h3, hc, hr⟩
    have full {t : State} (h : occurFull k u s = t) : Does (.faultOccurrence src u false) s t :=
      faultOccurrence_full ⟨h1, h2, h3⟩ hc hr h
    have inject {t : State} (h : injected k u s = t) : Does (.faultOccurrence src u true) s t :=
      faultOccurrence_injected ⟨h1, h2, h3⟩ hc hr h
    refine ⟨fun hs => full (occurFull_staging hs), fun h => full ?_, fun hs h hcap => full ?_,
      fun hs h hcap word t hw => ⟨fun hno => ?_, full ?_⟩,
      fun hb hk => ⟨fun hm => inject ?_, fun hm h => inject ?_, fun hm h hcap => inject ?_, fun hm h hcap => inject ?_⟩,
      fun h => inject (injected_unarmed h)⟩
    · rw [occurFull_other (by omega), if_pos h]
    · rw [occurFull_other hs, if_neg h, if_pos hcap]
    · rw [wordWrong_no_compare hno] at hw
      obtain ⟨rfl, rfl⟩ := Prod.mk.inj hw
      exact ⟨rfl, rfl⟩
    · rw [occurFull_other hs, if_neg h, if_neg (ne_true_of_eq_false hcap), hw, hreacts]
    · rw [injected_armed hb hk, if_pos hm]
    · rw [injected_armed hb hk, if_neg hm, if_pos h]
    · rw [injected_armed hb hk, if_neg hm, if_neg h, if_pos hcap]
    · have hm : bits 33 32 (rdReg Reg.FCU_INJECT s) ≠ 1 := by
        change bits 33 32 (rdReg Reg.FCU_INJECT s) = 2 ∨ bits 33 32 (rdReg Reg.FCU_INJECT s) = 3 at hm
        omega
      rw [injected_armed hb hk, if_neg hm, if_neg h, if_neg (ne_true_of_eq_false hcap), hreacts]
  · refine does_of_exec (exec_spareInService u s) ?_
    simp only [hx, hd, if_true]
  · exact does_of_exec (exec_restartComplete src s) (if_pos (List.contains_iff_mem.2 hr))
  · refine doesOnly_of_exec (exec_scrub src n hour s) ?_
    rw [if_neg (Nat.not_le.2 h192)]
    exact if_neg (Nat.not_lt.2 hh)
  · refine doesOnly_of_exec (exec_scrub src n hour s) ?_
    rw [if_neg (Nat.not_le.2 h192)]
    exact if_pos hh

end Sys2Proof.Machine

/-! ## The host interface (17) -/

namespace Sys2Proof.Machine

open Sys2Proof.Claims

theorem exec_flr (f : Fn) (s : State) : exec (.flr f) s = act (flrSet (fun g => g == f.toNat)) s := by rfl

theorem exec_d3hotToD0 (f : Fn) (s : State) :
    exec (.d3hotToD0 f) s =
      act (fun s => if ((tget s.hif.cfg f.toNat).getD FnCfg.reset).d3hot then flrSet (fun g => g == f.toNat) s else s) s := by rfl

theorem exec_controllerReset (j : BitVec 2) (s : State) : exec (.controllerReset j) s = act (controllerDown j.toNat) s := by rfl

theorem exec_pcieLinkLoss (l : BitVec 3) (s : State) :
    exec (.pcieLinkLoss l) s = act (fun s =>
      let n := l.toNat
      if n % 2 == 0 then controllerDown (n / 2) s else halfReadsFail n (flushesFail n (halfDown (n / 2) s))) s := by rfl

theorem exec_vfEnableClear (j : BitVec 2) (s : State) : exec (.vfEnableClear j) s = act (vfClear j.toNat) s := by rfl

theorem exec_completionTimeout (r : HostReq) (s : State) :
    exec (.completionTimeout r) s = act (fun s =>
      match readFor r s with
      | none => s
      | some f => timedOut r (timeoutPass f s)) s := by rfl

theorem exec_descriptorReadComplete (f : Fn) (n : BitVec 12) (d : ReadResult) (s : State) :
    exec (.descriptorReadComplete f n d) s = act (entryReadCome f.toNat n.toNat d) s := by rfl

theorem exec_taperImageReadComplete (f : Fn) (d : ReadResult) (s : State) :
    exec (.taperImageReadComplete f d) s = act (imageCome f.toNat d) s := by rfl

theorem exec_hifWinWrite (m : Master) (f : Fn) (k : BitVec 2) (v : BitVec 64) (s : State) :
    exec (.hifWinWrite m f k v) s =
      plain (mgtWr m (cross (118 + f.toNat / 256) (regReq m (Reg.HIF_WIN + 32 * f.toNat + 8 * k.toNat) v)
        (writeWin f.toNat k.toNat v))) s := by rfl

theorem exec_hifMgtprivWrite (m : Master) (w : BitVec 32) (s : State) :
    exec (.hifMgtprivWrite m w) s =
      plain (mgtWr m (cross 118 (regReq m Reg.HIF_MGTPRIV (w.setWidth 64)) (writePriv m (w.setWidth 64)))) s := by rfl

theorem exec_msixUnmask (f : Fn) (vec : Option (BitVec 9)) (s : State) :
    exec (.msixUnmask f vec) s = act (fun s =>
      match vec with
      | some v => hostWr f.toNat 118 false (vecUnmask f.toNat v.toNat) s
      | none => if reaches f.toNat s then fnUnmask f.toNat s else s) s := by cases vec <;> rfl

theorem exec_configRequest_fn (f : Fn) (q : CfgReq) (s : State) :
    exec (.configRequest (.fn f) q) s = act (fun s =>
      if !presented f.toNat s then s
      else if enumerates (f.toNat / 256) s then cfgApply f.toNat q (emit (.config (.fn f) (some (cfgIdent f.toNat s))) s)
      else emit (.config (.fn f) none) s) s := by rfl

theorem exec_configRequest_aux (j : BitVec 2) (q : CfgReq) (s : State) :
    exec (.configRequest (.aux j) q) s = act (fun s =>
      if !auxPresent j.toNat s then s
      else if enumerates j.toNat s then auxApply j.toNat q (emit (.config (.aux j) (some auxIdent)) s)
      else emit (.config (.aux j) none) s) s := by rfl

theorem exec_enumerationTimeout (j : BitVec 2) (s : State) : exec (.enumerationTimeout j) s = execEnumerationTimeout j s := by rfl

theorem exec_perstNRelease (j : BitVec 2) (s : State) :
    exec (.perstNRelease j) s = act (fun s =>
      { s with mgt := { s.mgt with
          perst := tset s.mgt.perst j.toNat s.now, expired := s.mgt.expired.filter (· != j.toNat) } }) s := by rfl

theorem exec_pcieLinkUp (l rate : BitVec 3) (width : BitVec 5) (s : State) :
    exec (.pcieLinkUp l rate width) s = execPcieLinkUp l rate width s := by rfl

theorem exec_aspmL1Entry (l : BitVec 3) (s : State) : exec (.aspmL1Entry l) s = execAspmL1Entry l s := by rfl

theorem writeWin_bad {f k : Nat} {v : BitVec 64} {s : State} (h : winBad v = true) : writeWin f k v s = evcPulse 193 118 s := if_pos h

theorem writeWin_good {f k : Nat} {v : BitVec 64} {s : State} (h : winBad v = false) :
    writeWin f k v s = writeReg (Reg.HIF_WIN + 32 * f + 8 * k) v s := if_neg (ne_true_of_eq_false h)

/-- Only the MGT may set GRANT; clearing it is every master's. -/
theorem writePriv_eq (m : Master) (w : BitVec 32) (s : State) :
    writePriv m (w.setWidth 64) s =
      if bit 0 w = false then setRf Reg.HIF_MGTPRIV 0 0 0 s
      else if m = 0x800 then setRf Reg.HIF_MGTPRIV 0 0 1 s
      else if rf Reg.HIF_MGTPRIV 0 0 s = 1 then s
      else evcPulse 193 118 s := by
  simp only [writePriv, bit_setWidth 0 w (by omega : 32 ≤ 64), Bool.not_eq_true', beq_iff_eq, ignored]

/-- A write with poisoned data writes nothing: it is counted and reported (R471). -/
theorem registerWrite_poisoned {f : Fn} {off : BitVec 28} {be : BitVec 8} {s : State} (h : reaches f.toNat s = true) :
    Does (.registerWrite (f.setWidth 12) off be .poisoned) s (emit (.aer f.toNat) (evcPulse 193 118 s)) := by
  have hto : (f.setWidth 12 : Master).toNat = f.toNat := BitVec.toNat_setWidth_of_le (by omega)
  refine does_of_exec (f := fun s => if (f.setWidth 12 : Master).toNat < 0x400 then poisonedWrite (f.setWidth 12 : Master).toNat s else s)
    (exec_registerWrite ..) ?_
  have hlt : f.toNat < 0x400 := f.isLt
  rw [hto, if_pos hlt, poisonedWrite, if_pos h]
  rfl

/-! ### Links -/

section Link

variable {l rate : BitVec 3} {width : BitVec 5} {s : State}

theorem pcieLinkUp_trained (ht : linkTrains l.toNat s = true) (hlo : 1 ≤ rate.toNat) (hhi : rate.toNat ≤ 6) (hw : 1 ≤ width.toNat)
    (hwide : width.toNat ≤ (if bit 2 (rdReg (Reg.HIF_LINK + 8 * l.toNat) s) then 8 else 16)) :
    (!linkTrains l.toNat s || rate == 0 || rate == 7 || width == 0 ||
      decide ((if bit 2 (rdReg (Reg.HIF_LINK + 8 * l.toNat) s) then 8 else 16) < width.toNat)) = false := by
  have h0 : (rate == 0) = false := beq_eq_false_iff_ne.2 fun h => by rw [h] at hlo; exact absurd hlo (by decide)
  have h7 : (rate == 7) = false := beq_eq_false_iff_ne.2 fun h => by rw [h] at hhi; exact absurd hhi (by decide)
  have hz : (width == 0) = false := beq_eq_false_iff_ne.2 fun h => by rw [h] at hw; exact absurd hw (by decide)
  rw [ht, h0, h7, hz, decide_eq_false (Nat.not_lt.2 hwide)]
  rfl

theorem aspmL1Entry_asks (hp : powerState s = 2) (hup : rf (Reg.HIF_LINK + 8 * l.toNat) 15 15 s = 1)
    (he : (linkCfg l.toNat (256 * (l.toNat / 2)) s).l1Enable = true) (hq : ∀ x ∈ s.xlt.flushes, x.1 ≠ l.toNat) :
    (powerState s == 2 && rf (Reg.HIF_LINK + 8 * l.toNat) 15 15 s == 1 && (linkCfg l.toNat (256 * (l.toNat / 2)) s).l1Enable &&
      s.xlt.flushes.all (·.1 != l.toNat)) = true := by
  have hall : s.xlt.flushes.all (·.1 != l.toNat) = true := List.all_eq_true.2 fun x hx => bne_iff_ne.2 (hq x hx)
  simp only [hp, hup, he, hall, beq_self_eq_true, Bool.and_self]

end Link

/-- Settles O53: each command by its own guard. -/
theorem hostInterfaceCommands : Obligations.HostInterfaceCommands := by
  intro m f j l r k v w vec q off be rate width n d time s fn one cfg link
  refine ⟨does_of_exec (exec_flr f s) rfl, fun h => does_of_exec (exec_d3hotToD0 f s) (if_pos h),
    fun h => does_of_exec (exec_d3hotToD0 f s) (if_neg (ne_true_of_eq_false h)), does_of_exec (exec_controllerReset j s) rfl,
    fun h => does_of_exec (exec_pcieLinkLoss l s) (if_pos (beq_iff_eq.2 h)),
    fun h => does_of_exec (exec_pcieLinkLoss l s) (if_neg (by simp [h])), does_of_exec (exec_vfEnableClear j s) rfl,
    fun g hg => ?_, fun hg => ?_, does_of_exec (exec_descriptorReadComplete f n d s) rfl,
    does_of_exec (exec_taperImageReadComplete f d s) rfl, fun hm => ?_, fun hw => ?_, fun hr => ?_, fun hp => ⟨fun he => ?_, fun he => ?_⟩,
    fun hp => ?_, fun ha => ⟨fun he => ?_, fun he => ?_⟩, fun ha => ?_, registerWrite_poisoned, fun ht => ?_,
    does_of_exec (exec_perstNRelease j s) rfl, fun ht h1 h2 h3 h4 => ?_, fun ht => ?_, fun hp hup he hq => ?_, fun hp => ?_⟩
  · exact does_of_exec (exec_completionTimeout r s) (by simp only [hg])
  · exact does_of_exec (exec_completionTimeout r s) (by simp only [hg])
  · have win {t : State} (hopen : Open (118 + fn / 256) s) (ht : writeWin fn k.toNat v s = t) : DoesOnly (.hifWinWrite m f k v) s t :=
      doesOnly_of_exec (exec_hifWinWrite m f k v s) ((mgtWr_taken hm).trans ((cross_open hopen).trans ht))
    have priv {t : State} (hopen : Open 118 s) (ht : writePriv m (w.setWidth 64) s = t) : DoesOnly (.hifMgtprivWrite m w) s t :=
      doesOnly_of_exec (exec_hifMgtprivWrite m w s) ((mgtWr_taken hm).trans ((cross_open hopen).trans ht))
    refine ⟨fun hopen hv => win hopen (writeWin_bad hv), fun hopen hv => win hopen (writeWin_good hv),
      fun hopen hb => priv hopen ?_, fun hopen hb h8 => priv hopen ?_, fun hopen hb h8 hg => priv hopen ?_⟩
    · rw [writePriv_eq, if_pos hb]
    · rw [writePriv_eq, if_neg (ne_false_of_eq_true hb), if_pos h8]
    · rw [writePriv_eq, if_neg (ne_false_of_eq_true hb), if_neg h8, if_neg hg]
  · exact does_of_exec (exec_msixUnmask f (some vec) s) (hostWr_taken hw)
  · exact does_of_exec (exec_msixUnmask f none s) (if_pos hr)
  · refine does_of_exec (exec_configRequest_fn f q s) ?_
    rw [hp, he]
    rfl
  · refine does_of_exec (exec_configRequest_fn f q s) ?_
    rw [hp, he]
    rfl
  · refine does_of_exec (exec_configRequest_fn f q s) ?_
    rw [hp]
    rfl
  · refine does_of_exec (exec_configRequest_aux j q s) ?_
    rw [ha, he]
    rfl
  · refine does_of_exec (exec_configRequest_aux j q s) ?_
    rw [ha, he]
    rfl
  · refine does_of_exec (exec_configRequest_aux j q s) ?_
    rw [ha]
    rfl
  · intro t
    exact ⟨fun hx => does_of_exec (exec_enumerationTimeout j s) (by simp only [ht, second, List.contains_iff_mem, if_neg hx, t]),
      fun hx => does_of_exec (exec_enumerationTimeout j s) (by simp only [ht, second, List.contains_iff_mem, if_pos hx, t])⟩
  · have htrains := pcieLinkUp_trained ht h1 h2 h3 h4
    refine ⟨fun hf => does_of_exec (exec_pcieLinkUp l rate width s) ?_, fun hf => does_of_exec (exec_pcieLinkUp l rate width s) ?_⟩
    · simp only [htrains, hf, Bool.false_eq_true, if_false, beq_iff_eq]
      rfl
    · simp only [htrains, hf, Bool.false_eq_true, if_false, if_true]
      rfl
  · refine does_of_exec (exec_pcieLinkUp l rate width s) (if_pos ?_)
    simp only [ht, Bool.not_false, Bool.true_or]
  · exact does_of_exec (exec_aspmL1Entry l s) (if_pos (aspmL1Entry_asks hp hup he hq))
  · refine does_of_exec (exec_aspmL1Entry l s) (if_neg ?_)
    simp only [beq_eq_false_iff_ne.2 hp, Bool.false_and, Bool.false_eq_true, not_false_iff]

end Sys2Proof.Machine
